-- ==== Sys2Proof/Word.lean ====
section
/-! DEFINITION. The word types of the machine and its wave-wide values (R8, R22). -/

namespace Sys2Proof

/-- A 32-bit register value. -/
abbrev Word := BitVec 32

/-- A byte. -/
abbrev Byte := BitVec 8

/-- A generic address, a program counter or a 64-bit register. -/
abbrev Addr := BitVec 64

/-- Lanes of a wave (R22). -/
def laneCount : Nat := 96

/-- Slices of a wave (R22). -/
def sliceCount : Nat := 24

/-- One lane register of a wave: the word of lane l at place l. -/
abbrev Lanes := List Word

/-- A set of lanes, or a predicate register of a wave: bit l is lane l's. -/
abbrev LaneMask := BitVec 96

/-- A set of slices of a wave. -/
abbrev SliceMask := BitVec 24

/-- Lane l's word. -/
def Lanes.at_ (r : Lanes) (l : Nat) : Word := r.getD l 0

/-- The lane register with `f l` in every lane l. -/
def Lanes.build (f : Nat → Word) : Lanes := (List.range laneCount).map f

/-- The lane set of the lanes below 96 that `f` holds of. -/
def maskOf (f : Nat → Bool) : LaneMask :=
  (List.range laneCount).foldl (fun m l => if f l then m ||| (1#96 <<< l) else m) 0

/-- The slice set of the slices below 24 that `f` holds of. -/
def sliceMaskOf (f : Nat → Bool) : SliceMask :=
  (List.range sliceCount).foldl (fun m s => if f s then m ||| (1#24 <<< s) else m) 0

end Sys2Proof
end

