-- ==== Sys2Proof/Config.lean ====
section
/-! DEFINITION. What an implementation fixes and the values the spec leaves open: constants with no body, so that
nothing can be proved of their values. A counter in State makes successive uses different (log entries 4 and 5). -/

namespace Sys2Proof.Config

/-- The next undefined 32-bit value (R6), by the number of values used so far. -/
opaque freeWord : Nat → Word

/-- A byte of memory that is undefined until it is written (R6, R264), by the number it was given. -/
opaque freeByte : Nat → BitVec 8

/-- A byte of tile memory that a block finds there unwritten (R6, R267), by the block and the byte's number. -/
opaque freeTile : Nat → Nat → BitVec 8

/-- Cycles of a core before the model starts to count (R13, R148: CLOCK_CYC is not comparable between cores). -/
opaque cycleOrigin : Nat → Nat

/-- Which L2 slice of the set that R65 allows is a line's home, by memory type and line number. -/
opaque homeSlice : Nat → Nat → Nat

/-- The core of a home's own cluster that runs its combiner waves (R228), as its number in the cluster. -/
opaque pairedCore : Nat → Nat

/-- Sectors that a line stored through a leaf with COMP = 1 occupies (R66), by memory type and line number, before it is
brought within 1 to 4. -/
opaque lineSectors : Nat → Nat → Nat

/-- What an implementation's approximation of a special function gives (R170), by the minor and the source bits,
before it is brought within the bound that R170 states. -/
opaque special : Nat → Word → Word

end Sys2Proof.Config
end

