-- ==== Sys2Proof/Machine/Cells.lean ====
section
/-! DEFINITION. Sparse stores in one canonical form, keyed lists, and bit helpers. -/

namespace Sys2Proof

/-- The value at key a; an unlisted key holds d. -/
def cellGet {β : Type} (d : β) : List (Nat × β) → Nat → β
  | [], _ => d
  | (k, v) :: r, a => if k = a then v else cellGet d r a

/-- Write v at key a, keeping keys strictly rising and listing no entry equal to d. -/
def cellSet {β : Type} [DecidableEq β] (d : β) : List (Nat × β) → Nat → β → List (Nat × β)
  | [], a, v => if v = d then [] else [(a, v)]
  | (k, x) :: r, a, v =>
    if a < k then (if v = d then (k, x) :: r else (a, v) :: (k, x) :: r)
    else if a = k then (if v = d then r else (a, v) :: r)
    else (k, x) :: cellSet d r a v

/-- The canonical form: keys strictly rising, no entry equal to d. -/
def cellsWf {β : Type} [DecidableEq β] (d : β) : List (Nat × β) → Bool
  | [] => true
  | (k, v) :: r => v ≠ d && r.all (fun c => decide (k < c.1)) && cellsWf d r

/-- The n bytes from key a on, lowest key first. -/
def bytesAt (c : List (Nat × Byte)) (a : Nat) : Nat → List Byte
  | 0 => []
  | n + 1 => cellGet 0 c a :: bytesAt c (a + 1) n

/-- Store bytes from key a on. -/
def storeBytes (c : List (Nat × Byte)) (a : Nat) : List Byte → List (Nat × Byte)
  | [] => c
  | b :: r => storeBytes (cellSet 0 c a b) (a + 1) r

/-- Replace the bytes from key a on, in one pass. -/
def spliceBytes (c : List (Nat × Byte)) (a : Nat) (bs : List Byte) : List (Nat × Byte) :=
  (c.filter fun x => decide (x.1 < a)) ++ (bs.zipIdx a).filterMap (fun x => if x.1 = 0 then none else some (x.2, x.1)) ++
    c.filter fun x => decide (a + bs.length ≤ x.1)

/-- Ranges of a store whose bytes are undefined until they are written (R6): first key, length, number of the first
byte. They do not overlap, and no cell is listed in one. -/
abbrev Loose := List (Nat × Nat × Nat)

/-- The number of the undefined byte at key a, if it is one. -/
def looseAt (l : Loose) (a : Nat) : Option Nat := (l.find? fun x => x.1 ≤ a && a < x.1 + x.2.1).map fun x => x.2.2 + (a - x.1)

/-- The n bytes from key a on are defined now. -/
def cutLoose (l : Loose) (a n : Nat) : Loose :=
  if n = 0 then l
  else l.flatMap fun (x, k, i) =>
    (if x < a then [(x, min k (a - x), i)] else []) ++
      (if a + n < x + k then [(max x (a + n), x + k - max x (a + n), i + (max x (a + n) - x))] else [])

/-- The n bytes from key a on, of which the undefined ones are free values. -/
def readBytes (free : Nat → Byte) (l : Loose) (c : List (Nat × Byte)) (a n : Nat) : List Byte :=
  if l.all fun x => a + n ≤ x.1 || x.1 + x.2.1 ≤ a then bytesAt c a n
  else ((bytesAt c a n).zipIdx a).map fun x => match looseAt l x.2 with | some i => free i | none => x.1

/-- A little-endian number (R3). -/
def leNat : List Byte → Nat
  | [] => 0
  | b :: r => b.toNat + 256 * leNat r

/-- The n low bytes of a number, little-endian (R3). -/
def leBytes : Nat → Nat → List Byte
  | 0, _ => []
  | n + 1, v => BitVec.ofNat 8 v :: leBytes n (v / 256)

/-- n bytes at key a as a number. -/
def natAt (c : List (Nat × Byte)) (a n : Nat) : Nat := leNat (bytesAt c a n)

/-- Bits hi:lo of a number. -/
def bits (v hi lo : Nat) : Nat := v / 2 ^ lo % 2 ^ (hi + 1 - lo)

/-- Put a field into bits hi:lo of a number. -/
def setBits (v hi lo f : Nat) : Nat :=
  v - bits v hi lo * 2 ^ lo + (f % 2 ^ (hi + 1 - lo)) * 2 ^ lo

/-- Round up to a multiple. -/
def roundUp (v m : Nat) : Nat := (v + m - 1) / m * m

/-- Sign-extend an immediate to an address. -/
def sext64 {n : Nat} (x : BitVec n) : Addr := x.signExtend 64

/-- Change the members of a list that p picks. -/
def updWhere {α : Type} (p : α → Bool) (f : α → α) (l : List α) : List α :=
  l.map fun x => if p x then f x else x

/-- A list with only the first n of the elements that p picks, and every other element. -/
def keepFirst {α : Type} (p : α → Bool) : Nat → List α → List α
  | _, [] => []
  | n, x :: r =>
    if p x then (match n with | 0 => keepFirst p 0 r | n + 1 => x :: keepFirst p n r)
    else x :: keepFirst p n r

/-- Set place n of a list (nothing past the end). -/
def setAt {α : Type} : List α → Nat → α → List α
  | [], _, _ => []
  | _ :: r, 0, v => v :: r
  | x :: r, n + 1, v => x :: setAt r n v

/-- The lanes of a lane set, ascending (R7). -/
def LaneMask.lanes (m : LaneMask) : List Nat := (List.range laneCount).filter fun l => m.getLsbD l

/-- The lowest lane of a lane set. -/
def LaneMask.lowest (m : LaneMask) : Nat := m.lanes.headD 0

/-- Slices of a slice set, ascending. -/
def SliceMask.slices (m : SliceMask) : List Nat := (List.range sliceCount).filter fun s => m.getLsbD s

/-- The lanes of a slice set: slice s has lanes 4s to 4s + 3 (R22). -/
def SliceMask.lanes (m : SliceMask) : LaneMask := maskOf fun l => m.getLsbD (l / 4)

/-- The slices that hold lanes of a lane set. -/
def LaneMask.toSlices (m : LaneMask) : SliceMask :=
  sliceMaskOf fun s => m.getLsbD (4 * s) || m.getLsbD (4 * s + 1) || m.getLsbD (4 * s + 2) || m.getLsbD (4 * s + 3)

/-- Every slice. -/
def allSlices : SliceMask := BitVec.allOnes 24

end Sys2Proof
end

