-- ==== Sys2Proof/Machine/Float.lean ====
section
/-! DEFINITION. Number formats and rounding (R111 to R119): decoding, rounding an exact rational, encoding, flags. -/

namespace Sys2Proof

/-! ## Powers of two and roots -/

/-- 2^k. -/
def pow2 (k : Int) : Rat := if 0 ≤ k then ((2 ^ k.toNat : Nat) : Rat) else mkRat 1 (2 ^ (-k).toNat)

/-- The k for which 2^k ≤ q < 2^(k+1), for q > 0. -/
def floorLog2 (q : Rat) : Int :=
  let k : Int := (Nat.log2 q.num.natAbs : Int) - (Nat.log2 q.den : Int)
  if pow2 k ≤ q then k else k - 1

/-- |q|. -/
def ratAbs (q : Rat) : Rat := if q < 0 then -q else q

/-- The floor of the square root of n, for n below 4^b. -/
def natSqrt (b n : Nat) : Nat :=
  (List.range b).foldl (fun r k =>
    let c := r + 2 ^ (b - 1 - k)
    if c * c ≤ n then c else r) 0

/-! ## Formats (R111) -/

/-- What the highest exponent of a format is reserved for. -/
inductive TopCodes where
  /-- Infinities and NaNs, a quiet bit at the top of the fraction. -/
  | ieee
  /-- Infinities and NaNs that are all quiet (e5m2). -/
  | ieeeQuiet
  /-- Only the all-ones code is a NaN (e4m3). -/
  | oneNan
  /-- Nothing (e2m1). -/
  | finite
  deriving DecidableEq, Repr

/-- A floating-point format. -/
structure FloatFmt where
  expBits : Nat
  fracBits : Nat
  bias : Nat
  top : TopCodes
  /-- FTZ acts on it (R117). -/
  flush : Bool
  deriving DecidableEq, Repr

def f32 : FloatFmt := { expBits := 8, fracBits := 23, bias := 127, top := .ieee, flush := true }
def f16 : FloatFmt := { expBits := 5, fracBits := 10, bias := 15, top := .ieee, flush := true }
def bf16 : FloatFmt := { expBits := 8, fracBits := 7, bias := 127, top := .ieee, flush := true }
def e5m2 : FloatFmt := { expBits := 5, fracBits := 2, bias := 15, top := .ieeeQuiet, flush := false }
def e4m3 : FloatFmt := { expBits := 4, fracBits := 3, bias := 7, top := .oneNan, flush := false }
def e2m1 : FloatFmt := { expBits := 2, fracBits := 1, bias := 1, top := .finite, flush := false }

/-- The sign bit's place. -/
def FloatFmt.signBit (f : FloatFmt) : Nat := f.expBits + f.fracBits

/-- The least exponent of a normal value. -/
def FloatFmt.emin (f : FloatFmt) : Int := 1 - (f.bias : Int)

/-- The exponent of the largest finite value. -/
def FloatFmt.emax (f : FloatFmt) : Int :=
  (2 ^ f.expBits - 1 : Nat) - (f.bias : Int) -
    (match f.top with | .ieee => 1 | .ieeeQuiet => 1 | .oneNan => 0 | .finite => 0)

/-- The largest finite value. -/
def FloatFmt.largest (f : FloatFmt) : Rat :=
  let m : Nat := match f.top with | .oneNan => 2 ^ (f.fracBits + 1) - 2 | _ => 2 ^ (f.fracBits + 1) - 1
  (m : Rat) * pow2 (f.emax - f.fracBits)

/-- The canonical NaN; 0 where the format has none. -/
def FloatFmt.canonicalNan (f : FloatFmt) : Nat :=
  match f.top with
  | .ieee => (2 ^ f.expBits - 1) * 2 ^ f.fracBits + 2 ^ (f.fracBits - 1)
  | .ieeeQuiet => (2 ^ f.expBits - 1) * 2 ^ f.fracBits + 2 ^ (f.fracBits - 1)
  | .oneNan => 2 ^ f.signBit - 1
  | .finite => 0

/-- A decoded value: a NaN, an infinity, or a sign and a magnitude. -/
inductive FVal where
  | nan (signalling : Bool)
  | inf (neg : Bool)
  | fin (neg : Bool) (m : Rat)
  deriving DecidableEq, Repr

/-- The value of a code (R111, R112). -/
def FloatFmt.decode (f : FloatFmt) (code : Nat) : FVal :=
  let neg := bits code f.signBit f.signBit = 1
  let e := bits code (f.signBit - 1) f.fracBits
  let x := code % 2 ^ f.fracBits
  let top := e = 2 ^ f.expBits - 1
  let finite : FVal :=
    if e = 0 then .fin neg ((x : Rat) * pow2 (f.emin - f.fracBits))
    else .fin neg (((2 ^ f.fracBits + x : Nat) : Rat) * pow2 ((e : Int) - f.bias - f.fracBits))
  match f.top with
  | .ieee => if top then (if x = 0 then .inf neg else .nan (x < 2 ^ (f.fracBits - 1))) else finite
  | .ieeeQuiet => if top then (if x = 0 then .inf neg else .nan false) else finite
  | .oneNan => if top && x = 2 ^ f.fracBits - 1 then .nan false else finite
  | .finite => finite

/-- The code of a representable magnitude with a sign. -/
def FloatFmt.encodeFin (f : FloatFmt) (neg : Bool) (m : Rat) : Nat :=
  let s := if neg then 2 ^ f.signBit else 0
  if m = 0 then s
  else
    let e := max (floorLog2 m) f.emin
    let x := (m / pow2 (e - f.fracBits)).num.toNat
    if x < 2 ^ f.fracBits then s + x
    else s + (e + f.bias).toNat * 2 ^ f.fracBits + (x - 2 ^ f.fracBits)

/-- The code of an infinity. -/
def FloatFmt.encodeInf (f : FloatFmt) (neg : Bool) : Nat :=
  (if neg then 2 ^ f.signBit else 0) + (2 ^ f.expBits - 1) * 2 ^ f.fracBits

/-- With FTZ a subnormal operand is a zero of its sign (R117). -/
def FloatFmt.decodeFtz (f : FloatFmt) (ftz : Bool) (code : Nat) : FVal :=
  match f.decode code with
  | .fin neg m => if ftz && f.flush && m < pow2 f.emin then .fin neg 0 else .fin neg m
  | v => v

/-! ## Rounding (R116) -/

/-- Rounding modes RN, RZ, RD, RU as RM numbers them (R113). -/
abbrev RMode := Nat

/-- Round a magnitude to a whole number of quanta. -/
def roundQuanta (mode : RMode) (neg : Bool) (n : Rat) : Nat :=
  let f := n.floor.toNat
  let r := n - (f : Rat)
  let up :=
    match mode with
    | 0 => decide (mkRat 1 2 < r) || (r == mkRat 1 2 && f % 2 == 1)
    | 1 => false
    | 2 => neg && decide (0 < r)
    | _ => !neg && decide (0 < r)
  if up then f + 1 else f

/-- Round a magnitude to fmt with the exponent range unbounded above, and from `emin` below. -/
def roundFrom (f : FloatFmt) (emin : Int) (mode : RMode) (neg : Bool) (m : Rat) : Rat :=
  if m = 0 then 0
  else
    let q := pow2 (max (floorLog2 m) emin - f.fracBits)
    (roundQuanta mode neg (m / q) : Rat) * q

/-- Flags of FP_CTRL (R113). -/
def NV : Word := 0x80
def DZ : Word := 0x100
def OF : Word := 0x200
def UF : Word := 0x400
def NX : Word := 0x800
def SATF : Word := 0x1000
def LOVF : Word := 0x2000

/-- A result code and the flags it raises. -/
structure FRes where
  code : Nat
  flags : Word := 0
  deriving DecidableEq, Repr

/-- The canonical NaN, with NV if asked (R118). -/
def FloatFmt.nanRes (f : FloatFmt) (invalid : Bool) : FRes :=
  { code := f.canonicalNan, flags := if invalid then NV else 0 }

/-- Overflow of a sign under a mode gives infinity (R116); else the largest finite value. -/
def overflowsToInf (mode : RMode) (neg : Bool) : Bool :=
  match mode with
  | 0 => true
  | 1 => false
  | 2 => neg
  | _ => !neg

/-- Round an exact nonzero magnitude with a sign to f (R116, R117). -/
def FloatFmt.roundMag (f : FloatFmt) (mode : RMode) (ftz : Bool) (neg : Bool) (m : Rat) : FRes :=
  let small := decide (roundFrom f (-100000) mode neg m < pow2 f.emin)
  if ftz && f.flush && small then { code := f.encodeFin neg 0, flags := UF ||| NX }
  else
    let r := roundFrom f f.emin mode neg m
    if f.largest < r then
      { code := if overflowsToInf mode neg then f.encodeInf neg else f.encodeFin neg f.largest, flags := OF ||| NX }
    else if r = m then { code := f.encodeFin neg r }
    else { code := f.encodeFin neg r, flags := NX ||| (if small then UF else 0) }

/-- Round an exact real; an exact zero has the given sign. -/
def FloatFmt.roundRat (f : FloatFmt) (mode : RMode) (ftz : Bool) (zeroNeg : Bool) (q : Rat) : FRes :=
  if q = 0 then { code := f.encodeFin zeroNeg 0 } else f.roundMag mode ftz (q < 0) (ratAbs q)

/-- A finite value as a signed rational. -/
def signedRat (neg : Bool) (m : Rat) : Rat := if neg then -m else m

/-- The sign of an exact zero sum of operands of these signs (R116). -/
def zeroSumSign (mode : RMode) (a b : Bool) : Bool := if a = b then a else mode = 2

/-- x × y as a value and whether it is invalid; NaN operands are left to the caller. -/
def mulVal (x y : FVal) : FVal × Bool :=
  match x, y with
  | .inf a, .inf b => (.inf (a != b), false)
  | .inf a, .fin b m => if m = 0 then (.nan false, true) else (.inf (a != b), false)
  | .fin a m, .inf b => if m = 0 then (.nan false, true) else (.inf (a != b), false)
  | .fin a m, .fin b n => (.fin (a != b) (m * n), false)
  | _, _ => (.nan false, false)

def FVal.isNan : FVal → Bool
  | .nan _ => true
  | _ => false

def FVal.isSignalling : FVal → Bool
  | .nan s => s
  | _ => false

def FVal.negate : FVal → FVal
  | .inf a => .inf !a
  | .fin a m => .fin (!a) m
  | v => v

/-- Round x + y, both exact. -/
def FloatFmt.addVal (f : FloatFmt) (mode : RMode) (ftz : Bool) (x y : FVal) : FRes :=
  if x.isNan || y.isNan then f.nanRes (x.isSignalling || y.isSignalling)
  else match x, y with
  | .inf a, .inf b => if a = b then { code := f.encodeInf a } else f.nanRes true
  | .inf a, _ => { code := f.encodeInf a }
  | _, .inf b => { code := f.encodeInf b }
  | .fin a m, .fin b n => f.roundRat mode ftz (zeroSumSign mode a b) (signedRat a m + signedRat b n)
  | _, _ => f.nanRes false

/-- Round x × y. -/
def FloatFmt.mulRound (f : FloatFmt) (mode : RMode) (ftz : Bool) (x y : FVal) : FRes :=
  if x.isNan || y.isNan then f.nanRes (x.isSignalling || y.isSignalling)
  else match mulVal x y with
  | (.nan _, bad) => f.nanRes bad
  | (.inf a, _) => { code := f.encodeInf a }
  | (.fin a m, _) => f.roundRat mode ftz a (signedRat a m)

/-- Round x × y + z once (R135, R168). -/
def FloatFmt.fmaRound (f : FloatFmt) (mode : RMode) (ftz : Bool) (negProd : Bool) (x y z : FVal) : FRes :=
  let sig := x.isSignalling || y.isSignalling || z.isSignalling
  let (p, bad) := mulVal x y
  if bad then f.nanRes true
  else if x.isNan || y.isNan || z.isNan then f.nanRes sig
  else f.addVal mode ftz (if negProd then p.negate else p) z

/-- Round the exact sum of two products and z once to f32 (R172). -/
def dotRound (mode : RMode) (ftz : Bool) (x0 y0 x1 y1 z : FVal) : FRes :=
  let vs := [x0, y0, x1, y1, z]
  let (p, badp) := mulVal x0 y0
  let (q, badq) := mulVal x1 y1
  if badp || badq then f32.nanRes true
  else if vs.any FVal.isNan then f32.nanRes (vs.any FVal.isSignalling)
  else
    let infs := [p, q, z].filterMap fun v => match v with | .inf a => some a | _ => none
    match infs with
    | a :: r => if r.all fun b => b == a then { code := f32.encodeInf a } else f32.nanRes true
    | [] =>
      match p, q, z with
      | .fin a m, .fin b n, .fin c k =>
        let sum := signedRat a m + signedRat b n + signedRat c k
        let zneg := if a = b && b = c then a else mode = 2
        f32.roundRat mode ftz zneg sum
      | _, _, _ => f32.nanRes false

/-! ## Minimum, maximum and comparison (R166, R169) -/

/-- A before B, -0 before +0. -/
def ltVal (x y : FVal) : Bool :=
  match x, y with
  | .inf a, .inf b => a && !b
  | .inf a, _ => a
  | _, .inf b => !b
  | .fin a m, .fin b n => signedRat a m < signedRat b n || (m == 0 && n == 0 && a && !b)
  | _, _ => false

/-- An operand's code after any flush. -/
def FloatFmt.flushed (f : FloatFmt) (ftz : Bool) (code : Nat) : Nat :=
  match f.decodeFtz ftz code with
  | .fin neg m => if m = 0 then f.encodeFin neg 0 else code
  | _ => code

/-- minimumNumber or maximumNumber; with `strict`, minimum or maximum (R166). -/
def FloatFmt.pick (f : FloatFmt) (ftz strict wantMax : Bool) (a b : Nat) : FRes :=
  let x := f.decodeFtz ftz a
  let y := f.decodeFtz ftz b
  let fl := if x.isSignalling || y.isSignalling then NV else 0
  let c := f.flushed ftz a
  let d := f.flushed ftz b
  if x.isNan && y.isNan || (strict && (x.isNan || y.isNan)) then { code := f.canonicalNan, flags := fl }
  else if x.isNan then { code := d, flags := fl }
  else if y.isNan then { code := c, flags := fl }
  else { code := if wantMax then (if ltVal x y then d else c) else (if ltVal y x then d else c), flags := fl }

/-- Equality of values; -0 equals +0. -/
def eqVal (x y : FVal) : Bool :=
  match x, y with
  | .inf a, .inf b => a == b
  | .fin a m, .fin b n => m == n && (a == b || m == 0)
  | _, _ => false

/-- A below B; -0 equals +0. -/
def belowVal (x y : FVal) : Bool := ltVal x y && !eqVal x y

/-! ## Conversions (R119) -/

/-- A conversion of f32 to a narrower format. `sat` says whether it saturates. -/
def FloatFmt.narrow (f : FloatFmt) (mode : RMode) (ftz sat : Bool) (x : FVal) : FRes :=
  match x with
  | .nan s => { code := f.canonicalNan, flags := if s || f.top == .finite then NV else 0 }
  | .inf neg =>
    if sat then { code := f.encodeFin neg f.largest, flags := SATF ||| NX }
    else match f.top with
    | .oneNan => { code := f.canonicalNan, flags := OF ||| NX }
    | _ => { code := f.encodeInf neg }
  | .fin neg m =>
    if m = 0 then { code := f.encodeFin neg 0 }
    else if f.largest < roundFrom f f.emin mode neg m then
      if sat then { code := f.encodeFin neg f.largest, flags := SATF ||| NX }
      else match f.top with
      | .oneNan => if overflowsToInf mode neg then { code := f.canonicalNan, flags := OF ||| NX }
                   else { code := f.encodeFin neg f.largest, flags := OF ||| NX }
      | _ => f.roundMag mode ftz neg m
    else f.roundMag mode ftz neg m

/-- A conversion to f32 of a narrower format: exact. -/
def FloatFmt.widen (f : FloatFmt) (ftz : Bool) (x : FVal) : FRes :=
  match x with
  | .nan s => f32.nanRes s
  | .inf neg => { code := f32.encodeInf neg }
  | .fin neg m => if m = 0 then { code := f32.encodeFin neg 0 } else f32.roundMag 0 (ftz && f.flush) neg m

/-- A conversion to an integer between lo and hi. -/
def toInteger (mode : RMode) (lo hi : Int) (x : FVal) : Int × Word :=
  match x with
  | .nan _ => (0, NV)
  | .inf neg => (if neg then lo else hi, NV)
  | .fin neg m =>
    let r := roundQuanta mode neg m
    let v : Int := if neg then -(r : Int) else r
    if v < lo then (lo, NV) else if hi < v then (hi, NV)
    else (v, if (r : Rat) = m then 0 else NX)

/-- A rounding to a format that keeps subnormals, RN and no flag (R117: engines, atomics and Madder methods). -/
def FloatFmt.plain (f : FloatFmt) (zeroNeg : Bool) (q : Rat) : Nat := (f.roundRat 0 false zeroNeg q).code

/-- The f32 sum with one RN rounding and subnormals kept (R95, R135). -/
def addF32Plain (a b : Word) : Word :=
  BitVec.ofNat 32 (f32.addVal 0 false (f32.decode a.toNat) (f32.decode b.toNat)).code

end Sys2Proof
end

