-- ==== Sys2Proof/Syntax.lean ====
section
/-! DEFINITION. The instruction set: the decoded fields of a wave instruction (R136 to R142), the parameters of the
device events, and the one inductive `Instr` with a constructor for every row of spec/opcode_table.json. -/

namespace Sys2Proof

/-- The fields of a generic extension word (R138). -/
structure Ext where
  /-- Third source register. -/
  c : BitVec 6
  /-- Predicate number; 7 in the group set. -/
  pr : BitVec 3
  /-- The predicate is negated. -/
  pn : Bool
  /-- Empty mode of the source in A: false waits, true traps. -/
  ea : Bool
  /-- Empty mode of the source in B. -/
  eb : Bool
  /-- Empty mode of the source in C. -/
  ec : Bool
  /-- Modifier. -/
  mod : BitVec 3
  /-- Immediate. -/
  imm : BitVec 16
  deriving DecidableEq, Repr

/-- What an instruction without an extension word behaves as if it carried (R139). -/
def Ext.default : Ext :=
  { c := 0, pr := 7, pn := false, ea := false, eb := false, ec := false, mod := 0, imm := 0 }

/-- The fields of an LR or GR form (R137) with its extension word, if it carries one. -/
structure Opnd where
  d : BitVec 6
  a : BitVec 6
  b : BitVec 6
  x : Option Ext
  deriving DecidableEq, Repr

/-- The extension fields in force (R139). -/
def Opnd.ext (o : Opnd) : Ext := o.x.getD Ext.default

/-- The fields of an LI or GI form (R137). -/
structure OpndI where
  d : BitVec 6
  a : BitVec 6
  imm : BitVec 12
  deriving DecidableEq, Repr

/-- The fields of a GLIT instruction, whose extension word is a literal (R138, R188). -/
structure OpndLit where
  d : BitVec 6
  a : BitVec 6
  b : BitVec 6
  lit : Word
  deriving DecidableEq, Repr

/-- A wave: the crew it belongs to (a number the device gives each crew), the rank of its block and its index there. -/
structure WaveRef where
  crew : Nat
  rank : Nat
  wave : Nat
  deriving DecidableEq, Repr

/-- A core by span, logical cluster and core within the cluster (R11). -/
structure CoreAt where
  span : Fin 8
  cluster : Fin 12
  core : Fin 8
  deriving DecidableEq, Repr

/-- What bring-up learns from outside the device (R303, R308): the stepping and the defect map from the fuses,
the port roles from the board configuration, and which ports' nodes administer which partition (R302): bit
4p + k for partition p and port k. -/
structure BringupInput where
  stepping : BitVec 16
  defsig : BitVec 32
  portRole : BitVec 8
  admin : BitVec 32
  deriving DecidableEq, Repr

/-- What ages (R294): taken work, by its sequence number, or the head of a queue. -/
inductive AgeTarget where
  | work (seq : Nat)
  | queueHead (q : Fin 2048)
  deriving DecidableEq, Repr

/-- The read-modify-writes of ATOM and of the built-in Madder methods (R222, R227). -/
inductive AtomOp where
  | addS32 | addS64 | addF32 | minS32 | maxS32 | minN32 | maxN32 | and | or | xor | exch | inc
  deriving DecidableEq, Repr

/-- Where an access that arrives over a port goes: a physical address (a host), or a GLOBAL address (a peer, R305)
translated in the context that the control node has assigned to the port: a partition, and the memory type and address
of a context record. -/
inductive PortTarget where
  | phys (mt : Fin 13) (pa : Nat)
  | global (p : Fin 8) (mt : Fin 13) (record : Nat) (a : BitVec 64)
  deriving DecidableEq, Repr

/-- What an incoming access does (R305). -/
inductive PortOp where
  | read (size : Nat)
  | write (data : List (BitVec 8)) (poisoned : Bool)
  | atomic (op : AtomOp) (operand : BitVec 64)
  deriving DecidableEq, Repr

/-- One access arriving in flits through a port (R304, R305). -/
structure PortAccess where
  target : PortTarget
  op : PortOp
  deriving DecidableEq, Repr

/-- What a protected read found (R394). -/
inductive ReadError where
  | none | corrected | uncorrectable
  deriving DecidableEq, Repr

/-- An error in a protected array (R393), by the array it lies in and whether it was correctable. -/
inductive ArrayErr where
  /-- A corrected error, charged to a partition's count (R394, R395). -/
  | corrected (p : Fin 8)
  /-- A memory codeword found bad on a read made for a context, with the KIND of the access (R333). -/
  | memory (codeword : Nat) (ctag : BitVec 16) (kind : Fin 6)
  /-- A clean L2 line: refetched. -/
  | l2Clean (line : Nat)
  /-- One sector of a dirty L2 line, found bad on a read made for a context. -/
  | l2Dirty (line : Nat) (sector : Fin 4) (ctag : BitVec 16) (kind : Fin 6)
  /-- L2 superblock or dirty-owner tags. -/
  | l2Tag (p : Fin 8)
  /-- L1, instruction cache or TLB parity on a core: refetched. -/
  | refetch (at_ : CoreAt)
  /-- Register file of a wave. -/
  | registers (w : WaveRef)
  /-- Accumulators of a block. -/
  | accumulators (crew : Nat) (rank : Nat)
  /-- Control area of a block. -/
  | tileControl (crew : Nat) (rank : Nat)
  /-- A 16-byte unit of a block's program range, by its offset. -/
  | tileProgram (crew : Nat) (rank : Nat) (off : Nat) (kind : Fin 6)
  /-- Batch buffer of the running batch of an object. -/
  | batchBuffer (line : Nat)
  /-- Staging buffer of an engine command. -/
  | engineBuffer (crew : Nat) (rank : Nat) (rec : Fin 16)
  /-- Reservation state of a partition's list engine. -/
  | listEngine (p : Fin 8)
  /-- A fault-buffer entry. -/
  | faultEntry (cluster : Fin 96) (entry : Fin 8)
  /-- A flit that one of at most 8 retransmissions delivered. -/
  | flit (port : Fin 4)
  /-- Front end, broker, event counters, queue or partition registers. -/
  | frontEnd (p : Fin 8)
  /-- Controller or fabric routing state. -/
  | controller
  deriving DecidableEq, Repr

/-- The instructions and the device events of spec/opcode_table.json, one constructor for each row of the table,
in its order. A wave instruction carries its decoded fields; a device event carries what it acts on. -/
inductive Instr where
  /-- POWER_ON_BRINGUP (R308). -/
  | powerOnBringup (b : BringupInput)
  /-- CONTROL_REGISTER_WRITE (R302). -/
  | controlRegisterWrite (port : Fin 4) (off : BitVec 26) (wide : Bool) (value : BitVec 64)
  /-- PARTITION_RESET (R307). -/
  | partitionReset (port : Fin 4) (p : Fin 8)
  /-- PARTITION_RESIZE (R307). -/
  | partitionResize (port : Fin 4) (p : Fin 8) (newSpans : BitVec 8)
  /-- PARTITION_START (R307). -/
  | partitionStart (port : Fin 4) (p : Fin 8)
  /-- QUEUE_ENABLE (R286). -/
  | queueEnable (port : Fin 4) (q : Fin 2048) (ctl : BitVec 32)
  /-- DOORBELL (R286). -/
  | doorbell (port : Fin 4) (q : Fin 2048) (wr : BitVec 32)
  /-- TAKE_LAUNCH (R289). -/
  | takeLaunch (q : Fin 2048)
  /-- TAKE_RENDERPASS (R290). -/
  | takeRenderpass (q : Fin 2048)
  /-- TAKE_GRAPH (R290). -/
  | takeGraph (q : Fin 2048)
  /-- TAKE_WAITEVENT (R290). -/
  | takeWaitevent (q : Fin 2048)
  /-- TAKE_SIGNAL (R290). -/
  | takeSignal (q : Fin 2048)
  /-- TAKE_BARRIER (R290). -/
  | takeBarrier (q : Fin 2048)
  /-- DEPENDENCE_SATISFIED (R290). -/
  | dependenceSatisfied (seq : Nat)
  /-- EVENT_COUNTER_WRITE (R291). -/
  | eventCounterWrite (port : Fin 4) (p : Fin 8) (e : Nat) (value : BitVec 64)
  /-- WORK_COMPLETION (R290). -/
  | workCompletion (seq : Nat)
  /-- CREW_PLACEMENT (R293). -/
  | crewPlacement (at_ : CoreAt)
  /-- PRIORITY_AGING (R294). -/
  | priorityAging (target : AgeTarget)
  /-- PLACEMENT_WAIT_TIMEOUT (R295). -/
  | placementWaitTimeout (span : Fin 8)
  /-- PREEMPTION_REQUEST (R40). -/
  | preemptionRequest (crew : Nat)
  /-- SAFE_POINT_TIMEOUT (R40). -/
  | safePointTimeout (crew : Nat)
  /-- CREW_SAVE (R40). -/
  | crewSave (crew : Nat)
  /-- CREW_RESUME (R41). -/
  | crewResume (crew : Nat) (at_ : CoreAt)
  /-- PHASE_START (R38). -/
  | phaseStart (crew : Nat) (rank : Nat)
  /-- PRODUCER_LANDING (R143). -/
  | producerLanding (w : WaveRef) (n : Nat)
  /-- REGANG_BAND_READY (R27). -/
  | regangBandReady (w : WaveRef)
  /-- QUEUE_WAIT_PERFORMED (R209). -/
  | queueWaitPerformed (w : WaveRef) (gang : Nat)
  /-- WAIT_CONDITION_MET (R201). -/
  | waitConditionMet (w : WaveRef) (gang : Nat)
  /-- WAIT_TIMEOUT (R201). -/
  | waitTimeout (w : WaveRef) (gang : Nat)
  /-- ACQACC_GRANT (R246). -/
  | acqaccGrant (w : WaveRef) (gang : Nat)
  /-- RECALLOC_GRANT (R298). -/
  | recallocGrant (w : WaveRef) (gang : Nat)
  /-- ASYNC_TRAP_DELIVERY (R354). -/
  | asyncTrapDelivery (w : WaveRef)
  /-- TRANSLATION_VECTOR (R336). -/
  | translationVector (w : WaveRef)
  /-- FAULT_ENTRY_WALK (R335). -/
  | faultEntryWalk (cluster : Fin 96) (entry : Fin 8)
  /-- FAULT_REPRESENT (R340). -/
  | faultRepresent (cluster : Fin 96)
  /-- FAULT_RECORD_POST (R342). -/
  | faultRecordPost (p : Fin 8)
  /-- FRES_RETRY (R343). -/
  | fresRetry (port : Fin 4) (p : Fin 8) (value : BitVec 32)
  /-- FRES_FAIL (R343). -/
  | fresFail (port : Fin 4) (p : Fin 8) (value : BitVec 32)
  /-- LOADER_CHECK (R413). -/
  | loaderCheck (port : Fin 4)
  /-- MERR_CLEAR (R404). -/
  | merrClear (port : Fin 4)
  /-- PORT_INCOMING_ACCESS (R305). -/
  | portIncomingAccess (port : Fin 4) (a : PortAccess)
  /-- PORT_LINK_DOWN (R403). -/
  | portLinkDown (port : Fin 4)
  /-- MODULE_ERROR (R404). -/
  | moduleError (therm : Bool)
  /-- PATROL_READ (R394). -/
  | patrolRead (codeword : Nat) (err : ReadError)
  /-- L2_WRITEBACK (R400). -/
  | l2Writeback (line : Nat) (badSectors : BitVec 4)
  /-- ENGINE_UNIT_TRANSFER (R234). -/
  | engineUnitTransfer (crew : Nat) (rank : Nat) (rec : Fin 16) (unit : Nat)
  /-- MADDER_REQUEST_ARRIVAL (R228). -/
  | madderRequestArrival (n : Nat)
  /-- MADDER_BATCH_LAUNCH (R228). -/
  | madderBatchLaunch (line : Nat)
  /-- MADDER_WINDOW_EXPIRY (R228). -/
  | madderWindowExpiry (line : Nat)
  /-- COMBINER_WAVE_START (R229). -/
  | combinerWaveStart (line : Nat)
  /-- GRAPH_BATCH_LAUNCH (R299). -/
  | graphBatchLaunch (seq : Nat) (node : Nat)
  /-- GRAPH_BATCH_TIMEOUT (R299). -/
  | graphBatchTimeout (seq : Nat) (node : Nat)
  /-- RENDER_PASS_START (R270). -/
  | renderPassStart (p : Fin 8)
  /-- PRIMITIVE_COMMIT (R273). -/
  | primitiveCommit (p : Fin 8)
  /-- POOL_RESET (R276). -/
  | poolReset (p : Fin 8)
  /-- BROKER_ISSUE_PASS (R279). -/
  | brokerIssuePass (p : Fin 8) (at_ : CoreAt)
  /-- FINAL_ROUND_START (R279). -/
  | finalRoundStart (p : Fin 8)
  /-- PASS_LOAD (R281). -/
  | passLoad (crew : Nat)
  /-- PASS_VISIBILITY (R282). -/
  | passVisibility (crew : Nat)
  /-- PASS_GBUFFER (R283). -/
  | passGbuffer (crew : Nat)
  /-- PASS_SHADING (R281). -/
  | passShading (crew : Nat)
  /-- PASS_RESOLVE (R281). -/
  | passResolve (crew : Nat)
  /-- RESUME_STORE (R277). -/
  | resumeStore (crew : Nat)
  /-- TILE_SPILL (R280). -/
  | tileSpill (crew : Nat)
  /-- PASS_RESTART (R390). -/
  | passRestart (crew : Nat)
  /-- WOAD_ROUND_COMMIT (R108). -/
  | woadRoundCommit (p : Fin 8)
  /-- IADD (R158). -/
  | iadd (o : Opnd)
  /-- ISUB (R158). -/
  | isub (o : Opnd)
  /-- IMUL (R158). -/
  | imul (o : Opnd)
  /-- IMULH_S32 (R158). -/
  | imulhS32 (o : Opnd)
  /-- IMULH_N32 (R158). -/
  | imulhN32 (o : Opnd)
  /-- IMIN_S32 (R158). -/
  | iminS32 (o : Opnd)
  /-- IMIN_N32 (R158). -/
  | iminN32 (o : Opnd)
  /-- IMAX_S32 (R158). -/
  | imaxS32 (o : Opnd)
  /-- IMAX_N32 (R158). -/
  | imaxN32 (o : Opnd)
  /-- IABS (R158). -/
  | iabs (o : Opnd)
  /-- INEG (R158). -/
  | ineg (o : Opnd)
  /-- IADD64 (R158). -/
  | iadd64 (o : Opnd)
  /-- ISUB64 (R158). -/
  | isub64 (o : Opnd)
  /-- IMULW_S32 (R158). -/
  | imulwS32 (o : Opnd)
  /-- IMULW_N32 (R158). -/
  | imulwN32 (o : Opnd)
  /-- IADDI (R159). -/
  | iaddi (o : OpndI)
  /-- ANDI (R159). -/
  | andi (o : OpndI)
  /-- ORI (R159). -/
  | ori (o : OpndI)
  /-- XORI (R159). -/
  | xori (o : OpndI)
  /-- AND (R161). -/
  | and (o : Opnd)
  /-- OR (R161). -/
  | or (o : Opnd)
  /-- XOR (R161). -/
  | xor (o : Opnd)
  /-- ANDN (R161). -/
  | andn (o : Opnd)
  /-- ORN (R161). -/
  | orn (o : Opnd)
  /-- XNOR (R161). -/
  | xnor (o : Opnd)
  /-- NOT (R161). -/
  | not (o : Opnd)
  /-- SHL (R161). -/
  | shl (o : Opnd)
  /-- SHR (R161). -/
  | shr (o : Opnd)
  /-- SAR (R161). -/
  | sar (o : Opnd)
  /-- ROTL (R161). -/
  | rotl (o : Opnd)
  /-- ROTR (R161). -/
  | rotr (o : Opnd)
  /-- SHLI (R161). -/
  | shli (o : Opnd)
  /-- SHRI (R161). -/
  | shri (o : Opnd)
  /-- SARI (R161). -/
  | sari (o : Opnd)
  /-- BFX_S32 (R162). -/
  | bfxS32 (o : Opnd)
  /-- BFX_N32 (R162). -/
  | bfxN32 (o : Opnd)
  /-- BFI (R162). -/
  | bfi (o : Opnd)
  /-- POPC (R161). -/
  | popc (o : Opnd)
  /-- CLZ (R161). -/
  | clz (o : Opnd)
  /-- CTZ (R161). -/
  | ctz (o : Opnd)
  /-- BREV (R161). -/
  | brev (o : Opnd)
  /-- PERMB (R162). -/
  | permb (o : Opnd)
  /-- IMAD (R160). -/
  | imad (o : Opnd)
  /-- IMADH_S32 (R160). -/
  | imadhS32 (o : Opnd)
  /-- IMADH_N32 (R160). -/
  | imadhN32 (o : Opnd)
  /-- IMADW_S32 (R160). -/
  | imadwS32 (o : Opnd)
  /-- IMADW_N32 (R160). -/
  | imadwN32 (o : Opnd)
  /-- ICMP_EQ (R163). -/
  | icmpEq (o : Opnd)
  /-- ICMP_NE (R163). -/
  | icmpNe (o : Opnd)
  /-- ICMP_LT_S32 (R163). -/
  | icmpLtS32 (o : Opnd)
  /-- ICMP_LE_S32 (R163). -/
  | icmpLeS32 (o : Opnd)
  /-- ICMP_GT_S32 (R163). -/
  | icmpGtS32 (o : Opnd)
  /-- ICMP_GE_S32 (R163). -/
  | icmpGeS32 (o : Opnd)
  /-- ICMP_LT_N32 (R163). -/
  | icmpLtN32 (o : Opnd)
  /-- ICMP_LE_N32 (R163). -/
  | icmpLeN32 (o : Opnd)
  /-- ICMP_GT_N32 (R163). -/
  | icmpGtN32 (o : Opnd)
  /-- ICMP_GE_N32 (R163). -/
  | icmpGeN32 (o : Opnd)
  /-- SEL (R164). -/
  | sel (o : Opnd)
  /-- FADD (R165). -/
  | fadd (o : Opnd)
  /-- FSUB (R165). -/
  | fsub (o : Opnd)
  /-- FMUL (R165). -/
  | fmul (o : Opnd)
  /-- FMIN (R166). -/
  | fmin (o : Opnd)
  /-- FMAX (R166). -/
  | fmax (o : Opnd)
  /-- FMINM (R166). -/
  | fminm (o : Opnd)
  /-- FMAXM (R166). -/
  | fmaxm (o : Opnd)
  /-- FABS (R165). -/
  | fabs (o : Opnd)
  /-- FNEG (R165). -/
  | fneg (o : Opnd)
  /-- FCOPYSIGN (R165). -/
  | fcopysign (o : Opnd)
  /-- FRND_RN (R167). -/
  | frndRn (o : Opnd)
  /-- FRND_RZ (R167). -/
  | frndRz (o : Opnd)
  /-- FRND_RD (R167). -/
  | frndRd (o : Opnd)
  /-- FRND_RU (R167). -/
  | frndRu (o : Opnd)
  /-- FFRACT (R167). -/
  | ffract (o : Opnd)
  /-- FCLASS (R167). -/
  | fclass (o : Opnd)
  /-- FFMA (R168). -/
  | ffma (o : Opnd)
  /-- FFMS (R168). -/
  | ffms (o : Opnd)
  /-- FFNMA (R168). -/
  | ffnma (o : Opnd)
  /-- FFNMS (R168). -/
  | ffnms (o : Opnd)
  /-- FCMP_EQ (R169). -/
  | fcmpEq (o : Opnd)
  /-- FCMP_NE (R169). -/
  | fcmpNe (o : Opnd)
  /-- FCMP_LT (R169). -/
  | fcmpLt (o : Opnd)
  /-- FCMP_LE (R169). -/
  | fcmpLe (o : Opnd)
  /-- FCMP_GT (R169). -/
  | fcmpGt (o : Opnd)
  /-- FCMP_GE (R169). -/
  | fcmpGe (o : Opnd)
  /-- FCMP_ORD (R169). -/
  | fcmpOrd (o : Opnd)
  /-- FCMP_UNORD (R169). -/
  | fcmpUnord (o : Opnd)
  /-- FRCP (R170). -/
  | frcp (o : Opnd)
  /-- FRSQ (R170). -/
  | frsq (o : Opnd)
  /-- FSQRT (R170). -/
  | fsqrt (o : Opnd)
  /-- FEXP2 (R170). -/
  | fexp2 (o : Opnd)
  /-- FLOG2 (R170). -/
  | flog2 (o : Opnd)
  /-- FSIN (R170). -/
  | fsin (o : Opnd)
  /-- FCOS (R170). -/
  | fcos (o : Opnd)
  /-- FTANH (R170). -/
  | ftanh (o : Opnd)
  /-- FSIGM (R170). -/
  | fsigm (o : Opnd)
  /-- HADD2_F16 (R171). -/
  | hadd2F16 (o : Opnd)
  /-- HMUL2_F16 (R171). -/
  | hmul2F16 (o : Opnd)
  /-- HMIN2_F16 (R171). -/
  | hmin2F16 (o : Opnd)
  /-- HMAX2_F16 (R171). -/
  | hmax2F16 (o : Opnd)
  /-- HADD2_BF16 (R171). -/
  | hadd2Bf16 (o : Opnd)
  /-- HMUL2_BF16 (R171). -/
  | hmul2Bf16 (o : Opnd)
  /-- HMIN2_BF16 (R171). -/
  | hmin2Bf16 (o : Opnd)
  /-- HMAX2_BF16 (R171). -/
  | hmax2Bf16 (o : Opnd)
  /-- HFMA2_F16 (R172). -/
  | hfma2F16 (o : Opnd)
  /-- HFMA2_BF16 (R172). -/
  | hfma2Bf16 (o : Opnd)
  /-- HDOT2_F16 (R172). -/
  | hdot2F16 (o : Opnd)
  /-- HDOT2_BF16 (R172). -/
  | hdot2Bf16 (o : Opnd)
  /-- CVT_F32_S32 (R173). -/
  | cvtF32S32 (o : Opnd)
  /-- CVT_F32_N32 (R173). -/
  | cvtF32N32 (o : Opnd)
  /-- CVT_S32_F32 (R173). -/
  | cvtS32F32 (o : Opnd)
  /-- CVT_N32_F32 (R173). -/
  | cvtN32F32 (o : Opnd)
  /-- CVT_F16_F32 (R173). -/
  | cvtF16F32 (o : Opnd)
  /-- CVT_BF16_F32 (R173). -/
  | cvtBf16F32 (o : Opnd)
  /-- CVT_F32_F16 (R173). -/
  | cvtF32F16 (o : Opnd)
  /-- CVT_F32_BF16 (R173). -/
  | cvtF32Bf16 (o : Opnd)
  /-- CVT_E4M3_F32 (R173). -/
  | cvtE4m3F32 (o : Opnd)
  /-- CVT_E5M2_F32 (R173). -/
  | cvtE5m2F32 (o : Opnd)
  /-- CVT_F32_E4M3 (R173). -/
  | cvtF32E4m3 (o : Opnd)
  /-- CVT_F32_E5M2 (R173). -/
  | cvtF32E5m2 (o : Opnd)
  /-- CVT_E2M1_F32 (R173). -/
  | cvtE2m1F32 (o : Opnd)
  /-- CVT_F32_E2M1 (R173). -/
  | cvtF32E2m1 (o : Opnd)
  /-- QLAT_X2 (R175). -/
  | qlatX2 (o : Opnd)
  /-- QLAT_X4 (R175). -/
  | qlatX4 (o : Opnd)
  /-- DLAT_X2 (R175). -/
  | dlatX2 (o : Opnd)
  /-- DLAT_X4 (R175). -/
  | dlatX4 (o : Opnd)
  /-- LATERR (R175). -/
  | laterr (o : Opnd)
  /-- SHFL_IDX (R177). -/
  | shflIdx (o : Opnd)
  /-- SHFL_UP (R177). -/
  | shflUp (o : Opnd)
  /-- SHFL_DOWN (R177). -/
  | shflDown (o : Opnd)
  /-- SHFL_XOR (R177). -/
  | shflXor (o : Opnd)
  /-- PUSHL (R178). -/
  | pushl (o : Opnd)
  /-- LRED_ADD_S32 (R179). -/
  | lredAddS32 (o : Opnd)
  /-- LRED_ADD_F32 (R179). -/
  | lredAddF32 (o : Opnd)
  /-- LRED_MIN_S32 (R179). -/
  | lredMinS32 (o : Opnd)
  /-- LRED_MAX_S32 (R179). -/
  | lredMaxS32 (o : Opnd)
  /-- LRED_MIN_F32 (R179). -/
  | lredMinF32 (o : Opnd)
  /-- LRED_MAX_F32 (R179). -/
  | lredMaxF32 (o : Opnd)
  /-- SCAN_ADD_S32 (R179). -/
  | scanAddS32 (o : Opnd)
  /-- SCAN_ADD_F32 (R179). -/
  | scanAddF32 (o : Opnd)
  /-- BALLOT (R180). -/
  | ballot (o : Opnd)
  /-- MOV (R181). -/
  | mov (o : Opnd)
  /-- MOVIL (R181). -/
  | movil (o : Opnd)
  /-- MOVIH (R181). -/
  | movih (o : Opnd)
  /-- MOVIN (R181). -/
  | movin (o : Opnd)
  /-- MOVOUT (R181). -/
  | movout (o : Opnd)
  /-- GBC (R181). -/
  | gbc (o : Opnd)
  /-- LANEID (R181). -/
  | laneid (o : Opnd)
  /-- PAND (R182). -/
  | pand (o : Opnd)
  /-- POR (R182). -/
  | por (o : Opnd)
  /-- PXOR (R182). -/
  | pxor (o : Opnd)
  /-- PNOT (R182). -/
  | pnot (o : Opnd)
  /-- PMOV (R182). -/
  | pmov (o : Opnd)
  /-- MASK (R183). -/
  | mask (o : Opnd)
  /-- PACT (R182). -/
  | pact (o : Opnd)
  /-- LD (R217). -/
  | ld (fmt : BitVec 6) (o : Opnd)
  /-- ST (R217). -/
  | st (fmt : BitVec 6) (o : Opnd)
  /-- LDT (R220). -/
  | ldt (size : BitVec 6) (o : Opnd)
  /-- STT (R220). -/
  | stt (size : BitVec 6) (o : Opnd)
  /-- PREF_L1 (R221). -/
  | prefL1 (o : Opnd)
  /-- PREF_L2 (R221). -/
  | prefL2 (o : Opnd)
  /-- ATOM_ADD_S32 (R222). -/
  | atomAddS32 (order : BitVec 2) (o : Opnd)
  /-- ATOM_ADD_S64 (R222). -/
  | atomAddS64 (order : BitVec 2) (o : Opnd)
  /-- ATOM_ADD_F32 (R222). -/
  | atomAddF32 (order : BitVec 2) (o : Opnd)
  /-- ATOM_MIN_S32 (R222). -/
  | atomMinS32 (order : BitVec 2) (o : Opnd)
  /-- ATOM_MAX_S32 (R222). -/
  | atomMaxS32 (order : BitVec 2) (o : Opnd)
  /-- ATOM_MIN_N32 (R222). -/
  | atomMinN32 (order : BitVec 2) (o : Opnd)
  /-- ATOM_MAX_N32 (R222). -/
  | atomMaxN32 (order : BitVec 2) (o : Opnd)
  /-- ATOM_AND (R222). -/
  | atomAnd (order : BitVec 2) (o : Opnd)
  /-- ATOM_OR (R222). -/
  | atomOr (order : BitVec 2) (o : Opnd)
  /-- ATOM_XOR (R222). -/
  | atomXor (order : BitVec 2) (o : Opnd)
  /-- ATOM_EXCH (R222). -/
  | atomExch (order : BitVec 2) (o : Opnd)
  /-- ATOM_INC (R222). -/
  | atomInc (order : BitVec 2) (o : Opnd)
  /-- CAS_B32 (R224). -/
  | casB32 (o : Opnd)
  /-- CAS_B64 (R224). -/
  | casB64 (o : Opnd)
  /-- HCALL (R226). -/
  | hcall (o : Opnd)
  /-- HREPLY (R230). -/
  | hreply (o : Opnd)
  /-- HARG (R230). -/
  | harg (o : Opnd)
  /-- MXM (R250). -/
  | mxm (fmts : BitVec 6) (o : Opnd)
  /-- DRAIN_F32 (R252). -/
  | drainF32 (o : Opnd)
  /-- DRAIN_F16 (R252). -/
  | drainF16 (o : Opnd)
  /-- DRAIN_BF16 (R252). -/
  | drainBf16 (o : Opnd)
  /-- DRAIN_E4M3MX (R252). -/
  | drainE4m3mx (o : Opnd)
  /-- DRAIN_E2M1X (R252). -/
  | drainE2m1x (o : Opnd)
  /-- DRAIN_L8X2 (R252). -/
  | drainL8x2 (o : Opnd)
  /-- DRAIN_ARGMAX (R253). -/
  | drainArgmax (o : Opnd)
  /-- ACCZ (R254). -/
  | accz (o : Opnd)
  /-- IPA (R257). -/
  | ipa (o : Opnd)
  /-- IPA_PERSP (R257). -/
  | ipaPersp (o : Opnd)
  /-- PIXINFO (R256). -/
  | pixinfo (o : Opnd)
  /-- SAMPLE (R258). -/
  | sample (o : Opnd)
  /-- SAMPLEL (R258). -/
  | samplel (o : Opnd)
  /-- BLEND (R261). -/
  | blend (o : Opnd)
  /-- BIN (R262). -/
  | bin (o : Opnd)
  /-- RECALLOC (R264). -/
  | recalloc (o : Opnd)
  /-- RECSEND (R264). -/
  | recsend (o : Opnd)
  /-- GADD (R186). -/
  | gadd (o : Opnd)
  /-- GSUB (R186). -/
  | gsub (o : Opnd)
  /-- GMUL (R186). -/
  | gmul (o : Opnd)
  /-- GMULH_S32 (R186). -/
  | gmulhS32 (o : Opnd)
  /-- GMULH_N32 (R186). -/
  | gmulhN32 (o : Opnd)
  /-- GMIN_S32 (R186). -/
  | gminS32 (o : Opnd)
  /-- GMIN_N32 (R186). -/
  | gminN32 (o : Opnd)
  /-- GMAX_S32 (R186). -/
  | gmaxS32 (o : Opnd)
  /-- GMAX_N32 (R186). -/
  | gmaxN32 (o : Opnd)
  /-- GAND (R186). -/
  | gand (o : Opnd)
  /-- GOR (R186). -/
  | gor (o : Opnd)
  /-- GXOR (R186). -/
  | gxor (o : Opnd)
  /-- GNOT (R186). -/
  | gnot (o : Opnd)
  /-- GSHL (R186). -/
  | gshl (o : Opnd)
  /-- GSHR (R186). -/
  | gshr (o : Opnd)
  /-- GSAR (R186). -/
  | gsar (o : Opnd)
  /-- GPOPC (R186). -/
  | gpopc (o : Opnd)
  /-- GCLZ (R186). -/
  | gclz (o : Opnd)
  /-- GADD64 (R186). -/
  | gadd64 (o : Opnd)
  /-- GSUB64 (R186). -/
  | gsub64 (o : Opnd)
  /-- GADDI (R187). -/
  | gaddi (o : OpndI)
  /-- GANDI (R187). -/
  | gandi (o : OpndI)
  /-- GORI (R187). -/
  | gori (o : OpndI)
  /-- GMOVL (R188). -/
  | gmovl (o : OpndLit)
  /-- GADDL (R188). -/
  | gaddl (o : OpndLit)
  /-- GCMP_EQ (R189). -/
  | gcmpEq (o : Opnd)
  /-- GCMP_NE (R189). -/
  | gcmpNe (o : Opnd)
  /-- GCMP_LT_S32 (R189). -/
  | gcmpLtS32 (o : Opnd)
  /-- GCMP_LE_S32 (R189). -/
  | gcmpLeS32 (o : Opnd)
  /-- GCMP_LT_N32 (R189). -/
  | gcmpLtN32 (o : Opnd)
  /-- GCMP_LE_N32 (R189). -/
  | gcmpLeN32 (o : Opnd)
  /-- GSEL (R190). -/
  | gsel (o : Opnd)
  /-- V2G (R191). -/
  | v2g (o : Opnd)
  /-- V2G_LANE (R191). -/
  | v2gLane (o : Opnd)
  /-- BRA (R192). -/
  | bra (off : BitVec 24)
  /-- CALL (R192). -/
  | call (off : BitVec 24)
  /-- JMPG (R193). -/
  | jmpg (o : Opnd)
  /-- CALLG (R193). -/
  | callg (o : Opnd)
  /-- RET (R193). -/
  | ret (o : Opnd)
  /-- BRC_EQ (R194). -/
  | brcEq (o : Opnd)
  /-- BRC_NE (R194). -/
  | brcNe (o : Opnd)
  /-- BRC_LT_S32 (R194). -/
  | brcLtS32 (o : Opnd)
  /-- BRC_LE_S32 (R194). -/
  | brcLeS32 (o : Opnd)
  /-- BRC_LT_N32 (R194). -/
  | brcLtN32 (o : Opnd)
  /-- BRC_LE_N32 (R194). -/
  | brcLeN32 (o : Opnd)
  /-- BRP_ANY (R195). -/
  | brpAny (o : Opnd)
  /-- BRP_ALL (R195). -/
  | brpAll (o : Opnd)
  /-- BRP_NONE (R195). -/
  | brpNone (o : Opnd)
  /-- REGANG (R197). -/
  | regang (o : Opnd)
  /-- EXIT (R198). -/
  | exit (o : Opnd)
  /-- WAIT_ANY (R199). -/
  | waitAny (o : Opnd)
  /-- WAIT_ALL (R199). -/
  | waitAll (o : Opnd)
  /-- BAR_SYNC (R204). -/
  | barSync (o : Opnd)
  /-- BAR_ARRIVE (R204). -/
  | barArrive (o : Opnd)
  /-- BAR_CREW (R204). -/
  | barCrew (o : Opnd)
  /-- PHASE (R206). -/
  | phase (o : Opnd)
  /-- SAFE (R207). -/
  | safe (o : Opnd)
  /-- QPUSH (R208). -/
  | qpush (o : Opnd)
  /-- QPOP (R208). -/
  | qpop (o : Opnd)
  /-- QOFFER (R208). -/
  | qoffer (o : Opnd)
  /-- QPOLL (R208). -/
  | qpoll (o : Opnd)
  /-- COPY (R238). -/
  | copy (o : Opnd)
  /-- COPYW (R242). -/
  | copyw (o : Opnd)
  /-- COPYS (R240). -/
  | copys (o : Opnd)
  /-- GATEINIT (R236). -/
  | gateinit (o : Opnd)
  /-- GATEARM (R236). -/
  | gatearm (o : Opnd)
  /-- PUBLISH (R237). -/
  | publish (o : Opnd)
  /-- XFM (R244). -/
  | xfm (o : Opnd)
  /-- ACQACC (R246). -/
  | acqacc (o : Opnd)
  /-- RELACC (R246). -/
  | relacc (o : Opnd)
  /-- HDONE (R231). -/
  | hdone (o : Opnd)
  /-- HINFO (R230). -/
  | hinfo (o : Opnd)
  /-- TDONE (R263). -/
  | tdone (o : Opnd)
  /-- TILEINFO (R263). -/
  | tileinfo (o : Opnd)
  /-- FENCE_ACQ (R210). -/
  | fenceAcq (o : Opnd)
  /-- FENCE_REL (R210). -/
  | fenceRel (o : Opnd)
  /-- FENCE_ACQREL (R210). -/
  | fenceAcqrel (o : Opnd)
  /-- GSYS (R148). -/
  | gsys (o : Opnd)
  /-- SSYS (R211). -/
  | ssys (o : Opnd)
  /-- TRAP (R364). -/
  | trap (o : Opnd)
  /-- RTE (R355). -/
  | rte (o : Opnd)
  /-- BKPT (R364). -/
  | bkpt (o : Opnd)
  /-- NOP (R211). -/
  | nop (o : Opnd)
  /-- REPLAYALL (R340). -/
  | replayall (o : Opnd)
  /-- TLBINV (R212). -/
  | tlbinv (o : Opnd)
  /-- SETSEG (R213). -/
  | setseg (o : Opnd)
  /-- ARRAY_ERROR (R393). -/
  | arrayError (e : ArrayErr)
  /-- CONTROL_NODE_POOL_GROWTH (R301). -/
  | controlNodePoolGrowth (port : Fin 4) (p : Fin 8) (units : Option Nat)
  /-- CONTROL_NODE_TILE_ASSIGNMENT (R279). -/
  | controlNodeTileAssignment (port : Fin 4) (p : Fin 8) (tile : Nat) (at_ : CoreAt)
  /-- CONTROL_NODE_QUEUE_HEAD_ORDER (R301). -/
  | controlNodeQueueHeadOrder (port : Fin 4) (p : Fin 8) (queues : List Nat)
  deriving DecidableEq, Repr

end Sys2Proof
end

