-- ==== Sys2Proof/Machine/Operands.lean ====
section
/-! DEFINITION. The operand forms (R137 to R143): for every wave instruction, its class, what each field names,
which modifier and immediate bits its entry uses, and its reserved values. The ILLEGAL, ROLE, EMPTY_SOURCE and
UNINIT checks and the waits on full/empty bits are all read off this one table. -/

namespace Sys2Proof

/-- Instruction classes (R32). -/
inductive Cls where
  | laneArith | matrix | copy | genLane | genGroup
  deriving DecidableEq, Repr

/-- The file a register field names: lane registers, group registers, predicates (R141). -/
inductive RegFile where
  | v | g | p
  deriving DecidableEq, Repr

/-- What a 6-bit field is used for: n registers of a file, the first a multiple of align. -/
inductive FieldUse where
  /-- Reserved: written as zero. -/
  | none
  /-- A source. -/
  | src (f : RegFile) (n align : Nat)
  /-- A destination. -/
  | dst (f : RegFile) (n align : Nat)
  /-- A source and a destination. -/
  | upd (f : RegFile) (n align : Nat)
  /-- Names registers of the file that are not read through this field (MOVIN's base, an unread scale pair); it may carry a trap bit for MOVIN. -/
  | base (f : RegFile) (n align : Nat)
  /-- Names the base of an indirect destination (MOVOUT). -/
  | obase (f : RegFile) (n align : Nat)
  /-- Immediate bits; the bits outside the mask are reserved. -/
  | imm (mask : BitVec 6)
  deriving DecidableEq, Repr

/-- The four register fields. -/
inductive Field where
  | a | b | c | d
  deriving DecidableEq, Repr

/-- The SUB code of a field in an EMPTY_SOURCE or UNINIT trap (R351). -/
def Field.code : Field → Nat
  | .a => 1 | .b => 2 | .c => 3 | .d => 4

/-- The operand form of an instruction. -/
structure Sig where
  cls : Cls
  d : FieldUse := .none
  a : FieldUse := .none
  b : FieldUse := .none
  c : FieldUse := .none
  /-- Modifier bits the entry uses. -/
  mod : BitVec 3 := 0
  /-- Immediate bits the entry uses. -/
  imm : BitVec 16 := 0
  /-- The fields hold a reserved value (R358 SUB 7) beyond those of pairs and ranges. -/
  bad : Bool := false
  /-- Sources that the UNINIT check passes over (R360). -/
  unchecked : List Field := []
  /-- It reads or writes the activity registers g61 to g63 without naming them (R182, R183). -/
  activity : Bool := false
  /-- The trap bits of its extension word are no reserved fields, though it has no source (R197). -/
  trapBits : Bool := false
  deriving DecidableEq, Repr

/-- MOD values 1 to 3 are reserved as a rounding mode (R156). -/
def badRounding (m : BitVec 3) : Bool := 0 < m.toNat && m.toNat < 4

/-- Lane registers that a typed access names, by format code (R217). -/
def ldRegs (fmt : BitVec 6) : Nat :=
  if fmt = 0x05 then 2 else if fmt = 0x06 then 4 else 1

/-- Lane registers of LDT and STT, by minor (R220). -/
def ldtRegs (size : BitVec 6) : Nat :=
  if size = 0 then 1 else if size = 1 then 2 else 4

/-- The ordering field of a load is none that R82 accepts (R215). -/
def badLoadOrder (c : BitVec 6) : Bool :=
  let order := c.toNat % 4
  let scope := c.toNat / 4 % 4
  let remote := c.getLsbD 4
  1 < order || (order == 0 && scope != 0) || (remote && !(order == 1 && 2 ≤ scope))

/-- The ordering field of a store is none that R82 accepts (R215). -/
def badStoreOrder (c : BitVec 6) : Bool :=
  let order := c.toNat % 4
  let scope := c.toNat / 4 % 4
  c.getLsbD 4 || !(order == 0 || order == 2) || (order == 0 && scope != 0)

/-- The destination of ATOM: D with a return, none with C = 1 (R222). -/
def atomDst (c : BitVec 6) (n : Nat) : FieldUse := if c = 1 then .none else .dst .v n n

/-- A reserved value of C, or REMOTE on an event that R82 and R94 do not accept it on (R222). -/
def badAtom (order : BitVec 2) (x : Ext) : Bool :=
  1 < x.c.toNat || (x.mod.getLsbD 2 && !(order = 1 || order = 3))

/-- FACQ and REMOTE need an acquiring success order (R224). -/
def badCas (x : Ext) : Bool :=
  let acquires := x.imm.getLsbD 0
  (x.imm.getLsbD 2 && !acquires) || (x.mod.getLsbD 2 && !acquires)

/-- REMOTE on a fence needs device or system scope (R210). -/
def badFenceAcq (x : Ext) : Bool := x.mod.getLsbD 2 && x.mod.toNat % 4 < 2

/-- LD and ST format codes (R146, R217). -/
def ldFormat (fmt : BitVec 6) : Bool := fmt.toNat < 7 || (8 ≤ fmt.toNat && fmt.toNat < 14)

/-- Twice the element size of a matrix format that sizes K, in bytes (R147). -/
def mxSize2 (f : Nat) : Nat :=
  match f with
  | 0 => 4 | 1 => 4 | 2 => 2 | 3 => 2 | 4 => 1 | 5 => 2 | _ => 0

/-- The A and B formats of an MXM (R247). -/
def mxmA (fmts : BitVec 6) : Nat := fmts.toNat / 8
def mxmB (fmts : BitVec 6) : Nat := fmts.toNat % 8

/-- KLEN of an MXM (R247). -/
def mxmKlen (x : Ext) : Nat := x.imm.toNat / 256 % 16 + 1

/-- The depth K of an MXM (R248). -/
def mxmDepth (fmts : BitVec 6) (x : Ext) : Nat :=
  let z := if 6 ≤ mxmA fmts then mxSize2 (mxmB fmts) else max (mxSize2 (mxmA fmts)) (mxSize2 (mxmB fmts))
  64 * mxmKlen x / z

/-- The permitted pairs of formats (R248). -/
def mxmPairOk (a b : Nat) : Bool :=
  (a == 5 && b == 5) || (6 ≤ a && b < 4) || (a < 5 && b < 5)

/-- A reads a scale panel: e4m3 and e5m2 when scaled, e2m1x and l8x2 (R248). -/
def mxmScaleA (fmts : BitVec 6) (x : Ext) : Bool :=
  let a := mxmA fmts
  ((a == 2 || a == 3) && !x.mod.getLsbD 1) || a == 4 || a == 6

/-- B reads a scale panel (R248). -/
def mxmScaleB (fmts : BitVec 6) (x : Ext) : Bool :=
  let b := mxmB fmts
  ((b == 2 || b == 3) && !x.mod.getLsbD 2) || b == 4

/-- The scale-locator pair in D is read only when a scale panel is read (R247). -/
def mxmReadsScale (fmts : BitVec 6) (x : Ext) : Bool := mxmScaleA fmts x || mxmScaleB fmts x

/-- Bytes of one panel row for a depth of k (R248). -/
def mxmRowBytes (f k : Nat) : Nat :=
  match f with
  | 0 => 2 * k | 1 => 2 * k | 2 => k | 3 => k | 4 => k / 2 | 5 => k | 6 => k / 4 | _ => k / 2

/-- The reserved values of MXM (R247, R248, R358 SUB 7). -/
def badMxm (fmts : BitVec 6) (x : Ext) : Bool :=
  let a := mxmA fmts
  let b := mxmB fmts
  let k := mxmDepth fmts x
  12 < mxmKlen x || 48 < x.c.toNat || !mxmPairOk a b ||
    (x.mod.getLsbD 1 && !(a == 2 || a == 3)) || (x.mod.getLsbD 2 && !(b == 2 || b == 3)) ||
    (mxmReadsScale fmts x && k % 32 != 0) ||
    (x.c != 0 && 16 * x.c.toNat < mxmRowBytes a k)

/-- DRAIN writes registers (R251). -/
def drainReg (x : Ext) : Bool := x.mod.getLsbD 0

/-- Columns drained (R251). -/
def drainCols (x : Ext) : Nat := 4 * (x.imm.toNat / 256 % 8 + 1)

/-- A requantising DRAIN form: e4m3mx, e2m1x, l8x2 (R251). -/
def drainRequant (fn : Nat) : Bool := 3 ≤ fn && fn ≤ 5

/-- Destination registers of a register DRAIN (R252). -/
def drainRegs (fn : Nat) (x : Ext) : Nat :=
  if fn == 0 then drainCols x else if fn == 6 then 1 else drainCols x / 2

/-- The fields of DRAIN by its form (R251). A requantising form has no register form: its fields stay those of its
memory form, and the register option is a reserved value of it (R358 SUB 7). DEDUCED. -/
def drainToRegs (fn : Nat) (x : Ext) : Bool := drainReg x && !drainRequant fn
def drainD (fn : Nat) (x : Ext) : FieldUse := if drainToRegs fn x then .dst .v (drainRegs fn x) 1 else .none
def drainA (fn : Nat) (x : Ext) : FieldUse := if drainToRegs fn x then .none else .src .v 2 2
def drainB (fn : Nat) : FieldUse := if drainRequant fn then .src .v 2 2 else .none
def drainC (fn : Nat) (x : Ext) : FieldUse := if drainToRegs fn x then .none else .imm 0x3F

/-- The alignment of a DRAIN's element address and pitch (R252). -/
def drainAlign (fn : Nat) : Nat :=
  if fn == 0 || fn == 6 then 4 else if fn == 1 || fn == 2 then 2 else 16

/-- The reserved values of DRAIN (R251, R358 SUB 7). -/
def badDrain (fn : Nat) (x : Ext) : Bool :=
  (x.mod.getLsbD 2 && fn != 6) || (drainReg x && drainRequant fn) || (drainRequant fn && drainCols x != 32)

/-- The system-register numbers that R148 lists. -/
def sysKnown (n : Nat) : Bool :=
  n ≤ 0x00D || n == 0x010 || n == 0x011 || (0x018 ≤ n && n ≤ 0x01C) || n == 0x020 ||
    (0x022 ≤ n && n ≤ 0x028) || (0x030 ≤ n && n ≤ 0x03D) || (0x040 ≤ n && n ≤ 0x047)

/-- SETSEG takes an even number from 0x030 to 0x03C (R213). -/
def badSegNumber (n : Nat) : Bool := !(n % 2 == 0 && 0x030 ≤ n && n ≤ 0x03C)

/-- The operand form of every wave instruction (R32 for its class, and the rule of its entry for its fields).
A device event has none. -/
def sig (i : Instr) : Option Sig :=
  match i with
  | .powerOnBringup _ => none
  | .controlRegisterWrite _ _ _ _ => none
  | .partitionReset _ _ => none
  | .partitionResize _ _ _ => none
  | .partitionStart _ _ => none
  | .queueEnable _ _ _ => none
  | .doorbell _ _ _ => none
  | .takeLaunch _ => none
  | .takeRenderpass _ => none
  | .takeGraph _ => none
  | .takeWaitevent _ => none
  | .takeSignal _ => none
  | .takeBarrier _ => none
  | .dependenceSatisfied _ => none
  | .eventCounterWrite _ _ _ _ => none
  | .workCompletion _ => none
  | .crewPlacement _ => none
  | .priorityAging _ => none
  | .placementWaitTimeout _ => none
  | .preemptionRequest _ => none
  | .safePointTimeout _ => none
  | .crewSave _ => none
  | .crewResume _ _ => none
  | .phaseStart _ _ => none
  | .producerLanding _ _ => none
  | .regangBandReady _ => none
  | .queueWaitPerformed _ _ => none
  | .waitConditionMet _ _ => none
  | .waitTimeout _ _ => none
  | .acqaccGrant _ _ => none
  | .recallocGrant _ _ => none
  | .asyncTrapDelivery _ => none
  | .translationVector _ => none
  | .faultEntryWalk _ _ => none
  | .faultRepresent _ => none
  | .faultRecordPost _ => none
  | .fresRetry _ _ _ => none
  | .fresFail _ _ _ => none
  | .loaderCheck _ => none
  | .merrClear _ => none
  | .portIncomingAccess _ _ => none
  | .portLinkDown _ => none
  | .moduleError _ => none
  | .patrolRead _ _ => none
  | .l2Writeback _ _ => none
  | .engineUnitTransfer _ _ _ _ => none
  | .madderRequestArrival _ => none
  | .madderBatchLaunch _ => none
  | .madderWindowExpiry _ => none
  | .combinerWaveStart _ => none
  | .graphBatchLaunch _ _ => none
  | .graphBatchTimeout _ _ => none
  | .renderPassStart _ => none
  | .primitiveCommit _ => none
  | .poolReset _ => none
  | .brokerIssuePass _ _ => none
  | .finalRoundStart _ => none
  | .passLoad _ => none
  | .passVisibility _ => none
  | .passGbuffer _ => none
  | .passShading _ => none
  | .passResolve _ => none
  | .resumeStore _ => none
  | .tileSpill _ => none
  | .passRestart _ => none
  | .woadRoundCommit _ => none
  | .iadd _ => some { cls := .laneArith, d := .dst .v 1 1, a := .src .v 1 1, b := .src .v 1 1 }
  | .isub _ => some { cls := .laneArith, d := .dst .v 1 1, a := .src .v 1 1, b := .src .v 1 1 }
  | .imul _ => some { cls := .laneArith, d := .dst .v 1 1, a := .src .v 1 1, b := .src .v 1 1 }
  | .imulhS32 _ => some { cls := .laneArith, d := .dst .v 1 1, a := .src .v 1 1, b := .src .v 1 1 }
  | .imulhN32 _ => some { cls := .laneArith, d := .dst .v 1 1, a := .src .v 1 1, b := .src .v 1 1 }
  | .iminS32 _ => some { cls := .laneArith, d := .dst .v 1 1, a := .src .v 1 1, b := .src .v 1 1 }
  | .iminN32 _ => some { cls := .laneArith, d := .dst .v 1 1, a := .src .v 1 1, b := .src .v 1 1 }
  | .imaxS32 _ => some { cls := .laneArith, d := .dst .v 1 1, a := .src .v 1 1, b := .src .v 1 1 }
  | .imaxN32 _ => some { cls := .laneArith, d := .dst .v 1 1, a := .src .v 1 1, b := .src .v 1 1 }
  | .iabs _ => some { cls := .laneArith, d := .dst .v 1 1, a := .src .v 1 1 }
  | .ineg _ => some { cls := .laneArith, d := .dst .v 1 1, a := .src .v 1 1 }
  | .iadd64 _ => some { cls := .laneArith, d := .dst .v 2 2, a := .src .v 2 2, b := .src .v 2 2 }
  | .isub64 _ => some { cls := .laneArith, d := .dst .v 2 2, a := .src .v 2 2, b := .src .v 2 2 }
  | .imulwS32 _ => some { cls := .laneArith, d := .dst .v 2 2, a := .src .v 1 1, b := .src .v 1 1 }
  | .imulwN32 _ => some { cls := .laneArith, d := .dst .v 2 2, a := .src .v 1 1, b := .src .v 1 1 }
  | .iaddi _ => some { cls := .laneArith, d := .dst .v 1 1, a := .src .v 1 1 }
  | .andi _ => some { cls := .laneArith, d := .dst .v 1 1, a := .src .v 1 1 }
  | .ori _ => some { cls := .laneArith, d := .dst .v 1 1, a := .src .v 1 1 }
  | .xori _ => some { cls := .laneArith, d := .dst .v 1 1, a := .src .v 1 1 }
  | .and _ => some { cls := .laneArith, d := .dst .v 1 1, a := .src .v 1 1, b := .src .v 1 1 }
  | .or _ => some { cls := .laneArith, d := .dst .v 1 1, a := .src .v 1 1, b := .src .v 1 1 }
  | .xor _ => some { cls := .laneArith, d := .dst .v 1 1, a := .src .v 1 1, b := .src .v 1 1 }
  | .andn _ => some { cls := .laneArith, d := .dst .v 1 1, a := .src .v 1 1, b := .src .v 1 1 }
  | .orn _ => some { cls := .laneArith, d := .dst .v 1 1, a := .src .v 1 1, b := .src .v 1 1 }
  | .xnor _ => some { cls := .laneArith, d := .dst .v 1 1, a := .src .v 1 1, b := .src .v 1 1 }
  | .not _ => some { cls := .laneArith, d := .dst .v 1 1, a := .src .v 1 1 }
  | .shl _ => some { cls := .laneArith, d := .dst .v 1 1, a := .src .v 1 1, b := .src .v 1 1 }
  | .shr _ => some { cls := .laneArith, d := .dst .v 1 1, a := .src .v 1 1, b := .src .v 1 1 }
  | .sar _ => some { cls := .laneArith, d := .dst .v 1 1, a := .src .v 1 1, b := .src .v 1 1 }
  | .rotl _ => some { cls := .laneArith, d := .dst .v 1 1, a := .src .v 1 1, b := .src .v 1 1 }
  | .rotr _ => some { cls := .laneArith, d := .dst .v 1 1, a := .src .v 1 1, b := .src .v 1 1 }
  | .shli _ => some { cls := .laneArith, d := .dst .v 1 1, a := .src .v 1 1, b := .imm 0x1F }
  | .shri _ => some { cls := .laneArith, d := .dst .v 1 1, a := .src .v 1 1, b := .imm 0x1F }
  | .sari _ => some { cls := .laneArith, d := .dst .v 1 1, a := .src .v 1 1, b := .imm 0x1F }
  | .bfxS32 _ => some { cls := .laneArith, d := .dst .v 1 1, a := .src .v 1 1, imm := 0x03FF }
  | .bfxN32 _ => some { cls := .laneArith, d := .dst .v 1 1, a := .src .v 1 1, imm := 0x03FF }
  | .bfi _ => some { cls := .laneArith, d := .dst .v 1 1, a := .src .v 1 1, b := .src .v 1 1, imm := 0x03FF }
  | .popc _ => some { cls := .laneArith, d := .dst .v 1 1, a := .src .v 1 1 }
  | .clz _ => some { cls := .laneArith, d := .dst .v 1 1, a := .src .v 1 1 }
  | .ctz _ => some { cls := .laneArith, d := .dst .v 1 1, a := .src .v 1 1 }
  | .brev _ => some { cls := .laneArith, d := .dst .v 1 1, a := .src .v 1 1 }
  | .permb _ => some { cls := .laneArith, d := .dst .v 1 1, a := .src .v 1 1, b := .src .v 1 1, imm := 0xFFFF }
  | .imad _ => some { cls := .laneArith, d := .dst .v 1 1, a := .src .v 1 1, b := .src .v 1 1, c := .src .v 1 1 }
  | .imadhS32 _ => some { cls := .laneArith, d := .dst .v 1 1, a := .src .v 1 1, b := .src .v 1 1, c := .src .v 1 1 }
  | .imadhN32 _ => some { cls := .laneArith, d := .dst .v 1 1, a := .src .v 1 1, b := .src .v 1 1, c := .src .v 1 1 }
  | .imadwS32 _ => some { cls := .laneArith, d := .dst .v 2 2, a := .src .v 1 1, b := .src .v 1 1, c := .src .v 2 2 }
  | .imadwN32 _ => some { cls := .laneArith, d := .dst .v 2 2, a := .src .v 1 1, b := .src .v 1 1, c := .src .v 2 2 }
  | .icmpEq _ => some { cls := .laneArith, d := .dst .p 1 1, a := .src .v 1 1, b := .src .v 1 1 }
  | .icmpNe _ => some { cls := .laneArith, d := .dst .p 1 1, a := .src .v 1 1, b := .src .v 1 1 }
  | .icmpLtS32 _ => some { cls := .laneArith, d := .dst .p 1 1, a := .src .v 1 1, b := .src .v 1 1 }
  | .icmpLeS32 _ => some { cls := .laneArith, d := .dst .p 1 1, a := .src .v 1 1, b := .src .v 1 1 }
  | .icmpGtS32 _ => some { cls := .laneArith, d := .dst .p 1 1, a := .src .v 1 1, b := .src .v 1 1 }
  | .icmpGeS32 _ => some { cls := .laneArith, d := .dst .p 1 1, a := .src .v 1 1, b := .src .v 1 1 }
  | .icmpLtN32 _ => some { cls := .laneArith, d := .dst .p 1 1, a := .src .v 1 1, b := .src .v 1 1 }
  | .icmpLeN32 _ => some { cls := .laneArith, d := .dst .p 1 1, a := .src .v 1 1, b := .src .v 1 1 }
  | .icmpGtN32 _ => some { cls := .laneArith, d := .dst .p 1 1, a := .src .v 1 1, b := .src .v 1 1 }
  | .icmpGeN32 _ => some { cls := .laneArith, d := .dst .p 1 1, a := .src .v 1 1, b := .src .v 1 1 }
  | .sel _ => some { cls := .laneArith, d := .dst .v 1 1, a := .src .v 1 1, b := .src .v 1 1, c := .src .p 1 1, unchecked := [.a, .b] }
  | .fadd o => some { cls := .laneArith, d := .dst .v 1 1, a := .src .v 1 1, b := .src .v 1 1, mod := 0x7, bad := badRounding o.ext.mod }
  | .fsub o => some { cls := .laneArith, d := .dst .v 1 1, a := .src .v 1 1, b := .src .v 1 1, mod := 0x7, bad := badRounding o.ext.mod }
  | .fmul o => some { cls := .laneArith, d := .dst .v 1 1, a := .src .v 1 1, b := .src .v 1 1, mod := 0x7, bad := badRounding o.ext.mod }
  | .fmin _ => some { cls := .laneArith, d := .dst .v 1 1, a := .src .v 1 1, b := .src .v 1 1 }
  | .fmax _ => some { cls := .laneArith, d := .dst .v 1 1, a := .src .v 1 1, b := .src .v 1 1 }
  | .fminm _ => some { cls := .laneArith, d := .dst .v 1 1, a := .src .v 1 1, b := .src .v 1 1 }
  | .fmaxm _ => some { cls := .laneArith, d := .dst .v 1 1, a := .src .v 1 1, b := .src .v 1 1 }
  | .fabs _ => some { cls := .laneArith, d := .dst .v 1 1, a := .src .v 1 1 }
  | .fneg _ => some { cls := .laneArith, d := .dst .v 1 1, a := .src .v 1 1 }
  | .fcopysign _ => some { cls := .laneArith, d := .dst .v 1 1, a := .src .v 1 1, b := .src .v 1 1 }
  | .frndRn _ => some { cls := .laneArith, d := .dst .v 1 1, a := .src .v 1 1 }
  | .frndRz _ => some { cls := .laneArith, d := .dst .v 1 1, a := .src .v 1 1 }
  | .frndRd _ => some { cls := .laneArith, d := .dst .v 1 1, a := .src .v 1 1 }
  | .frndRu _ => some { cls := .laneArith, d := .dst .v 1 1, a := .src .v 1 1 }
  | .ffract _ => some { cls := .laneArith, d := .dst .v 1 1, a := .src .v 1 1 }
  | .fclass _ => some { cls := .laneArith, d := .dst .v 1 1, a := .src .v 1 1 }
  | .ffma o => some { cls := .laneArith, d := .dst .v 1 1, a := .src .v 1 1, b := .src .v 1 1, c := .src .v 1 1, mod := 0x7, bad := badRounding o.ext.mod }
  | .ffms o => some { cls := .laneArith, d := .dst .v 1 1, a := .src .v 1 1, b := .src .v 1 1, c := .src .v 1 1, mod := 0x7, bad := badRounding o.ext.mod }
  | .ffnma o => some { cls := .laneArith, d := .dst .v 1 1, a := .src .v 1 1, b := .src .v 1 1, c := .src .v 1 1, mod := 0x7, bad := badRounding o.ext.mod }
  | .ffnms o => some { cls := .laneArith, d := .dst .v 1 1, a := .src .v 1 1, b := .src .v 1 1, c := .src .v 1 1, mod := 0x7, bad := badRounding o.ext.mod }
  | .fcmpEq _ => some { cls := .laneArith, d := .dst .p 1 1, a := .src .v 1 1, b := .src .v 1 1 }
  | .fcmpNe _ => some { cls := .laneArith, d := .dst .p 1 1, a := .src .v 1 1, b := .src .v 1 1 }
  | .fcmpLt _ => some { cls := .laneArith, d := .dst .p 1 1, a := .src .v 1 1, b := .src .v 1 1 }
  | .fcmpLe _ => some { cls := .laneArith, d := .dst .p 1 1, a := .src .v 1 1, b := .src .v 1 1 }
  | .fcmpGt _ => some { cls := .laneArith, d := .dst .p 1 1, a := .src .v 1 1, b := .src .v 1 1 }
  | .fcmpGe _ => some { cls := .laneArith, d := .dst .p 1 1, a := .src .v 1 1, b := .src .v 1 1 }
  | .fcmpOrd _ => some { cls := .laneArith, d := .dst .p 1 1, a := .src .v 1 1, b := .src .v 1 1 }
  | .fcmpUnord _ => some { cls := .laneArith, d := .dst .p 1 1, a := .src .v 1 1, b := .src .v 1 1 }
  | .frcp o => some { cls := .laneArith, d := .dst .v 1 1, a := .src .v 1 1, mod := 0x7, bad := badRounding o.ext.mod }
  | .frsq _ => some { cls := .laneArith, d := .dst .v 1 1, a := .src .v 1 1 }
  | .fsqrt o => some { cls := .laneArith, d := .dst .v 1 1, a := .src .v 1 1, mod := 0x7, bad := badRounding o.ext.mod }
  | .fexp2 _ => some { cls := .laneArith, d := .dst .v 1 1, a := .src .v 1 1 }
  | .flog2 _ => some { cls := .laneArith, d := .dst .v 1 1, a := .src .v 1 1 }
  | .fsin _ => some { cls := .laneArith, d := .dst .v 1 1, a := .src .v 1 1 }
  | .fcos _ => some { cls := .laneArith, d := .dst .v 1 1, a := .src .v 1 1 }
  | .ftanh _ => some { cls := .laneArith, d := .dst .v 1 1, a := .src .v 1 1 }
  | .fsigm _ => some { cls := .laneArith, d := .dst .v 1 1, a := .src .v 1 1 }
  | .hadd2F16 o => some { cls := .laneArith, d := .dst .v 1 1, a := .src .v 1 1, b := .src .v 1 1, mod := 0x7, bad := badRounding o.ext.mod }
  | .hmul2F16 o => some { cls := .laneArith, d := .dst .v 1 1, a := .src .v 1 1, b := .src .v 1 1, mod := 0x7, bad := badRounding o.ext.mod }
  | .hmin2F16 _ => some { cls := .laneArith, d := .dst .v 1 1, a := .src .v 1 1, b := .src .v 1 1 }
  | .hmax2F16 _ => some { cls := .laneArith, d := .dst .v 1 1, a := .src .v 1 1, b := .src .v 1 1 }
  | .hadd2Bf16 o => some { cls := .laneArith, d := .dst .v 1 1, a := .src .v 1 1, b := .src .v 1 1, mod := 0x7, bad := badRounding o.ext.mod }
  | .hmul2Bf16 o => some { cls := .laneArith, d := .dst .v 1 1, a := .src .v 1 1, b := .src .v 1 1, mod := 0x7, bad := badRounding o.ext.mod }
  | .hmin2Bf16 _ => some { cls := .laneArith, d := .dst .v 1 1, a := .src .v 1 1, b := .src .v 1 1 }
  | .hmax2Bf16 _ => some { cls := .laneArith, d := .dst .v 1 1, a := .src .v 1 1, b := .src .v 1 1 }
  | .hfma2F16 o => some { cls := .laneArith, d := .dst .v 1 1, a := .src .v 1 1, b := .src .v 1 1, c := .src .v 1 1, mod := 0x7, bad := badRounding o.ext.mod }
  | .hfma2Bf16 o => some { cls := .laneArith, d := .dst .v 1 1, a := .src .v 1 1, b := .src .v 1 1, c := .src .v 1 1, mod := 0x7, bad := badRounding o.ext.mod }
  | .hdot2F16 o => some { cls := .laneArith, d := .dst .v 1 1, a := .src .v 1 1, b := .src .v 1 1, c := .src .v 1 1, mod := 0x7, bad := badRounding o.ext.mod }
  | .hdot2Bf16 o => some { cls := .laneArith, d := .dst .v 1 1, a := .src .v 1 1, b := .src .v 1 1, c := .src .v 1 1, mod := 0x7, bad := badRounding o.ext.mod }
  | .cvtF32S32 o => some { cls := .laneArith, d := .dst .v 1 1, a := .src .v 1 1, mod := 0x7, imm := 0x0003, bad := (badRounding o.ext.mod) || (o.ext.imm.toNat % 4 > 0) }
  | .cvtF32N32 o => some { cls := .laneArith, d := .dst .v 1 1, a := .src .v 1 1, mod := 0x7, imm := 0x0003, bad := (badRounding o.ext.mod) || (o.ext.imm.toNat % 4 > 0) }
  | .cvtS32F32 o => some { cls := .laneArith, d := .dst .v 1 1, a := .src .v 1 1, mod := 0x7, imm := 0x0003, bad := (badRounding o.ext.mod) || (o.ext.imm.toNat % 4 > 0) }
  | .cvtN32F32 o => some { cls := .laneArith, d := .dst .v 1 1, a := .src .v 1 1, mod := 0x7, imm := 0x0003, bad := (badRounding o.ext.mod) || (o.ext.imm.toNat % 4 > 0) }
  | .cvtF16F32 o => some { cls := .laneArith, d := .dst .v 1 1, a := .src .v 1 1, mod := 0x7, imm := 0x0003, bad := (badRounding o.ext.mod) || (o.ext.imm.toNat % 4 > 0) }
  | .cvtBf16F32 o => some { cls := .laneArith, d := .dst .v 1 1, a := .src .v 1 1, mod := 0x7, imm := 0x0003, bad := (badRounding o.ext.mod) || (o.ext.imm.toNat % 4 > 0) }
  | .cvtF32F16 o => some { cls := .laneArith, d := .dst .v 1 1, a := .src .v 1 1, imm := 0x0003, bad := o.ext.imm.toNat % 4 > 0 }
  | .cvtF32Bf16 o => some { cls := .laneArith, d := .dst .v 1 1, a := .src .v 1 1, imm := 0x0003, bad := o.ext.imm.toNat % 4 > 0 }
  | .cvtE4m3F32 o => some { cls := .laneArith, d := .dst .v 1 1, a := .src .v 1 1, mod := 0x7, imm := 0x0003, bad := (badRounding o.ext.mod) || (o.ext.imm.toNat % 4 > 2) }
  | .cvtE5m2F32 o => some { cls := .laneArith, d := .dst .v 1 1, a := .src .v 1 1, mod := 0x7, imm := 0x0003, bad := (badRounding o.ext.mod) || (o.ext.imm.toNat % 4 > 2) }
  | .cvtF32E4m3 o => some { cls := .laneArith, d := .dst .v 1 1, a := .src .v 1 1, imm := 0x0003, bad := o.ext.imm.toNat % 4 > 0 }
  | .cvtF32E5m2 o => some { cls := .laneArith, d := .dst .v 1 1, a := .src .v 1 1, imm := 0x0003, bad := o.ext.imm.toNat % 4 > 0 }
  | .cvtE2m1F32 o => some { cls := .laneArith, d := .dst .v 1 1, a := .src .v 1 1, mod := 0x7, imm := 0x0003, bad := (badRounding o.ext.mod) || (o.ext.imm.toNat % 4 > 1) }
  | .cvtF32E2m1 o => some { cls := .laneArith, d := .dst .v 1 1, a := .src .v 1 1, imm := 0x0003, bad := o.ext.imm.toNat % 4 > 0 }
  | .qlatX2 _ => some { cls := .laneArith, d := .dst .v 1 1, a := .src .v 1 1, b := .src .v 1 1 }
  | .qlatX4 _ => some { cls := .laneArith, d := .dst .v 1 1, a := .src .v 1 1, b := .src .v 1 1 }
  | .dlatX2 _ => some { cls := .laneArith, d := .dst .v 1 1, a := .src .v 1 1, b := .src .v 1 1 }
  | .dlatX4 _ => some { cls := .laneArith, d := .dst .v 1 1, a := .src .v 1 1 }
  | .laterr o => some { cls := .laneArith, d := .dst .v 1 1, a := .src .v 1 1, b := .src .v 1 1, c := if o.ext.mod.getLsbD 0 then .none else .src .v 1 1, mod := 0x1 }
  | .shflIdx o => some { cls := .laneArith, d := .dst .v 1 1, a := .src .v 1 1, b := .src .v 1 1, mod := 0x7, bad := o.ext.mod.toNat > 3, unchecked := [.a] }
  | .shflUp o => some { cls := .laneArith, d := .dst .v 1 1, a := .src .v 1 1, mod := 0x7, imm := 0x007F, bad := o.ext.mod.toNat > 3 || o.ext.imm.toNat % 128 > 95, unchecked := [.a] }
  | .shflDown o => some { cls := .laneArith, d := .dst .v 1 1, a := .src .v 1 1, mod := 0x7, imm := 0x007F, bad := o.ext.mod.toNat > 3 || o.ext.imm.toNat % 128 > 95, unchecked := [.a] }
  | .shflXor o => some { cls := .laneArith, d := .dst .v 1 1, a := .src .v 1 1, mod := 0x7, imm := 0x007F, bad := o.ext.mod.toNat > 3 || o.ext.imm.toNat % 128 > 95, unchecked := [.a] }
  | .pushl o => some { cls := .laneArith, d := .dst .v 1 1, a := .src .v 1 1, b := .src .v 1 1, mod := 0x7, bad := o.ext.mod.toNat > 3, unchecked := [.a] }
  | .lredAddS32 o => some { cls := .laneArith, d := .dst .v 1 1, a := .src .v 1 1, mod := 0x7, bad := o.ext.mod.toNat > 3 }
  | .lredAddF32 o => some { cls := .laneArith, d := .dst .v 1 1, a := .src .v 1 1, mod := 0x7, bad := o.ext.mod.toNat > 3 }
  | .lredMinS32 o => some { cls := .laneArith, d := .dst .v 1 1, a := .src .v 1 1, mod := 0x7, bad := o.ext.mod.toNat > 3 }
  | .lredMaxS32 o => some { cls := .laneArith, d := .dst .v 1 1, a := .src .v 1 1, mod := 0x7, bad := o.ext.mod.toNat > 3 }
  | .lredMinF32 o => some { cls := .laneArith, d := .dst .v 1 1, a := .src .v 1 1, mod := 0x7, bad := o.ext.mod.toNat > 3 }
  | .lredMaxF32 o => some { cls := .laneArith, d := .dst .v 1 1, a := .src .v 1 1, mod := 0x7, bad := o.ext.mod.toNat > 3 }
  | .scanAddS32 o => some { cls := .laneArith, d := .dst .v 1 1, a := .src .v 1 1, mod := 0x7, imm := 0x0001, bad := o.ext.mod.toNat > 3 }
  | .scanAddF32 o => some { cls := .laneArith, d := .dst .v 1 1, a := .src .v 1 1, mod := 0x7, imm := 0x0001, bad := o.ext.mod.toNat > 3 }
  | .ballot o => some { cls := .laneArith, d := .dst .g 3 1, a := .src .p 1 1, mod := 0x7, bad := o.ext.mod.toNat > 3 || o.d.toNat > 58 }
  | .mov _ => some { cls := .genLane, d := .dst .v 1 1, a := .src .v 1 1, unchecked := [.a] }
  | .movil _ => some { cls := .genLane, d := .dst .v 1 1, imm := 0xFFFF }
  | .movih _ => some { cls := .genLane, d := .upd .v 1 1, imm := 0xFFFF }
  | .movin _ => some { cls := .genLane, d := .dst .v 1 1, a := .base .v 1 1, b := .src .v 1 1, imm := 0xFFFF }
  | .movout _ => some { cls := .genLane, d := .obase .v 1 1, a := .src .v 1 1, b := .src .v 1 1, imm := 0xFFFF, unchecked := [.a] }
  | .gbc _ => some { cls := .genLane, d := .dst .v 1 1, a := .src .g 1 1, unchecked := [.a] }
  | .laneid _ => some { cls := .genLane, d := .dst .v 1 1 }
  | .pand _ => some { cls := .genLane, d := .dst .p 1 1, a := .src .p 1 1, b := .src .p 1 1 }
  | .por _ => some { cls := .genLane, d := .dst .p 1 1, a := .src .p 1 1, b := .src .p 1 1 }
  | .pxor _ => some { cls := .genLane, d := .dst .p 1 1, a := .src .p 1 1, b := .src .p 1 1 }
  | .pnot _ => some { cls := .genLane, d := .dst .p 1 1, a := .src .p 1 1 }
  | .pmov _ => some { cls := .genLane, d := .dst .p 1 1, a := .src .p 1 1 }
  | .mask _ => some { cls := .genLane, a := .src .p 1 1, activity := true }
  | .pact _ => some { cls := .genLane, d := .dst .p 1 1, activity := true }
  | .ld fmt o => some { cls := .genLane, d := .dst .v (ldRegs fmt) (ldRegs fmt), a := .src .v 2 2, b := if fmt = 0x0D then .src .v 1 1 else .none, c := .imm 0x1F, imm := 0xFFFF, bad := badLoadOrder o.ext.c }
  | .st fmt o => some { cls := .genLane, d := if fmt = 0x0D then .src .v 1 1 else .none, a := .src .v 2 2, b := .src .v (ldRegs fmt) (ldRegs fmt), c := .imm 0x1F, imm := 0xFFFF, bad := badStoreOrder o.ext.c, unchecked := [.b] }
  | .ldt size o => some { cls := .genLane, d := .dst .v (ldtRegs size) (ldtRegs size), a := .src .g 2 2, b := .src .v 1 1, c := .imm 0x1F, imm := 0xFFFF, bad := badLoadOrder o.ext.c }
  | .stt size o => some { cls := .genLane, d := .src .v (ldtRegs size) (ldtRegs size), a := .src .g 2 2, b := .src .v 1 1, c := .imm 0x1F, imm := 0xFFFF, bad := badStoreOrder o.ext.c, unchecked := [.d] }
  | .prefL1 _ => some { cls := .genLane, a := .src .v 2 2, imm := 0xFFFF }
  | .prefL2 _ => some { cls := .genLane, a := .src .v 2 2, imm := 0xFFFF }
  | .atomAddS32 order o => some { cls := .genLane, d := atomDst o.ext.c 1, a := .src .v 2 2, b := .src .v 1 1, c := .imm 0x3F, mod := 0x7, imm := 0xFFFF, bad := badAtom order o.ext }
  | .atomAddS64 order o => some { cls := .genLane, d := atomDst o.ext.c 2, a := .src .v 2 2, b := .src .v 2 2, c := .imm 0x3F, mod := 0x7, imm := 0xFFFF, bad := badAtom order o.ext }
  | .atomAddF32 order o => some { cls := .genLane, d := atomDst o.ext.c 1, a := .src .v 2 2, b := .src .v 1 1, c := .imm 0x3F, mod := 0x7, imm := 0xFFFF, bad := badAtom order o.ext }
  | .atomMinS32 order o => some { cls := .genLane, d := atomDst o.ext.c 1, a := .src .v 2 2, b := .src .v 1 1, c := .imm 0x3F, mod := 0x7, imm := 0xFFFF, bad := badAtom order o.ext }
  | .atomMaxS32 order o => some { cls := .genLane, d := atomDst o.ext.c 1, a := .src .v 2 2, b := .src .v 1 1, c := .imm 0x3F, mod := 0x7, imm := 0xFFFF, bad := badAtom order o.ext }
  | .atomMinN32 order o => some { cls := .genLane, d := atomDst o.ext.c 1, a := .src .v 2 2, b := .src .v 1 1, c := .imm 0x3F, mod := 0x7, imm := 0xFFFF, bad := badAtom order o.ext }
  | .atomMaxN32 order o => some { cls := .genLane, d := atomDst o.ext.c 1, a := .src .v 2 2, b := .src .v 1 1, c := .imm 0x3F, mod := 0x7, imm := 0xFFFF, bad := badAtom order o.ext }
  | .atomAnd order o => some { cls := .genLane, d := atomDst o.ext.c 1, a := .src .v 2 2, b := .src .v 1 1, c := .imm 0x3F, mod := 0x7, imm := 0xFFFF, bad := badAtom order o.ext }
  | .atomOr order o => some { cls := .genLane, d := atomDst o.ext.c 1, a := .src .v 2 2, b := .src .v 1 1, c := .imm 0x3F, mod := 0x7, imm := 0xFFFF, bad := badAtom order o.ext }
  | .atomXor order o => some { cls := .genLane, d := atomDst o.ext.c 1, a := .src .v 2 2, b := .src .v 1 1, c := .imm 0x3F, mod := 0x7, imm := 0xFFFF, bad := badAtom order o.ext }
  | .atomExch order o => some { cls := .genLane, d := atomDst o.ext.c 1, a := .src .v 2 2, b := .src .v 1 1, c := .imm 0x3F, mod := 0x7, imm := 0xFFFF, bad := badAtom order o.ext }
  | .atomInc order o => some { cls := .genLane, d := atomDst o.ext.c 1, a := .src .v 2 2, b := .src .v 1 1, c := .imm 0x3F, mod := 0x7, imm := 0xFFFF, bad := badAtom order o.ext }
  | .casB32 o => some { cls := .genLane, d := .dst .v 1 1, a := .src .v 2 2, b := .src .v 1 1, c := .src .v 1 1, mod := 0x7, imm := 0x000F, bad := badCas o.ext }
  | .casB64 o => some { cls := .genLane, d := .dst .v 2 2, a := .src .v 2 2, b := .src .v 2 2, c := .src .v 2 2, mod := 0x7, imm := 0x000F, bad := badCas o.ext }
  | .hcall _ => some { cls := .genLane, d := .dst .v 1 1, a := .src .v 2 2, b := .src .v 1 1, imm := 0x00FF }
  | .hreply _ => some { cls := .genLane, a := .src .v 1 1, unchecked := [.a] }
  | .harg _ => some { cls := .genLane, d := .dst .v 1 1, imm := 0x0003 }
  | .mxm fmts o => some { cls := .matrix, d := if mxmReadsScale fmts o.ext then .src .v 2 2 else .base .v 2 2, a := .src .v 1 1, b := .src .v 1 1, c := .imm 0x3F, mod := 0x7, imm := 0x0FFF, bad := badMxm fmts o.ext }
  | .drainF32 o => some { cls := .matrix, d := drainD 0 o.ext, a := drainA 0 o.ext, b := drainB 0, c := drainC 0 o.ext, mod := 0x5, imm := 0x07FF, bad := badDrain 0 o.ext }
  | .drainF16 o => some { cls := .matrix, d := drainD 1 o.ext, a := drainA 1 o.ext, b := drainB 1, c := drainC 1 o.ext, mod := 0x5, imm := 0x07FF, bad := badDrain 1 o.ext }
  | .drainBf16 o => some { cls := .matrix, d := drainD 2 o.ext, a := drainA 2 o.ext, b := drainB 2, c := drainC 2 o.ext, mod := 0x5, imm := 0x07FF, bad := badDrain 2 o.ext }
  | .drainE4m3mx o => some { cls := .matrix, d := drainD 3 o.ext, a := drainA 3 o.ext, b := drainB 3, c := drainC 3 o.ext, mod := 0x5, imm := 0x07FF, bad := badDrain 3 o.ext }
  | .drainE2m1x o => some { cls := .matrix, d := drainD 4 o.ext, a := drainA 4 o.ext, b := drainB 4, c := drainC 4 o.ext, mod := 0x5, imm := 0x07FF, bad := badDrain 4 o.ext }
  | .drainL8x2 o => some { cls := .matrix, d := drainD 5 o.ext, a := drainA 5 o.ext, b := drainB 5, c := drainC 5 o.ext, mod := 0x5, imm := 0x07FF, bad := badDrain 5 o.ext }
  | .drainArgmax o => some { cls := .matrix, d := drainD 6 o.ext, a := drainA 6 o.ext, b := drainB 6, c := drainC 6 o.ext, mod := 0x5, imm := 0x07FF, bad := badDrain 6 o.ext }
  | .accz _ => some { cls := .matrix, imm := 0x00FF }
  | .ipa _ => some { cls := .laneArith, d := .dst .v 1 1, a := .src .v 3 1, imm := 0x0007 }
  | .ipaPersp _ => some { cls := .laneArith, d := .dst .v 1 1, a := .src .v 3 1, b := .src .v 3 1, imm := 0x0007 }
  | .pixinfo o => some { cls := .laneArith, d := .dst .v 1 1, imm := 0x003F, bad := o.ext.imm.toNat % 16 > 4 }
  | .sample _ => some { cls := .laneArith, d := .dst .v 4 4, a := .src .v 2 2, b := .src .g 2 2 }
  | .samplel _ => some { cls := .laneArith, d := .dst .v 4 4, a := .src .v 2 2, b := .src .g 2 2, c := .src .v 1 1 }
  | .blend o => some { cls := .laneArith, a := .src .v 2 2, b := .src .v 2 2, mod := 0x7, bad := o.ext.mod.toNat > 3 }
  | .bin _ => some { cls := .laneArith, a := .src .v 12 4, b := .src .v 2 2 }
  | .recalloc _ => some { cls := .genLane, d := .dst .v 2 2, imm := 0x003F }
  | .recsend _ => some { cls := .genLane, a := .src .v 2 2 }
  | .gadd _ => some { cls := .genGroup, d := .dst .g 1 1, a := .src .g 1 1, b := .src .g 1 1 }
  | .gsub _ => some { cls := .genGroup, d := .dst .g 1 1, a := .src .g 1 1, b := .src .g 1 1 }
  | .gmul _ => some { cls := .genGroup, d := .dst .g 1 1, a := .src .g 1 1, b := .src .g 1 1 }
  | .gmulhS32 _ => some { cls := .genGroup, d := .dst .g 1 1, a := .src .g 1 1, b := .src .g 1 1 }
  | .gmulhN32 _ => some { cls := .genGroup, d := .dst .g 1 1, a := .src .g 1 1, b := .src .g 1 1 }
  | .gminS32 _ => some { cls := .genGroup, d := .dst .g 1 1, a := .src .g 1 1, b := .src .g 1 1 }
  | .gminN32 _ => some { cls := .genGroup, d := .dst .g 1 1, a := .src .g 1 1, b := .src .g 1 1 }
  | .gmaxS32 _ => some { cls := .genGroup, d := .dst .g 1 1, a := .src .g 1 1, b := .src .g 1 1 }
  | .gmaxN32 _ => some { cls := .genGroup, d := .dst .g 1 1, a := .src .g 1 1, b := .src .g 1 1 }
  | .gand _ => some { cls := .genGroup, d := .dst .g 1 1, a := .src .g 1 1, b := .src .g 1 1 }
  | .gor _ => some { cls := .genGroup, d := .dst .g 1 1, a := .src .g 1 1, b := .src .g 1 1 }
  | .gxor _ => some { cls := .genGroup, d := .dst .g 1 1, a := .src .g 1 1, b := .src .g 1 1 }
  | .gnot _ => some { cls := .genGroup, d := .dst .g 1 1, a := .src .g 1 1 }
  | .gshl _ => some { cls := .genGroup, d := .dst .g 1 1, a := .src .g 1 1, b := .src .g 1 1 }
  | .gshr _ => some { cls := .genGroup, d := .dst .g 1 1, a := .src .g 1 1, b := .src .g 1 1 }
  | .gsar _ => some { cls := .genGroup, d := .dst .g 1 1, a := .src .g 1 1, b := .src .g 1 1 }
  | .gpopc _ => some { cls := .genGroup, d := .dst .g 1 1, a := .src .g 1 1 }
  | .gclz _ => some { cls := .genGroup, d := .dst .g 1 1, a := .src .g 1 1 }
  | .gadd64 _ => some { cls := .genGroup, d := .dst .g 2 2, a := .src .g 2 2, b := .src .g 2 2 }
  | .gsub64 _ => some { cls := .genGroup, d := .dst .g 2 2, a := .src .g 2 2, b := .src .g 2 2 }
  | .gaddi _ => some { cls := .genGroup, d := .dst .g 1 1, a := .src .g 1 1 }
  | .gandi _ => some { cls := .genGroup, d := .dst .g 1 1, a := .src .g 1 1 }
  | .gori _ => some { cls := .genGroup, d := .dst .g 1 1, a := .src .g 1 1 }
  | .gmovl _ => some { cls := .genGroup, d := .dst .g 1 1 }
  | .gaddl _ => some { cls := .genGroup, d := .dst .g 1 1, a := .src .g 1 1 }
  | .gcmpEq _ => some { cls := .genGroup, d := .dst .g 1 1, a := .src .g 1 1, b := .src .g 1 1 }
  | .gcmpNe _ => some { cls := .genGroup, d := .dst .g 1 1, a := .src .g 1 1, b := .src .g 1 1 }
  | .gcmpLtS32 _ => some { cls := .genGroup, d := .dst .g 1 1, a := .src .g 1 1, b := .src .g 1 1 }
  | .gcmpLeS32 _ => some { cls := .genGroup, d := .dst .g 1 1, a := .src .g 1 1, b := .src .g 1 1 }
  | .gcmpLtN32 _ => some { cls := .genGroup, d := .dst .g 1 1, a := .src .g 1 1, b := .src .g 1 1 }
  | .gcmpLeN32 _ => some { cls := .genGroup, d := .dst .g 1 1, a := .src .g 1 1, b := .src .g 1 1 }
  | .gsel _ => some { cls := .genGroup, d := .dst .g 1 1, a := .src .g 1 1, b := .src .g 1 1, c := .src .g 1 1, unchecked := [.a, .b] }
  | .v2g _ => some { cls := .genGroup, d := .dst .g 1 1, a := .src .v 1 1, imm := 0x007F, unchecked := [.a] }
  | .v2gLane o => some { cls := .genGroup, d := .dst .g 1 1, a := .src .v 1 1, imm := 0x00FF, bad := !o.ext.imm.getLsbD 7 || o.ext.imm.toNat % 128 > 95, unchecked := [.a] }
  | .bra _ => some { cls := .genGroup }
  | .call _ => some { cls := .genGroup }
  | .jmpg _ => some { cls := .genGroup, a := .src .g 2 2 }
  | .callg _ => some { cls := .genGroup, d := .dst .g 2 2, a := .src .g 2 2 }
  | .ret _ => some { cls := .genGroup, a := .src .g 2 2 }
  | .brcEq _ => some { cls := .genGroup, a := .src .g 1 1, b := .src .g 1 1, imm := 0xFFFF }
  | .brcNe _ => some { cls := .genGroup, a := .src .g 1 1, b := .src .g 1 1, imm := 0xFFFF }
  | .brcLtS32 _ => some { cls := .genGroup, a := .src .g 1 1, b := .src .g 1 1, imm := 0xFFFF }
  | .brcLeS32 _ => some { cls := .genGroup, a := .src .g 1 1, b := .src .g 1 1, imm := 0xFFFF }
  | .brcLtN32 _ => some { cls := .genGroup, a := .src .g 1 1, b := .src .g 1 1, imm := 0xFFFF }
  | .brcLeN32 _ => some { cls := .genGroup, a := .src .g 1 1, b := .src .g 1 1, imm := 0xFFFF }
  | .brpAny _ => some { cls := .genGroup, a := .src .p 1 1, imm := 0xFFFF }
  | .brpAll _ => some { cls := .genGroup, a := .src .p 1 1, imm := 0xFFFF }
  | .brpNone _ => some { cls := .genGroup, a := .src .p 1 1, imm := 0xFFFF }
  | .regang _ => some { cls := .genGroup, trapBits := true }
  | .exit _ => some { cls := .genGroup, trapBits := true }
  | .waitAny _ => some { cls := .genGroup, d := .dst .g 1 1, a := .src .g 8 1, b := .src .g 1 1 }
  | .waitAll _ => some { cls := .genGroup, d := .dst .g 1 1, a := .src .g 8 1, b := .src .g 1 1 }
  | .barSync _ => some { cls := .genGroup }
  | .barArrive _ => some { cls := .genGroup }
  | .barCrew _ => some { cls := .genGroup }
  | .phase _ => some { cls := .genGroup, imm := 0x00FF }
  | .safe _ => some { cls := .genGroup, imm := 0xFFFF }
  | .qpush _ => some { cls := .genGroup, a := .src .g 1 1, imm := 0x000F }
  | .qpop _ => some { cls := .genGroup, d := .dst .g 1 1, imm := 0x000F }
  | .qoffer _ => some { cls := .genGroup, d := .dst .g 1 1, a := .src .g 1 1, imm := 0x000F }
  | .qpoll o => some { cls := .genGroup, d := .dst .g 2 2, imm := 0x000F, bad := o.d.toNat > 58 }
  | .copy _ => some { cls := .copy, a := .src .g 2 2 }
  | .copyw _ => some { cls := .copy, a := .src .g 2 2 }
  | .copys _ => some { cls := .copy, a := .src .g 2 2 }
  | .gateinit _ => some { cls := .copy, a := .src .g 1 1, b := .src .g 1 1, mod := 0x1, imm := 0x001F }
  | .gatearm _ => some { cls := .copy, a := .src .g 1 1, b := .src .g 1 1 }
  | .publish _ => some { cls := .copy, imm := 0x000F }
  | .xfm _ => some { cls := .copy, a := .src .g 2 2 }
  | .acqacc _ => some { cls := .matrix, a := .src .g 1 1 }
  | .relacc _ => some { cls := .matrix, a := .src .g 1 1 }
  | .hdone _ => some { cls := .genGroup }
  | .hinfo _ => some { cls := .genGroup, d := .dst .g 1 1 }
  | .tdone _ => some { cls := .genGroup }
  | .tileinfo o => some { cls := .genGroup, d := .dst .g 1 1, imm := 0x000F, bad := o.ext.imm.toNat % 16 > 3 }
  | .fenceAcq o => some { cls := .genGroup, mod := 0x7, bad := badFenceAcq o.ext }
  | .fenceRel o => some { cls := .genGroup, mod := 0x7, bad := o.ext.mod.toNat > 3 }
  | .fenceAcqrel o => some { cls := .genGroup, mod := 0x7, bad := badFenceAcq o.ext }
  | .gsys o => some { cls := .genGroup, d := .dst .g 1 1, imm := 0x0FFF, bad := !sysKnown (o.ext.imm.toNat) }
  | .ssys o => some { cls := .genGroup, a := .src .g 1 1, imm := 0x0FFF, bad := !sysKnown (o.ext.imm.toNat) }
  | .trap _ => some { cls := .genGroup, imm := 0xFFFF }
  | .rte _ => some { cls := .genGroup }
  | .bkpt _ => some { cls := .genGroup, imm := 0xFFFF }
  | .nop _ => some { cls := .genGroup }
  | .replayall _ => some { cls := .genGroup }
  | .tlbinv o => some { cls := .genGroup, a := if o.ext.mod.getLsbD 0 then .none else .src .g 2 2, b := if o.ext.mod.getLsbD 0 then .none else .src .g 1 1, mod := 0x1 }
  | .setseg o => some { cls := .genGroup, a := .src .g 2 2, imm := 0x0FFF, bad := badSegNumber (o.ext.imm.toNat) }
  | .arrayError _ => none
  | .controlNodePoolGrowth _ _ _ => none
  | .controlNodeTileAssignment _ _ _ _ => none
  | .controlNodeQueueHeadOrder _ _ _ => none

/-- The bits of a predicate field that are reserved: 5:3 (R141). A field with no use is reserved whole. -/
def FieldUse.reservedBits (u : FieldUse) : BitVec 6 :=
  match u with
  | .none => 0x3F
  | .src .p _ _ => 0x38
  | .dst .p _ _ => 0x38
  | .upd .p _ _ => 0x38
  | .imm m => ~~~m
  | _ => 0

/-- A reserved register number: an unaligned pair or group, or a range past 63 (R358 SUB 7). -/
def FieldUse.badNumber (u : FieldUse) (x : BitVec 6) : Bool :=
  let chk (n al : Nat) : Bool := x.toNat % al != 0 || 64 < x.toNat + n
  match u with
  | .src .p _ _ => false
  | .dst .p _ _ => false
  | .upd .p _ _ => false
  | .src _ n al => chk n al
  | .dst _ n al => chk n al
  | .upd _ n al => chk n al
  | .base _ n al => chk n al
  | .obase _ n al => chk n al
  | _ => false

/-- The field names a source register, so it may carry a trap bit (R139). -/
def FieldUse.trapBitOk (u : FieldUse) : Bool :=
  match u with
  | .src .v _ _ => true
  | .src .g _ _ => true
  | .upd _ _ _ => true
  | .base _ n _ => n == 1
  | _ => false

/-- The registers a field reads, in ascending number. -/
def FieldUse.reads (u : FieldUse) (x : BitVec 6) : List (RegFile × Nat) :=
  match u with
  | .src f n _ => (List.range n).map fun k => (f, x.toNat + k)
  | .upd f n _ => (List.range n).map fun k => (f, x.toNat + k)
  | _ => []

/-- The registers a field writes. -/
def FieldUse.writes (u : FieldUse) (x : BitVec 6) : List (RegFile × Nat) :=
  match u with
  | .dst f n _ => (List.range n).map fun k => (f, x.toNat + k)
  | .upd f n _ => (List.range n).map fun k => (f, x.toNat + k)
  | _ => []

/-- The registers a field names, for the .regs check (R141, R358 SUB 8). -/
def FieldUse.names (u : FieldUse) (x : BitVec 6) : List (RegFile × Nat) :=
  match u with
  | .src f n _ => (List.range n).map fun k => (f, x.toNat + k)
  | .dst f n _ => (List.range n).map fun k => (f, x.toNat + k)
  | .upd f n _ => (List.range n).map fun k => (f, x.toNat + k)
  | .base f n _ => (List.range n).map fun k => (f, x.toNat + k)
  | .obase f n _ => (List.range n).map fun k => (f, x.toNat + k)
  | _ => []

end Sys2Proof
end

