-- ==== Sys2Proof/Decode.lean ====
section
/-! DEFINITION. The decoder and the encoder (R136 to R147, R358): words to an instruction or the SUB code of an ILLEGAL
word, bytes to an instruction and the rest, and back. -/

noncomputable section

namespace Sys2Proof

/-- What the words of an instruction hold, by form (R137, R138). -/
inductive Fields where
  | register (s : Bool) (maj fn : BitVec 6) (o : Opnd)
  | immediate (s : Bool) (maj : BitVec 6) (o : OpndI)
  | branch (s : Bool) (maj : BitVec 6) (off : BitVec 24)
  | literal (s : Bool) (maj fn : BitVec 6) (o : OpndLit)
  deriving DecidableEq, Repr

/-- The extension word of its fields (R138). -/
def Ext.word (x : Ext) : Word :=
  x.c ++ x.pr ++ BitVec.ofBool x.pn ++ BitVec.ofBool x.ea ++ BitVec.ofBool x.eb ++ BitVec.ofBool x.ec ++ x.mod ++ x.imm

/-- The fields of an extension word (R138). -/
def Ext.ofWord (w : Word) : Ext :=
  { c := w.extractLsb' 26 6, pr := w.extractLsb' 23 3, pn := w.getLsbD 22, ea := w.getLsbD 21, eb := w.getLsbD 20,
    ec := w.getLsbD 19, mod := w.extractLsb' 16 3, imm := w.extractLsb' 0 16 }

/-- The words of an instruction's fields (R136, R137, R156, R185). -/
def Fields.words (f : Fields) : List Word :=
  match f with
  | .register s maj fn o =>
    (BitVec.ofBool s ++ BitVec.ofBool o.x.isSome ++ maj ++ o.d ++ o.a ++ o.b ++ fn : BitVec 32) ::
      (match o.x with | some x => [x.word] | none => [])
  | .immediate s maj o => [(BitVec.ofBool s ++ (0 : BitVec 1) ++ maj ++ o.d ++ o.a ++ o.imm : BitVec 32)]
  | .branch s maj off => [(BitVec.ofBool s ++ (0 : BitVec 1) ++ maj ++ off : BitVec 32)]
  | .literal s maj fn o =>
    [(BitVec.ofBool s ++ (1 : BitVec 1) ++ maj ++ o.d ++ o.a ++ o.b ++ fn : BitVec 32), o.lit]

/-- The form of each wave instruction and its place in the opcode maps (R144, R145): set S, major MAJ and the
fields of its words. A device event has no words. -/
def fields (i : Instr) : Option Fields :=
  match i with
  | .powerOnBringup _ => none
  | .controlRegisterWrite _ _ _ _ => none
  | .partitionReset _ _ => none
  | .partitionResize _ _ _ => none
  | .partitionStart _ _ => none
  | .queueEnable _ _ _ => none
  | .doorbell _ _ _ => none
  | .takeLaunch _ => none
  | .takeRenderpass _ => none
  | .takeGraph _ => none
  | .takeWaitevent _ => none
  | .takeSignal _ => none
  | .takeBarrier _ => none
  | .dependenceSatisfied _ => none
  | .eventCounterWrite _ _ _ _ => none
  | .workCompletion _ => none
  | .crewPlacement _ => none
  | .priorityAging _ => none
  | .placementWaitTimeout _ => none
  | .preemptionRequest _ => none
  | .safePointTimeout _ => none
  | .crewSave _ => none
  | .crewResume _ _ => none
  | .phaseStart _ _ => none
  | .producerLanding _ _ => none
  | .regangBandReady _ => none
  | .queueWaitPerformed _ _ => none
  | .waitConditionMet _ _ => none
  | .waitTimeout _ _ => none
  | .acqaccGrant _ _ => none
  | .recallocGrant _ _ => none
  | .asyncTrapDelivery _ => none
  | .translationVector _ => none
  | .faultEntryWalk _ _ => none
  | .faultRepresent _ => none
  | .faultRecordPost _ => none
  | .fresRetry _ _ _ => none
  | .fresFail _ _ _ => none
  | .loaderCheck _ => none
  | .merrClear _ => none
  | .portIncomingAccess _ _ => none
  | .portLinkDown _ => none
  | .moduleError _ => none
  | .patrolRead _ _ => none
  | .l2Writeback _ _ => none
  | .engineUnitTransfer _ _ _ _ => none
  | .madderRequestArrival _ => none
  | .madderBatchLaunch _ => none
  | .madderWindowExpiry _ => none
  | .combinerWaveStart _ => none
  | .graphBatchLaunch _ _ => none
  | .graphBatchTimeout _ _ => none
  | .renderPassStart _ => none
  | .primitiveCommit _ => none
  | .poolReset _ => none
  | .brokerIssuePass _ _ => none
  | .finalRoundStart _ => none
  | .passLoad _ => none
  | .passVisibility _ => none
  | .passGbuffer _ => none
  | .passShading _ => none
  | .passResolve _ => none
  | .resumeStore _ => none
  | .tileSpill _ => none
  | .passRestart _ => none
  | .woadRoundCommit _ => none
  | .iadd o => some (.register false 0x00 0 o)
  | .isub o => some (.register false 0x00 1 o)
  | .imul o => some (.register false 0x00 2 o)
  | .imulhS32 o => some (.register false 0x00 3 o)
  | .imulhN32 o => some (.register false 0x00 4 o)
  | .iminS32 o => some (.register false 0x00 5 o)
  | .iminN32 o => some (.register false 0x00 6 o)
  | .imaxS32 o => some (.register false 0x00 7 o)
  | .imaxN32 o => some (.register false 0x00 8 o)
  | .iabs o => some (.register false 0x00 9 o)
  | .ineg o => some (.register false 0x00 10 o)
  | .iadd64 o => some (.register false 0x00 11 o)
  | .isub64 o => some (.register false 0x00 12 o)
  | .imulwS32 o => some (.register false 0x00 13 o)
  | .imulwN32 o => some (.register false 0x00 14 o)
  | .iaddi o => some (.immediate false 0x01 o)
  | .andi o => some (.immediate false 0x02 o)
  | .ori o => some (.immediate false 0x03 o)
  | .xori o => some (.immediate false 0x04 o)
  | .and o => some (.register false 0x06 0 o)
  | .or o => some (.register false 0x06 1 o)
  | .xor o => some (.register false 0x06 2 o)
  | .andn o => some (.register false 0x06 3 o)
  | .orn o => some (.register false 0x06 4 o)
  | .xnor o => some (.register false 0x06 5 o)
  | .not o => some (.register false 0x06 6 o)
  | .shl o => some (.register false 0x06 7 o)
  | .shr o => some (.register false 0x06 8 o)
  | .sar o => some (.register false 0x06 9 o)
  | .rotl o => some (.register false 0x06 10 o)
  | .rotr o => some (.register false 0x06 11 o)
  | .shli o => some (.register false 0x06 12 o)
  | .shri o => some (.register false 0x06 13 o)
  | .sari o => some (.register false 0x06 14 o)
  | .bfxS32 o => some (.register false 0x06 15 o)
  | .bfxN32 o => some (.register false 0x06 16 o)
  | .bfi o => some (.register false 0x06 17 o)
  | .popc o => some (.register false 0x06 18 o)
  | .clz o => some (.register false 0x06 19 o)
  | .ctz o => some (.register false 0x06 20 o)
  | .brev o => some (.register false 0x06 21 o)
  | .permb o => some (.register false 0x06 22 o)
  | .imad o => some (.register false 0x07 0 o)
  | .imadhS32 o => some (.register false 0x07 1 o)
  | .imadhN32 o => some (.register false 0x07 2 o)
  | .imadwS32 o => some (.register false 0x07 3 o)
  | .imadwN32 o => some (.register false 0x07 4 o)
  | .icmpEq o => some (.register false 0x08 0 o)
  | .icmpNe o => some (.register false 0x08 1 o)
  | .icmpLtS32 o => some (.register false 0x08 2 o)
  | .icmpLeS32 o => some (.register false 0x08 3 o)
  | .icmpGtS32 o => some (.register false 0x08 4 o)
  | .icmpGeS32 o => some (.register false 0x08 5 o)
  | .icmpLtN32 o => some (.register false 0x08 6 o)
  | .icmpLeN32 o => some (.register false 0x08 7 o)
  | .icmpGtN32 o => some (.register false 0x08 8 o)
  | .icmpGeN32 o => some (.register false 0x08 9 o)
  | .sel o => some (.register false 0x09 0 o)
  | .fadd o => some (.register false 0x0A 0 o)
  | .fsub o => some (.register false 0x0A 1 o)
  | .fmul o => some (.register false 0x0A 2 o)
  | .fmin o => some (.register false 0x0A 3 o)
  | .fmax o => some (.register false 0x0A 4 o)
  | .fminm o => some (.register false 0x0A 5 o)
  | .fmaxm o => some (.register false 0x0A 6 o)
  | .fabs o => some (.register false 0x0A 7 o)
  | .fneg o => some (.register false 0x0A 8 o)
  | .fcopysign o => some (.register false 0x0A 9 o)
  | .frndRn o => some (.register false 0x0A 10 o)
  | .frndRz o => some (.register false 0x0A 11 o)
  | .frndRd o => some (.register false 0x0A 12 o)
  | .frndRu o => some (.register false 0x0A 13 o)
  | .ffract o => some (.register false 0x0A 14 o)
  | .fclass o => some (.register false 0x0A 15 o)
  | .ffma o => some (.register false 0x0B 0 o)
  | .ffms o => some (.register false 0x0B 1 o)
  | .ffnma o => some (.register false 0x0B 2 o)
  | .ffnms o => some (.register false 0x0B 3 o)
  | .fcmpEq o => some (.register false 0x0C 0 o)
  | .fcmpNe o => some (.register false 0x0C 1 o)
  | .fcmpLt o => some (.register false 0x0C 2 o)
  | .fcmpLe o => some (.register false 0x0C 3 o)
  | .fcmpGt o => some (.register false 0x0C 4 o)
  | .fcmpGe o => some (.register false 0x0C 5 o)
  | .fcmpOrd o => some (.register false 0x0C 6 o)
  | .fcmpUnord o => some (.register false 0x0C 7 o)
  | .frcp o => some (.register false 0x0D 0 o)
  | .frsq o => some (.register false 0x0D 1 o)
  | .fsqrt o => some (.register false 0x0D 2 o)
  | .fexp2 o => some (.register false 0x0D 3 o)
  | .flog2 o => some (.register false 0x0D 4 o)
  | .fsin o => some (.register false 0x0D 5 o)
  | .fcos o => some (.register false 0x0D 6 o)
  | .ftanh o => some (.register false 0x0D 7 o)
  | .fsigm o => some (.register false 0x0D 8 o)
  | .hadd2F16 o => some (.register false 0x0E 0 o)
  | .hmul2F16 o => some (.register false 0x0E 1 o)
  | .hmin2F16 o => some (.register false 0x0E 2 o)
  | .hmax2F16 o => some (.register false 0x0E 3 o)
  | .hadd2Bf16 o => some (.register false 0x0E 4 o)
  | .hmul2Bf16 o => some (.register false 0x0E 5 o)
  | .hmin2Bf16 o => some (.register false 0x0E 6 o)
  | .hmax2Bf16 o => some (.register false 0x0E 7 o)
  | .hfma2F16 o => some (.register false 0x0F 0 o)
  | .hfma2Bf16 o => some (.register false 0x0F 1 o)
  | .hdot2F16 o => some (.register false 0x0F 2 o)
  | .hdot2Bf16 o => some (.register false 0x0F 3 o)
  | .cvtF32S32 o => some (.register false 0x10 0 o)
  | .cvtF32N32 o => some (.register false 0x10 1 o)
  | .cvtS32F32 o => some (.register false 0x10 2 o)
  | .cvtN32F32 o => some (.register false 0x10 3 o)
  | .cvtF16F32 o => some (.register false 0x10 4 o)
  | .cvtBf16F32 o => some (.register false 0x10 5 o)
  | .cvtF32F16 o => some (.register false 0x10 6 o)
  | .cvtF32Bf16 o => some (.register false 0x10 7 o)
  | .cvtE4m3F32 o => some (.register false 0x10 8 o)
  | .cvtE5m2F32 o => some (.register false 0x10 9 o)
  | .cvtF32E4m3 o => some (.register false 0x10 10 o)
  | .cvtF32E5m2 o => some (.register false 0x10 11 o)
  | .cvtE2m1F32 o => some (.register false 0x10 12 o)
  | .cvtF32E2m1 o => some (.register false 0x10 13 o)
  | .qlatX2 o => some (.register false 0x11 0 o)
  | .qlatX4 o => some (.register false 0x11 1 o)
  | .dlatX2 o => some (.register false 0x11 2 o)
  | .dlatX4 o => some (.register false 0x11 3 o)
  | .laterr o => some (.register false 0x11 4 o)
  | .shflIdx o => some (.register false 0x12 0 o)
  | .shflUp o => some (.register false 0x12 1 o)
  | .shflDown o => some (.register false 0x12 2 o)
  | .shflXor o => some (.register false 0x12 3 o)
  | .pushl o => some (.register false 0x12 4 o)
  | .lredAddS32 o => some (.register false 0x12 5 o)
  | .lredAddF32 o => some (.register false 0x12 6 o)
  | .lredMinS32 o => some (.register false 0x12 7 o)
  | .lredMaxS32 o => some (.register false 0x12 8 o)
  | .lredMinF32 o => some (.register false 0x12 9 o)
  | .lredMaxF32 o => some (.register false 0x12 10 o)
  | .scanAddS32 o => some (.register false 0x12 11 o)
  | .scanAddF32 o => some (.register false 0x12 12 o)
  | .ballot o => some (.register false 0x12 13 o)
  | .mov o => some (.register false 0x13 0 o)
  | .movil o => some (.register false 0x13 1 o)
  | .movih o => some (.register false 0x13 2 o)
  | .movin o => some (.register false 0x13 3 o)
  | .movout o => some (.register false 0x13 4 o)
  | .gbc o => some (.register false 0x13 5 o)
  | .laneid o => some (.register false 0x13 6 o)
  | .pand o => some (.register false 0x14 0 o)
  | .por o => some (.register false 0x14 1 o)
  | .pxor o => some (.register false 0x14 2 o)
  | .pnot o => some (.register false 0x14 3 o)
  | .pmov o => some (.register false 0x14 4 o)
  | .mask o => some (.register false 0x14 5 o)
  | .pact o => some (.register false 0x14 6 o)
  | .ld fmt o => some (.register false 0x15 fmt o)
  | .st fmt o => some (.register false 0x16 fmt o)
  | .ldt size o => some (.register false 0x17 size o)
  | .stt size o => some (.register false 0x18 size o)
  | .prefL1 o => some (.register false 0x1C 0 o)
  | .prefL2 o => some (.register false 0x1C 1 o)
  | .atomAddS32 order o => some (.register false 0x19 (order ++ (0 : BitVec 4)) o)
  | .atomAddS64 order o => some (.register false 0x19 (order ++ (1 : BitVec 4)) o)
  | .atomAddF32 order o => some (.register false 0x19 (order ++ (2 : BitVec 4)) o)
  | .atomMinS32 order o => some (.register false 0x19 (order ++ (3 : BitVec 4)) o)
  | .atomMaxS32 order o => some (.register false 0x19 (order ++ (4 : BitVec 4)) o)
  | .atomMinN32 order o => some (.register false 0x19 (order ++ (5 : BitVec 4)) o)
  | .atomMaxN32 order o => some (.register false 0x19 (order ++ (6 : BitVec 4)) o)
  | .atomAnd order o => some (.register false 0x19 (order ++ (7 : BitVec 4)) o)
  | .atomOr order o => some (.register false 0x19 (order ++ (8 : BitVec 4)) o)
  | .atomXor order o => some (.register false 0x19 (order ++ (9 : BitVec 4)) o)
  | .atomExch order o => some (.register false 0x19 (order ++ (10 : BitVec 4)) o)
  | .atomInc order o => some (.register false 0x19 (order ++ (11 : BitVec 4)) o)
  | .casB32 o => some (.register false 0x1A 0 o)
  | .casB64 o => some (.register false 0x1A 1 o)
  | .hcall o => some (.register false 0x1B 0 o)
  | .hreply o => some (.register false 0x1B 1 o)
  | .harg o => some (.register false 0x1B 2 o)
  | .mxm fmts o => some (.register false 0x1D fmts o)
  | .drainF32 o => some (.register false 0x1E 0 o)
  | .drainF16 o => some (.register false 0x1E 1 o)
  | .drainBf16 o => some (.register false 0x1E 2 o)
  | .drainE4m3mx o => some (.register false 0x1E 3 o)
  | .drainE2m1x o => some (.register false 0x1E 4 o)
  | .drainL8x2 o => some (.register false 0x1E 5 o)
  | .drainArgmax o => some (.register false 0x1E 6 o)
  | .accz o => some (.register false 0x1E 7 o)
  | .ipa o => some (.register false 0x1F 0 o)
  | .ipaPersp o => some (.register false 0x1F 1 o)
  | .pixinfo o => some (.register false 0x1F 2 o)
  | .sample o => some (.register false 0x1F 3 o)
  | .samplel o => some (.register false 0x1F 4 o)
  | .blend o => some (.register false 0x1F 5 o)
  | .bin o => some (.register false 0x1F 6 o)
  | .recalloc o => some (.register false 0x20 0 o)
  | .recsend o => some (.register false 0x20 1 o)
  | .gadd o => some (.register true 0x00 0 o)
  | .gsub o => some (.register true 0x00 1 o)
  | .gmul o => some (.register true 0x00 2 o)
  | .gmulhS32 o => some (.register true 0x00 3 o)
  | .gmulhN32 o => some (.register true 0x00 4 o)
  | .gminS32 o => some (.register true 0x00 5 o)
  | .gminN32 o => some (.register true 0x00 6 o)
  | .gmaxS32 o => some (.register true 0x00 7 o)
  | .gmaxN32 o => some (.register true 0x00 8 o)
  | .gand o => some (.register true 0x00 9 o)
  | .gor o => some (.register true 0x00 10 o)
  | .gxor o => some (.register true 0x00 11 o)
  | .gnot o => some (.register true 0x00 12 o)
  | .gshl o => some (.register true 0x00 13 o)
  | .gshr o => some (.register true 0x00 14 o)
  | .gsar o => some (.register true 0x00 15 o)
  | .gpopc o => some (.register true 0x00 16 o)
  | .gclz o => some (.register true 0x00 17 o)
  | .gadd64 o => some (.register true 0x00 18 o)
  | .gsub64 o => some (.register true 0x00 19 o)
  | .gaddi o => some (.immediate true 0x01 o)
  | .gandi o => some (.immediate true 0x02 o)
  | .gori o => some (.immediate true 0x03 o)
  | .gmovl o => some (.literal true 0x04 0 o)
  | .gaddl o => some (.literal true 0x04 1 o)
  | .gcmpEq o => some (.register true 0x05 0 o)
  | .gcmpNe o => some (.register true 0x05 1 o)
  | .gcmpLtS32 o => some (.register true 0x05 2 o)
  | .gcmpLeS32 o => some (.register true 0x05 3 o)
  | .gcmpLtN32 o => some (.register true 0x05 4 o)
  | .gcmpLeN32 o => some (.register true 0x05 5 o)
  | .gsel o => some (.register true 0x06 0 o)
  | .v2g o => some (.register true 0x07 0 o)
  | .v2gLane o => some (.register true 0x07 0 o)
  | .bra off => some (.branch true 0x08 off)
  | .call off => some (.branch true 0x09 off)
  | .jmpg o => some (.register true 0x0C 0 o)
  | .callg o => some (.register true 0x0C 1 o)
  | .ret o => some (.register true 0x0C 2 o)
  | .brcEq o => some (.register true 0x0A 0 o)
  | .brcNe o => some (.register true 0x0A 1 o)
  | .brcLtS32 o => some (.register true 0x0A 2 o)
  | .brcLeS32 o => some (.register true 0x0A 3 o)
  | .brcLtN32 o => some (.register true 0x0A 4 o)
  | .brcLeN32 o => some (.register true 0x0A 5 o)
  | .brpAny o => some (.register true 0x0B 0 o)
  | .brpAll o => some (.register true 0x0B 1 o)
  | .brpNone o => some (.register true 0x0B 2 o)
  | .regang o => some (.register true 0x0D 0 o)
  | .exit o => some (.register true 0x0D 1 o)
  | .waitAny o => some (.register true 0x0E 0 o)
  | .waitAll o => some (.register true 0x0E 1 o)
  | .barSync o => some (.register true 0x0F 0 o)
  | .barArrive o => some (.register true 0x0F 1 o)
  | .barCrew o => some (.register true 0x0F 2 o)
  | .phase o => some (.register true 0x10 0 o)
  | .safe o => some (.register true 0x11 0 o)
  | .qpush o => some (.register true 0x12 0 o)
  | .qpop o => some (.register true 0x12 1 o)
  | .qoffer o => some (.register true 0x12 2 o)
  | .qpoll o => some (.register true 0x12 3 o)
  | .copy o => some (.register true 0x13 0 o)
  | .copyw o => some (.register true 0x13 1 o)
  | .copys o => some (.register true 0x13 2 o)
  | .gateinit o => some (.register true 0x13 3 o)
  | .gatearm o => some (.register true 0x13 4 o)
  | .publish o => some (.register true 0x13 5 o)
  | .xfm o => some (.register true 0x14 0 o)
  | .acqacc o => some (.register true 0x15 0 o)
  | .relacc o => some (.register true 0x15 1 o)
  | .hdone o => some (.register true 0x16 0 o)
  | .hinfo o => some (.register true 0x16 1 o)
  | .tdone o => some (.register true 0x17 0 o)
  | .tileinfo o => some (.register true 0x17 1 o)
  | .fenceAcq o => some (.register true 0x18 0 o)
  | .fenceRel o => some (.register true 0x18 1 o)
  | .fenceAcqrel o => some (.register true 0x18 2 o)
  | .gsys o => some (.register true 0x19 0 o)
  | .ssys o => some (.register true 0x19 1 o)
  | .trap o => some (.register true 0x19 2 o)
  | .rte o => some (.register true 0x19 3 o)
  | .bkpt o => some (.register true 0x19 4 o)
  | .nop o => some (.register true 0x19 5 o)
  | .replayall o => some (.register true 0x19 6 o)
  | .tlbinv o => some (.register true 0x19 7 o)
  | .setseg o => some (.register true 0x19 8 o)
  | .arrayError _ => none
  | .controlNodePoolGrowth _ _ _ => none
  | .controlNodeTileAssignment _ _ _ _ => none
  | .controlNodeQueueHeadOrder _ _ _ => none

/-- The minors of the lane-set major 0x00 (R144). -/
def laneMinor00 (fn : BitVec 6) (o : Opnd) : Option Instr :=
  match fn.toNat with
  | 0 => some (.iadd o)
  | 1 => some (.isub o)
  | 2 => some (.imul o)
  | 3 => some (.imulhS32 o)
  | 4 => some (.imulhN32 o)
  | 5 => some (.iminS32 o)
  | 6 => some (.iminN32 o)
  | 7 => some (.imaxS32 o)
  | 8 => some (.imaxN32 o)
  | 9 => some (.iabs o)
  | 10 => some (.ineg o)
  | 11 => some (.iadd64 o)
  | 12 => some (.isub64 o)
  | 13 => some (.imulwS32 o)
  | 14 => some (.imulwN32 o)
  | _ => none

/-- The minors of the lane-set major 0x06 (R144). -/
def laneMinor06 (fn : BitVec 6) (o : Opnd) : Option Instr :=
  match fn.toNat with
  | 0 => some (.and o)
  | 1 => some (.or o)
  | 2 => some (.xor o)
  | 3 => some (.andn o)
  | 4 => some (.orn o)
  | 5 => some (.xnor o)
  | 6 => some (.not o)
  | 7 => some (.shl o)
  | 8 => some (.shr o)
  | 9 => some (.sar o)
  | 10 => some (.rotl o)
  | 11 => some (.rotr o)
  | 12 => some (.shli o)
  | 13 => some (.shri o)
  | 14 => some (.sari o)
  | 15 => some (.bfxS32 o)
  | 16 => some (.bfxN32 o)
  | 17 => some (.bfi o)
  | 18 => some (.popc o)
  | 19 => some (.clz o)
  | 20 => some (.ctz o)
  | 21 => some (.brev o)
  | 22 => some (.permb o)
  | _ => none

/-- The minors of the lane-set major 0x07 (R144). -/
def laneMinor07 (fn : BitVec 6) (o : Opnd) : Option Instr :=
  match fn.toNat with
  | 0 => some (.imad o)
  | 1 => some (.imadhS32 o)
  | 2 => some (.imadhN32 o)
  | 3 => some (.imadwS32 o)
  | 4 => some (.imadwN32 o)
  | _ => none

/-- The minors of the lane-set major 0x08 (R144). -/
def laneMinor08 (fn : BitVec 6) (o : Opnd) : Option Instr :=
  match fn.toNat with
  | 0 => some (.icmpEq o)
  | 1 => some (.icmpNe o)
  | 2 => some (.icmpLtS32 o)
  | 3 => some (.icmpLeS32 o)
  | 4 => some (.icmpGtS32 o)
  | 5 => some (.icmpGeS32 o)
  | 6 => some (.icmpLtN32 o)
  | 7 => some (.icmpLeN32 o)
  | 8 => some (.icmpGtN32 o)
  | 9 => some (.icmpGeN32 o)
  | _ => none

/-- The minors of the lane-set major 0x09 (R144). -/
def laneMinor09 (fn : BitVec 6) (o : Opnd) : Option Instr :=
  match fn.toNat with
  | 0 => some (.sel o)
  | _ => none

/-- The minors of the lane-set major 0x0A (R144). -/
def laneMinor0A (fn : BitVec 6) (o : Opnd) : Option Instr :=
  match fn.toNat with
  | 0 => some (.fadd o)
  | 1 => some (.fsub o)
  | 2 => some (.fmul o)
  | 3 => some (.fmin o)
  | 4 => some (.fmax o)
  | 5 => some (.fminm o)
  | 6 => some (.fmaxm o)
  | 7 => some (.fabs o)
  | 8 => some (.fneg o)
  | 9 => some (.fcopysign o)
  | 10 => some (.frndRn o)
  | 11 => some (.frndRz o)
  | 12 => some (.frndRd o)
  | 13 => some (.frndRu o)
  | 14 => some (.ffract o)
  | 15 => some (.fclass o)
  | _ => none

/-- The minors of the lane-set major 0x0B (R144). -/
def laneMinor0B (fn : BitVec 6) (o : Opnd) : Option Instr :=
  match fn.toNat with
  | 0 => some (.ffma o)
  | 1 => some (.ffms o)
  | 2 => some (.ffnma o)
  | 3 => some (.ffnms o)
  | _ => none

/-- The minors of the lane-set major 0x0C (R144). -/
def laneMinor0C (fn : BitVec 6) (o : Opnd) : Option Instr :=
  match fn.toNat with
  | 0 => some (.fcmpEq o)
  | 1 => some (.fcmpNe o)
  | 2 => some (.fcmpLt o)
  | 3 => some (.fcmpLe o)
  | 4 => some (.fcmpGt o)
  | 5 => some (.fcmpGe o)
  | 6 => some (.fcmpOrd o)
  | 7 => some (.fcmpUnord o)
  | _ => none

/-- The minors of the lane-set major 0x0D (R144). -/
def laneMinor0D (fn : BitVec 6) (o : Opnd) : Option Instr :=
  match fn.toNat with
  | 0 => some (.frcp o)
  | 1 => some (.frsq o)
  | 2 => some (.fsqrt o)
  | 3 => some (.fexp2 o)
  | 4 => some (.flog2 o)
  | 5 => some (.fsin o)
  | 6 => some (.fcos o)
  | 7 => some (.ftanh o)
  | 8 => some (.fsigm o)
  | _ => none

/-- The minors of the lane-set major 0x0E (R144). -/
def laneMinor0E (fn : BitVec 6) (o : Opnd) : Option Instr :=
  match fn.toNat with
  | 0 => some (.hadd2F16 o)
  | 1 => some (.hmul2F16 o)
  | 2 => some (.hmin2F16 o)
  | 3 => some (.hmax2F16 o)
  | 4 => some (.hadd2Bf16 o)
  | 5 => some (.hmul2Bf16 o)
  | 6 => some (.hmin2Bf16 o)
  | 7 => some (.hmax2Bf16 o)
  | _ => none

/-- The minors of the lane-set major 0x0F (R144). -/
def laneMinor0F (fn : BitVec 6) (o : Opnd) : Option Instr :=
  match fn.toNat with
  | 0 => some (.hfma2F16 o)
  | 1 => some (.hfma2Bf16 o)
  | 2 => some (.hdot2F16 o)
  | 3 => some (.hdot2Bf16 o)
  | _ => none

/-- The minors of the lane-set major 0x10 (R144). -/
def laneMinor10 (fn : BitVec 6) (o : Opnd) : Option Instr :=
  match fn.toNat with
  | 0 => some (.cvtF32S32 o)
  | 1 => some (.cvtF32N32 o)
  | 2 => some (.cvtS32F32 o)
  | 3 => some (.cvtN32F32 o)
  | 4 => some (.cvtF16F32 o)
  | 5 => some (.cvtBf16F32 o)
  | 6 => some (.cvtF32F16 o)
  | 7 => some (.cvtF32Bf16 o)
  | 8 => some (.cvtE4m3F32 o)
  | 9 => some (.cvtE5m2F32 o)
  | 10 => some (.cvtF32E4m3 o)
  | 11 => some (.cvtF32E5m2 o)
  | 12 => some (.cvtE2m1F32 o)
  | 13 => some (.cvtF32E2m1 o)
  | _ => none

/-- The minors of the lane-set major 0x11 (R144). -/
def laneMinor11 (fn : BitVec 6) (o : Opnd) : Option Instr :=
  match fn.toNat with
  | 0 => some (.qlatX2 o)
  | 1 => some (.qlatX4 o)
  | 2 => some (.dlatX2 o)
  | 3 => some (.dlatX4 o)
  | 4 => some (.laterr o)
  | _ => none

/-- The minors of the lane-set major 0x12 (R144). -/
def laneMinor12 (fn : BitVec 6) (o : Opnd) : Option Instr :=
  match fn.toNat with
  | 0 => some (.shflIdx o)
  | 1 => some (.shflUp o)
  | 2 => some (.shflDown o)
  | 3 => some (.shflXor o)
  | 4 => some (.pushl o)
  | 5 => some (.lredAddS32 o)
  | 6 => some (.lredAddF32 o)
  | 7 => some (.lredMinS32 o)
  | 8 => some (.lredMaxS32 o)
  | 9 => some (.lredMinF32 o)
  | 10 => some (.lredMaxF32 o)
  | 11 => some (.scanAddS32 o)
  | 12 => some (.scanAddF32 o)
  | 13 => some (.ballot o)
  | _ => none

/-- The minors of the lane-set major 0x13 (R144). -/
def laneMinor13 (fn : BitVec 6) (o : Opnd) : Option Instr :=
  match fn.toNat with
  | 0 => some (.mov o)
  | 1 => some (.movil o)
  | 2 => some (.movih o)
  | 3 => some (.movin o)
  | 4 => some (.movout o)
  | 5 => some (.gbc o)
  | 6 => some (.laneid o)
  | _ => none

/-- The minors of the lane-set major 0x14 (R144). -/
def laneMinor14 (fn : BitVec 6) (o : Opnd) : Option Instr :=
  match fn.toNat with
  | 0 => some (.pand o)
  | 1 => some (.por o)
  | 2 => some (.pxor o)
  | 3 => some (.pnot o)
  | 4 => some (.pmov o)
  | 5 => some (.mask o)
  | 6 => some (.pact o)
  | _ => none

/-- The minors of the lane-set major 0x15 (R144). -/
def laneMinor15 (fn : BitVec 6) (o : Opnd) : Option Instr :=
  if ldFormat fn then some (.ld fn o) else none

/-- The minors of the lane-set major 0x16 (R144). -/
def laneMinor16 (fn : BitVec 6) (o : Opnd) : Option Instr :=
  if ldFormat fn then some (.st fn o) else none

/-- The minors of the lane-set major 0x17 (R144). -/
def laneMinor17 (fn : BitVec 6) (o : Opnd) : Option Instr :=
  if fn.toNat < 3 then some (.ldt fn o) else none

/-- The minors of the lane-set major 0x18 (R144). -/
def laneMinor18 (fn : BitVec 6) (o : Opnd) : Option Instr :=
  if fn.toNat < 3 then some (.stt fn o) else none

/-- The minors of the lane-set major 0x19 (R144). -/
def laneMinor19 (fn : BitVec 6) (o : Opnd) : Option Instr :=
  match fn.toNat % 16 with
  | 0 => some (.atomAddS32 (fn.extractLsb' 4 2) o)
  | 1 => some (.atomAddS64 (fn.extractLsb' 4 2) o)
  | 2 => some (.atomAddF32 (fn.extractLsb' 4 2) o)
  | 3 => some (.atomMinS32 (fn.extractLsb' 4 2) o)
  | 4 => some (.atomMaxS32 (fn.extractLsb' 4 2) o)
  | 5 => some (.atomMinN32 (fn.extractLsb' 4 2) o)
  | 6 => some (.atomMaxN32 (fn.extractLsb' 4 2) o)
  | 7 => some (.atomAnd (fn.extractLsb' 4 2) o)
  | 8 => some (.atomOr (fn.extractLsb' 4 2) o)
  | 9 => some (.atomXor (fn.extractLsb' 4 2) o)
  | 10 => some (.atomExch (fn.extractLsb' 4 2) o)
  | 11 => some (.atomInc (fn.extractLsb' 4 2) o)
  | _ => none

/-- The minors of the lane-set major 0x1A (R144). -/
def laneMinor1A (fn : BitVec 6) (o : Opnd) : Option Instr :=
  match fn.toNat with
  | 0 => some (.casB32 o)
  | 1 => some (.casB64 o)
  | _ => none

/-- The minors of the lane-set major 0x1B (R144). -/
def laneMinor1B (fn : BitVec 6) (o : Opnd) : Option Instr :=
  match fn.toNat with
  | 0 => some (.hcall o)
  | 1 => some (.hreply o)
  | 2 => some (.harg o)
  | _ => none

/-- The minors of the lane-set major 0x1C (R144). -/
def laneMinor1C (fn : BitVec 6) (o : Opnd) : Option Instr :=
  match fn.toNat with
  | 0 => some (.prefL1 o)
  | 1 => some (.prefL2 o)
  | _ => none

/-- The minors of the lane-set major 0x1D (R144). -/
def laneMinor1D (fn : BitVec 6) (o : Opnd) : Option Instr :=
  if fn.toNat % 8 < 6 then some (.mxm fn o) else none

/-- The minors of the lane-set major 0x1E (R144). -/
def laneMinor1E (fn : BitVec 6) (o : Opnd) : Option Instr :=
  match fn.toNat with
  | 0 => some (.drainF32 o)
  | 1 => some (.drainF16 o)
  | 2 => some (.drainBf16 o)
  | 3 => some (.drainE4m3mx o)
  | 4 => some (.drainE2m1x o)
  | 5 => some (.drainL8x2 o)
  | 6 => some (.drainArgmax o)
  | 7 => some (.accz o)
  | _ => none

/-- The minors of the lane-set major 0x1F (R144). -/
def laneMinor1F (fn : BitVec 6) (o : Opnd) : Option Instr :=
  match fn.toNat with
  | 0 => some (.ipa o)
  | 1 => some (.ipaPersp o)
  | 2 => some (.pixinfo o)
  | 3 => some (.sample o)
  | 4 => some (.samplel o)
  | 5 => some (.blend o)
  | 6 => some (.bin o)
  | _ => none

/-- The minors of the lane-set major 0x20 (R144). -/
def laneMinor20 (fn : BitVec 6) (o : Opnd) : Option Instr :=
  match fn.toNat with
  | 0 => some (.recalloc o)
  | 1 => some (.recsend o)
  | _ => none

/-- The minors of the group-set major 0x00 (R145). -/
def groupMinor00 (fn : BitVec 6) (o : Opnd) : Option Instr :=
  match fn.toNat with
  | 0 => some (.gadd o)
  | 1 => some (.gsub o)
  | 2 => some (.gmul o)
  | 3 => some (.gmulhS32 o)
  | 4 => some (.gmulhN32 o)
  | 5 => some (.gminS32 o)
  | 6 => some (.gminN32 o)
  | 7 => some (.gmaxS32 o)
  | 8 => some (.gmaxN32 o)
  | 9 => some (.gand o)
  | 10 => some (.gor o)
  | 11 => some (.gxor o)
  | 12 => some (.gnot o)
  | 13 => some (.gshl o)
  | 14 => some (.gshr o)
  | 15 => some (.gsar o)
  | 16 => some (.gpopc o)
  | 17 => some (.gclz o)
  | 18 => some (.gadd64 o)
  | 19 => some (.gsub64 o)
  | _ => none

/-- The minors of the group-set major 0x04 (R145). -/
def groupMinor04 (fn : BitVec 6) (o : OpndLit) : Option Instr :=
  match fn.toNat with
  | 0 => some (.gmovl o)
  | 1 => some (.gaddl o)
  | _ => none

/-- The minors of the group-set major 0x05 (R145). -/
def groupMinor05 (fn : BitVec 6) (o : Opnd) : Option Instr :=
  match fn.toNat with
  | 0 => some (.gcmpEq o)
  | 1 => some (.gcmpNe o)
  | 2 => some (.gcmpLtS32 o)
  | 3 => some (.gcmpLeS32 o)
  | 4 => some (.gcmpLtN32 o)
  | 5 => some (.gcmpLeN32 o)
  | _ => none

/-- The minors of the group-set major 0x06 (R145). -/
def groupMinor06 (fn : BitVec 6) (o : Opnd) : Option Instr :=
  match fn.toNat with
  | 0 => some (.gsel o)
  | _ => none

/-- The minors of the group-set major 0x07 (R145). -/
def groupMinor07 (fn : BitVec 6) (o : Opnd) : Option Instr :=
  match fn.toNat with
  | 0 => if o.ext.imm.getLsbD 7 then some (.v2gLane o) else some (.v2g o)
  | _ => none

/-- The minors of the group-set major 0x0A (R145). -/
def groupMinor0A (fn : BitVec 6) (o : Opnd) : Option Instr :=
  match fn.toNat with
  | 0 => some (.brcEq o)
  | 1 => some (.brcNe o)
  | 2 => some (.brcLtS32 o)
  | 3 => some (.brcLeS32 o)
  | 4 => some (.brcLtN32 o)
  | 5 => some (.brcLeN32 o)
  | _ => none

/-- The minors of the group-set major 0x0B (R145). -/
def groupMinor0B (fn : BitVec 6) (o : Opnd) : Option Instr :=
  match fn.toNat with
  | 0 => some (.brpAny o)
  | 1 => some (.brpAll o)
  | 2 => some (.brpNone o)
  | _ => none

/-- The minors of the group-set major 0x0C (R145). -/
def groupMinor0C (fn : BitVec 6) (o : Opnd) : Option Instr :=
  match fn.toNat with
  | 0 => some (.jmpg o)
  | 1 => some (.callg o)
  | 2 => some (.ret o)
  | _ => none

/-- The minors of the group-set major 0x0D (R145). -/
def groupMinor0D (fn : BitVec 6) (o : Opnd) : Option Instr :=
  match fn.toNat with
  | 0 => some (.regang o)
  | 1 => some (.exit o)
  | _ => none

/-- The minors of the group-set major 0x0E (R145). -/
def groupMinor0E (fn : BitVec 6) (o : Opnd) : Option Instr :=
  match fn.toNat with
  | 0 => some (.waitAny o)
  | 1 => some (.waitAll o)
  | _ => none

/-- The minors of the group-set major 0x0F (R145). -/
def groupMinor0F (fn : BitVec 6) (o : Opnd) : Option Instr :=
  match fn.toNat with
  | 0 => some (.barSync o)
  | 1 => some (.barArrive o)
  | 2 => some (.barCrew o)
  | _ => none

/-- The minors of the group-set major 0x10 (R145). -/
def groupMinor10 (fn : BitVec 6) (o : Opnd) : Option Instr :=
  match fn.toNat with
  | 0 => some (.phase o)
  | _ => none

/-- The minors of the group-set major 0x11 (R145). -/
def groupMinor11 (fn : BitVec 6) (o : Opnd) : Option Instr :=
  match fn.toNat with
  | 0 => some (.safe o)
  | _ => none

/-- The minors of the group-set major 0x12 (R145). -/
def groupMinor12 (fn : BitVec 6) (o : Opnd) : Option Instr :=
  match fn.toNat with
  | 0 => some (.qpush o)
  | 1 => some (.qpop o)
  | 2 => some (.qoffer o)
  | 3 => some (.qpoll o)
  | _ => none

/-- The minors of the group-set major 0x13 (R145). -/
def groupMinor13 (fn : BitVec 6) (o : Opnd) : Option Instr :=
  match fn.toNat with
  | 0 => some (.copy o)
  | 1 => some (.copyw o)
  | 2 => some (.copys o)
  | 3 => some (.gateinit o)
  | 4 => some (.gatearm o)
  | 5 => some (.publish o)
  | _ => none

/-- The minors of the group-set major 0x14 (R145). -/
def groupMinor14 (fn : BitVec 6) (o : Opnd) : Option Instr :=
  match fn.toNat with
  | 0 => some (.xfm o)
  | _ => none

/-- The minors of the group-set major 0x15 (R145). -/
def groupMinor15 (fn : BitVec 6) (o : Opnd) : Option Instr :=
  match fn.toNat with
  | 0 => some (.acqacc o)
  | 1 => some (.relacc o)
  | _ => none

/-- The minors of the group-set major 0x16 (R145). -/
def groupMinor16 (fn : BitVec 6) (o : Opnd) : Option Instr :=
  match fn.toNat with
  | 0 => some (.hdone o)
  | 1 => some (.hinfo o)
  | _ => none

/-- The minors of the group-set major 0x17 (R145). -/
def groupMinor17 (fn : BitVec 6) (o : Opnd) : Option Instr :=
  match fn.toNat with
  | 0 => some (.tdone o)
  | 1 => some (.tileinfo o)
  | _ => none

/-- The minors of the group-set major 0x18 (R145). -/
def groupMinor18 (fn : BitVec 6) (o : Opnd) : Option Instr :=
  match fn.toNat with
  | 0 => some (.fenceAcq o)
  | 1 => some (.fenceRel o)
  | 2 => some (.fenceAcqrel o)
  | _ => none

/-- The minors of the group-set major 0x19 (R145). -/
def groupMinor19 (fn : BitVec 6) (o : Opnd) : Option Instr :=
  match fn.toNat with
  | 0 => some (.gsys o)
  | 1 => some (.ssys o)
  | 2 => some (.trap o)
  | 3 => some (.rte o)
  | 4 => some (.bkpt o)
  | 5 => some (.nop o)
  | 6 => some (.replayall o)
  | 7 => some (.tlbinv o)
  | 8 => some (.setseg o)
  | _ => none

/-- The lane-set register form: every assigned major, by its minors. -/
def laneRegister (maj fn : BitVec 6) (o : Opnd) : Option Instr :=
  match maj.toNat with
  | 0 => laneMinor00 fn o
  | 6 => laneMinor06 fn o
  | 7 => laneMinor07 fn o
  | 8 => laneMinor08 fn o
  | 9 => laneMinor09 fn o
  | 10 => laneMinor0A fn o
  | 11 => laneMinor0B fn o
  | 12 => laneMinor0C fn o
  | 13 => laneMinor0D fn o
  | 14 => laneMinor0E fn o
  | 15 => laneMinor0F fn o
  | 16 => laneMinor10 fn o
  | 17 => laneMinor11 fn o
  | 18 => laneMinor12 fn o
  | 19 => laneMinor13 fn o
  | 20 => laneMinor14 fn o
  | 21 => laneMinor15 fn o
  | 22 => laneMinor16 fn o
  | 23 => laneMinor17 fn o
  | 24 => laneMinor18 fn o
  | 25 => laneMinor19 fn o
  | 26 => laneMinor1A fn o
  | 27 => laneMinor1B fn o
  | 28 => laneMinor1C fn o
  | 29 => laneMinor1D fn o
  | 30 => laneMinor1E fn o
  | 31 => laneMinor1F fn o
  | 32 => laneMinor20 fn o
  | _ => none

/-- The group-set register form: every assigned major, by its minors. -/
def groupRegister (maj fn : BitVec 6) (o : Opnd) : Option Instr :=
  match maj.toNat with
  | 0 => groupMinor00 fn o
  | 5 => groupMinor05 fn o
  | 6 => groupMinor06 fn o
  | 7 => groupMinor07 fn o
  | 10 => groupMinor0A fn o
  | 11 => groupMinor0B fn o
  | 12 => groupMinor0C fn o
  | 13 => groupMinor0D fn o
  | 14 => groupMinor0E fn o
  | 15 => groupMinor0F fn o
  | 16 => groupMinor10 fn o
  | 17 => groupMinor11 fn o
  | 18 => groupMinor12 fn o
  | 19 => groupMinor13 fn o
  | 20 => groupMinor14 fn o
  | 21 => groupMinor15 fn o
  | 22 => groupMinor16 fn o
  | 23 => groupMinor17 fn o
  | 24 => groupMinor18 fn o
  | 25 => groupMinor19 fn o
  | _ => none

/-- The majors that the opcode maps assign (R144, R145). -/
def majorAssigned (s : Bool) (maj : BitVec 6) : Bool :=
  if s then maj.toNat ≤ 0x19 else maj.toNat ≤ 0x20 && maj.toNat != 0x05

/-- The majors of the LI, GI and GB forms (R144, R145). -/
def shortForm (s : Bool) (maj : BitVec 6) : Bool :=
  if s then (1 ≤ maj.toNat && maj.toNat ≤ 3) || maj.toNat == 8 || maj.toNat == 9
  else 1 ≤ maj.toNat && maj.toNat ≤ 4

/-- The majors marked +X: they always carry an extension word (R139, R144, R145). -/
def plusX (s : Bool) (maj : BitVec 6) : Bool :=
  if s then
    !(shortForm s maj) && !([0x00, 0x05, 0x07, 0x0C, 0x0D, 0x16].contains maj.toNat)
  else
    !(shortForm s maj) && !([0x00, 0x06, 0x08, 0x0A, 0x0C, 0x0D, 0x0E, 0x10, 0x14].contains maj.toNat)

/-- The instruction of an LI, GI or GB word (R159, R187, R192). -/
def shortInstr (s : Bool) (maj : BitVec 6) (o : OpndI) (off : BitVec 24) : Option Instr :=
  match s, maj.toNat with
  | false, 1 => some (.iaddi o)
  | false, 2 => some (.andi o)
  | false, 3 => some (.ori o)
  | false, 4 => some (.xori o)
  | true, 1 => some (.gaddi o)
  | true, 2 => some (.gandi o)
  | true, 3 => some (.gori o)
  | true, 8 => some (.bra off)
  | true, 9 => some (.call off)
  | _, _ => none

/-- A nonzero reserved field of the base word or the extension word (R140, R358 SUB 3). -/
def reservedNonzero (g : Sig) (o : Opnd) : Bool :=
  let e := o.ext
  (g.d.reservedBits &&& o.d) != 0 || (g.a.reservedBits &&& o.a) != 0 || (g.b.reservedBits &&& o.b) != 0 ||
    (g.c.reservedBits &&& e.c) != 0 || (~~~g.mod &&& e.mod) != 0 || (~~~g.imm &&& e.imm) != 0 ||
    (!g.trapBits && ((e.ea && !g.a.trapBitOk) || (e.eb && !g.b.trapBitOk) || (e.ec && !g.c.trapBitOk)))

/-- A reserved value (R358 SUB 7). -/
def reservedValue (g : Sig) (o : Opnd) : Bool :=
  g.d.badNumber o.d || g.a.badNumber o.a || g.b.badNumber o.b || g.c.badNumber o.ext.c || g.bad

/-- The SUB code of an instruction whose fields are not those of an instruction, in the order of R358. -/
def illegalSub (i : Instr) : Option Nat :=
  match fields i, sig i with
  | some (.register s maj _ o), some g =>
    if reservedNonzero g o then some 3
    else if plusX s maj && o.x.isNone then some 5
    else if s && (o.ext.pr != 7 || o.ext.pn) then some 6
    else if reservedValue g o then some 7
    else none
  | some (.literal _ _ _ o), some g =>
    if (g.a.reservedBits &&& o.a) != 0 || (g.b.reservedBits &&& o.b) != 0 then some 3 else none
  | _, _ => none

/-- The instruction that the fields of a register-form word name, before its reserved fields are checked: SUB 1 for
an unassigned major, SUB 2 for a minor its major does not list (R358). -/
def registerInstr (s : Bool) (maj fn : BitVec 6) (o : Opnd) : Except Nat Instr :=
  if !majorAssigned s maj then .error 1
  else match (if s then groupRegister maj fn o else laneRegister maj fn o) with
    | some i => .ok i
    | none => .error 2

/-- Decode a base word and the word after it (read only when X = 1): an instruction, or the SUB code of R358. -/
def decodeWords (w0 w1 : Word) : Except Nat Instr :=
  let s := w0.getLsbD 31
  let x := w0.getLsbD 30
  let maj := w0.extractLsb' 24 6
  let d := w0.extractLsb' 18 6
  let a := w0.extractLsb' 12 6
  let b := w0.extractLsb' 6 6
  let fn := w0.extractLsb' 0 6
  let candidate : Except Nat Instr :=
    if shortForm s maj then
      if x then .error 4
      else match shortInstr s maj { d := d, a := a, imm := w0.extractLsb' 0 12 } (w0.extractLsb' 0 24) with
        | some i => .ok i
        | none => .error 1
    else if s && maj == 4 then
      match groupMinor04 fn { d := d, a := a, b := b, lit := w1 } with
      | some i => if x then .ok i else .error (if (illegalSub i).isSome then 3 else 5)
      | none => .error 2
    else registerInstr s maj fn { d := d, a := a, b := b, x := if x then some (Ext.ofWord w1) else none }
  match candidate with
  | .error k => .error k
  | .ok i =>
    match illegalSub i with
    | some k => .error k
    | none => .ok i

/-- Why bytes are not an instruction. -/
inductive DecodeError where
  /-- Fewer bytes than the words need. -/
  | truncated
  /-- The words are ILLEGAL with this SUB (R358). -/
  | illegal (sub : Nat)
  deriving DecidableEq, Repr

/-- Decode a list of bytes, little-endian words (R3): the instruction and the bytes after it. -/
def decode (bytes : List Byte) : Except DecodeError (Instr × List Byte) :=
  match bytes with
  | b0 :: b1 :: b2 :: b3 :: rest =>
    let w0 : Word := b3 ++ b2 ++ b1 ++ b0
    if w0.getLsbD 30 then
      match rest with
      | c0 :: c1 :: c2 :: c3 :: rest' =>
        match decodeWords w0 (c3 ++ c2 ++ c1 ++ c0) with
        | .ok i => .ok (i, rest')
        | .error k => .error (.illegal k)
      | _ => .error .truncated
    else
      match decodeWords w0 0 with
      | .ok i => .ok (i, rest)
      | .error k => .error (.illegal k)
  | _ => .error .truncated

/-- The bytes of a word in memory (R3). -/
def wordBytes (w : Word) : List Byte :=
  [w.extractLsb' 0 8, w.extractLsb' 8 8, w.extractLsb' 16 8, w.extractLsb' 24 8]

/-- The words of an instruction (R136 to R138); a device event has none. -/
def encode (i : Instr) : List Word :=
  match fields i with
  | some f => f.words
  | none => []

/-- The bytes of an instruction as they lie in memory. -/
def encodeBytes (i : Instr) : List Byte := (encode i).flatMap wordBytes

/-- The bytes of an instruction's length: 4, or 8 when X = 1 (R136). -/
def instrSize (i : Instr) : Nat := 4 * (encode i).length

/-- What the decoder reads from the instruction whose bits are the low nbits of w, the first word in bits 31:0 and
the second in bits 63:32; the bits above nbits are 0. -/
def decodeTableWord (nbits w : Nat) : Option Instr :=
  let v := w % 2 ^ nbits
  match decode (wordBytes (BitVec.ofNat 32 v) ++ wordBytes (BitVec.ofNat 32 (v / 2 ^ 32))) with
  | .ok (i, _) => some i
  | .error _ => none

end Sys2Proof

end
end

