-- ==== Sys2Proof/Machine/State.lean ====
section
/-! DEFINITION. The state of the machine: everything the spec gives a Garith G2, as plain data, and the state after
reset. Waves, blocks and crews stand in lists under their own keys; memories are sparse stores in canonical form. -/

namespace Sys2Proof.Machine

/-- Why the machine stops. -/
inductive Fault where
  /-- A wave instruction was given to exec while no gang is named as its issuer. Raised by every wave instruction;
  safe: the hardware never issues an instruction without a gang. -/
  | noIssuer
  deriving DecidableEq, Repr

/-- Why an instruction has no meaning. -/
inductive Refusal where
  /-- Not modelled, by the mnemonic of its row. Raised by a dispatch arm only; safe. -/
  | notModelled (mnemonic : String)
  deriving DecidableEq, Repr

/-! ## Waves -/

/-- What one condition of a WAIT tests, and the word it compares with (R200). -/
structure Condition where
  desc : Word
  opnd : Word
  deriving DecidableEq, Repr

/-- A WAIT in progress (R201). -/
structure WaitState where
  all : Bool
  conds : List Condition
  deadline : Option Nat
  seen : BitVec 4
  pois : Bool
  dst : Nat
  deriving DecidableEq, Repr

/-- What came of reading the descriptor of an instruction that the fault buffer held up (R345). -/
inductive Got where
  /-- Its address and its bytes, as a number. -/
  | bits (a : BitVec 64) (d : Nat)
  /-- It was not read, with cause, SUB and address (R332, R398). -/
  | lost (cause sub : Nat) (a : BitVec 64)
  deriving DecidableEq, Repr

/-- What a gang waits for (R44). -/
inductive Wait where
  /-- It is ready. -/
  | ready
  /-- An empty source, or an empty destination (R143). -/
  | registers
  /-- At a REGANG (R27). -/
  | regang
  /-- At a barrier, with the GEN it joined (R204); stopped there for pre-emption, it does not issue when that is over. -/
  | barrier (gen : Bool) (halted : Bool)
  /-- In QPUSH on a queue, its handle register; the stamp orders arrivals at the bank (R209). -/
  | qpush (q : Nat) (a : Nat)
  /-- In QPOP on a queue, its destination. -/
  | qpop (q : Nat) (d : Nat) (stamp : Nat)
  /-- In WAIT (R201). -/
  | cond (w : WaitState)
  /-- At a PHASE that names this index (R206). -/
  | phase (n : Nat)
  /-- For a free progress record (R233). -/
  | record
  /-- In ACQACC, for these banks; the stamp orders arrivals at the core (R246). -/
  | acqacc (banks : Word) (stamp : Nat)
  /-- In RECALLOC: node, destination, lanes still without a slot and the addresses given so far (R264). -/
  | recalloc (node : Nat) (d : Nat) (left : LaneMask) (got : List (Nat × Nat)) (stamp : Nat)
  /-- In BIN: the lanes not yet binned (R262). -/
  | bin (left : LaneMask)
  /-- In TDONE, for the block's engine commands (R263). -/
  | tdone
  /-- On earlier held accesses of the wave (R344). -/
  | held
  /-- On a fetch that the fault buffer holds (R334). -/
  | fetch
  /-- Within an instruction whose descriptor read the fault buffer holds; once it has been made, the instruction goes on
  with what it gave (R233, R337). An engine command has taken its progress record by then: `record`. -/
  | descriptor (record : Bool) (got : Option Got)
  /-- Stopped for pre-emption: at a SAFE with its index, or at an instruction boundary (R40). -/
  | stopped (safe : Option Nat)
  deriving DecidableEq, Repr

/-- A gang: slices that share one program counter (R24). -/
structure Gang where
  slices : SliceMask
  pc : Addr
  wait : Wait
  /-- The deadline of a WAIT here that pre-emption interrupted: it holds when that WAIT issues again (R203). -/
  kept : Option (Option Nat) := none
  deriving DecidableEq, Repr

/-- A long-latency producer that has issued and not landed (R143). -/
structure Landing where
  id : Nat
  file : Bool          -- true: group registers
  reg : Nat
  /-- Lanes it writes. -/
  lanes : LaneMask
  /-- The values of its registers, lowest first; a group value stands in lane 0. -/
  data : List Lanes
  /-- Lanes whose access is held or whose reply has not come: it lands when there are none. -/
  pending : LaneMask
  /-- The handler issued it: its g61 to g63 are the handler's (R354). -/
  fromHandler : Bool := false
  /-- SAMPLE: the texels read while others of their lanes are held, by lane and unit (R258). -/
  texels : List (Nat × Nat × List Byte) := []
  deriving DecidableEq, Repr

/-- A trap to be taken: what the trap registers receive (R333, R351). -/
structure Trap where
  cause : Nat
  sub : Nat := 0
  kind : Nat := 0
  async : Bool := false
  fbi : Nat := 0
  pc : Addr
  addr : BitVec 64 := 0
  lanes : LaneMask := 0
  /-- Slices of the handler gang. -/
  slices : SliceMask := 0
  /-- TRANSLATION: the cluster whose entry fbi the wave owns. -/
  cluster : Nat := 0
  /-- Raised by the handler's own instruction or access (R356). -/
  fromHandler : Bool := false
  deriving DecidableEq, Repr

/-- The entry frame of a handler, hidden from programs (R354). -/
structure Frame where
  gangs : List Gang
  act : LaneMask
  /-- The trap was synchronous: its gang resumes at TRAP_PC. -/
  sync : Bool
  /-- The slices of the trapping cohort. -/
  slices : SliceMask
  /-- For TRANSLATION: the cluster and entry that RTE acts on, while the wave still owns it (R346). -/
  entry : Option (Nat × Nat)
  deriving DecidableEq, Repr

/-- The segment registers (R49), each as the whole 64-bit word it reads as. -/
structure Segs where
  tileBase : BitVec 64
  tileLimit : BitVec 64
  stackBase : BitVec 64
  stackLimit : BitVec 64
  stackBack : BitVec 64
  globalBase : BitVec 64
  globalLimit : BitVec 64
  deriving DecidableEq, Repr

/-- A record slot a wave holds from RECALLOC (R264). -/
structure Slot where
  addr : Nat
  node : Nat
  lane : Nat
  sent : Bool
  deriving DecidableEq, Repr

/-- One byte of a store that a Woad round or a combiner's batch buffer holds back. -/
structure HeldByte where
  mt : Nat
  pa : Nat
  byte : Byte
  /-- The store covers the whole 16-byte unit in one access (R397). -/
  whole : Bool
  /-- The leaf it was translated through, and where that lies; COMP of the access. -/
  leaf : BitVec 64
  leafMt : Nat
  leafPa : Nat
  comp : Bool
  /-- The store is a strong access (R80). -/
  strong : Bool
  deriving DecidableEq, Repr

/-- One wave. -/
structure Wave where
  ref : WaveRef
  /-- .regs (R21). -/
  regs : Nat
  /-- Role code (R149). -/
  role : Nat
  /-- g0 and g5 at launch: BLOCK_ID, and WAVE_ID with the index of the wave (R148). -/
  blockId : Word
  waves : Nat
  /-- The launch mask (R43). -/
  mask : LaneMask
  /-- v0 to v(regs-1). -/
  v : List Lanes
  /-- g0 to g60. -/
  g : List Word
  /-- g61 to g63 (R31). -/
  act : LaneMask
  /-- p0 to p6. -/
  p : List LaneMask
  vFull : BitVec 64
  gFull : BitVec 64
  vInit : BitVec 64
  gInit : BitVec 64
  pInit : BitVec 7
  /-- Gangs of the live slices. -/
  gangs : List Gang
  /-- Bands whose slices all wait at a REGANG, in the order in which they became so (R27). -/
  bands : List SliceMask
  exited : SliceMask
  /-- It has reached a PHASE naming this index (R37): no registers, no slot. -/
  reached : Option Nat
  /-- FP_CTRL (R113). -/
  fp : Word
  handlerBase : BitVec 64
  poolBase : BitVec 64
  dbgCtl : Word
  sup : Bool
  trapCause : Word
  trapPc : Addr
  trapAddr : BitVec 64
  trapLanes : LaneMask
  segs : Segs
  /-- The latches of LAUNCH_SEQ, CLOCK_REF, CLOCK_CYC and the four PERF registers (R148). -/
  latches : List Word
  frame : Option Frame
  /-- Asynchronous traps to be delivered, oldest first (R350). -/
  traps : List Trap
  /-- Traps of instructions with lanes still to be answered, by their producer: each instruction has one trap of a kind,
  raised when its last lane is answered (R376, R392, R398). -/
  unsettled : List (Nat × Trap)
  /-- How many asynchronous traps it has been given: with Entry.mark, the order in which traps and entries came (R350). -/
  raised : Nat
  landings : List Landing
  /-- Positions taken in the wave's issue order (R29). -/
  issued : Nat
  /-- Slots from RECALLOC (R264). -/
  slots : List Slot
  /-- Lanes that have submitted with BIN in the pass (R262). -/
  binned : LaneMask
  /-- Stores not yet visible: of this Woad round (R107), or of a combiner's batch (R231); newest first. -/
  buffer : List HeldByte
  /-- Plain store instructions issued in this Woad round, and instructions issued in it (R107, R408). -/
  roundStores : Nat
  roundIssued : Nat
  /-- The wave has stopped for the round's end, before an instruction of the gang that holds this slice. -/
  roundStop : Option Nat
  deriving DecidableEq, Repr

/-! ## Blocks and crews -/

/-- An engine command in flight (R233, R234). -/
structure Command where
  /-- Progress record. -/
  recNo : Nat
  kind : Nat
  wave : Nat
  /-- Index of its instruction in the wave's round (R408). -/
  index : Nat := 0
  pc : Addr
  desc : Nat
  /-- The 64 descriptor bytes, as a number. -/
  bits : Nat
  segs : Segs
  total : Nat
  done : Nat
  /-- Units at or beyond DONE already written, and units a fault buffer holds. -/
  written : List Nat
  held : List Nat
  /-- CUR of each region of each crew rank's block when the command issued (R57). -/
  cur : List (BitVec 16)
  /-- XFM: its state table once read, and the decoder's state and stream position at the start of each unit reached
  (R244). -/
  table : List Nat
  starts : List (Nat × Nat)
  /-- The handler issued it (R356). -/
  fromHandler : Bool
  deriving DecidableEq, Repr

/-- The tag of the last strong access to a 16-byte unit (R391). -/
structure MixTag where
  /-- Point of execution: 0 a tile bank, 1 a core's atomic unit, 2 a cluster's, 3 a home. -/
  point : Nat
  place : Nat
  unit : Nat
  off : Nat
  size : Nat
  wrote : Bool
  deriving DecidableEq, Repr

/-- The bytes that a strong access has touched (R97): place 0 is memory, place k + 1 the tile memory that MixTag calls k. -/
structure Footprint where
  place : Nat
  key : Nat
  size : Nat
  /-- The accesses are updates of a gate by the hardware or by GATEINIT and GATEARM (R59). -/
  gate : Bool
  /-- Some access of these bytes has written. -/
  wrote : Bool
  /-- The bytes that it left in memory and that nothing has overwritten. -/
  left : List Nat
  deriving DecidableEq, Repr

/-- One block: what its waves share (R18). -/
structure Block where
  crew : Nat
  rank : Nat
  /-- Block linear index (g0). -/
  index : Nat
  waves : Nat
  /-- Bytes of the tile allocation (R52), and its position in the core's tile memory. -/
  tileSize : Nat
  base : Nat
  /-- Tile memory, by offset; an unlisted byte is 0. -/
  tile : List Host.Cell
  /-- Bytes of it that nothing has written since the block was placed, and in a tile pass since the pass began (R267). -/
  loose : Loose
  /-- Poisoned 16-byte units of it. -/
  tilePoison : List Nat
  /-- Accumulators: element (i, j) of tile t at 256t + 32i + j; an unlisted element is 0. -/
  acc : List (Nat × Word)
  /-- Held logical banks (R245). -/
  held : BitVec 32
  /-- Banks set aside at placement, and the held banks bound from them. -/
  setAside : Nat
  fromAside : BitVec 32
  /-- Kind of the barrier generation in progress (R204): true for crew. -/
  barCrew : Option Bool
  commands : List Command
  /-- PERF_DRAM_BYTES (R150). -/
  dramBytes : Nat
  /-- The words of its kernel's code range as they stood when the packet was taken, or at its last phase start or
  resumption (R64). -/
  code : List (Option Word)
  deriving DecidableEq, Repr

/-- A kernel record (R153). -/
structure Kernel where
  name : Nat
  entry : Nat
  textEnd : Nat
  acc : Nat
  regs : Nat
  waves : Nat
  tile : Nat
  safe0 : Nat
  safeN : Nat
  phase0 : Nat
  phaseN : Nat
  cimage : Nat
  roles : BitVec 64
  sig : BitVec 32
  care : BitVec 32
  deriving DecidableEq, Repr

/-- An entry of the safe-point table (R153). -/
structure SafeEntry where
  liveV : BitVec 64
  liveG : BitVec 64
  deriving DecidableEq, Repr

/-- An entry of the phase table (R153). -/
structure PhaseEntry where
  entry : Nat
  carryP : BitVec 7
  carryV : BitVec 64
  carryG : BitVec 64
  deriving DecidableEq, Repr

/-- A kernel as the device took it: its record, its tables and its code range as it stood (R64, R293). A word that
could not be read then is none. -/
structure Image where
  kernel : Kernel
  codeBase : Addr
  safes : List SafeEntry
  phases : List PhaseEntry
  cimage : List Byte
  code : List (Option Word)
  deriving DecidableEq, Repr

/-- A context record (R287). -/
structure Context where
  /-- The translation descriptor (R68). -/
  desc0 : BitVec 64
  desc1 : BitVec 64
  fpdef : BitVec 4
  dbgCtl : Word
  handler : BitVec 64
  pool : BitVec 64
  methobj : BitVec 64
  tilewin : BitVec 64
  stackwin : BitVec 64
  stackarea : BitVec 64
  stklim : BitVec 24
  gbase : BitVec 64
  glimit : BitVec 64
  deriving DecidableEq, Repr

/-- The context tag (R68). -/
def Context.ctag (c : Context) : Nat := bits c.desc1.toNat 47 32

/-- The steps of a tile pass (R281). -/
inductive PassStep where
  | load | visibility | gbuffer | shading | resolve | store
  deriving DecidableEq, Repr

/-- A tile pass: what the pipeline keeps for a tile block (R267, R279, R281). -/
structure TilePass where
  tile : Nat
  flush : Bool
  step : PassStep
  /-- Cursor of visibility: list entries already applied (R280). -/
  cursor : Nat
  /-- Resume planes were loaded, and flushes before this pass (R263). -/
  resumed : Bool
  flushes : Nat
  /-- PRIM of each sample at the end of step 1. -/
  prims : List Word
  /-- G-buffer groups still to be launched. -/
  groups : List Nat
  /-- TDONE has retired the tile. -/
  retired : Bool
  restarts : Nat
  /-- The place of its image in the save area, while it is spilled (R280, log entry 73). -/
  slot : Option Nat
  deriving DecidableEq, Repr

/-- What a crew runs. -/
inductive CrewKind where
  | launch
  /-- The geometry grid of a render pass. -/
  | geometry
  /-- A tile block. -/
  | tile (t : TilePass)
  /-- The root grid of a graph. -/
  | root
  /-- A batch of a graph's node, with its record addresses. -/
  | batch (node : Nat) (records : List Nat)
  /-- A combiner wave, for an object. -/
  | combiner (object : Nat)
  deriving DecidableEq, Repr

/-- A crew (R18, R20). -/
structure Crew where
  id : Nat
  /-- The work it belongs to, by sequence number. -/
  work : Nat
  kind : CrewKind
  part : Nat
  queue : Nat
  /-- Crew index in the grid. -/
  index : Nat
  size : Nat
  span : Nat
  cluster : Nat
  core : Nat
  /-- It holds cores; a saved crew does not. -/
  resident : Bool
  ctx : Context
  image : Image
  karg : BitVec 64
  nlanes : Nat
  /-- A pre-emption request stands, with the tick at which the safe-point time-out expires (R40). -/
  preempt : Option Nat
  deriving DecidableEq, Repr

/-! ## Faults of translation -/

/-- What a held access is (R334, R344). -/
inductive HeldKind where
  | load | store | atomic | cas | request | fetch
  /-- An engine unit, by progress record and unit. -/
  | unit (recNo : Nat) (unit : Nat)
  /-- A read of a method table for an object's oldest request, or an access of its combiner wave (R227, R377). -/
  | home (object : Nat)
  /-- A unit of a texel of a sampled lane (R258). -/
  | texel
  /-- A spill of a tile block, by crew (R389). -/
  | spill (crew : Nat)
  /-- A descriptor read of an instruction that waits for it, with its KIND (R233, R258, R363). -/
  | descriptor (kind : Nat)
  deriving DecidableEq, Repr

/-- An access waiting for its page (R334). -/
structure Held where
  stamp : Nat
  wave : WaveRef
  /-- Index of its instruction in the wave's round (R408). -/
  index : Nat := 0
  /-- Lane, address and bytes. -/
  lane : Nat
  addr : BitVec 64
  size : Nat
  kind : HeldKind
  /-- LD's format, or the atomic operation's number with its order; scope and REMOTE. -/
  fmt : Nat
  /-- Data of a store, the operand of an atomic, the expected value of a CAS. -/
  data : BitVec 128
  /-- The new value of a CAS; the method and argument of a request. -/
  data2 : BitVec 64
  /-- The producer that lands with it, if any, and the byte of its value this unit starts at. -/
  landing : Option Nat
  part : Nat
  /-- The instruction's address, and whether the handler issued it. -/
  pc : Addr
  fromHandler : Bool
  context : Context
  partition : Nat
  /-- The access acquires: later accesses of the wave stop for it (R344). -/
  acquire : Bool
  /-- The cluster whose buffer it was presented to. -/
  cluster : Nat
  /-- The entry it is held on; none: unattached. -/
  entry : Option Nat
  /-- It travels with a saved crew (R346). -/
  saved : Bool
  /-- Its lane has been answered with 0 already: what it reads goes nowhere (R398). -/
  spent : Bool := false
  deriving DecidableEq, Repr

/-- States of a fault-buffer entry (R335); FREE is no entry. -/
inductive EntryState where
  | owned | handler | walk | host
  deriving DecidableEq, Repr

/-- A fault-buffer entry in use (R334, R335). -/
structure Entry where
  index : Nat
  ctag : Nat
  page : Nat
  sub : Nat
  kind : Nat
  state : EntryState
  /-- An install has been asked for (R337, R339). -/
  install : Bool
  owner : Option WaveRef
  part : Nat
  context : Context
  /-- Spans of the owner for the pool (R77). -/
  span : Nat
  /-- Allocated by a re-presentation or for an engine unit (R336). -/
  async : Bool
  /-- The asynchronous traps that its owner had been given when the wave came to own it (R350). -/
  mark : Nat
  pc : Addr
  stamp : Nat
  deriving DecidableEq, Repr

/-- One cluster's fault buffer. -/
structure Buffer where
  cluster : Nat
  entries : List Entry
  dropped : Bool
  /-- A REPLAYALL stands (R340). -/
  replayAll : Bool
  deriving DecidableEq, Repr

/-! ## Caches -/

/-- A line of a core's L1 (R63). -/
structure L1Line where
  core : Nat
  mt : Nat
  line : Nat
  bytes : List Byte
  deriving DecidableEq, Repr

/-- A translation entry that a TLB may still hold (R76): where it was read, what it held, and the pages it covers. -/
structure TlbEntry where
  ctag : Nat
  part : Nat
  mt : Nat
  pa : Nat
  value : BitVec 64
  /-- START, LAST and word 3 beside the TARGET of a RANGE entry (R72). -/
  range : Option (Nat × Nat × Nat)
  /-- The cluster whose TLB holds it (R75); 96 for agents that are in no cluster. -/
  cluster : Nat
  page : Nat
  pages : Nat
  deriving DecidableEq, Repr

/-- A line that an L2 slice holds (R65, R400). -/
structure L2Line where
  mt : Nat
  line : Nat
  /-- The slice that holds it, and the partition on whose behalf. -/
  home : Nat
  part : Nat
  dirty : Bool
  /-- CTAG of the context through whose leaf it was last written. -/
  owner : Nat
  /-- The blocks that dirtied it, charged for its write-back (R150). -/
  blocks : List (Nat × Nat)
  /-- COMP of that access. -/
  comp : Bool
  deriving DecidableEq, Repr

/-! ## Work -/

/-- One hardware work queue (R285), with writes that wait for the next enable (R286). -/
structure Queue where
  num : Nat
  base : BitVec 64
  ctx : BitVec 64
  en : Bool
  part : Nat
  logsz : Nat
  rd : BitVec 32
  wr : BitVec 32
  /-- QBASE, QCTX and LOGSZ as written while EN was 1. -/
  nextBase : BitVec 64
  nextCtx : BitVec 64
  nextLogsz : Nat
  /-- A WAITEVENT that has not completed: its event, target, PRIO, and when it was taken (R290). -/
  waitFor : Option (Nat × Nat × Nat × Nat)
  /-- A BARRIER, or a SIGNAL with its event and increment, that waits for earlier packets (R290). -/
  blocked : Option (Option (Nat × Nat))
  /-- Since when its head has waited, and classes added by aging (R294). -/
  since : Nat
  aged : Nat
  deriving DecidableEq, Repr

/-- A record that waits for the fault ring (R342, R382, R399): its 32 bytes as a number. -/
abbrev Record := Nat

/-- The instruction that the commit pass performs now: its wave, gang and address, and whether it has been issued. -/
structure Grant where
  wave : WaveRef
  slice : Nat
  pc : Addr
  used : Bool
  deriving DecidableEq, Repr

/-- A commit pass in progress (R108): what is still to be visited and performed, the counts of TYPE 9, whether the
round's inputs have been applied, and how many entries of a replay's log have taken effect. -/
structure CommitPass where
  left : List WaveRef
  wanted : List (WaveRef × Nat)
  granted : Option Grant
  stores : Nat
  syncs : Nat
  ended : Bool
  taken : Nat
  deriving DecidableEq, Repr

/-- One partition (R301, R306, R342, R395, R407). -/
structure Partition where
  num : Nat
  modes : BitVec 32
  cmd : Nat
  newSpans : BitVec 8
  status : Nat
  busy : Bool
  spans : BitVec 8
  /-- 0 OFF, 1 RESET, 2 IDLE, 3 RUNNING, 4 FAILED. -/
  state : Nat
  lpch : BitVec 32
  listu : Nat
  qout : Nat
  evq : Nat
  sptmo : Nat
  vcw : Nat
  brokq : Nat
  saveArea : BitVec 64
  fring : BitVec 64
  fwr : BitVec 32
  frd : BitVec 32
  flog : Nat
  cecnt : BitVec 32
  cethr : BitVec 32
  wctl : BitVec 32
  wsz : Nat
  wring : BitVec 64
  wwr : BitVec 32
  wrd : BitVec 32
  stall : Bool
  div : Bool
  /-- Event counters; an unlisted one is 0 (R291). -/
  events : List (Nat × BitVec 64)
  /-- Records not yet in the fault ring, oldest first. -/
  records : List Record
  /-- Ports whose node administers it (R302). -/
  admin : BitVec 4
  /-- Woad mode is in force since the last START (R407), its round, and the entries of this round (R408). -/
  woad : Bool
  round : Nat
  log : List Byte
  /-- Inputs of a Woad partition that take effect at the round's end (R408): device events. -/
  inputs : List Instr
  /-- The order that the control node has given for queue heads (R301, QARB). -/
  order : List Nat
  /-- The commit pass of a Woad round, while it runs. -/
  pass : Option CommitPass
  deriving DecidableEq, Repr

/-! ## Madder, graphs and the tile pipeline -/

/-- A request to a home (R226). -/
structure Request where
  wave : WaveRef
  lane : Nat
  landing : Nat
  method : Nat
  arg : Word
  addr : BitVec 64
  mt : Nat
  pa : Nat
  comp : Bool
  /-- The leaf it was translated through, and where that lies. -/
  leaf : BitVec 64
  leafMt : Nat
  leafPa : Nat
  /-- The instruction it came from, by stamp and address. -/
  stamp : Nat
  pc : Addr
  context : Context
  part : Nat
  /-- When it arrived. -/
  arrived : Nat
  deriving DecidableEq, Repr

/-- An object with pending requests or a running batch (R105, R228). -/
structure Object where
  id : Nat
  ctag : Nat
  line : BitVec 64
  mt : Nat
  pa : Nat
  part : Nat
  pending : List Request
  /-- The batch that runs: its requests, the replies so far, and the combiner crew once it started. -/
  running : Option (List Request)
  replies : List (Nat × Word)
  crew : Option Nat
  launched : Nat
  /-- Waits for a fault-buffer entry (R377). -/
  blocked : Bool
  /-- The batch relaunches with at most this many requests (R379). -/
  limit : Option Nat
  deriving DecidableEq, Repr

/-- A node of a graph (R296). -/
structure Node where
  kidx : Nat
  phase : Nat
  batch : Nat
  recsz : Nat
  tmo : Nat
  res : Nat
  image : Image
  deriving DecidableEq, Repr

/-- A graph whose work is placeable (R296, R298). -/
structure Graph where
  seq : Nat
  karg : BitVec 64
  pool : Nat
  slots : Nat
  slotSize : Nat
  nodes : List Node
  /-- Slots in use: slot and node. -/
  used : List (Nat × Nat)
  /-- Committed records: node, address, tick; in commit order (R299). -/
  pending : List (Nat × Nat × Nat)
  /-- Batches launched and not placed: node, record addresses and when. -/
  ready : List (Nat × List Nat × Nat)
  deriving DecidableEq, Repr

/-- A triangle submitted with BIN and not yet committed (R262, R272). -/
structure Submission where
  prim : Nat
  xyzq : List Word
  attr : BitVec 64
  wave : WaveRef
  lane : Nat
  deriving DecidableEq, Repr

/-- What the list engine and the broker keep for a tile (R273, R277, R279). -/
structure TileState where
  head : Nat
  tail : Nat
  used : Nat
  /-- COUNT of the tail chunk. -/
  count : Nat
  /-- The last primitive of its list plus 1; 0 after a reset (PREV = -1). -/
  prev : Nat
  /-- Its resume slot is valid. -/
  valid : Bool
  /-- A pass owns it. -/
  owned : Bool
  retired : Bool
  deriving DecidableEq, Repr

/-- The render pass a partition runs (R265). -/
structure RenderPass where
  part : Nat
  seq : Nat
  queue : Nat
  context : Context
  width : Nat
  height : Nat
  edge : Nat
  samples : Nat
  cull : Nat
  front : Bool
  depthf : Nat
  recsz : Nat
  clearz : Word
  karg : BitVec 64
  glanes : Nat
  poolBase : BitVec 64
  poolUnits : Nat
  resBase : BitVec 64
  geom : Image
  gbuf : Image
  shade : Image
  res : Image
  /-- The list engine: NEXT, and the next primitive to commit. -/
  next : Nat
  commit : Nat
  subs : List Submission
  /-- The unit of the setup record of each primitive in the lists. -/
  setups : List (Nat × Nat)
  /-- Lanes of geometry waves that have exited or been culled are below commit or listed here. -/
  gone : List Nat
  tiles : List TileState
  /-- A flush is in progress; passes of it that still own a tile before the reset. -/
  flushing : Bool
  /-- The host-assisted mode: the stall has been notified (R301). -/
  notified : Bool
  /-- The primitive for which the pool was last flushed (R388). -/
  lastFlush : Option Nat
  /-- Back-facing primitives among those committed (R256). -/
  backs : List Nat
  flushes : Nat
  /-- The final round has started. -/
  final : Bool
  /-- Tiles to be issued, in order; true for a flush pass. -/
  requests : List (Nat × Bool)
  deriving DecidableEq, Repr

/-- Kinds of taken work. -/
inductive WorkKind where
  | launch | render | graph
  deriving DecidableEq, Repr

/-- A taken LAUNCH, RENDERPASS or GRAPH packet that has not completed (R290). -/
structure Work where
  seq : Nat
  kind : WorkKind
  part : Nat
  queue : Nat
  ring : Nat
  prio : Nat
  sig : Bool
  dep : Bool
  depev : Nat
  sigev : Nat
  deptgt : Nat
  /-- Descriptor address of a RENDERPASS or GRAPH. -/
  desc : Nat
  pvec : BitVec 64
  grid : Nat
  nlanes : Nat
  karg : BitVec 64
  size : Nat
  takenAt : Nat
  /-- Classes added by aging (R294). -/
  aged : Nat
  placeable : Bool
  /-- The kernel of a LAUNCH or of the root or geometry grid. -/
  image : Option Image
  /-- For each span: the next crew to place and the end of its share (R292). -/
  shares : List (Nat × Nat)
  /-- Since when each span's next crew has waited for room. -/
  since : List Nat
  crewsEnded : Nat
  /-- The render pass that a RENDERPASS describes, until it begins (R266). -/
  pass : Option RenderPass
  deriving DecidableEq, Repr

/-- A crew that is saved (R40): what was not saved of its waves is already lost. -/
structure Saved where
  crew : Nat
  span : Nat
  /-- When it was saved. -/
  tick : Nat
  deriving DecidableEq, Repr

/-! ## The agenda -/

/-- What moves next. -/
inductive Action where
  /-- The gang that holds a slice issues its next instruction. -/
  | issue (w : WaveRef) (slice : Nat)
  /-- A device event happens. -/
  | event (i : Instr)
  deriving DecidableEq, Repr

/-- One item of the agenda: ticks and cycles that pass before it, and what happens then. -/
structure Agenda where
  ticks : Nat
  cycles : Nat
  action : Action
  deriving DecidableEq, Repr

/-! ## The module and the whole state -/

/-- The module registers (R303, R404). -/
structure Module where
  stepping : BitVec 16
  device : BitVec 16
  defsig : BitVec 32
  ready : Bool
  stage : Nat
  portRole : BitVec 8
  powerCap : BitVec 16
  merr : Bool
  therm : Bool
  ctrl : Bool
  /-- Ports whose link went down and has not been retrained (R403). -/
  down : BitVec 4
  deriving DecidableEq, Repr

/-- The loader mailbox (R309). -/
structure Mailbox where
  addr : BitVec 64
  len : BitVec 32
  part : Nat
  queue : Nat
  status : Nat
  flip : Bool
  deriving DecidableEq, Repr

/-- The whole machine. -/
structure State where
  module : Module
  mailbox : Mailbox
  /-- CLOCK_REF (R13). -/
  tick : Nat
  /-- Arithmetic cycles since power-on. -/
  cycle : Nat
  parts : List Partition
  /-- Queues that have been written; any other queue holds its reset values. -/
  queues : List Queue
  works : List Work
  crews : List Crew
  blocks : List Block
  waves : List Wave
  /-- Fault buffers that have been used; any other is empty. -/
  buffers : List Buffer
  held : List Held
  /-- Memory of every type: byte pa of memory type mt at mt * 2^52 + pa. -/
  mem : List Host.Cell
  /-- Bytes of memory that are undefined until they are written: those of a record slot that RECALLOC gave (R264). -/
  loose : Loose
  /-- Poisoned 16-byte units of memory, by their first byte (R396). -/
  poison : List Nat
  /-- Poisoned units of tile memory that no block holds, by core and first byte (R396). -/
  tilePoison : List (Nat × Nat)
  l1 : List L1Line
  tlb : List TlbEntry
  l2 : List L2Line
  /-- Lines filled, by L2 slice (R148). -/
  fills : List (Nat × Nat)
  objects : List Object
  /-- Requests on their way to a home (R226). -/
  inflight : List Request
  graphs : List Graph
  passes : List RenderPass
  saved : List Saved
  /-- The queue that each I/O chiplet served last (R294). -/
  served : List Nat
  mixTags : List MixTag
  /-- The strong accesses that have been made, by place, first byte and size (R97). -/
  strongs : List Footprint
  /-- What each home slice records of its synchronisation lines (R94): by line, the core that issued the last
  release-ordered write to it, and the serial number at that write. -/
  releasers : List (Nat × Nat × Nat)
  /-- For how many issues of its core's pipe each ready gang has been passed over, by its wave and lowest slice (R44). -/
  passed : List (WaveRef × Nat × Nat)
  /-- The model's own: the pipe that issued last of the model's own accord, and what else may move, longest waiting first;
  the gang that issues, by a slice it holds; serial numbers; the number of free values used; the choices an implementation
  makes, to be taken in order; and what moves next. -/
  lastPipe : Nat
  due : List Action
  cur : Option (WaveRef × Nat)
  stamp : Nat
  nextSeq : Nat
  nextCrew : Nat
  fresh : Nat
  oracle : List Nat
  agenda : List Agenda
  deriving DecidableEq, Repr

/-- A partition before its first command (R306). -/
def Partition.initial (n : Nat) : Partition :=
  { num := n, modes := 0, cmd := 0, newSpans := 0, status := 0, busy := false, spans := 0, state := 0, lpch := 0,
    listu := 0, qout := 16, evq := 0, sptmo := 0, vcw := 0, brokq := 0, saveArea := 0, fring := 0, fwr := 0, frd := 0,
    flog := 0, cecnt := 0, cethr := 0, wctl := 0, wsz := 0, wring := 0, wwr := 0, wrd := 0, stall := false,
    div := false, events := [], records := [], admin := 0, woad := false, round := 0, log := [], inputs := [], order := [], pass := none }

/-- A queue at reset (R285). -/
def Queue.initial (n : Nat) : Queue :=
  { num := n, base := 0, ctx := 0, en := false, part := 0, logsz := 0, rd := 0, wr := 0, nextBase := 0, nextCtx := 0,
    nextLogsz := 0, waitFor := none, blocked := none, since := 0, aged := 0 }

/-- The machine at power-on, before bring-up (R303, R306, R308). -/
def State.reset : State :=
  { module := { stepping := 0, device := 0x4732, defsig := 0, ready := false, stage := 0, portRole := 0, powerCap := 1800, merr := false,
                therm := false, ctrl := false, down := 0 }
    mailbox := { addr := 0, len := 0, part := 0, queue := 0, status := 0, flip := false }
    tick := 0, cycle := 0
    parts := (List.range 8).map Partition.initial
    queues := [], works := [], crews := [], blocks := [], waves := [], buffers := [], held := [], mem := [], loose := [],
    poison := [], tilePoison := [], l1 := [], tlb := [], l2 := [], fills := [], objects := [], inflight := [], graphs := [],
    passes := [], saved := [], served := [], mixTags := [], strongs := [], releasers := [], passed := [], lastPipe := 0, due := [],
    cur := none, stamp := 0, nextSeq := 0, nextCrew := 0, fresh := 0,
    oracle := [], agenda := [] }

end Sys2Proof.Machine
end

