-- ==== Sys2Proof/Machine/Ops.lean ====
section
/-! DEFINITION. The shared operations over the state: finding and replacing its parts, registers, records for the
control node, failing a context or a partition, taking a trap and returning from it. -/

namespace Sys2Proof.Machine

/-! ## Parts of the state -/

def State.wave? (s : State) (r : WaveRef) : Option Wave := s.waves.find? fun w => w.ref == r

/-- Replace the wave of the same reference. -/
def State.putWave (s : State) (w : Wave) : State :=
  { s with waves := updWhere (fun x => x.ref == w.ref) (fun _ => w) s.waves }

def State.block? (s : State) (crew rank : Nat) : Option Block :=
  s.blocks.find? fun b => b.crew == crew && b.rank == rank

/-- Replace the block of the same crew and rank. -/
def State.putBlock (s : State) (b : Block) : State :=
  { s with blocks := updWhere (fun x => x.crew == b.crew && x.rank == b.rank) (fun _ => b) s.blocks }

def State.crew? (s : State) (id : Nat) : Option Crew := s.crews.find? fun c => c.id == id

/-- Replace the crew of the same number. -/
def State.putCrew (s : State) (c : Crew) : State :=
  { s with crews := updWhere (fun x => x.id == c.id) (fun _ => c) s.crews }

def State.part (s : State) (p : Nat) : Partition := s.parts.getD p (Partition.initial p)

def State.putPart (s : State) (p : Partition) : State := { s with parts := setAt s.parts p.num p }

def State.queue (s : State) (q : Nat) : Queue :=
  (s.queues.find? fun x => x.num == q).getD (Queue.initial q)

def State.putQueue (s : State) (q : Queue) : State :=
  if s.queues.any (fun x => x.num == q.num) then
    { s with queues := updWhere (fun x => x.num == q.num) (fun _ => q) s.queues }
  else { s with queues := s.queues ++ [q] }

def State.buffer (s : State) (c : Nat) : Buffer :=
  (s.buffers.find? fun b => b.cluster == c).getD { cluster := c, entries := [], dropped := false, replayAll := false }

def State.putBuffer (s : State) (b : Buffer) : State :=
  if s.buffers.any (fun x => x.cluster == b.cluster) then
    { s with buffers := updWhere (fun x => x.cluster == b.cluster) (fun _ => b) s.buffers }
  else { s with buffers := s.buffers ++ [b] }

def State.work? (s : State) (seq : Nat) : Option Work := s.works.find? fun w => w.seq == seq

def State.putWork (s : State) (w : Work) : State :=
  { s with works := updWhere (fun x => x.seq == w.seq) (fun _ => w) s.works }

def State.graph? (s : State) (seq : Nat) : Option Graph := s.graphs.find? fun g => g.seq == seq

def State.putGraph (s : State) (g : Graph) : State :=
  { s with graphs := updWhere (fun x => x.seq == g.seq) (fun _ => g) s.graphs }

def State.pass? (s : State) (p : Nat) : Option RenderPass := s.passes.find? fun x => x.part == p

/-- The render pass that a crew belongs to, while it runs. -/
def State.passOf (s : State) (c : Crew) : Option RenderPass := s.passes.find? fun x => x.part == c.part && x.seq == c.work

def State.putPass (s : State) (r : RenderPass) : State :=
  { s with passes := updWhere (fun x => x.part == r.part) (fun _ => r) s.passes }

def State.object? (s : State) (id : Nat) : Option Object := s.objects.find? fun o => o.id == id

def State.putObject (s : State) (o : Object) : State :=
  { s with objects := updWhere (fun x => x.id == o.id) (fun _ => o) s.objects }

/-- A serial number. -/
def State.takeStamp (s : State) : Nat × State := (s.stamp, { s with stamp := s.stamp + 1 })

/-- A free value (R6): unconstrained, a new one each time. -/
def State.freeWord (s : State) : Word × State := (Config.freeWord s.fresh, { s with fresh := s.fresh + 1 })

/-- The next choice that an implementation makes, below n; 0 where none is named. -/
def State.choose (s : State) (n : Nat) : Nat × State :=
  match s.oracle with
  | [] => (0, s)
  | x :: r => (x % max n 1, { s with oracle := r })

/-- Core number of R11. -/
def CoreAt.number (c : CoreAt) : Nat := 96 * c.span.val + 8 * c.cluster.val + c.core.val

/-- The crew is a combiner's. -/
def Crew.isCombiner (c : Crew) : Bool :=
  match c.kind with
  | .combiner _ => true
  | _ => false

/-- The cores of a resident crew: rank r on core + r (R293). -/
def Crew.coreOf (c : Crew) (rank : Nat) : Nat := 96 * c.span + 8 * c.cluster + c.core + rank

/-- The cluster of a crew, 0 to 95. -/
def Crew.clusterNo (c : Crew) : Nat := 12 * c.span + c.cluster

/-! ## The fields of a wave -/

/-- A wave has exited when all its slices have (R23). -/
def Wave.hasExited (w : Wave) : Bool := w.exited == allSlices

/-- Live slices (R23). -/
def Wave.live (w : Wave) : SliceMask := ~~~w.exited

/-- The gang that holds a slice. -/
def Wave.gang? (w : Wave) (slice : Nat) : Option Gang := w.gangs.find? fun g => g.slices.getLsbD slice

/-- Change the gang that holds a slice. -/
def Wave.updGang (w : Wave) (slice : Nat) (f : Gang → Gang) : Wave :=
  { w with gangs := updWhere (fun g => g.slices.getLsbD slice) f w.gangs }

/-- Lane register n. -/
def Wave.readV (w : Wave) (n : Nat) : Lanes := w.v.getD n []

/-- Group register n; g61 to g63 are the activity mask (R31). -/
def Wave.readG (w : Wave) (n : Nat) : Word :=
  if n < 61 then w.g.getD n 0 else w.act.extractLsb' (32 * (n - 61)) 32

/-- A pair of group registers, low word first. -/
def Wave.readG2 (w : Wave) (n : Nat) : BitVec 64 := w.readG (n + 1) ++ w.readG n

/-- A pair of lane registers in lane l. -/
def Wave.readV2 (w : Wave) (n l : Nat) : BitVec 64 := (w.readV (n + 1)).at_ l ++ (w.readV n).at_ l

/-- Predicate n; p7 reads 1 in every lane (R8). -/
def Wave.readP (w : Wave) (n : Nat) : LaneMask := if n = 7 then BitVec.allOnes 96 else w.p.getD n 0

/-- The bit of register n. -/
def regBit (n : Nat) : BitVec 64 := 1#64 <<< n

/-- Write lane register n in the lanes m; a write sets the init bit (R42, R360). -/
def Wave.writeV (w : Wave) (n : Nat) (m : LaneMask) (f : Nat → Word) : Wave :=
  { w with
    v := setAt w.v n (Lanes.build fun l => if m.getLsbD l then f l else (w.readV n).at_ l)
    vInit := if m = 0 then w.vInit else w.vInit ||| regBit n }

/-- Write a pair of lane registers. -/
def Wave.writeV2 (w : Wave) (n : Nat) (m : LaneMask) (f : Nat → BitVec 64) : Wave :=
  (w.writeV n m fun l => (f l).extractLsb' 0 32).writeV (n + 1) m fun l => (f l).extractLsb' 32 32

/-- The activity mask after a write of g61 to g63 by a cohort: its own bits change (R30). -/
def writeAct (act : LaneMask) (cohort : SliceMask) (n : Nat) (x : Word) : LaneMask :=
  let m : LaneMask := cohort.lanes &&& ((BitVec.allOnes 32).setWidth 96 <<< (32 * (n - 61)))
  (act &&& ~~~m) ||| ((x.setWidth 96 <<< (32 * (n - 61))) &&& m)

/-- Write group register n for a cohort: the whole of g0 to g60, the cohort's bits of g61 to g63 (R30). -/
def Wave.writeG (w : Wave) (cohort : SliceMask) (n : Nat) (x : Word) : Wave :=
  if n < 61 then { w with g := setAt w.g n x, gInit := w.gInit ||| regBit n }
  else { w with act := writeAct w.act cohort n x, gInit := w.gInit ||| regBit n }

/-- Write a pair of group registers. -/
def Wave.writeG2 (w : Wave) (cohort : SliceMask) (n : Nat) (x : BitVec 64) : Wave :=
  (w.writeG cohort n (x.extractLsb' 0 32)).writeG cohort (n + 1) (x.extractLsb' 32 32)

/-- Write predicate n in the lanes m; p7 reads 1 whatever is written (R8); a write sets the init bit (R42). -/
def Wave.writeP (w : Wave) (n : Nat) (m x : LaneMask) : Wave :=
  if n = 7 then w
  else { w with p := setAt w.p n ((w.readP n &&& ~~~m) ||| (x &&& m))
                pInit := if m = 0 then w.pInit else w.pInit ||| (1#7 <<< n) }

/-- The register's full/empty bit (R143); predicates have none. -/
def Wave.isFull (w : Wave) (f : RegFile) (n : Nat) : Bool :=
  match f with
  | .v => w.vFull.getLsbD n
  | .g => w.gFull.getLsbD n
  | .p => true

def Wave.setFull (w : Wave) (f : RegFile) (n : Nat) : Wave :=
  match f with
  | .v => { w with vFull := w.vFull ||| regBit n }
  | .g => { w with gFull := w.gFull ||| regBit n }
  | .p => w

def Wave.setEmpty (w : Wave) (f : RegFile) (n : Nat) : Wave :=
  match f with
  | .v => { w with vFull := w.vFull &&& ~~~regBit n }
  | .g => { w with gFull := w.gFull &&& ~~~regBit n }
  | .p => w

/-- The register's init bit, as the check of R360 sees it: the registers that R360 never checks count as written, and
predicates too, for which the trap has no register id (R351, log entry 61). -/
def Wave.isInit (w : Wave) (f : RegFile) (n : Nat) : Bool :=
  match f with
  | .v => n = 0 || w.vInit.getLsbD n
  | .g => n < 6 || 61 ≤ n || w.gInit.getLsbD n
  | .p => true

/-! ## Records for the control node (R342, R382, R399) -/

/-- The 32 bytes of a record: the words at 0x00 and 0x04, the value at 0x08, CTAG, CODE and the byte at 0x13. -/
def record (w0 w1 val ctag code units : Nat) : Record :=
  w0 + 2 ^ 32 * w1 + 2 ^ 64 * val + 2 ^ 128 * ctag + 2 ^ 144 * code + 2 ^ 152 * units

/-- A TRAP_CAUSE word (R333). -/
def causeWord (cause sub kind fbi : Nat) (async : Bool) : Nat :=
  cause + 2 ^ 12 * kind + 2 ^ 16 * sub + 2 ^ 25 * fbi + 2 ^ 28 * (if async then 1 else 0)

/-- Hand a record to a partition's ring; it waits in the device until there is room (R342). -/
def State.postRecord (s : State) (p : Nat) (r : Record) : State :=
  let x := s.part p
  s.putPart { x with records := x.records ++ [r] }

/-- An event record of R382. -/
def State.postEvent (s : State) (p sub queue val ctag code : Nat) : State :=
  s.postRecord p (record (causeWord 0 sub 0 0 false) queue val ctag code 0)

/-- An error record of R399: SUB, KIND, place, first unit, CTAG, CODE and units. -/
def State.postError (s : State) (p sub kind place val ctag code units : Nat) : State :=
  s.postRecord p (record (causeWord 0x0E sub kind 0 false) place val ctag code units)

/-- The lowest-numbered port whose PORTROLE is 1 (R414). -/
def State.controlPort (s : State) : Option Nat :=
  (List.range 4).find? fun k => bits s.module.portRole.toNat (2 * k + 1) (2 * k) = 1

/-- A record that reports new poison has not reached the partition's ring yet: until it has, no POISON trap is delivered
(R399). A partition that has no ring has nothing to wait for. -/
def State.poisonUnposted (s : State) (p : Nat) : Bool :=
  let x := s.part p
  1 ≤ x.flog && x.flog ≤ 16 && s.controlPort.isSome &&
    x.records.any fun r => bits r 7 0 = 0x0E && (bits r 19 16 = 2 || bits r 19 16 = 3)

/-! ## Memory cells -/

/-- The key of byte pa of memory type mt. -/
def memKey (mt pa : Nat) : Nat := mt * 2 ^ 52 + pa

/-- The n bytes of memory from a key on. -/
def State.memBytes (s : State) (k n : Nat) : List Byte := readBytes Config.freeByte s.loose s.mem k n

/-- Bytes are stored in memory from a key on. -/
def State.putMem (s : State) (k : Nat) (bs : List Byte) : State :=
  { s with mem := storeBytes s.mem k bs, loose := cutLoose s.loose k bs.length }

/-- The n bytes of memory from a key on are undefined until they are written (R264). -/
def State.loosen (s : State) (k n : Nat) : State :=
  if n = 0 then s
  else { s with mem := s.mem.filter fun c => !(decide (k ≤ c.1) && decide (c.1 < k + n))
                loose := cutLoose s.loose k n ++ [(k, n, s.fresh)], fresh := s.fresh + n }

/-- n bytes of memory, as a number. -/
def State.rawRead (s : State) (mt pa n : Nat) : Nat := leNat (s.memBytes (memKey mt pa) n)

/-- The context record at a physical address (R287). -/
def State.readContext (s : State) (mt pa : Nat) : Context :=
  let w (off n : Nat) : Nat := s.rawRead mt (pa + off) n
  { desc0 := BitVec.ofNat 64 (w 0 8), desc1 := BitVec.ofNat 64 (w 8 8), fpdef := BitVec.ofNat 4 (w 0x20 1),
    dbgCtl := BitVec.ofNat 32 (w 0x24 4) &&& 3, handler := BitVec.ofNat 64 (w 0x28 8), pool := BitVec.ofNat 64 (w 0x30 8),
    methobj := BitVec.ofNat 64 (w 0x38 8), tilewin := BitVec.ofNat 64 (w 0x40 8 / 2 ^ 24 * 2 ^ 24),
    stackwin := BitVec.ofNat 64 (w 0x48 8 / 2 ^ 24 * 2 ^ 24), stackarea := BitVec.ofNat 64 (w 0x50 8 / 2 ^ 7 * 2 ^ 7),
    stklim := BitVec.ofNat 24 (w 0x58 4) ||| 0xF, gbase := BitVec.ofNat 64 (w 0x60 8 / 2 ^ 17 * 2 ^ 17),
    glimit := BitVec.ofNat 64 (w 0x68 8 / 2 ^ 17 * 2 ^ 17 + 0x1FFFF) }

/-- Reserved fields of a translation descriptor (R68). -/
def descReserved (w0 w1 : Nat) : Bool :=
  bits w0 63 52 != 0 || bits w0 7 0 != 0 || bits w1 63 48 != 0 || bits w1 31 16 != 0 || bits w1 11 1 != 0

/-- A context record with a nonzero reserved field is a bad descriptor (R6, R68, R287). -/
def State.contextReserved (s : State) (mt pa : Nat) : Bool :=
  let w (off n : Nat) : Nat := s.rawRead mt (pa + off) n
  descReserved (w 0 8) (w 8 8) || w 0x10 16 != 0 || bits (w 0x20 4) 31 4 != 0 || bits (w 0x40 8) 23 0 != 0 || bits (w 0x48 8) 23 0 != 0 ||
    bits (w 0x50 8) 6 0 != 0 || w 0x70 0x90 != 0

/-- Where a queue's context record lies (R285). -/
def Queue.ctxPlace (q : Queue) : Nat × Nat := (bits q.ctx.toNat 7 4, bits q.ctx.toNat 51 8 * 2 ^ 8)

/-- The context of a queue. -/
def State.queueContext (s : State) (q : Nat) : Context :=
  let x := s.queue q
  s.readContext x.ctxPlace.1 x.ctxPlace.2

/-! ## Ending work -/

/-- The poisoned units that a block leaves in its core's tile memory (R396). -/
def State.leftPoison (s : State) (b : Block) : List (Nat × Nat) :=
  match s.crew? b.crew with
  | none => []
  | some c => if c.resident then b.tilePoison.map fun u => (c.coreOf b.rank, b.base + u) else []

/-- Fault-buffer entries that p picks become FREE. What others hold on them is presented again at the first moment, by the
FAULT_REPRESENT that comes next, and so are the unattached accesses that waited for it (R340, log entry 82). -/
def State.freeEntries (s : State) (p : Entry → Bool) : State :=
  let on (h : Held) : Bool := s.buffers.any fun b => b.cluster == h.cluster && b.entries.any fun e => p e && h.entry == some e.index
  let hit (b : Buffer) : Bool := b.entries.any p
  let left (b : Buffer) : Buffer :=
    { b with entries := b.entries.filter fun e => !p e
             replayAll := b.replayAll || s.held.any fun h => h.cluster == b.cluster && !h.saved && on h }
  let due := ((s.buffers.filter hit).map left).filter fun b => b.replayAll || (b.dropped && b.entries.isEmpty)
  { s with held := updWhere on (fun h => { h with entry := none }) s.held
           buffers := updWhere hit left s.buffers
           agenda := (due.map fun b => { ticks := 0, cycles := 0, action := .event (.faultRepresent (Fin.ofNat 96 b.cluster)) }) ++ s.agenda }

/-- A fault-buffer entry that a wave of some crew owns or handles. -/
def Entry.ownedBy (p : Nat → Bool) (e : Entry) : Bool :=
  (e.state == .owned || e.state == .handler) && (match e.owner with | some r => p r.crew | none => false)

/-- Stop crews without saving: crews, blocks, waves and held accesses of every crew that p picks disappear, and
their resources and fault-buffer entries with them (R307, R335, R401, R402). -/
def State.dropCrews (s : State) (p : Crew → Bool) : State :=
  let gone := (s.crews.filter p).map fun c => c.id
  let inn (n : Nat) : Bool := gone.contains n
  let s := { s with tilePoison := s.tilePoison ++ s.blocks.flatMap fun (b : Block) => if inn b.crew then s.leftPoison b else []
                    crews := s.crews.filter fun c => !p c
                    blocks := s.blocks.filter fun b => !inn b.crew
                    waves := s.waves.filter fun w => !inn w.ref.crew
                    mixTags := s.mixTags.filter fun t => !(t.point == 0 && inn (t.place / 8))
                    strongs := s.strongs.filter fun f => !(f.place != 0 && inn ((f.place - 1) / 8))
                    held := s.held.filter fun h => !inn h.wave.crew || (match h.kind with | .home _ => true | _ => false)
                    saved := s.saved.filter fun x => !inn x.crew }
  s.freeEntries (Entry.ownedBy inn)

/-! ## Events and queues (R290, R291, R307) -/

/-- An event counter. -/
def State.eventCount (s : State) (p e : Nat) : BitVec 64 := cellGet 0 (s.part p).events e

/-- Set an event counter; a WAITEVENT whose target is reached completes at that moment. -/
def State.setEvent (s : State) (p e : Nat) (v : BitVec 64) : State :=
  let x := s.part p
  let s := s.putPart { x with events := cellSet 0 x.events e v }
  { s with queues := s.queues.map fun (q : Queue) =>
      match q.waitFor with
      | some (e', target, _, _) => if q.part == p && e' == e && target ≤ v.toNat then { q with waitFor := none } else q
      | none => q }

/-- An addition to a counter, modulo 2^64 (R291). -/
def State.addEvent (s : State) (p e inc : Nat) : State := s.setEvent p e (s.eventCount p e + BitVec.ofNat 64 inc)

/-- Taken packets of a queue that have not completed. -/
def State.outstanding (s : State) (q : Nat) : Nat := (s.works.filter fun w => w.queue == q).length

/-- A SIGNAL or BARRIER of a queue completes once every earlier packet has (R290). -/
def State.settleQueue (s : State) (q : Nat) : State :=
  let x := s.queue q
  match x.blocked with
  | none => s
  | some act =>
    if s.outstanding q != 0 then s
    else
      let s := s.putQueue { x with blocked := none }
      match act with
      | some (e, inc) => s.addEvent x.part e inc
      | none => s

/-- IDLE becomes RUNNING when a queue of the partition is enabled, and RUNNING becomes IDLE when none is and no work
of it is resident (R307). -/
def State.idleRunning (s : State) (p : Nat) : State :=
  let x := s.part p
  let enabled := s.queues.any fun q => q.part == p && q.en
  if x.state = 2 && enabled then s.putPart { x with state := 3 }
  else if x.state = 3 && !enabled && (s.works.all fun w => w.part != p) && (s.crews.all fun c => c.part != p) then
    s.putPart { x with state := 2 }
  else s

/-- The packet of taken work completes in error (R385): no signal, and its queue's EN is cleared. -/
def State.workInError (s : State) (seq : Nat) : State :=
  match s.work? seq with
  | none => s
  | some w =>
    let q := s.queue w.queue
    let s := s.putQueue { q with en := false }
    let s := { s with works := s.works.filter fun x => x.seq != seq, graphs := s.graphs.filter fun g => g.seq != seq }
    (s.settleQueue w.queue).idleRunning w.part

/-- A render pass fails (R386): passes and commits stop, its crews stop without saving, the packet completes in error
and a record of SUB 2 is written. -/
def State.failPass (s : State) (p tile code : Nat) : State :=
  match s.pass? p with
  | none => s
  | some r =>
    let s := s.dropCrews fun c => c.work == r.seq
    let s := { s with passes := s.passes.filter fun x => x.part != p }
    let s := s.workInError r.seq
    s.postEvent p 2 r.queue tile r.context.ctag code

/-- The queues of a partition whose context record carries a tag. -/
def State.queuesOf (s : State) (p ctag : Nat) : List Nat :=
  (s.queues.filter fun (q : Queue) => q.part == p && (s.queueContext q.num).ctag == ctag).map fun q => q.num

/-- A context fails (R401): its taken packets complete in error, SIGNALs with no signal and WAITEVENTs too (R385). `place` is
what the record of SUB 8 says of the array that failed it (R399). -/
def State.failContext (s : State) (p ctag code : Nat) (place : Nat := 0) : State :=
  let mine (c : Context) (part : Nat) : Bool := c.ctag == ctag && part == p
  let s := s.dropCrews fun c => mine c.ctx c.part
  let s := { s with
    held := s.held.filter fun h => !mine h.context h.partition
    inflight := s.inflight.filter fun r => !mine r.context r.part
    objects := s.objects.filter fun o => !(o.ctag == ctag && o.part == p) }
  let s := s.freeEntries fun e => e.ctag == ctag && e.part == p
  let qs := s.queuesOf p ctag
  let s := { s with queues := updWhere (fun (q : Queue) => qs.contains q.num) (fun q => { q with blocked := none, waitFor := none }) s.queues }
  let s := match s.pass? p with
    | some r => if r.context.ctag == ctag then s.failPass p 0 0x27 else s
    | none => s
  let seqs := (s.works.filter fun w => qs.contains w.queue).map fun w => w.seq
  let s := seqs.foldl (fun s n => s.workInError n) s
  let s := qs.foldl (fun s n => let q := s.queue n; s.putQueue { q with en := false }) s
  (s.postError p 8 0 place 0 ctag code 0).idleRunning p

/-- Something of a context is there to fail: a crew, a queue that is enabled or has taken work, or its render pass. -/
def State.contextLives (s : State) (p ctag : Nat) : Bool :=
  (s.crews.any fun c => c.part == p && c.ctx.ctag == ctag) ||
    ((s.queuesOf p ctag).any fun q => (s.queue q).en || s.outstanding q != 0) ||
    (match s.pass? p with | some r => r.context.ctag == ctag | none => false)

/-- The context of a crew fails, on account of that crew: one that has stopped already fails nothing more, so that the
lanes of one instruction fail their context once (R401). -/
def State.failCrew (s : State) (c : Crew) (code : Nat) : State :=
  if (s.crew? c.id).isSome then s.failContext c.part c.ctx.ctag code else s

/-- A partition fails (R402); `place` is what the record of SUB 9 says of the array that failed it (R399). -/
def State.failPartition (s : State) (p : Nat) (place : Nat := 0) : State :=
  let s := s.dropCrews fun c => c.part == p
  let s := { s with
    works := s.works.filter fun w => w.part != p
    graphs := s.graphs.filter fun g => s.works.all fun w => w.part != p || w.seq != g.seq
    passes := s.passes.filter fun r => r.part != p
    objects := s.objects.filter fun o => o.part != p
    inflight := s.inflight.filter fun r => r.part != p
    held := s.held.filter fun h => h.partition != p
    l2 := s.l2.filter fun l => l.part != p
    queues := updWhere (fun (q : Queue) => q.part == p) (fun (q : Queue) => { q with en := false }) s.queues }
  let s := s.freeEntries fun e => e.part == p
  let x := s.part p
  let s := s.putPart { x with state := 4 }
  s.postError p 9 0 place 0 0xFFFF 0 0

/-! ## Landing values -/

/-- Give a landing its value in lane l: the words of its registers, lowest first. -/
def Landing.put (ld : Landing) (l : Nat) (ws : List Word) : Landing :=
  { ld with data := ld.data.zipIdx.map fun (x, k) => Lanes.build fun m => if m == l then ws.getD k 0 else Lanes.at_ x m
            pending := ld.pending &&& ~~~(1#96 <<< l) }

/-- Every lane of an instruction has been answered: its producer, by number, has nothing pending, or has landed. -/
def Wave.isAnswered (w : Wave) (id : Nat) : Bool := w.landings.all fun x => x.id != id || x.pending == 0

/-- The traps of instructions whose last lane has been answered are raised (R376). -/
def Wave.settle (w : Wave) : Wave :=
  let due := w.unsettled.filter fun x => w.isAnswered x.1
  { w with traps := w.traps ++ due.map fun x => x.2
           raised := w.raised + due.length
           unsettled := w.unsettled.filter fun x => !w.isAnswered x.1 }

/-- Change the producer of a number; the traps that waited for it alone are raised. -/
def Wave.updProducer (w : Wave) (id : Nat) (f : Landing → Landing) : Wave :=
  { w with landings := updWhere (fun x => x.id == id) f w.landings }.settle

/-- A lane of a landing receives 0 (a discarded, refused or rejected access). -/
def Wave.landZero (w : Wave) (id l : Nat) : Wave := w.updProducer id fun x => x.put l []

/-- Give a wave an asynchronous trap, to be delivered (R350). -/
def State.raise (s : State) (r : WaveRef) (t : Trap) : State :=
  match s.wave? r with
  | none => s
  | some w => s.putWave { w with traps := w.traps ++ [t], raised := w.raised + 1 }

/-- Two lanes of an instruction share one trap: their cause, SUB and KIND are the same; MIXED_SIZE and BAD_METHOD have one
trap for each instruction whatever the SUBs of its lanes (R376, R392). -/
def Trap.joins (t x : Trap) : Bool :=
  x.cause == t.cause && x.pc == t.pc && (t.cause == 0x0A || t.cause == 0x0C || (x.sub == t.sub && x.kind == t.kind))

/-- A lane joins a trap; the lowest lane gives SUB and TRAP_ADDR. -/
def Trap.join (t : Trap) (l : Nat) (a : BitVec 64) (x : Trap) : Trap :=
  let low := decide (l < LaneMask.lowest x.lanes)
  { x with addr := if low then a else x.addr, sub := if low then t.sub else x.sub, lanes := x.lanes ||| (1#96 <<< l) }

/-- Raise one asynchronous trap for an instruction: lanes join the trap of the instruction that still waits. One whose
producer has lanes to be answered waits for them. -/
def State.raiseLane (s : State) (r : WaveRef) (t : Trap) (l : Nat) (a : BitVec 64) (id : Option Nat := none) : State :=
  let first : Trap := { t with lanes := 1#96 <<< l, addr := a }
  match s.wave? r, id with
  | none, _ => s
  | some w, none =>
    s.putWave (if w.traps.any t.joins then { w with traps := updWhere t.joins (t.join l a) w.traps }
      else { w with traps := w.traps ++ [first], raised := w.raised + 1 })
  | some w, some id =>
    let mine (x : Nat × Trap) : Bool := x.1 == id && t.joins x.2
    s.putWave { w with
      unsettled := if w.unsettled.any mine then updWhere mine (fun x => (id, t.join l a x.2)) w.unsettled
                   else w.unsettled ++ [(id, first)] }

/-! ## Combiner batches that end without HDONE -/

/-- Reject requests with BAD_METHOD (R376): each lane receives 0, and the wave one trap per instruction. -/
def State.rejectRequests (s : State) (rs : List Request) (sub : Nat) (info : Nat) : State :=
  rs.foldl (fun s q =>
    let t : Trap := { cause := 0x0C, sub := sub, kind := 2, async := true, pc := q.pc }
    let s := s.raiseLane q.wave t q.lane (BitVec.ofNat 64 (q.method + 256 * info)) (some q.landing)
    match s.wave? q.wave with
    | none => s
    | some w => s.putWave (w.landZero q.landing q.lane)) s

/-- End a running batch: its combiner wave, buffer and replies are dropped (R377, R378). -/
def State.endBatch (s : State) (o : Object) : State :=
  let s := match o.crew with
    | some c => s.dropCrews fun x => x.id == c
    | none => s
  s.putObject { o with running := none, replies := [], crew := none }

/-- Discard a batch and requeue its requests at the head (R377, R379). -/
def State.requeueBatch (s : State) (id : Nat) (blocked : Bool) (limit : Option Nat) : State :=
  match s.object? id with
  | none => s
  | some o =>
    let s := s.endBatch o
    s.putObject { o with running := none, replies := [], crew := none, pending := o.running.getD [] ++ o.pending,
                         blocked := blocked, limit := limit }

/-- A combiner wave trapped: the batch is discarded and each request rejected with SUB 4 (R378). -/
def State.combinerTrap (s : State) (id cause : Nat) : State :=
  match s.object? id with
  | none => s
  | some o =>
    let s := s.endBatch o
    s.rejectRequests (o.running.getD []) 4 cause

/-! ## Taking a trap and returning from it (R354 to R356) -/

/-- The context of a wave's crew fails. -/
def State.failContextOf (s : State) (w : Wave) (code : Nat) : State :=
  match s.crew? w.ref.crew with
  | none => s
  | some c => s.failContext c.part c.ctx.ctag code

/-- The slices of the handler gang: those asked for that are live, else the gang of the lowest live slice (R354, R370). -/
def Wave.handlerSlices (w : Wave) (m : SliceMask) : SliceMask :=
  let x := m &&& w.live
  if x = 0 then (w.gangs.foldr (fun (g : Gang) (best : SliceMask) =>
      if (SliceMask.slices g.slices).headD 24 < (SliceMask.slices best).headD 24 then g.slices else best) 0)
  else x

/-- A wave enters its handler (R354): the entry frame, the trap registers, SUP, and the handler gang at HANDLER_BASE. -/
def Wave.enterHandler (w : Wave) (t : Trap) (entry : Option (Nat × Nat)) : Wave :=
  let slices := w.handlerSlices t.slices
  { w with
    frame := some { gangs := w.gangs, act := w.act, sync := !t.async && t.cause != 0x08, slices := t.slices, entry := entry }
    trapCause := BitVec.ofNat 32 (causeWord t.cause t.sub t.kind t.fbi t.async)
    trapPc := t.pc, trapAddr := t.addr, trapLanes := t.lanes
    sup := true
    act := t.lanes
    gangs := [{ slices := slices, pc := w.handlerBase, wait := .ready }] }

/-- Take a trap, synchronous or asynchronous: the ONE way into a handler. A trap of the handler itself, or one with
no usable HANDLER_BASE, fails the context (R356); a combiner's trap ends its batch (R378). -/
def State.takeTrap (s : State) (w : Wave) (t : Trap) (entry : Option (Nat × Nat) := none) : State :=
  match s.crew? w.ref.crew with
  | none => s
  | some c =>
    match c.kind with
    | .combiner o => s.combinerTrap o t.cause
    | _ =>
      if w.sup || t.fromHandler then s.failContext c.part c.ctx.ctag t.cause
      else if w.handlerBase = 0 || w.handlerBase.extractLsb' 0 2 != 0 then s.failContext c.part c.ctx.ctag 0x81
      else s.putWave (w.enterHandler t entry)

/-- Leave the handler: the gangs and g61 to g63 as they stood at entry; after a synchronous trap the trapping gang at
TRAP_PC (R355). -/
def Wave.leaveHandler (w : Wave) : Wave :=
  match w.frame with
  | none => { w with sup := false }
  | some f =>
    { w with
      sup := false, frame := none, act := f.act
      gangs := if f.sync then updWhere (fun g => g.slices == f.slices)
          (fun g => { g with pc := w.trapPc, wait := .ready, kept := if w.trapPc = g.pc then g.kept else none }) f.gangs
               else f.gangs }

/-! ## Issuing -/

/-- The wave, gang and crew that issue. -/
structure Issue where
  wave : Wave
  gang : Gang
  crew : Crew
  deriving DecidableEq, Repr

/-- The issuer that State names. -/
def State.issuer (s : State) : Option Issue :=
  match s.cur with
  | none => none
  | some (r, sl) =>
    match s.wave? r, s.crew? r.crew with
    | some w, some c =>
      match w.gang? sl with
      | some g => some { wave := w, gang := g, crew := c }
      | none => none
    | _, _ => none

/-- Lanes of the cohort. -/
def Issue.cohort (c : Issue) : LaneMask := c.gang.slices.lanes

/-- Active lanes of a lane instruction (R8, R139). -/
def Issue.active (c : Issue) (e : Ext) : LaneMask :=
  let q := c.wave.readP e.pr.toNat
  c.cohort &&& c.wave.act &&& (if e.pn then ~~~q else q)

/-- Active lanes of a group instruction's cohort. -/
def Issue.activeGroup (c : Issue) : LaneMask := c.cohort &&& c.wave.act

/-- A trap of the issuing instruction, at its address, for its cohort (R351). -/
def Issue.trap (c : Issue) (cause sub : Nat) (addr : BitVec 64) (lanes : LaneMask) (kind : Nat := 0) : Trap :=
  { cause := cause, sub := sub, kind := kind, pc := c.gang.pc, addr := addr, lanes := lanes, slices := c.gang.slices }

/-- The base word and the word after it, as TRAP_ADDR reports them (R351). -/
def wordsAddr (ws : List Word) : BitVec 64 := ws.getD 1 0 ++ ws.getD 0 0

/-- Where a gang goes on: at the next instruction, ready; the instruction takes its issue position (R29). -/
def Wave.advance (w : Wave) (g : Gang) (pc : Addr) : Wave :=
  { w with gangs := updWhere (fun x => x.slices == g.slices) (fun x => { x with pc := pc, wait := .ready, kept := none }) w.gangs
           issued := w.issued + 1, roundIssued := w.roundIssued + 1 }

/-- A gang waits where it is. -/
def Wave.park (w : Wave) (g : Gang) (x : Wait) : Wave :=
  { w with gangs := updWhere (fun y => y.slices == g.slices) (fun y => { y with wait := x }) w.gangs }

/-- The address after an instruction (R136). -/
def Issue.nextPc (c : Issue) (i : Instr) : Addr := c.gang.pc + BitVec.ofNat 64 (instrSize i)

/-- The instruction is done: the wave as changed goes on at the next instruction. -/
def State.retire (s : State) (c : Issue) (i : Instr) (w : Wave) : State :=
  s.putWave (w.advance c.gang (c.nextPc i))

/-! ## The checks every instruction makes (R350, ranks 2 to 6) -/

/-- Classes a role may issue (R33). -/
def roleAllows (role : Nat) (k : Cls) : Bool :=
  match role, k with
  | 0, _ => true
  | _, .genLane => true
  | _, .genGroup => true
  | 1, .copy => true
  | 2, .matrix => true
  | 3, .laneArith => true
  | _, _ => false

/-- The instructions R229 allows in a combiner wave, by set, major and minor. -/
def combinerAllows (i : Instr) : Bool :=
  match fields i with
  | some (.register false m fn _) =>
    (m.toNat ≤ 0x18 && m.toNat != 0x05) || (m == 0x1B && fn != 0) || m == 0x1C
  | some (.immediate false _ _) => true
  | some (.register true m fn _) =>
    m.toNat ≤ 7 || m == 0x0A || m == 0x0B || m == 0x0C || (m == 0x0D && fn == 0) || m == 0x16 || m == 0x18 ||
      (m == 0x19 && (fn == 0 || fn == 5))
  | some (.immediate true _ _) => true
  | some (.branch _ _ _) => true
  | some (.literal _ _ _ _) => true
  | _ => false

/-- The register fields of an instruction, in the order A, B, C, D with their register numbers and empty modes. -/
def regFields (i : Instr) : List (Field × FieldUse × BitVec 6 × Bool) :=
  match fields i, sig i with
  | some (.register _ _ _ o), some g =>
    [(.a, g.a, o.a, o.ext.ea), (.b, g.b, o.b, o.ext.eb), (.c, g.c, o.ext.c, o.ext.ec), (.d, g.d, o.d, false)]
  | some (.immediate _ _ o), some g => [(.a, g.a, o.a, false), (.d, g.d, o.d, false)]
  | some (.literal _ _ _ o), some g => [(.a, g.a, o.a, false), (.d, g.d, o.d, false)]
  | _, _ => []

/-- The number of a register that lies at or above .regs, in field order (R358 SUB 8). -/
def outside (i : Instr) (regs : Nat) : Option Nat :=
  ((regFields i).flatMap fun (_, u, x, _) => (u.names x).filterMap fun (f, n) =>
    if f == .v && regs ≤ n then some n else none).head?

/-- A register id (R351). -/
def regId (f : RegFile) (n : Nat) : BitVec 64 := BitVec.ofNat 64 (n + (if f == .g then 64 else 0))

/-- The first empty source of a field in trap mode (R359). -/
def emptySource (w : Wave) (i : Instr) : Option (Nat × RegFile × Nat) :=
  ((regFields i).flatMap fun (k, u, x, e) =>
    if e then (u.reads x).filterMap fun (f, n) => if w.isFull f n then none else some (k.code, f, n) else []).head?

/-- The first checked source whose init bit is clear (R360). A source that is empty is not read yet: it is checked once
its producer has landed. -/
def uninitSource (w : Wave) (i : Instr) : Option (Nat × RegFile × Nat) :=
  let pass := match sig i with | some g => g.unchecked | none => []
  ((regFields i).flatMap fun (k, u, x, _) =>
    if pass.contains k then [] else
      (u.reads x).filterMap fun (f, n) => if w.isInit f n || !w.isFull f n then none else some (k.code, f, n)).head?

/-- The activity registers that an instruction reads or writes without naming them (R182, R183): MASK and PACT alone wait for
them; every other lane instruction uses the mask as it stands while a value is on its way to it (log entry 83). -/
def activityFull (w : Wave) (i : Instr) : Bool :=
  match sig i with
  | some g => !g.activity || (w.isFull .g 61 && w.isFull .g 62 && w.isFull .g 63)
  | none => true

/-- Every source and destination register is full (R143). -/
def operandsFull (w : Wave) (i : Instr) : Bool :=
  activityFull w i &&
    (regFields i).all fun (_, u, x, _) => (u.reads x ++ u.writes x).all fun (f, n) => w.isFull f n

/-- What the checks of ranks 2 to 6 answer. -/
inductive Check where
  | ok
  | wait
  | trap (t : Trap)
  /-- The context fails with this CODE (R356). -/
  | fail (code : Nat)
  deriving DecidableEq, Repr

/-- What an instruction asks of its mode and place: only in supervisor mode (R361); never in it (R356); and a ROLE
SUB where its place forbids it (R362). -/
structure Needs where
  privileged : Bool := false
  notInHandler : Bool := false
  /-- SUB 2 of PRIVILEGED: a system-register access not permitted. -/
  denied : Bool := false
  /-- SUB 9 of ILLEGAL: no such entry. -/
  noEntry : Bool := false
  place : Option Nat := none
  /-- The indirect register of MOVIN that is empty under EA = 1 (R143, R359). -/
  indirect : Option Nat := none
  deriving DecidableEq, Repr

/-- The lanes that a trap of the whole instruction reports. -/
def Issue.lanesOf (c : Issue) (i : Instr) : LaneMask :=
  match fields i with
  | some (.register false _ _ o) => c.active o.ext
  | _ => c.activeGroup

/-- The class of an instruction (R32). -/
def classOf (i : Instr) : Cls :=
  match sig i with
  | some g => g.cls
  | none => .genGroup

/-- A lane instruction with no active lane reads no source (R360). -/
def readsNow (i : Instr) (lanes : LaneMask) : Bool :=
  match fields i with
  | some (.register false _ _ _) => lanes != 0
  | some (.immediate false _ _) => lanes != 0
  | _ => true

/-- The check of UNINIT (R360), then the wait of R143. -/
def Issue.checkSources (c : Issue) (i : Instr) : Check :=
  match (if c.wave.dbgCtl.getLsbD 0 && readsNow i (c.lanesOf i) then uninitSource c.wave i else none) with
  | some (k, f, r) => .trap (c.trap 0x03 k (regId f r) (c.lanesOf i))
  | none => if operandsFull c.wave i then .ok else .wait

/-- The gang is within an instruction whose descriptor has been read. -/
def Gang.within (g : Gang) : Bool :=
  match g.wait with
  | .descriptor _ _ => true
  | _ => false

/-- The checks of ranks 2 to 6 (R350), then the wait of R143. Checks are made at the first issue only: a gang that
waited on registers has made them (R349), but for the reads of the registers it waited for; one within its instruction has
read them too. -/
def Issue.check (c : Issue) (i : Instr) (n : Needs) : Check :=
  let lanes := c.lanesOf i
  let words := wordsAddr (encode i)
  let w := c.wave
  if c.gang.within then .ok
  else if c.gang.wait == .registers then c.checkSources i
  else match outside i w.regs with
  | some r => .trap (c.trap 0x01 8 (regId .v r) lanes)
  | none =>
    if n.noEntry then .trap (c.trap 0x01 9 words lanes)
    else if n.privileged && !w.sup then .trap (c.trap 0x02 1 words lanes)
    else if n.denied then .trap (c.trap 0x02 2 words lanes)
    else if n.notInHandler && w.sup then .fail 0x80
    else
      if !roleAllows w.role (classOf i) then .trap (c.trap 0x11 1 words lanes)
      else match n.place with
      | some k => .trap (c.trap 0x11 k words lanes)
      | none =>
        if c.crew.isCombiner && !combinerAllows i then .trap (c.trap 0x11 6 words lanes)
        else match emptySource w i with
        | some (k, f, r) => .trap (c.trap 0x04 k (regId f r) lanes)
        | none =>
        match n.indirect with
        | some r => .trap (c.trap 0x04 5 (regId .v r) lanes)
        | none => c.checkSources i

/-- The frame of every wave instruction: its issuer, the checks of ranks 2 to 6, the wait on registers, then its
own effect. -/
def issue (i : Instr) (n : Issue → Needs) (s : State) (body : Issue → State) : Host.Outcome State Fault Refusal :=
  match s.issuer with
  | none => .fault .noIssuer
  | some c =>
    match c.check i (n c) with
    | .ok => .next (body c)
    | .wait => .next (s.putWave (c.wave.park c.gang .registers))
    | .trap t => .next (s.takeTrap c.wave t)
    | .fail code => .next (s.failContext c.crew.part c.crew.ctx.ctag code)

/-- No need beyond the role. -/
def plain (_ : Issue) : Needs := {}

/-! ## Long-latency producers (R143) -/

/-- Mark the registers of a producer empty and hold its values until they land. -/
def Wave.produce (w : Wave) (ld : Landing) : Wave :=
  let f : RegFile := if ld.file then .g else .v
  let w := (List.range ld.data.length).foldl (fun w k => w.setEmpty f (ld.reg + k)) w
  { w with landings := w.landings ++ [{ ld with fromHandler := w.sup }] }

/-- A group value lands. A handler has its own g61 to g63: the program's stand in the entry frame while it runs (R354),
and are as they stood at entry once it has returned (R355). -/
def Wave.landG (w : Wave) (handler : Bool) (cohort : SliceMask) (n : Nat) (x : Word) : Wave :=
  if n < 61 then w.writeG cohort n x
  else match handler, w.frame with
  | false, none => w.writeG cohort n x
  | true, some _ => w.writeG cohort n x
  | true, none => w
  | false, some f => { w with frame := some { f with act := writeAct f.act cohort n x }, gInit := w.gInit ||| regBit n }

/-- A producer lands: its registers receive their values and become full. The bits of g61 to g63 of slices that have
exited meanwhile stay 0 (R23). -/
def Wave.land (w : Wave) (ld : Landing) : Wave :=
  let f : RegFile := if ld.file then .g else .v
  let w := { w with landings := w.landings.filter fun x => x.id != ld.id }
  ld.data.zipIdx.foldl (fun w (x, k) =>
    let w := if ld.file then w.landG ld.fromHandler (LaneMask.toSlices ld.lanes &&& w.live) (ld.reg + k) (Lanes.at_ x 0)
             else w.writeV (ld.reg + k) ld.lanes (fun l => Lanes.at_ x l)
    w.setFull f (ld.reg + k)) w

end Sys2Proof.Machine
end

