-- ==== Sys2Proof/Machine/Translate.lean ====
section
/-! DEFINITION. Addresses: canonical form and steering (R47, R48), the tile allocation and its regions (R51 to R57),
the walks of R70 to R73 with what ends them (R330, R331), and permissions (R74, R75). -/

namespace Sys2Proof.Machine

/-! ## Steering -/

/-- R47 for one byte address. -/
def canonical (a : BitVec 64) : Bool :=
  let h := a.extractLsb' 56 8
  h == 0 || h == 0xFF

/-- Where R48 steers an address. -/
inductive Aperture where
  | tile (core : Nat) (off : Nat)
  | stack (off : Nat)
  | global
  deriving DecidableEq, Repr

/-- R48 for a canonical address. -/
def steer (g : Segs) (a : BitVec 64) : Aperture :=
  let t := (a - g.tileBase).toNat
  if t < 2 ^ 24 then .tile (t / 2 ^ 20) (t % 2 ^ 20)
  else
    let k := (a - g.stackBase).toNat
    if k < 2 ^ 24 then .stack k else .global

/-- The GLOBAL address that backs lane l's STACK byte (R61). -/
def stackBacking (g : Segs) (l off : Nat) : BitVec 64 :=
  g.stackBack + BitVec.ofNat 64 (off / 4 * 384 + 4 * l + off % 4)

/-! ## Tile memory -/

/-- n bytes of a block's tile memory. -/
def Block.bytes (b : Block) (off n : Nat) : List Byte := readBytes (Config.freeTile (8 * b.crew + b.rank)) b.loose b.tile off n

/-- A word of a block's tile memory. -/
def Block.word (b : Block) (off : Nat) : Nat := leNat (b.bytes off 4)

/-- Write bytes of tile memory, with no check. -/
def Block.store (b : Block) (off : Nat) (bs : List Byte) : Block := 
  { b with tile := storeBytes b.tile off bs, loose := cutLoose b.loose off bs.length }

/-- Write a word of tile memory, with no check. -/
def Block.putWord (b : Block) (off v : Nat) : Block := b.store off (leBytes 4 v)

/-- A region-table entry in use and double-buffered (R56): its number, BASE, SIZE, SHADOW and CUR. -/
def Block.region (b : Block) (i : Nat) : Option (Nat × Nat × Nat × Bool) :=
  let w (k : Nat) := b.word (16 * i + 4 * k)
  if bits (w 3) 0 0 = 1 && bits (w 2) 31 31 = 1 then
    some (bits (w 0) 19 0, bits (w 1) 19 0, bits (w 2) 19 0, bits (w 2) 30 30 = 1)
  else none

/-- CUR of the sixteen entries. -/
def Block.curs (b : Block) : BitVec 16 :=
  (List.range 16).foldl (fun m i => if bits (b.word (16 * i + 8)) 30 30 = 1 then m ||| (1#16 <<< i) else m) 0

/-- Where an offset lies in tile memory when entry i's CUR is as given (R57); hidden writes take the other copy. -/
def Block.remapWith (b : Block) (cur : Nat → Bool) (off : Nat) : Nat :=
  (List.range 16).foldl (fun r i =>
    match b.region i with
    | some (base, size, shadow, _) => if base ≤ off && off < base + size && cur i then shadow + (off - base) else r
    | none => r) off

/-- The visible copy (R57). -/
def Block.visible (b : Block) (off : Nat) : Nat := b.remapWith (fun i => b.curs.getLsbD i) off

/-- The offset lies in a shadow range (R57). -/
def Block.inShadow (b : Block) (off : Nat) : Bool :=
  (List.range 16).any fun i =>
    match b.region i with
    | some (_, size, shadow, _) => shadow ≤ off && off < shadow + size
    | none => false

/-- n bytes from an offset as programs see them, remapped unit by unit (R57). -/
def Block.readVisible (b : Block) (off n : Nat) : List Byte :=
  (List.range n).flatMap fun k => b.bytes (b.visible (off + k)) 1

/-- Poison of the units that n bytes of tile memory touch. -/
def Block.poisoned (b : Block) (off n : Nat) : Bool :=
  (List.range n).any fun k => b.tilePoison.contains (b.visible (off + k) / 16 * 16)

/-- Invert CUR of a region (R57, R103). -/
def Block.publish (b : Block) (i : Nat) : Block :=
  let w := b.word (16 * i + 8)
  b.putWord (16 * i + 8) (setBits w 30 30 (1 - bits w 30 30))

/-- Sizes of a render pass's planes (R267): the offset of the records, of the depth plane, of the primitive plane and
the end. -/
def RenderPass.planes (r : RenderPass) : Nat × Nat × Nat × Nat :=
  let tp := roundUp (max r.gbuf.kernel.tile (max r.shade.kernel.tile r.res.kernel.tile)) 16
  let rec0 := 0x1000 + tp
  let dpl := rec0 + r.edge * r.edge * (16 * r.recsz)
  let ppl := dpl + 4 * r.samples * (r.edge * r.edge)
  (rec0, dpl, ppl, ppl + 4 * r.samples * (r.edge * r.edge))

/-- The bytes of a tile block's depth and primitive planes, which programs may only read (R267). -/
def State.planeRange (s : State) (c : Crew) : Option (Nat × Nat) :=
  match c.kind, s.passOf c with
  | .tile _, some r => some (r.planes.2.1, r.planes.2.2.2)
  | _, _ => none

/-- The rank that a core index names (R51). -/
def Crew.rankOf (c : Crew) (own core : Nat) : Option Nat :=
  if core = 15 then some own else if core < c.size then some core else none

/-- A TILE access of `size` bytes is inside its limits (R51, R54, R57, R267). -/
def State.tileOk (s : State) (c : Crew) (b : Block) (limit off size : Nat) (write : Bool) : Bool :=
  off + size ≤ limit + 1 && !(b.inShadow off) &&
    (!write || (0x1000 ≤ off &&
      (match s.planeRange c with
       | some (lo, hi) => off + size ≤ lo || hi ≤ off
       | none => true)))

/-- A run of a block's tile memory may be read or written: inside the allocation, no shadow range, and for a write
neither the control area nor a plane (R51, R54, R57, R267). -/
def State.tileRunOk (s : State) (c : Crew) (b : Block) (limit off n : Nat) (write : Bool) : Bool :=
  off + n ≤ limit + 1 &&
    ((List.range 16).all fun i =>
      match b.region i with
      | some (_, size, shadow, _) => off + n ≤ shadow || shadow + size ≤ off
      | none => true) &&
    (!write || (0x1000 ≤ off &&
      (match s.planeRange c with
       | some (lo, hi) => off + n ≤ lo || hi ≤ off
       | none => true)))

/-! ## Poison of memory (R396, R397) -/

/-- The memory type lies across a link that is down (R403). -/
def State.linkDown (s : State) (mt : Nat) : Bool := 9 ≤ mt && s.module.down.getLsbD (mt - 9)

/-- A byte range of memory touches a poisoned unit, or cannot be read because its link is down (R403). -/
def State.memPoisoned (s : State) (mt pa n : Nat) : Bool :=
  s.linkDown mt || s.poison.any fun u => memKey mt (pa / 16 * 16) ≤ u && u < memKey mt (pa + n)

def State.addPoison (s : State) (mt pa : Nat) : State :=
  let u := memKey mt (pa / 16 * 16)
  if s.poison.contains u then s else { s with poison := u :: s.poison }

def State.clearPoison (s : State) (mt pa : Nat) : State :=
  { s with poison := s.poison.filter fun u => u != memKey mt (pa / 16 * 16) }

/-! ## The walk -/

/-- Fields of a translation entry (R69). -/
def entryFrame (e : BitVec 64) : Nat := bits e.toNat 51 17
def entryMt (e : BitVec 64) : Nat := bits e.toNat 15 12
def entryV (e : BitVec 64) : Bool := e.getLsbD 0
def entryL (e : BitVec 64) : Bool := e.getLsbD 1
def entryR (e : BitVec 64) : Bool := e.getLsbD 2
def entryW (e : BitVec 64) : Bool := e.getLsbD 3
def entryX (e : BitVec 64) : Bool := e.getLsbD 4
def entryA (e : BitVec 64) : Bool := e.getLsbD 5
def entryD (e : BitVec 64) : Bool := e.getLsbD 6
def entryComp (e : BitVec 64) : Bool := e.getLsbD 7
def entryFt (e : BitVec 64) : Bool := e.getLsbD 8
def entryCh (e : BitVec 64) : Bool := e.getLsbD 9

/-- How a walk ends (R330). -/
inductive Walk where
  /-- A leaf: its word, its frame, and where the word lies in memory. -/
  | leaf (e : BitVec 64) (frame : Nat) (mt pa : Nat)
  /-- Missing, by SUB; for first touch the entry and its place. -/
  | missing (sub : Nat) (e : BitVec 64) (mt pa : Nat)
  | malformed (sub : Nat)
  | poisoned
  deriving DecidableEq, Repr

/-- Entries of a cluster's second-level TLB (R14, R75). -/
def tlbSize : Nat := 4096

/-- A cluster's TLB takes an entry; the oldest beyond its size leave it. Cluster 96 stands for the agents that are in no
cluster (log entry 54). -/
def State.cacheEntry (s : State) (x : TlbEntry) : State :=
  { s with tlb := keepFirst (fun t => t.cluster == x.cluster) tlbSize (x :: s.tlb) }

/-- The entry in memory is a leaf that a TLB holds, but for A or D that software has cleared since: the cached one goes on
being used (R75). -/
def clearedBits (cached now : BitVec 64) : Bool := entryV cached && entryL cached && cached != now && (now ||| (cached &&& 0x60)) == cached

/-- Read a table entry that covers `pages` pages from `page` on, at (mt, pa), for an agent of a cluster. A TLB that still
holds an older value of it may go on using that (R76); an entry with V = 1 is cached. The reads of a walk fill no line of
the L2 in the model (log entry 63). -/
def State.readEntry (s : State) (cl ctag part mt pa page pages : Nat) : BitVec 64 × State :=
  let now := BitVec.ofNat 64 (s.rawRead mt pa 8)
  let mine (t : TlbEntry) : Bool := t.cluster == cl && t.ctag == ctag && t.part == part && t.mt == mt && t.pa == pa && t.range.isNone
  let fresh (s : State) : State :=
    if entryV now then
      s.cacheEntry { ctag := ctag, part := part, mt := mt, pa := pa, value := now, range := none, cluster := cl, page := page, pages := pages }
    else s
  match s.tlb.find? mine with
  | some t =>
    if t.value = now || clearedBits t.value now then (t.value, s)
    else
      let (k, s) := s.choose 2
      if k = 1 then (t.value, s)
      else (now, fresh { s with tlb := s.tlb.filter fun x => !mine x })
  | none => (now, fresh s)

/-- The physical page of a leaf lies where its context may reach (R330, SUB 7). -/
def State.frameOk (s : State) (part mt pa : Nat) : Bool :=
  let p := s.part part
  if mt < 8 then p.spans.getLsbD mt && pa < 2 ^ 36
  else if mt = 8 then pa < 2 ^ 40 && p.lpch.getLsbD (pa / 2 ^ 35)
  else true

/-- Nonzero reserved fields of a leaf (R69). -/
def leafReserved (e : BitVec 64) : Bool := (e &&& 0x00F0000000010C00) != 0

/-- Judge a leaf that maps a frame (R330, SUB 6 and 7). -/
def State.judgeLeaf (s : State) (part : Nat) (e : BitVec 64) (frame mt pa : Nat) : Walk :=
  if leafReserved e || 0xD ≤ entryMt e then .malformed 6
  else if !s.frameOk part (entryMt e) (frame * 2 ^ 17) then .malformed 7
  else .leaf e frame mt pa

/-- A level-3 entry, in a RADIX table or a subtable (R70, R73). -/
def State.judgeLevel3 (s : State) (part : Nat) (e : BitVec 64) (mt pa : Nat) : Walk :=
  if !entryV e then .missing (if entryFt e then 1 else 0) e mt pa
  else if !entryL e then .malformed 2
  else s.judgeLeaf part e (entryFrame e) mt pa

/-- Of the entries that R71 lets translate page i of a group, one: its own, or an entry j with CH = 1. With it comes where
the entry lies: A and D are set there (R75). -/
def State.chooseGroup (s : State) (i mt pa : Nat) (own : BitVec 64) : (BitVec 64 × Nat) × State :=
  if s.oracle.isEmpty then ((own, pa), s)
  else
    let base := pa - 8 * i
    let es := (List.range 8).map fun j => (j, BitVec.ofNat 64 (s.rawRead mt (base + 8 * j) 8))
    let f0 := entryFrame (es.getD 0 (0, 0)).2
    let same (x : Nat × BitVec 64) : Bool :=
      entryCh x.2 && entryV x.2 && (x.2.extractLsb' 2 15 == own.extractLsb' 2 15) && entryFrame x.2 == f0 + x.1
    if f0 % 8 = 0 && es.all same then ((own, pa), s)
    else
      let hinted := es.filter fun x => entryCh x.2 && entryV x.2 && x.1 != i
      let (k, s) := s.choose (hinted.length + 1)
      match k with
      | 0 => ((own, pa), s)
      | k + 1 =>
        match hinted[k]? with
        | none => ((own, pa), s)
        | some (j, e) =>
          let f := (entryFrame e + i + 2 ^ 35 - j) % 2 ^ 35
          ((BitVec.ofNat 64 (setBits e.toNat 51 17 f), base + 8 * j), s)

/-- The RADIX walk (R70). -/
def State.walkRadix (s : State) (c : Context) (part cl : Nat) (a : BitVec 64) : Walk × State :=
  let n := a.toNat
  let rmt := bits c.desc1.toNat 15 12
  if 0xD ≤ rmt then (.malformed 6, s)
  else
    let pa1 := bits c.desc0.toNat 51 8 * 2 ^ 8 + 8 * bits n 56 45
    if s.memPoisoned rmt pa1 8 then (.poisoned, s) else
    let (e1, s) := s.readEntry cl c.ctag part rmt pa1 (bits n 56 45 * 2 ^ 28) (2 ^ 28)
    if !entryV e1 then (.missing 0 e1 rmt pa1, s)
    else if entryL e1 then (.malformed 1, s)
    else if 0xD ≤ entryMt e1 then (.malformed 6, s)
    else
      let pa2 := entryFrame e1 * 2 ^ 17 + 8 * bits n 44 31
      if s.memPoisoned (entryMt e1) pa2 8 then (.poisoned, s) else
      let (e2, s) := s.readEntry cl c.ctag part (entryMt e1) pa2 (bits n 56 31 * 2 ^ 14) (2 ^ 14)
      if !entryV e2 then (.missing 0 e2 (entryMt e1) pa2, s)
      else if 0xD ≤ entryMt e2 then (.malformed 6, s)
      else if entryL e2 then
        if entryFrame e2 % 2 ^ 14 != 0 then (.malformed 3, s)
        else (s.judgeLeaf part e2 (entryFrame e2 + bits n 30 17) (entryMt e1) pa2, s)
      else
        let pa3 := entryFrame e2 * 2 ^ 17 + 8 * bits n 30 17
        if s.memPoisoned (entryMt e2) pa3 8 then (.poisoned, s) else
        let (e3, s) := s.readEntry cl c.ctag part (entryMt e2) pa3 (bits n 56 17) 1
        let ((e3, at_), s) := s.chooseGroup (bits n 19 17) (entryMt e2) pa3 e3
        (s.judgeLevel3 part e3 (entryMt e2) at_, s)

/-- An entry of a RANGE node: START, LAST, TARGET, word 3. -/
def State.rangeEntry (s : State) (mt pa k : Nat) : Nat × Nat × BitVec 64 × Nat :=
  let w (i : Nat) := s.rawRead mt (pa + 32 * k + 8 * i) 8
  (bits (w 0) 56 17, bits (w 1) 56 17, BitVec.ofNat 64 (w 2), w 3)

/-- A nonzero reserved field of a RANGE node's header (R72). -/
def State.rangeHeaderReserved (s : State) (mt pa : Nat) : Bool := s.rawRead mt pa 32 / 8 != 0

/-- A nonzero reserved field of entry k of a RANGE node: of START and LAST, of TARGET but for KIND 1, of CADDR for KIND 1
(R72). -/
def State.rangeReserved (s : State) (mt pa k : Nat) : Bool :=
  let w (i : Nat) := s.rawRead mt (pa + 32 * k + 8 * i) 8
  bits (w 0) 63 57 != 0 || bits (w 0) 16 0 != 0 || bits (w 1) 63 57 != 0 || bits (w 1) 16 0 != 0 ||
    (if bits (w 3) 1 0 = 1 then bits (w 3) 51 8 != 0 else w 2 != 0)

/-- The entries of a node stand in ascending order and apart (R72, R330 SUB 6). -/
def ascending : List (Nat × Nat × BitVec 64 × Nat) → Bool
  | [] => true
  | [x] => x.1 ≤ x.2.1
  | x :: y :: r => x.1 ≤ x.2.1 && x.2.1 < y.1 && ascending (y :: r)

/-- A TLB of the agent's cluster holds an entry of this node that covers page v (R76): START, LAST, TARGET, word 3 and its
place in the node. -/
def State.heldRange (s : State) (cl ctag part mt pa v : Nat) : Option ((Nat × Nat × BitVec 64 × Nat) × Nat) :=
  s.tlb.findSome? fun t =>
    match t.range with
    | some (start, last, w3) =>
      if t.cluster == cl && t.ctag == ctag && t.part == part && t.mt == mt && pa < t.pa && t.pa < pa + 256 && start ≤ v && v ≤ last
      then some ((start, last, t.value, w3), (t.pa - pa) / 32 - 1) else none
    | none => none

/-- The entry of a RANGE node that covers page v, with its place in the node: as memory holds it, or as a TLB still holds it
whole (R72, R76). Every entry but one of KIND 0 may be cached; one of KIND 1 only with a valid TARGET. -/
def State.findRange (s : State) (cl ctag part mt pa v : Nat) (es : List (Nat × Nat × BitVec 64 × Nat)) :
    Option ((Nat × Nat × BitVec 64 × Nat) × Nat) × State :=
  let now := es.zipIdx.find? fun x => x.1.1 ≤ v && v ≤ x.1.2.1
  let cached (s : State) : State :=
    match now with
    | some ((start, last, e, w3), k) =>
      if bits w3 1 0 = 0 || (bits w3 1 0 = 1 && !entryV e) then s
      else
        let x : TlbEntry :=
          { ctag := ctag, part := part, mt := mt, pa := pa + 32 * (k + 1), value := e, range := some (start, last, w3), cluster := cl,
            page := start, pages := last - start + 1 }
        if s.tlb.contains x then s else s.cacheEntry x
    | none => s
  match s.heldRange cl ctag part mt pa v with
  | none => (now, cached s)
  | some old =>
    let cleared := match now with
      | some (x, k) => k == old.2 && x.1 == old.1.1 && x.2.1 == old.1.2.1 && x.2.2.2 == old.1.2.2.2 && clearedBits old.1.2.2.1 x.2.2.1
      | none => false
    if some old = now || cleared then (some old, s)
    else
      let (k, s) := s.choose 2
      if k = 1 then (some old, s) else (now, cached s)

/-- The RANGE walk (R73) from a node, with the depths that are left. A level-3 entry of a subtable is always the page's own
(log entry 54). A nonzero reserved field of a node (R6), and a TARGET with V = 1 and L = 0, end it as log entries 71 and 78
say. -/
def State.walkRange (s : State) (c : Context) (part cl : Nat) (a : BitVec 64) : Nat → Nat → Nat → Walk × State
  | 0, _, _ => (.malformed 5, s)
  | fuel + 1, mt, pa =>
    let v := bits a.toNat 56 17
    if s.memPoisoned mt pa 256 then (.poisoned, s) else
    let count := bits (s.rawRead mt pa 8) 2 0
    if count = 0 then (.malformed 4, s)
    else
      let es := (List.range count).map fun k => s.rangeEntry mt pa (k + 1)
      if !ascending es || s.rangeHeaderReserved mt pa || (List.range count).any fun k => s.rangeReserved mt pa (k + 1) then (.malformed 6, s)
      else match s.findRange cl c.ctag part mt pa v es with
      | (none, s) => (.missing 2 0 mt pa, s)
      | (some ((start, last, target, w3), k), s) =>
        match bits w3 1 0 with
        | 1 =>
          let slot := pa + 32 * (k + 1) + 16
          if !entryV target then (.missing 0 target mt slot, s)
          else if !entryL target then (.malformed 2, s)
          else (s.judgeLeaf part target ((entryFrame target + (v - start)) % 2 ^ 35) mt slot, s)
        | 2 => if 0xD ≤ bits w3 7 4 then (.malformed 6, s)
               else s.walkRange c part cl a fuel (bits w3 7 4) (bits w3 51 8 * 2 ^ 8)
        | 3 =>
          if 0xD ≤ bits w3 7 4 then (.malformed 6, s)
          else if 2 ^ 14 ≤ last - start then (.malformed 4, s)
          else
            let mt3 := bits w3 7 4
            let pa3 := bits w3 51 8 * 2 ^ 8 + 8 * (v - start)
            if s.memPoisoned mt3 pa3 8 then (.poisoned, s) else
            let (e3, s) := s.readEntry cl c.ctag part mt3 pa3 v 1
            (s.judgeLevel3 part e3 mt3 pa3, s)
        | _ => (.malformed 4, s)

/-- The walk of a GLOBAL address in a context of a partition (R68, R70, R73). -/
def State.walk (s : State) (c : Context) (part cl : Nat) (a : BitVec 64) : Walk × State :=
  if descReserved c.desc0.toNat c.desc1.toNat then (.malformed 6, s)
  else if c.desc1.getLsbD 0 then
    let rmt := bits c.desc1.toNat 15 12
    if 0xD ≤ rmt then (.malformed 6, s) else s.walkRange c part cl a 6 rmt (bits c.desc0.toNat 51 8 * 2 ^ 8)
  else s.walkRadix c part cl a

/-- What an access needs of its leaf (R74). -/
structure Perm where
  r : Bool := false
  w : Bool := false
  x : Bool := false
  deriving DecidableEq, Repr

def Perm.allowed (p : Perm) (e : BitVec 64) : Bool :=
  (!p.r || entryR e) && (!p.w || entryW e) && (!p.x || entryX e)

/-- Set A, and D before a write, in the leaf at (mt, pa) (R75), as far as the leaf that the cluster's TLB holds lacks them:
a bit that software has cleared since is not set again. -/
def State.touchLeaf (s : State) (cl : Nat) (e : BitVec 64) (mt pa : Nat) (write : Bool) : State :=
  let want : BitVec 64 := (if write then 0x60 else 0x20) &&& ~~~e
  if want = 0 then s
  else
    let now := BitVec.ofNat 64 (s.rawRead mt pa 8) ||| want
    let mine (t : TlbEntry) : Bool := t.cluster == cl && t.mt == mt && (if t.range.isSome then t.pa + 16 else t.pa) == pa
    { s.putMem (memKey mt pa) (leBytes 8 now.toNat) with
             tlb := updWhere mine (fun t => { t with value := t.value ||| want }) s.tlb }

/-- Where the bytes of one translated piece lie, or why they do not. -/
inductive Reached where
  | mem (mt pa : Nat) (comp : Bool) (leaf : BitVec 64) (leafMt leafPa : Nat)
  /-- Presented to the fault buffer (R334), with SUB. -/
  | missing (sub : Nat)
  | malformed (sub : Nat)
  | permission
  | poisoned
  deriving DecidableEq, Repr

/-- Steps 4 and 5 of R328 for a GLOBAL address, and the early check of a first-touch access (R332). -/
def State.translate (s : State) (c : Context) (part cl : Nat) (a : BitVec 64) (need : Perm) : Reached × State :=
  match s.walk c part cl a with
  | (.leaf e frame mt pa, s) =>
    if need.allowed e then (.mem (entryMt e) (frame * 2 ^ 17 + bits a.toNat 16 0) (entryComp e) e mt pa, s)
    else (.permission, s)
  | (.missing sub e _ _, s) =>
    if sub = 1 && !need.allowed e then (.permission, s) else (.missing sub, s)
  | (.malformed sub, s) => (.malformed sub, s)
  | (.poisoned, s) => (.poisoned, s)

end Sys2Proof.Machine
end

