-- ==== Sys2Proof/Machine/Access.lean ====
section
/-! DEFINITION. Accesses of lanes to storage: the checks of R328 and R329 over a whole instruction, the caches of R63,
poison (R396 to R398), strong accesses of different sizes (R97, R391), buffered stores (R107, R231), and the fault
buffer that holds a missing translation (R334). -/

namespace Sys2Proof.Machine

/-! ## Where the bytes of an access lie -/

/-- Where one piece of an access lies. -/
inductive Place where
  /-- Tile memory of a block of the crew, at the offset that the region table gives. -/
  | tile (rank off : Nat)
  | mem (mt pa : Nat) (comp : Bool) (leaf : BitVec 64) (leafMt leafPa : Nat)
  | missing (sub : Nat)
  /-- The walk read a poisoned table entry (R398). -/
  | lost
  deriving DecidableEq, Repr

/-- A piece of an access: a single-copy-atomic unit (R62, R96). -/
structure Piece where
  /-- Its first byte within the access. -/
  off : Nat
  size : Nat
  /-- Its GLOBAL address (a STACK unit's backing address); a TILE piece's own address. -/
  addr : BitVec 64
  place : Place
  deriving DecidableEq, Repr

/-- A check of R328 that failed: step, cause, SUB. -/
structure Failure where
  step : Nat
  cause : Nat
  sub : Nat
  deriving DecidableEq, Repr

/-- What an access is, for its checks. -/
structure AccessForm where
  size : Nat
  align : Nat
  need : Perm
  write : Bool
  /-- KIND of R333. -/
  kind : Nat
  deriving DecidableEq, Repr

/-- Translate one piece of a GLOBAL or STACK access. -/
def State.reachPiece (s : State) (c : Crew) (need : Perm) (off size : Nat) (a : BitVec 64) :
    Except Failure Piece × State :=
  match s.translate c.ctx c.part c.clusterNo a need with
  | (.mem mt pa comp e lmt lpa, s) => (.ok { off := off, size := size, addr := a, place := .mem mt pa comp e lmt lpa }, s)
  | (.missing sub, s) => (.ok { off := off, size := size, addr := a, place := .missing sub }, s)
  | (.poisoned, s) => (.ok { off := off, size := size, addr := a, place := .lost }, s)
  | (.malformed sub, s) => (.error { step := 4, cause := 0x14, sub := sub }, s)
  | (.permission, s) => (.error { step := 5, cause := 0x09, sub := 0 }, s)

/-- The checks of R328 for one lane: its pieces, or the first check it fails. -/
def State.reachLane (s : State) (w : Wave) (c : Crew) (f : AccessForm) (l : Nat) (a : BitVec 64) :
    Except Failure (List Piece) × State :=
  let fail (step cause : Nat) : Except Failure (List Piece) × State := (.error { step := step, cause := cause, sub := 0 }, s)
  let combiner := match c.kind with | .combiner _ => true | _ => false
  if a.toNat % f.align != 0 then fail 1 0x05
  else if !(canonical a && canonical (a + BitVec.ofNat 64 (f.size - 1))) then fail 2 0x07
  else match steer w.segs a with
  | .tile core off =>
    if combiner then fail 3 0x06
    else match c.rankOf w.ref.rank core with
    | none => fail 3 0x06
    | some r =>
      match s.block? c.id r with
      | none => fail 3 0x06
      | some b =>
        if s.tileOk c b w.segs.tileLimit.toNat off f.size f.write then
          (.ok [{ off := 0, size := f.size, addr := a, place := .tile r (b.visible off) }], s)
        else fail 3 0x06
  | .stack off =>
    if combiner || w.segs.stackLimit.toNat < off + f.size - 1 then fail 3 0x06
    else
      let step (acc : Except Failure (List Piece) × State) (k : Nat) : Except Failure (List Piece) × State :=
        match acc with
        | (.error e, s) => (.error e, s)
        | (.ok ps, s) =>
          match s.reachPiece c f.need (4 * k) (min 4 f.size) (stackBacking w.segs l (off + 4 * k)) with
          | (.ok p, s) => (.ok (ps ++ [p]), s)
          | (.error e, s) => (.error e, s)
      (List.range ((f.size + 3) / 4)).foldl step (.ok [], s)
  | .global =>
    if a < w.segs.globalBase || w.segs.globalLimit < a + BitVec.ofNat 64 (f.size - 1) then fail 3 0x06
    else match s.reachPiece c f.need 0 f.size a with
    | (.ok p, s) => (.ok [p], s)
    | (.error e, s) => (.error e, s)

/-- Every lane of an instruction, ascending: the pieces of each, and the lanes that failed a check. -/
def State.reachLanes (s : State) (w : Wave) (c : Crew) (f : AccessForm) (addr : Nat → BitVec 64) (lanes : List Nat) :
    List (Nat × List Piece) × List (Nat × Failure) × State :=
  lanes.foldl (fun (ok, bad, s) l =>
    match s.reachLane w c f l (addr l) with
    | (.ok ps, s) => (ok ++ [(l, ps)], bad, s)
    | (.error e, s) => (ok, bad ++ [(l, e)], s)) ([], [], s)

/-- The lanes of a list, as a set. -/
def laneSet (ls : List Nat) : LaneMask := ls.foldl (fun m l => m ||| (1#96 <<< l)) 0

/-- The trap of an instruction some of whose lanes failed (R329): the earliest step, its lanes, the lowest's address. -/
def faultOf (c : Issue) (f : AccessForm) (addr : Nat → BitVec 64) (bad : List (Nat × Failure)) : Trap :=
  let step := bad.foldl (fun m x => min m x.2.step) 9
  let at_ := bad.filter fun x => x.2.step == step
  match at_ with
  | [] => c.trap 0 0 0 0
  | (l, e) :: _ => c.trap e.cause e.sub (addr l) (laneSet (at_.map fun x => x.1)) f.kind

/-! ## Earlier held accesses (R344) -/

/-- The access stands in its wave's issue order: an engine's unit is unordered with what the wave does later (R99), and
a home's or a broker's access is not the wave's. -/
def HeldKind.isOfWave : HeldKind → Bool
  | .unit _ _ => false
  | .home _ => false
  | .spill _ => false
  | _ => true

/-- Held accesses of a wave (R344). -/
def State.heldOf (s : State) (r : WaveRef) : List Held := s.held.filter fun h => h.wave == r && h.kind.isOfWave

/-- The kinds that read. -/
def HeldKind.isRead : HeldKind → Bool
  | .store => false
  | .unit _ _ => false
  | _ => true

/-- A later access of the wave must wait (R344): for a held acquire; a release for every held access; a write for every
held read. -/
def State.mustWait (s : State) (r : WaveRef) (write release : Bool) : Bool :=
  let hs := s.heldOf r
  hs.any (fun h => h.acquire) || (release && !hs.isEmpty) || (write && hs.any fun h => h.kind.isRead)

/-- A piece lies on a page that a held access of the wave waits for, and the page is now valid (R344, same page). -/
def State.samePageHeld (s : State) (r : WaveRef) (ps : List (Nat × List Piece)) : Bool :=
  (s.heldOf r).any fun h => ps.any fun x => x.2.any fun p =>
    match p.place with
    | .mem _ _ _ _ _ _ => p.addr.toNat / 2 ^ 17 == h.addr.toNat / 2 ^ 17
    | _ => false

/-! ## Caches and their counts -/

/-- Slice of a line's home (R65). -/
def State.homeOf (s : State) (part mt pa : Nat) : Nat :=
  let k := Config.homeSlice mt (pa / 128)
  if mt < 8 then 12 * mt + k % 12
  else
    let spans := (List.range 8).filter fun i => (s.part part).spans.getLsbD i
    12 * spans.getD (k / 12 % max spans.length 1) 0 + k % 12

/-- n bytes moved between L2 and memory for a block (R150). -/
def State.charge (s : State) (blk : Option (Nat × Nat)) (n : Nat) : State :=
  match blk.bind fun x => s.block? x.1 x.2 with
  | none => s
  | some b => s.putBlock { b with dramBytes := b.dramBytes + n }

/-- 32-byte sectors that a line occupies (R66): four where it was not written through a leaf with COMP = 1. -/
def L2Line.sectors (x : L2Line) : Nat := if x.comp then Config.lineSectors x.mt x.line % 4 + 1 else 4

/-- The line of a slice; in HBM the line alone names its slice. -/
def L2Line.at_ (x : L2Line) (home mt line : Nat) : Bool := x.mt == mt && x.line == line && (decide (mt < 8) || x.home == home)

/-- A line leaves its slice: a dirty one is written back, for the blocks that dirtied it (R65, R150); the tags of its units
in the slice and in the clusters go with it (R391). -/
def State.evict (s : State) (x : L2Line) : State :=
  let s := { s with
    l2 := s.l2.filter fun y => !y.at_ x.home x.mt x.line
    mixTags := s.mixTags.filter fun t => !((t.point == 2 || t.point == 3) && t.unit / 8 == memKey x.mt (128 * x.line) / 128) }
  if x.dirty then x.blocks.foldl (fun s b => s.charge (some b) 128) s else s

/-- Sectors of a slice of 4 MiB (R14). -/
def sliceSectors : Nat := 131072

/-- Sectors that a slice holds. -/
def State.usedSectors (s : State) (home : Nat) : Nat := ((s.l2.filter fun x => x.home == home).map L2Line.sectors).sum

/-- A slice never holds more than its sectors: its oldest lines leave it, one at a time (R14, R150). None is full while the
lines of all slices together would fit in one. -/
def State.trimL2 (home : Nat) : Nat → State → State
  | 0, s => s
  | n + 1, s =>
    if 4 * s.l2.length ≤ sliceSectors || s.usedSectors home ≤ sliceSectors then s
    else match (s.l2.filter fun x => x.home == home).getLast? with
    | none => s
    | some x => (s.evict x).trimL2 home n

/-- The home slice holds the line before an access to it: a line that an eviction took, or that was never there, is
filled. Which lines stay held is the implementation's choice (R65); a write of system memory takes no fill (R150). -/
def State.fillL2 (s : State) (part ctag : Nat) (blk : Option (Nat × Nat)) (mt line : Nat) (through comp : Bool) : State :=
  let home := s.homeOf part mt (128 * line)
  let (s, here) :=
    match s.l2.find? fun x => x.at_ home mt line with
    | none => (s, false)
    | some x =>
      let (k, s) := s.choose 2
      if k = 1 then (s.evict x, false) else (s, true)
  if here then s
  else
    let new : L2Line :=
      { mt := mt, line := line, home := home, part := part, dirty := false, owner := ctag, blocks := [], comp := comp }
    let s := if through then { s with l2 := new :: s.l2 }
      else { s.charge blk 128 with
        l2 := new :: s.l2
        fills := cellSet 0 s.fills home (cellGet 0 s.fills home + 1) }
    s.trimL2 home 4

/-- A line is used in L2 on behalf of a block: a miss fills it, a write makes it dirty (R150, R400), and n bytes written
to system memory go there at once. A write through a link that is down fails its context (R403). -/
def State.touchL2 (s : State) (part ctag : Nat) (blk : Option (Nat × Nat)) (mt pa n : Nat) (write comp : Bool) : State :=
  let line := pa / 128
  let system := decide (9 ≤ mt)
  let s := s.fillL2 part ctag blk mt line (write && system) comp
  if write then
    let home := s.homeOf part mt pa
    let mark (x : L2Line) : L2Line :=
      { x with dirty := x.dirty || !system, owner := ctag, comp := comp
               blocks := match blk with
                 | some b => if x.blocks.contains b then x.blocks else b :: x.blocks
                 | none => x.blocks }
    let s := { s with l2 := updWhere (fun x => x.at_ home mt line) mark s.l2 }.trimL2 home 4
    let s := if system then s.charge blk n else s
    if s.linkDown mt && s.contextLives part ctag then s.failContext part ctag 0x84 (2 ^ 11 * 15) else s
  else s

/-- Bytes of memory as they stand. -/
def State.rawBytes (s : State) (mt pa n : Nat) : List Byte := s.memBytes (memKey mt pa) n

/-- Lines of a core's L1 of 128 KiB (R14, R63). -/
def l1Lines : Nat := 1024

/-- A read through a core's L1 (R63): a line held there may be older than memory; a miss fills it,
and the oldest line beyond its size leaves. -/
def State.readL1 (s : State) (core mt pa n : Nat) : List Byte × State :=
  let line := pa / 128
  let is (x : L1Line) : Bool := x.core == core && x.mt == mt && x.line == line
  let now := s.rawBytes mt pa n
  let fill : L1Line := { core := core, mt := mt, line := line, bytes := s.rawBytes mt (line * 128) 128 }
  match s.l1.find? is with
  | none => (now, { s with l1 := keepFirst (fun x => x.core == core) l1Lines (fill :: s.l1) })
  | some x =>
    let old := (x.bytes.drop (pa % 128)).take n
    if old = now then (now, s)
    else
      let (k, s) := s.choose 2
      if k = 1 then (old, s) else (now, { s with l1 := updWhere is (fun _ => fill) s.l1 })

/-- Drop every line of a core's L1 (an acquire at crew scope or wider, R63, R89). -/
def State.dropL1 (s : State) (core : Nat) : State := { s with l1 := s.l1.filter fun x => x.core != core }

/-- A release-ordered write to a line has been made by a core: the line's home records the core (R94). -/
def State.noteRelease (s : State) (core : Nat) (release : Bool) (p : Piece) : State :=
  match release, p.place with
  | true, .mem mt pa _ _ _ _ =>
    let line := memKey mt pa / 128
    { s with releasers := (line, core, s.stamp) :: s.releasers.filter fun x => x.1 != line }
  | _, _ => s

/-- A promotion request to a core is not answered yet (R94): some write of its waves that came before its last release to a
line is still to be made. -/
def State.promotes (s : State) (line : Nat → Bool) : Bool :=
  s.releasers.any fun x => line x.1 && s.held.any fun h =>
    decide (h.stamp < x.2.2) && (h.kind == .store || h.kind == .atomic || h.kind == .cas) &&
      (match s.crew? h.wave.crew with
       | some c => c.resident && c.coreOf h.wave.rank == x.2.1
       | none => false)

/-- The line that a piece lies in is one of memory. -/
def Piece.inLine (p : Piece) (line : Nat) : Bool :=
  match p.place with
  | .mem mt pa _ _ _ _ => memKey mt pa / 128 == line
  | _ => false

/-- Drop a core's copy of one line (an atomic, R63). -/
def State.dropL1Line (s : State) (core mt pa : Nat) : State :=
  { s with l1 := s.l1.filter fun x => !(x.core == core && x.mt == mt && x.line == pa / 128) }

/-- Write bytes of memory with no check; a write of a whole 16-byte unit clears its poison (R397). -/
def State.rawWrite (s : State) (mt pa : Nat) (bs : List Byte) : State :=
  if s.linkDown mt then s else
  let s := s.putMem (memKey mt pa) bs
  if bs.length = 16 && pa % 16 = 0 then s.clearPoison mt pa else s

/-- Write through a core's L1: the line there is updated if present (R63). -/
def State.writeL1 (s : State) (core mt pa : Nat) (bs : List Byte) : State :=
  let is (x : L1Line) : Bool := x.core == core && x.mt == mt && x.line == pa / 128
  let upd (x : L1Line) : L1Line :=
    { x with bytes := x.bytes.zipIdx.map fun (b, k) =>
        if pa % 128 ≤ k && k < pa % 128 + bs.length then bs.getD (k - pa % 128) b else b }
  { (s.rawWrite mt pa bs) with l1 := updWhere is upd s.l1 }

/-! ## Strong accesses of different sizes (R97, R391, R392) -/

/-- The point of execution that R90 gives an access of a scope, and the place within it; 4 is a port, which keeps no tag
(R391). -/
def pointOf (c : Crew) (w : Wave) (scope : Nat) (p : Place) : Nat × Nat × Nat :=
  match p with
  | .tile r off => (0, 8 * c.id + r, off)
  | .mem mt pa _ _ _ _ =>
    if scope = 0 then (1, c.coreOf w.ref.rank, memKey mt pa)
    else if scope = 1 then (2, c.clusterNo, memKey mt pa)
    else if 9 ≤ mt then (4, 0, memKey mt pa) else (3, 0, memKey mt pa)
  | _ => (4, 0, 0)

/-- The tag of a unit at a point, when its access overlaps another in bytes and differs in size or offset, and one of
the two writes. -/
def State.mixTag? (s : State) (pt place key size : Nat) (write : Bool) : Option MixTag :=
  s.mixTags.find? fun t => t.point == pt && t.place == place && t.unit == key / 16 &&
    (t.off < key % 16 + size && key % 16 < t.off + t.size) && (t.size != size || t.off != key % 16) && (write || t.wrote)

/-- The access becomes the tag of its unit. -/
def State.setTag (s : State) (pt place key size : Nat) (write : Bool) : State :=
  if pt = 4 then s
  else { s with mixTags := { point := pt, place := place, unit := key / 16, off := key % 16, size := size, wrote := write } ::
      s.mixTags.filter fun t => !(t.point == pt && t.place == place && t.unit == key / 16) }

/-- What Footprint calls the place of a point. -/
def footPlace (pt place : Nat) : Nat := if pt = 0 then place + 1 else 0

/-- Bytes of an area are overwritten: no earlier strong access has left them (R97). -/
def Footprint.lose (place key size : Nat) (f : Footprint) : Footprint :=
  if f.place = place then { f with left := f.left.filter fun k => !(key ≤ k && k < key + size) } else f

/-- A plain write clears the tags of its units (R391), and its bytes are what memory holds. -/
def State.clearTag (s : State) (pt place key size : Nat) : State :=
  { s with
    mixTags := s.mixTags.filter fun t =>
      !((if pt = 0 then t.point == 0 && t.place == place else t.point != 0) && key / 16 ≤ t.unit && t.unit ≤ (key + size - 1) / 16)
    strongs := s.strongs.map (Footprint.lose (footPlace pt place) key size) }

/-- A read of a gate's word 2, beside the gate's updates: R101 has it synchronise with them, so it does not mix with them
(log entry 56). -/
def readsFlags (gate key size : Nat) (write : Bool) : Bool := size == 4 && key == gate + 8 && !write

/-- The strong accesses of another size whose bytes overlap those of a strong access, one of the two a write (R97). -/
def State.mixers (s : State) (pt place key size : Nat) (write : Bool) (gate : Bool := false) : List Footprint :=
  s.strongs.filter fun f => f.place == footPlace pt place && f.size != size && f.key < key + size && key < f.key + f.size && (write || f.wrote) &&
    !(f.gate && readsFlags f.key key size write) && !(gate && readsFlags key f.key f.size f.wrote)

/-- A strong access is remembered (R97). -/
def State.noteFoot (s : State) (pt place key size : Nat) (write gate : Bool) : State :=
  let here := footPlace pt place
  let is (f : Footprint) : Bool := f.place == here && f.key == key && f.size == size && f.gate == gate
  let old := s.strongs.find? is
  let rest := s.strongs.filter fun f => !is f
  let left := if write then (List.range size).map fun k => key + k else match old with | some f => f.left | none => []
  { s with strongs :=
      { place := here, key := key, size := size, gate := gate, wrote := write || (match old with | some f => f.wrote | none => false), left := left } ::
        (if write then rest.map (Footprint.lose here key size) else rest) }

/-- A strong access is made: it becomes the tag of its unit and is remembered (R391, R97). -/
def State.noteStrong (s : State) (pt place key size : Nat) (write : Bool) : State :=
  (s.setTag pt place key size write).noteFoot pt place key size write false

/-- n free bytes (R6, R97). -/
def State.freeBytes (s : State) : Nat → List Byte × State
  | 0 => ([], s)
  | n + 1 =>
    let (w, s) := s.freeWord
    let (bs, s) := s.freeBytes n
    (w.extractLsb' 0 8 :: bs, s)

/-- The bytes of an access, from a key on, that overlap others become free values (R97). -/
def State.blur (s : State) (fs : List Footprint) (key : Nat) (bs : List Byte) : List Byte × State :=
  if fs.isEmpty then (bs, s)
  else
    let (fr, s) := s.freeBytes bs.length
    (bs.zipIdx.map fun (b, k) => if fs.any fun f => f.key ≤ key + k && key + k < f.key + f.size then fr.getD k b else b, s)

/-- The bytes from a key on that other strong accesses left in memory become free values (R97). -/
def State.smear (s : State) (fs : List Footprint) (pt place key size : Nat) : State :=
  ((List.range size).filter fun k => fs.any fun f => f.left.contains (key + k)).foldl (fun s k =>
    let (b, s) := s.freeBytes 1
    if pt = 0 then
      match s.block? (place / 8) (place % 8) with
      | some x => s.putBlock (x.store (key + k) b)
      | none => s
    else s.putMem (key + k) b) s

/-- What a strong read gives, of the bytes found there (R97). -/
def State.strongRead (s : State) (pt place key : Nat) (bs : List Byte) : List Byte × State :=
  let fs := s.mixers pt place key bs.length false
  let (bs', s) := s.blur fs key bs
  (bs', (s.smear fs pt place key bs.length).noteStrong pt place key bs.length false)

/-- What a strong write leaves, of the bytes it writes (R97). -/
def State.strongWrite (s : State) (pt place key : Nat) (bs : List Byte) : List Byte × State :=
  let (bs', s) := s.blur (s.mixers pt place key bs.length true) key bs
  (bs', s.noteStrong pt place key bs.length true)

/-- One 16-byte update of the gate at an offset of a block, which f makes: a strong access that is neither tagged nor checked
(R59, R80, R97, R391). -/
def State.gateUpdate (s : State) (b : Block) (off : Nat) (f : Block → Block) : State :=
  let at_ := b.visible off
  let b := f b
  let place := 8 * b.crew + b.rank
  let (bs, s) := s.blur (s.mixers 0 place at_ 16 true true) at_ (b.bytes at_ 16)
  (s.noteFoot 0 place at_ 16 true true).putBlock (b.store at_ bs)

/-- The SUB with which a strong access of a piece is refused, while the wave's MIXCHK is 1 (R391, R392). -/
def State.refusal? (s : State) (w : Wave) (c : Crew) (strong : Option Nat) (write : Bool) (p : Piece) : Option Nat :=
  match strong with
  | none => none
  | some scope =>
    if !w.dbgCtl.getLsbD 1 then none
    else
      let (pt, place, key) := pointOf c w scope p.place
      (s.mixTag? pt place key p.size write).map fun t => if p.size < t.size then 1 else 2

/-! ## Reading and writing one piece -/

/-- What reading one piece gives. -/
inductive PieceRead where
  | bytes (bs : List Byte)
  /-- It consumes poison, with SUB (R398). -/
  | poison (sub : Nat)
  /-- Refused for its size, with SUB (R392). -/
  | refused (sub : Nat)
  /-- Presented to the fault buffer. -/
  | held (sub : Nat)
  deriving DecidableEq, Repr

/-- A place as the key of a buffered byte: tile memory of rank r is memory type 16 + r. -/
def Place.key : Place → Nat × Nat
  | .tile r off => (16 + r, off)
  | .mem mt pa _ _ _ _ => (mt, pa)
  | _ => (99, 0)

/-- Bytes read, overlaid with the wave's own buffered stores (R107, R231). -/
def Wave.overlay (w : Wave) (p : Place) (bs : List Byte) : List Byte :=
  if w.buffer.isEmpty then bs
  else bs.zipIdx.map fun (b, k) =>
    match w.buffer.find? fun x => x.mt == p.key.1 && x.pa == p.key.2 + k with
    | some x => x.byte
    | none => b

/-- Read one piece on behalf of a wave. `strong` is the scope of a strong access. -/
def State.readPiece (s : State) (w : Wave) (c : Crew) (strong : Option Nat) (p : Piece) : PieceRead × State :=
  let mix (s : State) (bs : List Byte) : PieceRead × State :=
    match strong with
    | none => (.bytes bs, s)
    | some scope =>
      let (pt, place, key) := pointOf c w scope p.place
      let (bs, s) := s.strongRead pt place key bs
      (.bytes bs, s)
  match s.refusal? w c strong false p with
  | some k => (.refused k, s)
  | none =>
  match p.place with
  | .tile r off =>
    match s.block? c.id r with
    | none => (.bytes [], s)
    | some b =>
      if b.tilePoison.contains (off / 16 * 16) then (.poison 1, s)
      else mix s (w.overlay p.place (b.bytes off p.size))
  | .mem mt pa comp e lmt lpa =>
    let s := s.touchLeaf c.clusterNo e lmt lpa false
    let s := s.touchL2 c.part c.ctx.ctag (some (c.id, w.ref.rank)) mt pa p.size false comp
    if s.memPoisoned mt pa p.size then (.poison 1, s)
    else
      let (bs, s) := s.readL1 (c.coreOf w.ref.rank) mt pa p.size
      mix s (w.overlay p.place bs)
  | .missing sub => (.held sub, s)
  | .lost => (.poison 5, s)

/-- Stores that are held back: of a combiner's batch, and plain stores of a Woad round; one that a fault held is written
when it is replayed at the round's end (R346, R408). -/
def State.buffers? (s : State) (c : Crew) (strong : Option Nat) : Bool :=
  match c.kind with
  | .combiner _ => true
  | _ => (s.part c.part).woad && strong.isNone && (s.part c.part).pass.isNone

/-- What writing one piece does. -/
inductive PieceWrite where
  | done
  | refused (sub : Nat)
  | held (sub : Nat)
  | lost
  deriving DecidableEq, Repr

/-- Write the bytes of one piece on behalf of a wave, at once. -/
def State.storePiece (s : State) (w : Wave) (c : Crew) (strong : Option Nat) (p : Piece) (bs : List Byte) :
    PieceWrite × State :=
  let bs := (bs.drop p.off).take p.size
  let (pt, place, key) := pointOf c w (strong.getD 0) p.place
  let go (s : State) (bs : List Byte) : State :=
    match p.place with
    | .tile r off =>
      match s.block? c.id r with
      | none => s
      | some b =>
        let b := b.store off bs
        s.putBlock (if p.size = 16 then { b with tilePoison := b.tilePoison.filter fun u => u != off } else b)
    | .mem mt pa comp e lmt lpa =>
      let s := s.touchLeaf c.clusterNo e lmt lpa true
      let s := s.touchL2 c.part c.ctx.ctag (some (c.id, w.ref.rank)) mt pa p.size true comp
      s.writeL1 (c.coreOf w.ref.rank) mt pa bs
    | _ => s
  match p.place with
  | .missing sub => (.held sub, s)
  | .lost => (.lost, s)
  | _ =>
    match strong with
    | none => (.done, go (s.clearTag pt place key p.size) bs)
    | some _ =>
      match s.refusal? w c strong true p with
      | some k => (.refused k, s)
      | none =>
        let (bs, s) := s.strongWrite pt place key bs
        (.done, go s bs)

/-- The bytes of one piece go to the wave's own buffer; a strong store becomes the tag of its unit (R391). -/
def State.bufferPiece (s : State) (w : Wave) (c : Crew) (strong : Option Nat) (p : Piece) (bs : List Byte) : State :=
  let (pt, place, key) := pointOf c w (strong.getD 0) p.place
  let (bs, s) :=
    match strong with
    | none => (bs, s)
    | some _ => let (x, s) := s.strongWrite pt place key ((bs.drop p.off).take p.size); (List.replicate p.off 0 ++ x, s)
  match s.wave? w.ref with
  | none => s
  | some w =>
    let (e, lmt, lpa, comp) : BitVec 64 × Nat × Nat × Bool :=
      match p.place with
      | .mem _ _ comp e lmt lpa => (e, lmt, lpa, comp)
      | _ => (0x60, 0, 0, false)
    let new := ((bs.drop p.off).take p.size).zipIdx.map fun (b, k) =>
      ({ mt := p.place.key.1, pa := p.place.key.2 + k, byte := b, whole := p.size = 16,
         leaf := e, leafMt := lmt, leafPa := lpa, comp := comp, strong := strong.isSome } : HeldByte)
    (s.touchLeaf c.clusterNo e lmt lpa false).putWave { w with buffer := new.reverse ++ w.buffer }

/-- Write the bytes of one piece of a store; the wave's own buffer takes them while stores are held back. -/
def State.writePiece (s : State) (w : Wave) (c : Crew) (strong : Option Nat) (p : Piece) (bs : List Byte) :
    PieceWrite × State :=
  match p.place with
  | .missing sub => (.held sub, s)
  | .lost => (.lost, s)
  | _ =>
    if s.buffers? c strong then
      match s.refusal? w c strong true p with
      | some k => (.refused k, s)
      | none => (.done, s.bufferPiece w c strong p bs)
    else s.storePiece w c strong p bs

/-! ## The fault buffer (R334, R335) -/

/-- The byte address of a page, which is canonical (R47, R342): bits 63:57 repeat bit 56. -/
def pageAddr (page : Nat) : Nat := page * 2 ^ 17 + (if page.testBit 39 then 0x7F * 2 ^ 57 else 0)

/-- The fault record of an entry that goes to the control node (R342). -/
def Entry.hostRecord (e : Entry) (cluster : Nat) (dropped : Bool) : Record :=
  record (causeWord 0x08 e.sub e.kind e.index e.async + (if dropped then 2 ^ 29 else 0))
    (e.index + 8 * (cluster % 12) + 256 * (cluster / 12)) (pageAddr e.page) e.ctag 0 0

/-- Change the entry of an index in a cluster's buffer. -/
def State.updEntry (s : State) (cluster index : Nat) (f : Entry → Entry) : State :=
  let b := s.buffer cluster
  s.putBuffer { b with entries := updWhere (fun e => e.index == index) f b.entries }

/-- An entry goes to HOST and its record to the ring (R335, R342). -/
def State.entryToHost (s : State) (cluster index : Nat) : State :=
  let b := s.buffer cluster
  match b.entries.find? fun e => e.index == index with
  | none => s
  | some e =>
    let s := s.updEntry cluster index fun e => { e with state := .host }
    s.postRecord e.part (e.hostRecord cluster b.dropped)

/-- What a presented access is for, in R334's terms: KIND of R333. -/
def HeldKind.code : HeldKind → Nat
  | .load => 0
  | .store => 1
  | .atomic => 2
  | .cas => 3
  | .request => 2
  | .fetch => 4
  | .unit _ _ => 5
  | .home _ => 0
  | .texel => 0
  | .spill _ => 1
  | .descriptor k => k

/-- Present one access to its cluster's buffer (R334): join, allocate, or hold it unattached and set DROPPED. `async`
says that it is no wave's own issue. -/
def State.present (s : State) (h : Held) (sub : Nat) (async : Bool) : State :=
  let b := s.buffer h.cluster
  let page := h.addr.toNat % 2 ^ 57 / 2 ^ 17
  let hold (s : State) (e : Option Nat) : State :=
    let h := { h with entry := e, saved := false }
    if s.held.any (fun x => x.stamp == h.stamp) then
      { s with held := updWhere (fun x => x.stamp == h.stamp) (fun _ => h) s.held }
    else { s with held := s.held ++ [h] }
  match b.entries.find? fun e => e.ctag == h.context.ctag && e.part == h.partition && e.page == page with
  | some e => hold s (some e.index)
  | none =>
    match (List.range 8).find? fun k => b.entries.all fun e => e.index != k with
    | none => hold (s.putBuffer { b with dropped := true }) none
    | some k =>
      let wave := s.wave? h.wave
      let live := match wave with
        | some w => !w.hasExited && w.reached.isNone
        | none => false
      let home := match h.kind with | .home _ => true | _ => false
      let spill := match h.kind with | .spill _ => true | _ => false
      let xfault := (s.part h.partition).modes.getLsbD 0
      let owner := if home || spill || !live then none else some h.wave
      let unit := match h.kind with | .unit _ _ => true | _ => false
      let span := match s.crew? h.wave.crew with | some c => c.span | none => h.cluster / 12
      let (st, s) := s.takeStamp
      let e : Entry :=
        { index := k, ctag := h.context.ctag, page := page, sub := sub, kind := h.kind.code,
          state := if xfault then .host else if home && sub == 1 then .walk else .owned, install := home && sub == 1, owner := owner,
          part := h.partition, context := h.context, span := span, async := async || unit,
          mark := (match owner, wave with | some _, some w => w.raised | _, _ => 0), pc := h.pc, stamp := st }
      let s := s.putBuffer { b with entries := b.entries ++ [e] }
      let s := hold s (some k)
      if xfault || (owner.isNone && !(home && sub == 1)) then s.entryToHost h.cluster k else s

/-- Hold one piece of a lane's access (R334). A handler's own missing translation fails its context (R356). -/
def State.holdPiece (s : State) (c : Issue) (kind : HeldKind) (fmt : Nat) (data : BitVec 128) (data2 : BitVec 64)
    (landing : Option Nat) (acquire : Bool) (l : Nat) (p : Piece) (sub : Nat) (spent : Bool := false) : State :=
  if c.wave.sup then s.failCrew c.crew 0x08
  else
    let (st, s) := s.takeStamp
    s.present { stamp := st, wave := c.wave.ref, lane := l, index := c.wave.roundIssued % 1024, addr := p.addr, size := p.size, kind := kind, fmt := fmt,
                data := data, data2 := data2, landing := landing, part := p.off, pc := c.gang.pc, fromHandler := c.wave.sup,
                context := c.crew.ctx, partition := c.crew.part, acquire := acquire, cluster := c.crew.clusterNo,
                entry := none, saved := false, spent := spent } sub false

/-- A line that a started batch of another agent holds (R105). -/
def State.lineHeld (s : State) (crew mt pa : Nat) : Bool :=
  s.objects.any fun o => o.crew.isSome && o.crew != some crew && o.mt == mt && o.pa == pa / 128 * 128

/-- Some piece of an access lies in such a line. -/
def State.piecesHeld (s : State) (crew : Nat) (ps : List (Nat × List Piece)) : Bool :=
  !s.objects.isEmpty && ps.any fun x => x.2.any fun p =>
    match p.place with
    | .mem mt pa _ _ _ _ => s.lineHeld crew mt pa
    | _ => false

/-- A remote acquire waits for what it promotes in the lines of its pieces (R94). -/
def State.awaitsPromotion (s : State) (remote : Bool) (ps : List (Nat × List Piece)) : Bool :=
  remote && s.promotes fun line => ps.any fun x => x.2.any fun p => p.inLine line

/-- The frame of a lane access: the checks of every lane, the waits of R344 and R94, then the access itself. An access to a
line that a batch holds waits for the batch (R105). -/
def State.lanesAccess (s : State) (c : Issue) (f : AccessForm) (release remote : Bool) (active : LaneMask)
    (addr : Nat → BitVec 64) (k : State → List (Nat × List Piece) → State) : State :=
  let (ok, bad, s') := s.reachLanes c.wave c.crew f addr active.lanes
  if !bad.isEmpty then s.takeTrap c.wave (faultOf c f addr bad)
  else if !c.wave.sup && (s.mustWait c.wave.ref f.write release || s.samePageHeld c.wave.ref ok) then
    s.putWave (c.wave.park c.gang .held)
  else if s.piecesHeld c.crew.id ok || s.awaitsPromotion remote ok then s.putWave (c.wave.park c.gang .held)
  else k s' ok

end Sys2Proof.Machine
end

