-- ==== Sys2Proof/Machine/Launch.lean ====
section
/-! DEFINITION. What a wave and a block hold when they start (R38, R42, R43, R50, R52, R148, R353), and the system
registers as they read (R148). -/

namespace Sys2Proof.Machine

/-- The launch mask of a wave: the lanes whose global lane index is below N (R43). -/
def launchMask (blockId waves index nlanes : Nat) : LaneMask :=
  if nlanes = 0 then BitVec.allOnes 96
  else maskOf fun l => 96 * (blockId * waves + index) + l < nlanes

/-- A wave's segment registers (R49, R50, R287). Values of a context record that break R50 are loaded as they stand (log
entry 84). -/
def segsOf (c : Context) (tileSize waveId : Nat) : Segs :=
  { tileBase := c.tilewin
    tileLimit := BitVec.ofNat 64 (tileSize - 1)
    stackBase := c.stackwin
    stackLimit := c.stklim.setWidth 64
    stackBack := c.stackarea + BitVec.ofNat 64 (waveId * 96 * (c.stklim.toNat + 1))
    globalBase := c.gbase
    globalLimit := c.glimit }

/-- The marker of an uninitialised lane register (R42). -/
def markerV (m : Nat) : Word := BitVec.ofNat 32 (0x7FA50000 + m)

/-- The marker of an uninitialised group register (R42). -/
def markerG (n : Nat) : Word := BitVec.ofNat 32 (0x7FA50100 + n)

/-- Low and high words of a 64-bit value. -/
def lo32 (x : BitVec 64) : Word := x.extractLsb' 0 32
def hi32 (x : BitVec 64) : Word := x.extractLsb' 32 32

/-- The role of wave w in a ROLES field (R149, R153). -/
def roleOf (roles : BitVec 64) (w : Nat) : Nat := bits roles.toNat (2 * w + 1) (2 * w)

/-- The group registers at launch: g0 to g5 as given, markers above (R42). -/
def launchG (g0 g1 g2 : Nat) (karg : BitVec 64) (g5 : Nat) : List Word :=
  [BitVec.ofNat 32 g0, BitVec.ofNat 32 g1, BitVec.ofNat 32 g2, lo32 karg, hi32 karg, BitVec.ofNat 32 g5] ++
    (List.range 55).map fun k => markerG (k + 6)

/-- The lane registers at launch: the lane index in v0, markers above (R42). -/
def launchV (regs : Nat) : List Lanes :=
  (List.range regs).map fun m => Lanes.build fun l => if m = 0 then BitVec.ofNat 32 l else markerV m

/-- A wave as a launch creates it (R42): one gang at pc of the slices with an enabled lane; the rest start exited. -/
def launchWave (ref : WaveRef) (regs role blockId waves : Nat) (karg : BitVec 64) (c : Context) (segs : Segs)
    (mask : LaneMask) (pc : Addr) : Wave :=
  let live := LaneMask.toSlices mask
  { ref := ref, regs := regs, role := role, blockId := BitVec.ofNat 32 blockId, waves := waves, mask := mask
    v := launchV regs, g := launchG blockId ref.wave ref.rank karg waves, act := mask
    p := List.replicate 7 0
    vFull := BitVec.allOnes 64, gFull := BitVec.allOnes 64
    vInit := 1, gInit := 0xE00000000000003F, pInit := 0
    gangs := if live = 0 then [] else [{ slices := live, pc := pc, wait := .ready }]
    bands := []
    exited := ~~~live, reached := none
    fp := c.fpdef.setWidth 32, handlerBase := c.handler, poolBase := c.pool, dbgCtl := c.dbgCtl, sup := false
    trapCause := 0, trapPc := 0, trapAddr := 0, trapLanes := 0
    segs := segs, latches := List.replicate 7 0, frame := none, traps := [], unsettled := [], raised := 0, landings := [], issued := 0
    slots := [], binned := 0, buffer := [], roundStores := 0, roundIssued := 0, roundStop := none }

/-- The size of a block's tile allocation (R52). -/
def tileAlloc (tile : Nat) : Nat := roundUp (0x1000 + tile) 0x1000

/-- A control-area image as placement copies it (R153): pusher bytes, barrier words, COUNT, HEAD, TAIL, PUSHES and CUR
start at zero. -/
def cleanImage (img : List Byte) : List Byte :=
  img.zipIdx.map fun (b, i) =>
    if i < 0x100 then (if i % 16 = 11 then b &&& 0xBF else b)
    else if i < 0x200 then (if (4 ≤ i % 16 && i % 16 < 8) || 12 ≤ i % 16 then 0 else b)
    else if 0x400 ≤ i && i < 0x810 then 0
    else b

/-- A program range that no one has written: free bytes, numbered from its first offset on and by a count of restarts
(log entry 9). -/
def blankRange (size pass : Nat) : Loose := if 0x1000 < size then [(0x1000, size - 0x1000, 2 ^ 20 * pass + 0x1000)] else []

/-- A block as placement makes it: the control area from the kernel's image (R153). What the program range holds at
placement the spec does not say (log entry 9). -/
def newBlock (crew rank index : Nat) (k : Image) : Block :=
  { crew := crew, rank := rank, index := index, waves := k.kernel.waves, tileSize := tileAlloc k.kernel.tile, base := 0
    tile := storeBytes [] 0 (cleanImage k.cimage), loose := blankRange (tileAlloc k.kernel.tile) 0, tilePoison := [], acc := [], held := 0, setAside := k.kernel.acc, fromAside := 0
    barCrew := none, commands := [], dramBytes := 0, code := k.code }

/-! ## System registers (R148) -/

/-- The 64-bit value of a performance register (R150): the L2 counts are those of the lines that the slice of the wave's
cluster holds. -/
def State.perf (s : State) (w : Wave) (c : Crew) (k : Nat) : Nat × State :=
  match k with
  | 0 => (match s.block? c.id w.ref.rank with | some b => b.dramBytes | none => 0, s)
  | 1 => (cellGet 0 s.fills c.clusterNo, s)
  | 2 => (((s.l2.filter fun x => x.home == c.clusterNo).map L2Line.sectors).sum, s)
  | _ => ((s.l2.filter fun x => x.home == c.clusterNo && x.sectors != 4).length, s)

/-- The registers marked L, by the number of their low word: the place of their latch (R148). -/
def latchOf (n : Nat) : Option Nat :=
  match n with
  | 0x006 => some 0 | 0x008 => some 1 | 0x00A => some 2
  | 0x040 => some 3 | 0x042 => some 4 | 0x044 => some 5 | 0x046 => some 6
  | _ => none

/-- The 64-bit value of the L register of a latch. -/
def State.latched (s : State) (w : Wave) (c : Crew) (k : Nat) : BitVec 64 × State :=
  match k with
  | 0 => (BitVec.ofNat 64 c.work, s)
  | 1 => (BitVec.ofNat 64 s.tick, s)
  | 2 => (BitVec.ofNat 64 (Config.cycleOrigin (c.coreOf w.ref.rank) + s.cycle), s)
  | k + 3 => let (x, s) := s.perf w c k; (BitVec.ofNat 64 x, s)

/-- Load every latch of a wave with its register's high word (R148), at launch and at each phase start. -/
def State.loadLatches (s : State) (w : Wave) (c : Crew) : Wave × State :=
  let (ls, s) := (List.range 7).foldl (fun (ls, s) k => let (x, s) := s.latched w c k; (ls ++ [hi32 x], s)) (([] : List Word), s)
  ({ w with latches := ls }, s)

/-- TRAP_CAUSE as it reads: DROPPED is the current flag of the wave's cluster (R333). -/
def State.trapCauseOf (s : State) (w : Wave) (c : Crew) : Word :=
  (w.trapCause &&& ~~~(0x20000000 : Word)) ||| (if (s.buffer c.clusterNo).dropped then 0x20000000 else 0)

/-- g1 at launch: the index of the wave in its block, or the number of a combiner wave's requests (R42, R229). -/
def Wave.launchG1 (w : Wave) (c : Crew) : Nat := if c.isCombiner then w.mask.lanes.length else w.ref.wave

/-- A segment register by the number of its low word (R148). -/
def Segs.get (g : Segs) (n : Nat) : BitVec 64 :=
  match n with
  | 0x030 => g.tileBase
  | 0x032 => g.tileLimit
  | 0x034 => g.stackBase
  | 0x036 => g.stackLimit
  | 0x038 => g.stackBack
  | 0x03A => g.globalBase
  | _ => g.globalLimit

/-- One word of a 64-bit register: the even number the low word, the odd one the high word. -/
def half (n : Nat) (x : BitVec 64) : Word := if n % 2 = 0 then lo32 x else hi32 x

/-- The word that GSYS reads (R148), and the wave with its latch loaded. -/
def State.sysRead (s : State) (w : Wave) (c : Crew) (n : Nat) : Word × Wave × State :=
  match latchOf (n / 2 * 2) with
  | some k =>
    if n % 2 = 0 then
      let (x, s) := s.latched w c k
      (lo32 x, { w with latches := setAt w.latches k (hi32 x) }, s)
    else (w.latches.getD k 0, w, s)
  | none =>
    let v : Word :=
      match n with
      | 0x000 => w.blockId * BitVec.ofNat 32 w.waves + BitVec.ofNat 32 (w.launchG1 c)
      | 0x001 => w.blockId
      | 0x002 => BitVec.ofNat 32 (w.ref.rank + 16 * (c.size - 1))
      | 0x003 => BitVec.ofNat 32 (c.coreOf w.ref.rank)
      | 0x004 => BitVec.ofNat 32 w.role
      | 0x005 => BitVec.ofNat 32 c.part
      | 0x00C => lo32 c.image.codeBase
      | 0x00D => hi32 c.image.codeBase
      | 0x010 => w.fp
      | 0x011 => (if w.sup then 1 else 0) ||| (if (s.part c.part).woad then 2 else 0)
      | 0x018 => lo32 w.handlerBase
      | 0x019 => hi32 w.handlerBase
      | 0x01A => lo32 w.poolBase
      | 0x01B => hi32 w.poolBase
      | 0x01C => w.dbgCtl
      | 0x020 => s.trapCauseOf w c
      | 0x022 => lo32 w.trapPc
      | 0x023 => hi32 w.trapPc
      | 0x024 => lo32 w.trapAddr
      | 0x025 => hi32 w.trapAddr
      | 0x026 => w.trapLanes.extractLsb' 0 32
      | 0x027 => w.trapLanes.extractLsb' 32 32
      | 0x028 => w.trapLanes.extractLsb' 64 32
      | n => half n (w.segs.get (n / 2 * 2))
    (v, w, s)

end Sys2Proof.Machine
end

