-- ==== Sys2Proof/Machine/Fetch.lean ====
section
/-! DEFINITION. Fetching an instruction's words (R64, R136, R350 rank 1), and what an item of the agenda comes to. -/

noncomputable section

namespace Sys2Proof.Machine

/-- What fetching a word gives. -/
inductive Fetched where
  | word (w : Word)
  | trap (cause sub : Nat)
  | held (sub : Nat)
  deriving DecidableEq, Repr

/-- The word of a block's code range as it stood when it was last taken (R64). -/
def Block.codeWord (b : Block) (k : Image) (pc : Addr) : Option Word :=
  let off := (pc - k.codeBase - BitVec.ofNat 64 k.kernel.entry).toNat
  if off % 4 = 0 && off < k.kernel.textEnd - k.kernel.entry then (b.code[off / 4]?).join else none

/-- A word of the code range that could not be read when the range was taken is kept once it has been fetched (R64). -/
def Block.keepCode (b : Block) (k : Image) (pc : Addr) (x : Word) : Block :=
  let off := (pc - k.codeBase - BitVec.ofNat 64 k.kernel.entry).toNat
  if off % 4 = 0 && off < k.kernel.textEnd - k.kernel.entry then { b with code := setAt b.code (off / 4) (some x) } else b

/-- Fetch a word: from the code range, else from memory with X permission. A word outside the range is the one that memory
holds when it is fetched (R64 leaves the choice open, log entry 62). -/
def State.fetchWord (s : State) (w : Wave) (c : Crew) (pc : Addr) : Fetched × State :=
  match (s.block? c.id w.ref.rank).bind fun b => b.codeWord c.image pc with
  | some x => (.word x, s)
  | none =>
    if pc.extractLsb' 0 2 != 0 then (.trap 0x05 0, s)
    else if !canonical pc then (.trap 0x07 0, s)
    else match steer w.segs pc with
    | .global =>
      if pc < w.segs.globalBase || w.segs.globalLimit < pc + 3 then (.trap 0x06 0, s)
      else match s.translate c.ctx c.part c.clusterNo pc { x := true } with
      | (.mem mt pa comp e lmt lpa, s) =>
        let s := s.touchLeaf c.clusterNo e lmt lpa false
        let s := s.touchL2 c.part c.ctx.ctag none mt pa 4 false comp
        if s.memPoisoned mt pa 4 then (.trap 0x0E 4, s)
        else
          let x := BitVec.ofNat 32 (s.rawRead mt pa 4)
          (.word x, match s.block? c.id w.ref.rank with
            | some b => s.putBlock (b.keepCode c.image pc x)
            | none => s)
      | (.missing sub, s) => (.held sub, s)
      | (.malformed sub, s) => (.trap 0x14 sub, s)
      | (.permission, s) => (.trap 0x09 0, s)
      | (.poisoned, s) => (.trap 0x0E 5, s)
    | _ => (.trap 0x06 0, s)

/-- What an item of the agenda comes to: an instruction or event to run, or a state already. -/
inductive Next where
  | run (i : Instr) (s : State)
  | done (s : State)

/-- A fetch that the fault buffer holds: the gang waits for it; a combiner's batch is discarded (R334, R377). -/
def State.holdFetch (s : State) (c : Issue) (pc : Addr) (sub : Nat) : State :=
  let p : Piece := { off := 0, size := 4, addr := pc, place := .missing sub }
  match c.crew.kind with
  | .combiner o =>
    let s := s.holdPiece c (.home o) 0 0 0 none false 0 p sub
    s.requeueBatch o true none
  | _ =>
    let s := s.holdPiece c .fetch 0 (c.activeGroup.setWidth 128) 0 none false (LaneMask.lowest c.activeGroup) p sub
    match s.wave? c.wave.ref with
    | some w => s.putWave (w.park c.gang .fetch)
    | none => s

/-- The words at the gang's pc: the base word, and the next word when X = 1 (R136). -/
def State.fetchWords (s : State) (c : Issue) : Except State (Word × Word × State) :=
  let pc := c.gang.pc
  let bad (s : State) (at_ : Addr) : Fetched → State
    | .trap cause sub =>
      if cause = 0x0E && s.poisonUnposted c.crew.part then s else s.takeTrap c.wave (c.trap cause sub at_ c.activeGroup 4)
    | .held sub => s.holdFetch c at_ sub
    | .word _ => s
  match s.fetchWord c.wave c.crew pc with
  | (.word w0, s) =>
    if w0.getLsbD 30 then
      match s.fetchWord c.wave c.crew (pc + 4) with
      | (.word w1, s) => .ok (w0, w1, s)
      | (f, s) => .error (bad s (pc + 4) f)
    else .ok (w0, 0, s)
  | (f, s) => .error (bad s pc f)

/-- A gang stops before its instruction. One at a PHASE, in RECALLOC, in BIN or within an instruction whose descriptor is
held is stopped where it is: it goes on with what it holds already. One at a barrier has arrived, and waits on (R367). A WAIT keeps its deadline
(R203). -/
def Gang.halt (g : Gang) : Gang :=
  match g.wait with
  | .phase _ => g
  | .barrier x _ => { g with wait := .barrier x true }
  | .cond x => { g with wait := .stopped none, kept := some x.deadline }
  | .recalloc _ _ _ _ _ => g
  | .bin _ => g
  | .descriptor _ _ => g
  | .stopped _ => g
  | _ => { g with wait := .stopped none }

/-- A gang that counts as stopped. -/
def Gang.isHalted (g : Gang) : Bool := g.halt == g

/-- A gang in this wait may be issued again; in any other it waits for an event. -/
def Wait.mayIssue : Wait → Bool
  | .ready => true
  | .registers => true
  | .record => true
  | .held => true
  | .acqacc _ _ => true
  | .tdone => true
  | .bin _ => true
  | .descriptor _ (some _) => true
  | _ => false

/-- The wave takes an asynchronous trap next: it has one, and no entry that it owns came before it (R350). -/
def Wave.trapFirst (w : Wave) (e : Option Entry) : Bool :=
  !w.traps.isEmpty && (match e with
    | some e => w.raised < e.mark + w.traps.length
    | none => true)

/-- The oldest fault-buffer entry that a wave owns and has not vectored for (R336). -/
def State.ownedEntry (s : State) (w : Wave) (c : Crew) : Option Entry :=
  (s.buffer c.clusterNo).entries.foldl (fun best e =>
    if e.state == .owned && e.owner == some w.ref then
      match best with
      | some b => if e.stamp < b.stamp then some e else best
      | none => some e
    else best) none

/-- A synchronising instruction (R107): one that waits, or that reaches memory or tile memory other than as a plain LD,
ST, LDT, STT or PREF; and RECSEND, whose order in the graph other waves see. -/
def isSync (i : Instr) : Bool :=
  let strong (o : Opnd) : Bool := o.ext.c.toNat % 4 != 0
  match i with
  | .ld _ o => strong o
  | .st _ o => strong o
  | .ldt _ o => strong o
  | .stt _ o => strong o
  | .atomAddS32 _ _ => true | .atomAddS64 _ _ => true | .atomAddF32 _ _ => true | .atomMinS32 _ _ => true
  | .atomMaxS32 _ _ => true | .atomMinN32 _ _ => true | .atomMaxN32 _ _ => true | .atomAnd _ _ => true | .atomOr _ _ => true
  | .atomXor _ _ => true | .atomExch _ _ => true | .atomInc _ _ => true | .casB32 _ => true | .casB64 _ => true | .hcall _ => true
  | .mxm _ _ => true | .drainF32 _ => true | .drainF16 _ => true | .drainBf16 _ => true | .drainE4m3mx _ => true
  | .drainE2m1x _ => true | .drainL8x2 _ => true | .drainArgmax _ => true | .pixinfo _ => true | .sample _ => true
  | .samplel _ => true | .blend _ => true | .bin _ => true | .recalloc _ => true | .recsend _ => true | .regang _ => true
  | .waitAny _ => true | .waitAll _ => true | .barSync _ => true | .barArrive _ => true | .barCrew _ => true | .phase _ => true
  | .qpush _ => true | .qpop _ => true | .qoffer _ => true | .qpoll _ => true | .copy _ => true | .copyw _ => true
  | .copys _ => true | .gateinit _ => true | .gatearm _ => true | .publish _ => true | .xfm _ => true | .acqacc _ => true
  | .tdone _ => true | .fenceAcq _ => true | .fenceRel _ => true | .fenceAcqrel _ => true
  | _ => false

/-- The wave is bound to its partition's rounds; combiner waves run within the commit pass (R108). -/
def State.inRounds (s : State) (c : Crew) : Bool :=
  (s.part c.part).woad && (match c.kind with | .combiner _ => false | _ => true)

/-- The commit pass lets this gang issue: the instruction at this address. -/
def Partition.grants (p : Partition) (r : WaveRef) (g : Gang) : Bool :=
  match p.pass.bind fun x => x.granted with
  | some x => x.wave == r && g.slices.getLsbD x.slice && x.pc == g.pc
  | none => false

/-- The commit pass visits this wave now. -/
def Partition.visits (p : Partition) (r : WaveRef) : Bool :=
  match p.pass.bind fun x => x.granted with
  | some x => x.wave == r
  | none => false

/-- The commit pass waits at its end for accesses that the round holds (R346): handlers may still run for them. -/
def State.passWaits (s : State) (p : Nat) : Bool :=
  match (s.part p).pass with
  | some x => x.left.isEmpty && x.wanted.isEmpty && x.granted.isNone && !x.ended && s.held.any fun h => h.partition == p && !h.saved
  | none => false

/-- The wave runs a handler, or owns an entry for which it is to run one. -/
def State.handles (s : State) (c : Issue) : Bool := c.wave.sup || (s.ownedEntry c.wave c.crew).isSome

/-- A gang may not issue now, for its partition's rounds: its wave has stopped, a commit pass runs, or the round waits
for its log (R107, R108, R407). While the pass waits at its end, handlers run on (log entry 23). -/
def State.roundBars (s : State) (c : Issue) : Bool :=
  let p := s.part c.crew.part
  s.inRounds c.crew && !p.grants c.wave.ref c.gang && !(s.passWaits c.crew.part && s.handles c && c.wave.roundStop.isNone) &&
    (c.wave.roundStop.isSome || p.pass.isSome || p.stall)

/-- An event that completes a wait of this wave is left to the commit pass (R108). -/
def State.roundHolds (s : State) (r : WaveRef) : Bool :=
  match s.crew? r.crew with
  | some c => s.inRounds c && !(s.part c.part).visits r
  | none => false

/-- The commit pass sees that its instruction has been issued. -/
def Partition.useGrant (p : Partition) : Partition :=
  { p with pass := p.pass.map fun x => { x with granted := x.granted.map fun g => { g with used := true } } }

/-- The instruction runs, or the wave stops before it for the round's end (R107). -/
def State.issueInRound (s : State) (c : Issue) (slice : Nat) (i : Instr) : Next :=
  let p := s.part c.crew.part
  if !s.inRounds c.crew then .run i s
  else if p.grants c.wave.ref c.gang then .run i (s.putPart p.useGrant)
  else if (1024 ≤ c.wave.roundIssued && !s.passWaits c.crew.part) || isSync i then .done (s.putWave { c.wave with roundStop := some slice })
  else .run i s

/-- The next instruction of a gang: at an instruction boundary, pending traps and owned entries come first (R336,
R350); words that are no instruction trap ILLEGAL (R358). -/
def State.nextOf (s : State) (r : WaveRef) (slice : Nat) : Next :=
  let s := { s with cur := some (r, slice) }
  match s.issuer with
  | none => .done s
  | some c =>
    if (s.part c.crew.part).div || (s.part c.crew.part).state = 4 || s.roundBars c || !c.crew.resident ||
        (c.crew.preempt.isSome && c.gang.isHalted) then .done s
    else if !c.wave.sup && c.wave.trapFirst (s.ownedEntry c.wave c.crew) then .run (.asyncTrapDelivery r) s
    else if !c.wave.sup && (s.ownedEntry c.wave c.crew).isSome then .run (.translationVector r) s
    else if !c.gang.wait.mayIssue then .done s
    else match s.fetchWords c with
    | .error s => .done s
    | .ok (w0, w1, s) =>
      match decodeWords w0 w1 with
      | .ok i => s.issueInRound c slice i
      | .error sub => .done (s.takeTrap c.wave (c.trap 0x01 sub (wordsAddr (if w0.getLsbD 30 then [w0, w1] else [w0])) c.activeGroup))

/-- A crew of one wave that runs a program word by word, as a loader outside the machine places it (log entry 7). -/
def probeCrew (id : Nat) (code : List Word) : Crew :=
  let ctx : Context :=
    { desc0 := 0, desc1 := 0, fpdef := 0, dbgCtl := 0, handler := 0, pool := 0, methobj := 0,
      tilewin := 0x00FE000000000000, stackwin := 0x00FD000000000000, stackarea := 0, stklim := 0xF, gbase := 0,
      glimit := 0x00FFFFFFFFFFFFFF }
  let k : Kernel :=
    { name := 0, entry := 0, textEnd := 4 * code.length, acc := 0, regs := 64, waves := 1, tile := 0,
      safe0 := 0, safeN := 1, phase0 := 0, phaseN := 1, cimage := 0, roles := 0, sig := 0, care := 0 }
  { id := id, work := 0, kind := .launch, part := 0, queue := 0, index := 0, size := 1, span := 0, cluster := 0, core := 0,
    resident := true, ctx := ctx,
    image := { kernel := k, codeBase := 0x10000, safes := [{ liveV := 0, liveG := 0 }],
               phases := [{ entry := 0, carryP := 0, carryV := 0, carryG := 0 }], cimage := [], code := code.map some },
    karg := 0, nlanes := 0, preempt := none }

/-- The state with that crew placed, and its wave to issue next. -/
def State.withCode (s : State) (code : List Word) : State :=
  let c := probeCrew s.nextCrew code
  let r : WaveRef := { crew := c.id, rank := 0, wave := 0 }
  let w := launchWave r c.image.kernel.regs 0 0 1 0 c.ctx (segsOf c.ctx 0x1000 0) (BitVec.allOnes 96) c.image.codeBase
  { s with nextCrew := s.nextCrew + 1
           crews := s.crews ++ [c], blocks := s.blocks ++ [newBlock c.id 0 0 c.image], waves := s.waves ++ [w]
           agenda := [{ ticks := 0, cycles := 0, action := .issue r 0 }] }

end Sys2Proof.Machine

end
end

