-- ==== Sys2Proof/Machine/Log.lean ====
section
/-! DEFINITION. The Woad log (R407 to R410): writing entries while recording, reading them while replaying. -/

noncomputable section

namespace Sys2Proof.Machine

/-- The control window is presented on every port whose PORTROLE is 1 (R302, R303). -/
def State.windowOn (s : State) (port : Nat) : Bool := bits s.module.portRole.toNat (2 * port + 1) (2 * port) = 1

/-- The node across a port may write a partition's registers: the window is there, and the node administers the partition
(R302). -/
def State.administers (s : State) (port p : Nat) : Bool := s.windowOn port && (s.part p).admin.getLsbD port

/-- The partition runs in rounds and records, or replays. -/
def Partition.replays (p : Partition) : Bool := p.woad && p.wctl.getLsbD 1
def Partition.recording (p : Partition) : Bool := p.woad && !p.wctl.getLsbD 1

/-- One log entry: TYPE, ROUND and payload words. -/
structure LogEntry where
  type : Nat
  round : Nat
  words : List Nat
  deriving DecidableEq, Repr

/-- The bytes of an entry (R408). -/
def LogEntry.bytes (e : LogEntry) : List Byte :=
  ((e.type + 256 * (e.words.length + 1) + 65536 * e.round) :: e.words).flatMap fun w => leBytes 8 w

/-- Bytes as 8-byte words, padded. -/
def wordsOf (bs : List Byte) : List Nat :=
  (List.range ((bs.length + 7) / 8)).map fun k => leNat ((bs.drop (8 * k)).take 8)

/-- An input of this round joins the partition's log. -/
def State.logEntry (s : State) (p type : Nat) (words : List Nat) : State :=
  let x := s.part p
  if x.woad then s.putPart { x with log := x.log ++ LogEntry.bytes { type := type, round := x.round, words := words } } else s

/-- Entries of a list of words. -/
def parseWords : List Nat → Nat → List LogEntry
  | _, 0 => []
  | [], _ => []
  | h :: r, fuel + 1 =>
    let n := bits h 15 8 - 1
    { type := bits h 7 0, round := bits h 63 16, words := r.take n } :: parseWords (r.drop n) fuel

/-- The entries that a partition's own log of this round holds. -/
def Partition.entries (p : Partition) : List LogEntry := parseWords (wordsOf p.log) p.log.length

/-- A word of the log ring at a byte count. -/
def State.ringWord (s : State) (p : Partition) (port i : Nat) : Nat :=
  leNat ((List.range 8).flatMap fun k => s.memBytes (memKey (9 + port) ((p.wring.toNat + (i + k) % 2 ^ p.wsz) % 2 ^ 52)) 1)

/-- The words that the control node has written and the device has not consumed, at most n. -/
def State.ringWords (s : State) (p : Partition) (port : Nat) : Nat → Nat → List Nat
  | _, 0 => []
  | i, n + 1 => s.ringWord p port i :: s.ringWords p port (i + 8) n

/-- Entries up to and with the first round end. -/
def throughRoundEnd : List LogEntry → List LogEntry
  | [] => []
  | e :: r => if e.type = 9 then [e] else e :: throughRoundEnd r

/-- The entries of this round in the ring of a partition that replays; none while its round end has not been written. -/
def State.replayEntries (s : State) (p : Partition) : Option (List LogEntry) :=
  match s.controlPort with
  | none => none
  | some port =>
    let n := (p.wwr - p.wrd).toNat / 8
    let es := throughRoundEnd (parseWords (s.ringWords p port p.wrd.toNat n) n)
    if es.any fun e => e.type = 9 then some es else none

/-- A replay waits, with STALL set, until its log holds the whole of the round to come (R407). -/
def State.waitForLog (s : State) (p : Nat) : State :=
  let x := s.part p
  s.putPart { x with stall := x.replays && (s.replayEntries x).isNone }

/-- The key of a wave: LAUNCH_SEQ, then g0 and g1 (R408). -/
def waveKey (w : Wave) (c : Crew) : List Nat := [c.work, w.blockId.toNat + 2 ^ 32 * w.launchG1 c]

/-- Replay has diverged (R410). -/
def State.diverge (s : State) (p : Nat) : State := let x := s.part p; s.putPart { x with div := true }

/-- An external read of a wave in a Woad partition: recorded as it stands, or taken from the log; `words` come before
the value in the payload. Reads that these words do not tell apart take their entries in turn. -/
def State.woadRead (s : State) (p type : Nat) (words value : List Nat) : List Nat × State :=
  let x := s.part p
  if x.recording then (value, s.logEntry p type (words ++ value))
  else if x.replays then
    let mine (e : LogEntry) : Bool := e.type = type && e.words.take words.length == words
    match (s.replayEntries x).bind fun es => (es.filter mine)[(x.entries.filter mine).length]? with
    | some e => (e.words.drop words.length, s.logEntry p type e.words)
    | none => (value, s.diverge p)
  else (value, s)

/-- An input of a Woad partition waits for the round's end; a replayed one is supplied by the log (R408, R409). -/
def State.asInput (s : State) (p : Nat) (i : Instr) (k : State → State) : Host.Outcome State Fault Refusal :=
  let x := s.part p
  if !x.woad then .next (k s)
  else if x.wctl.getLsbD 1 then .next s
  else .next (s.putPart { x with inputs := x.inputs ++ [i] })

end Sys2Proof.Machine

end
end

