-- ==== Sys2Proof/Machine/Load.lean ====
section
/-! DEFINITION. What the device itself reads and writes in a context: through its translation and GLOBAL segment, with
no fault-buffer entry (R286, R290, R412), and the code range of a kernel (R64). -/

namespace Sys2Proof.Machine

/-- Why the device cannot reach bytes in a context. -/
inductive DevError where
  /-- A missing translation, with the address and SUB. -/
  | missing (a : BitVec 64) (sub : Nat)
  /-- A fault of R328, by cause and SUB. -/
  | fault (cause sub : Nat)
  /-- Poison, in the bytes or in a table. -/
  | poison
  deriving DecidableEq, Repr

/-- Where bytes that lie on one page are. -/
structure Span where
  mt : Nat
  pa : Nat
  comp : Bool
  leaf : BitVec 64
  leafMt : Nat
  leafPa : Nat
  /-- How many of the bytes. -/
  size : Nat
  deriving DecidableEq, Repr

/-- An address lies in the context's GLOBAL segment, outside its two windows (R48, R50). -/
def Context.inGlobal (c : Context) (a : BitVec 64) (n : Nat) : Bool :=
  let last := a + BitVec.ofNat 64 (n - 1)
  2 ^ 24 ≤ (a - c.tilewin).toNat && 2 ^ 24 ≤ (last - c.tilewin).toNat && 2 ^ 24 ≤ (a - c.stackwin).toNat &&
    2 ^ 24 ≤ (last - c.stackwin).toNat && c.gbase ≤ a && last ≤ c.glimit && a ≤ last

/-- The pages of n bytes from an address on: address and bytes of each part. -/
def pageParts (a : BitVec 64) (n : Nat) : Nat → List (BitVec 64 × Nat)
  | 0 => []
  | fuel + 1 =>
    if n = 0 then []
    else
      let k := min n (2 ^ 17 - a.toNat % 2 ^ 17)
      (a, k) :: pageParts (a + BitVec.ofNat 64 k) (n - k) fuel

/-- Reach n bytes on behalf of a context: the checks of R328 from step 2 on, page by page. -/
def State.devReach (s : State) (c : Context) (part : Nat) (a : BitVec 64) (n : Nat) (need : Perm) :
    Except DevError (List Span) × State :=
  if n = 0 then (.ok [], s)
  else if !(canonical a && canonical (a + BitVec.ofNat 64 (n - 1))) then (.error (.fault 0x07 0), s)
  else if !c.inGlobal a n then (.error (.fault 0x06 0), s)
  else
    (pageParts a n (n / 2 ^ 17 + 2)).foldl (fun (acc : Except DevError (List Span) × State) p =>
      match acc with
      | (.error e, s) => (.error e, s)
      | (.ok l, s) =>
        match s.translate c part 96 p.1 need with
        | (.mem mt pa comp e lmt lpa, s) =>
          (.ok (l ++ [{ mt := mt, pa := pa, comp := comp, leaf := e, leafMt := lmt, leafPa := lpa, size := p.2 }]), s)
        | (.missing sub, s) => (.error (.missing p.1 sub), s)
        | (.malformed sub, s) => (.error (.fault 0x14 sub), s)
        | (.permission, s) => (.error (.fault 0x09 0), s)
        | (.poisoned, s) => (.error .poison, s)) (.ok [], s)

/-- The lines of a span, used on behalf of a block or of none (R150). -/
def State.touchSpan (s : State) (c : Context) (part : Nat) (blk : Option (Nat × Nat)) (x : Span) (write : Bool) : State :=
  let s := s.touchLeaf 96 x.leaf x.leafMt x.leafPa write
  let first := x.pa / 128
  (List.range ((x.pa + x.size - 1) / 128 + 1 - first)).foldl (fun s k =>
    s.touchL2 part c.ctag blk x.mt ((first + k) * 128)
      (min (x.pa + x.size) ((first + k + 1) * 128) - max x.pa ((first + k) * 128)) write x.comp) s

/-- n bytes read in a context (R286, R290, R227); `blind` where poison in them is not consumed (R398). -/
def State.devRead (s : State) (c : Context) (part : Nat) (blk : Option (Nat × Nat)) (a : BitVec 64) (n : Nat) (blind : Bool := false) :
    Except DevError (List Byte) × State :=
  match s.devReach c part a n { r := true } with
  | (.error e, s) => (.error e, s)
  | (.ok l, s) =>
    let s := l.foldl (fun s x => s.touchSpan c part blk x false) s
    if !blind && l.any fun x => s.memPoisoned x.mt x.pa x.size then (.error .poison, s)
    else (.ok (l.flatMap fun x => s.rawBytes x.mt x.pa x.size), s)

/-- Whole 16-byte units of a write clear their poison (R397). -/
def State.unpoison (s : State) (mt pa n : Nat) : State :=
  let first := roundUp pa 16
  (List.range ((pa + n - first) / 16)).foldl (fun s k => s.clearPoison mt (first + 16 * k)) s

/-- Bytes written in a context, past L1 (R63). -/
def State.devWrite (s : State) (c : Context) (part : Nat) (blk : Option (Nat × Nat)) (a : BitVec 64) (bs : List Byte) :
    Except DevError State :=
  match s.devReach c part a bs.length { r := true, w := true } with
  | (.error e, _) => .error e
  | (.ok l, s) =>
    .ok (l.foldl (fun (s, bs) x =>
      let s := s.touchSpan c part blk x true
      let s := if s.linkDown x.mt then s
        else ((s.putMem (memKey x.mt x.pa) (bs.take x.size)).clearTag 3 0 (memKey x.mt x.pa) x.size).unpoison x.mt x.pa x.size
      (s, bs.drop x.size)) (s, bs)).1

/-- n words of code from an address on, as they stand: none where a word cannot be fetched (R64). -/
def State.readCode (s : State) (c : Context) (part : Nat) (a : BitVec 64) (n : Nat) : List (Option Word) × State :=
  (pageParts a (4 * n) (4 * n / 2 ^ 17 + 2)).foldl (fun (ws, s) p =>
    let none_ := List.replicate (p.2 / 4) (none : Option Word)
    match s.devReach c part p.1 p.2 { x := true } with
    | (.ok (x :: _), s) =>
      let s := s.touchLeaf 96 x.leaf x.leafMt x.leafPa false
      (ws ++ (List.range (p.2 / 4)).map fun k =>
        if s.memPoisoned x.mt (x.pa + 4 * k) 4 then none
        else some (BitVec.ofNat 32 (s.rawRead x.mt (x.pa + 4 * k) 4)), s)
    | (_, s) => (ws ++ none_, s)) ([], s)

/-- A kernel's image with its code range fetched afresh (R64). -/
def State.refetch (s : State) (c : Context) (part : Nat) (k : Image) : Image × State :=
  let (ws, s) := s.readCode c part (k.codeBase + BitVec.ofNat 64 k.kernel.entry) ((k.kernel.textEnd - k.kernel.entry) / 4)
  ({ k with code := ws }, s)

end Sys2Proof.Machine
end

