-- ==== Sys2Proof/Machine/GroupControl.lean ====
section
/-! DEFINITION. Transfer of control, parting, merging and exit (R192 to R198, R24, R27). -/

noncomputable section

namespace Sys2Proof.Machine

/-- The gang goes to an address. -/
def State.jump (s : State) (c : Issue) (w : Wave) (pc : Addr) : State := s.putWave (w.advance c.gang pc)

/-- The address n words from the base word (R137, R138). -/
def Issue.target {n : Nat} (c : Issue) (off : BitVec n) : Addr := c.gang.pc + 4 * off.signExtend 64

/-- BRA: the cohort goes to the target (R192). -/
def execBra (off : BitVec 24) (s : State) : Host.Outcome State Fault Refusal :=
  issue (.bra off) plain s fun c => s.jump c c.wave (c.target off)

/-- The link pair and the other destinations of a call wait while they are empty (R143). -/
def linkFull (w : Wave) (d : Nat) : Bool := w.isFull .g d && w.isFull .g (d + 1)

/-- CALL: the next address to g58:g59, then the target (R192). -/
def execCall (off : BitVec 24) (s : State) : Host.Outcome State Fault Refusal :=
  issue (.call off) plain s fun c =>
    if linkFull c.wave 58 then
      s.jump c (c.wave.writeG2 c.gang.slices 58 (c.nextPc (.call off))) (c.target off)
    else s.putWave (c.wave.park c.gang .registers)

/-- A target whose bits 1:0 are not zero traps MISALIGNED, KIND 4 (R193, R363). -/
def State.jumpTo (s : State) (c : Issue) (w : Wave) (t : Addr) : State :=
  if t.extractLsb' 0 2 != 0 then s.takeTrap c.wave (c.trap 0x05 0 t c.activeGroup 4)
  else s.jump c w t

/-- JMPG: go to the address in A (R193). -/
def execJmpg (o : Opnd) (s : State) : Host.Outcome State Fault Refusal :=
  issue (.jmpg o) plain s fun c => s.jumpTo c c.wave (c.wave.readG2 o.a.toNat)

/-- CALLG: read A, write the next address to D, go to A (R193). -/
def execCallg (o : Opnd) (s : State) : Host.Outcome State Fault Refusal :=
  issue (.callg o) plain s fun c =>
    s.jumpTo c (c.wave.writeG2 c.gang.slices o.d.toNat (c.nextPc (.callg o))) (c.wave.readG2 o.a.toNat)

/-- RET: go to the address in A (R193). -/
def execRet (o : Opnd) (s : State) : Host.Outcome State Fault Refusal :=
  issue (.ret o) plain s fun c => s.jumpTo c c.wave (c.wave.readG2 o.a.toNat)

/-- BRC: go to the target when the relation holds (R194). -/
def branchIf (i : Instr) (o : Opnd) (f : Word → Word → Bool) (s : State) : Host.Outcome State Fault Refusal :=
  issue i plain s fun c =>
    if f (c.wave.readG o.a.toNat) (c.wave.readG o.b.toNat) then s.jump c c.wave (c.target o.ext.imm)
    else s.retire c i c.wave

def execBrcEq (o : Opnd) (s : State) : Host.Outcome State Fault Refusal := branchIf (.brcEq o) o (fun a b => a == b) s
def execBrcNe (o : Opnd) (s : State) : Host.Outcome State Fault Refusal := branchIf (.brcNe o) o (fun a b => a != b) s
def execBrcLtS32 (o : Opnd) (s : State) : Host.Outcome State Fault Refusal := branchIf (.brcLtS32 o) o (fun a b => a.slt b) s
def execBrcLeS32 (o : Opnd) (s : State) : Host.Outcome State Fault Refusal := branchIf (.brcLeS32 o) o (fun a b => a.sle b) s
def execBrcLtN32 (o : Opnd) (s : State) : Host.Outcome State Fault Refusal := branchIf (.brcLtN32 o) o (fun a b => decide (a < b)) s
def execBrcLeN32 (o : Opnd) (s : State) : Host.Outcome State Fault Refusal := branchIf (.brcLeN32 o) o (fun a b => decide (a ≤ b)) s

/-- Active lanes of a slice, and those of them whose predicate is 1 (R195). -/
def sliceVote (act p : LaneMask) (sl : Nat) : Nat × Nat :=
  let ls := (List.range 4).filter fun k => act.getLsbD (4 * sl + k)
  (ls.length, (ls.filter fun k => p.getLsbD (4 * sl + k)).length)

/-- BRP: each slice decides from its own active lanes; the cohort divides (R195, R24). -/
def part (i : Instr) (o : Opnd) (f : Nat → Nat → Bool) (s : State) : Host.Outcome State Fault Refusal :=
  issue i plain s fun c =>
    let w := c.wave
    let p := w.readP (o.a.toNat % 8)
    let take := sliceMaskOf fun sl => c.gang.slices.getLsbD sl && (let v := sliceVote w.act p sl; f v.1 v.2)
    let stay := c.gang.slices &&& ~~~take
    if stay = 0 then s.jump c w (c.target o.ext.imm)
    else if take = 0 then s.retire c i w
    else
      let gs := (w.gangs.filter fun g => g.slices != c.gang.slices) ++
        [{ slices := take, pc := c.target o.ext.imm, wait := .ready }, { slices := stay, pc := c.nextPc i, wait := .ready }]
      s.putWave { w with gangs := gs, issued := w.issued + 1, roundIssued := w.roundIssued + 1 }

def execBrpAny (o : Opnd) (s : State) : Host.Outcome State Fault Refusal := part (.brpAny o) o (fun _ n => decide (0 < n)) s
def execBrpAll (o : Opnd) (s : State) : Host.Outcome State Fault Refusal := part (.brpAll o) o (fun k n => n == k) s
def execBrpNone (o : Opnd) (s : State) : Host.Outcome State Fault Refusal := part (.brpNone o) o (fun _ n => n == 0) s

/-! ## REGANG -/

/-- The slices of band b (R22). -/
def bandSlices (b : Nat) : SliceMask := 0xFF#24 <<< (8 * b)

/-- Slices waiting at a REGANG. -/
def Wave.atRegang (w : Wave) : SliceMask :=
  w.gangs.foldl (fun m g => if g.wait == .regang then m ||| g.slices else m) 0

/-- The bands that are ready: they have a live slice, and every live slice of them waits at some REGANG (R27). -/
def Wave.readyBands (w : Wave) : SliceMask :=
  (List.range 3).foldl (fun m b =>
    let x := w.live &&& bandSlices b
    if x != 0 && (x &&& ~~~w.atRegang) = 0 then m ||| bandSlices b else m) 0

/-- Regroup the waiting slices of the ready bands: those at one address form one gang, which goes on after its REGANG;
slices of other bands go on waiting (R27). -/
def Wave.regroup (w : Wave) (ready : SliceMask) (after : Addr → Addr) : Wave :=
  let out (g : Gang) : Bool := g.wait == .regang && (g.slices &&& ready) != 0
  let moved := w.gangs.filter out
  let left := w.gangs.filterMap fun g =>
    if out g then (let r := g.slices &&& ~~~ready; if r = 0 then none else some { g with slices := r }) else some g
  let pcs := (moved.map fun g => g.pc).dedup
  let new := pcs.map fun p =>
    ({ slices := moved.foldl (fun m g => if g.pc = p then m ||| (g.slices &&& ready) else m) 0, pc := after p, wait := .ready } : Gang)
  { w with gangs := left ++ new }

/-- Bands that have become ready in this cycle are noted: they regroup together, and with no later ones (R27). -/
def Wave.noteBands (w : Wave) : Wave :=
  let new := w.readyBands &&& ~~~(w.bands.foldl (fun m x => m ||| x) 0)
  if new = 0 then w else { w with bands := w.bands ++ [new] }

/-- REGANG: the cohort waits (R197); REGANG_BAND_READY regroups. Its words are 4 or 8 bytes; the address after it is
kept with the waiting gang's pc by its X bit, which the wave's code gives. -/
def execRegang (o : Opnd) (s : State) : Host.Outcome State Fault Refusal :=
  issue (.regang o) (fun _ => { notInHandler := true }) s fun c =>
    let w := (c.wave.park c.gang .regang).noteBands
    s.putWave { w with issued := w.issued + 1, roundIssued := w.roundIssued + 1 }

/-- The address after the REGANG at pc. -/
def State.afterRegang (s : State) (w : Wave) (c : Crew) (pc : Addr) : Addr :=
  match s.fetchWord w c pc with
  | (.word x, _) => if x.getLsbD 30 then pc + 8 else pc + 4
  | _ => pc + 4

/-- The slices of the bands that became ready first regroup (R27). -/
def execRegangBandReady (w : WaveRef) (s : State) : Host.Outcome State Fault Refusal :=
  if s.roundHolds w then .next s else
  match s.wave? w, s.crew? w.crew with
  | some x, some c =>
    (match x.bands with
     | [] => .next s
     | r :: later => if x.sup then .next s else .next (s.putWave ({ x with bands := later }.regroup r (s.afterRegang x c))))
  | _, _ => .next s

end Sys2Proof.Machine

end
end

