-- ==== Sys2Proof/Machine/Waiting.lean ====
section
/-! DEFINITION. WAIT and the events that end it (R199 to R203), fences (R210). -/

noncomputable section

namespace Sys2Proof.Machine

/-- A waiting gang goes on after its instruction, which has an extension word (R136). -/
def Wave.goOn (w : Wave) (g : Gang) : Wave :=
  { w with gangs := updWhere (fun x => x.slices == g.slices) (fun x => { x with pc := x.pc + 8, wait := .ready }) w.gangs }

/-! ## Conditions (R200) -/

def Condition.kind (k : Condition) : Nat := bits k.desc.toNat 31 28
def Condition.op (k : Condition) : Nat := bits k.desc.toNat 27 25
def Condition.loc (k : Condition) : Nat := bits k.desc.toNat 23 0

/-- A word of the queue header q of a block (R58). -/
def Block.queueWord (b : Block) (q k : Nat) : Nat := b.word (0x100 + 16 * q + 4 * k)

/-- A breach of R200 other than a location. Of an unused condition bit 24 and OP are reserved; LOC and its operand word,
which R200 gives no meaning there, are not looked at. -/
def condBad (w : Wave) (b : Block) (k : Condition) : Bool :=
  7 < k.kind || k.desc.getLsbD 24 || (k.kind != 1 && k.op != 0) || (k.kind == 1 && 5 < k.op) ||
      (match k.kind with
       | 0 => false
       | 1 => k.loc % 4 != 0
       | 2 => k.loc % 16 != 0 || 1 < k.opnd.toNat
       | 3 => 15 < k.loc || k.opnd != 0 || bits (b.queueWord (k.loc % 16) 0) 31 31 = 0
       | 4 => 15 < k.loc || k.opnd != 0 || bits (b.queueWord (k.loc % 16) 0) 31 31 = 0
       | 5 => 127 < k.loc || k.opnd != 0 || (k.loc < 64 && w.regs ≤ k.loc)
       | 6 => k.loc != 0
       | _ => 65535 < k.loc)

/-- The block that a location of kind 1 or 2 names, if the location may be read (R363). -/
def State.condBlock (s : State) (w : Wave) (c : Crew) (k : Condition) : Option Block :=
  match c.rankOf w.ref.rank (bits k.loc 23 20) with
  | none => none
  | some r =>
    match s.block? c.id r with
    | none => none
    | some b =>
      if s.tileOk c b w.segs.tileLimit.toNat (bits k.loc 19 0) (if k.kind = 1 then 4 else 16) false then some b else none

/-- The word of tile memory at an offset, as programs see it. -/
def Block.seen (b : Block) (off : Nat) : Nat := leNat (b.readVisible off 4)

/-- The allowance of a wave for a queue (R58). -/
def Block.allowance (b : Block) (q w : Nat) : Nat := leNat (b.bytes (0x200 + 32 * q + w) 1) % 128

/-- The handles in a queue (R58). -/
def Block.queueCount (b : Block) (q : Nat) : Nat := bits (b.queueWord q 1) 22 16

/-- A relation of kind 1. -/
def condCompare (op : Nat) (x v : Word) : Bool :=
  match op with
  | 0 => x == v
  | 1 => x != v
  | 2 => x.slt v
  | 3 => v.sle x
  | 4 => decide (x < v)
  | _ => decide (v ≤ x)

/-- n bytes of a block's tile memory from a physical offset on, as a strong read gives them (R80, R97). The read is tagged, and
never refused: R392 gives a refused WAIT no result (log entry 56). -/
def State.condRead (s : State) (b : Block) (off n : Nat) : Nat × State :=
  let (bs, s) := s.strongRead 0 (8 * b.crew + b.rank) off (b.bytes off n)
  (leNat bs, s)

/-- CLOCK_REF as a condition reads it: a timer read of a wave in a Woad partition is an input (R109, R408 TYPE 4). -/
def State.condClock (s : State) (w : Wave) (c : Crew) : Word × State :=
  let (v, s) := s.woadRead c.part 4 (waveKey w c ++ [w.roundIssued % 1024]) [s.tick]
  (BitVec.ofNat 32 (v.headD 0), s)

/-- One observation of a condition: whether it holds, and whether its gate is poisoned (R200, R201). Tile words, gates and
queues are read as strong reads (R80, R98). -/
def State.observeOne (s : State) (w : Wave) (c : Crew) (k : Condition) : (Bool × Bool) × State :=
  let own (f : Block → (Bool × Bool) × State) : (Bool × Bool) × State :=
    match s.block? c.id w.ref.rank with
    | some b => f b
    | none => ((false, false), s)
  match k.kind with
  | 1 =>
    match s.condBlock w c k with
    | some b =>
      let (x, s) := s.condRead b (b.visible (bits k.loc 19 0)) 4
      ((condCompare k.op (BitVec.ofNat 32 x) k.opnd, false), s)
    | none => ((false, false), s)
  | 2 =>
    match s.condBlock w c k with
    | some b =>
      let (g, s) := s.condRead b (b.visible (bits k.loc 19 0) + 8) 4
      ((g % 2 != k.opnd.toNat % 2 || bits g 1 1 = 1, bits g 1 1 = 1), s)
    | none => ((false, false), s)
  | 3 => own fun b => let (x, s) := s.condRead b (0x100 + 16 * k.loc + 4) 4; ((decide (0 < bits x 22 16), false), s)
  | 4 => own fun b => let (x, s) := s.condRead b (0x200 + 32 * k.loc + w.ref.wave) 1; ((decide (0 < x % 128), false), s)
  | 5 => ((w.isFull (if 64 ≤ k.loc then .g else .v) (k.loc % 64), false), s)
  | 6 => let (t, s) := s.condClock w c; ((!(t - k.opnd).msb, false), s)
  | 7 => ((!((cellGet 0 (s.part c.part).events (k.loc % 65536)).setWidth 32 - k.opnd).msb, false), s)
  | _ => ((false, false), s)

/-- Observe the conditions once (R201): SEEN is sticky. One of a tile word, a gate or a queue that is satisfied acquires at
crew scope (R89, R98). -/
def State.observe (s : State) (w : Wave) (c : Crew) (x : WaitState) : WaitState × State :=
  x.conds.zipIdx.foldl (fun (x, s) (k, n) =>
    if k.kind = 0 || x.seen.getLsbD n then (x, s)
    else
      let ((holds, pois), s) := s.observeOne w c k
      if holds then
        ({ x with seen := x.seen ||| (1#4 <<< n), pois := x.pois || pois },
         if k.kind ≤ 4 then s.dropL1 (c.coreOf w.ref.rank) else s)
      else (x, s)) (x, s)

/-- The wait is over by its conditions. -/
def WaitState.met (x : WaitState) : Bool :=
  let used := x.conds.zipIdx.filter fun k => k.1.kind != 0
  if x.all then !used.isEmpty && used.all fun k => x.seen.getLsbD k.2 else x.seen != 0

/-- The wait's deadline is reached. -/
def WaitState.expired (x : WaitState) (tick : Nat) : Bool :=
  match x.deadline with
  | some d => decide (d ≤ tick)
  | none => false

/-- The result word (R202). -/
def WaitState.result (x : WaitState) (timeout : Bool) : Word :=
  x.seen.setWidth 32 ||| (if timeout then 0x10 else 0) ||| (if x.pois then 0x20 else 0)

/-- The WAIT of a gang completes: the result lands and the gang goes on. -/
def Wave.endWait (w : Wave) (g : Gang) (x : WaitState) (timeout : Bool) : Wave :=
  ((w.writeG g.slices x.dst (x.result timeout)).setFull .g x.dst).goOn g

/-- One test of a waiting gang, in the cycle that observes its conditions: they win over the deadline (R201). In Woad
mode a time-out is taken only as the recorded input gives it (R203). -/
def State.testWait (s : State) (w : Wave) (c : Crew) (g : Gang) (x : WaitState) : State :=
  let (x, s) := s.observe w c x
  if x.met then s.putWave (w.endWait g x false)
  else if x.expired s.tick && !(s.part c.part).woad then s.putWave (w.endWait g x true)
  else s.putWave (w.park g (.cond x))

/-- The frame of WAIT.any and WAIT.all (R199 to R201): the checks of R363, the wait for an earlier acquire of the wave that is
held (R344), then the test in the issue cycle. A WAIT that pre-emption interrupted keeps its deadline (R203). -/
def waitFor (i : Instr) (all : Bool) (o : Opnd) (s : State) : Host.Outcome State Fault Refusal :=
  issue i plain s fun c =>
    let w := c.wave
    let a := o.a.toNat
    let ks : List Condition := (List.range 4).map fun k => { desc := w.readG (a + 2 * k), opnd := w.readG (a + 2 * k + 1) }
    let t := w.readG o.b.toNat
    match s.block? c.crew.id w.ref.rank with
    | none => s
    | some b =>
      match ks.zipIdx.find? fun k => condBad w b k.1 with
      | some (k, n) => s.takeTrap w (c.trap 0x0B (n + 1) (k.desc.setWidth 64) c.activeGroup)
      | none =>
        if (ks.all fun k => k.kind == 0) && t == 0xFFFFFFFF then s.takeTrap w (c.trap 0x0B 5 0 c.activeGroup)
        else match ks.find? fun k => (k.kind == 1 || k.kind == 2) && (s.condBlock w c.crew k).isNone with
        | some k => s.takeTrap w (c.trap 0x06 0 (k.desc.setWidth 64) c.activeGroup)
        | none =>
          if !w.sup && (ks.any fun k => 1 ≤ k.kind && k.kind ≤ 4) && s.mustWait w.ref false false then
            s.putWave (w.park c.gang .held)
          else
          let x : WaitState :=
            { all := all, conds := ks, seen := 0, pois := false, dst := o.d.toNat,
              deadline := match c.gang.kept with
                | some d => d
                | none => if t == 0xFFFFFFFF then none else some (s.tick + t.toNat) }
          let w := { (w.setEmpty .g o.d.toNat) with
            gangs := updWhere (fun g => g.slices == c.gang.slices) (fun g => { g with kept := none }) w.gangs
            issued := w.issued + 1, roundIssued := w.roundIssued + 1 }
          s.testWait w c.crew c.gang x

/-- WAIT.any (R199). -/
def execWaitAny (o : Opnd) (s : State) : Host.Outcome State Fault Refusal := waitFor (.waitAny o) false o s

/-- WAIT.all (R199). -/
def execWaitAll (o : Opnd) (s : State) : Host.Outcome State Fault Refusal := waitFor (.waitAll o) true o s

/-- The waiting gang that a slice names, if it is in a WAIT. -/
def State.waiter (s : State) (r : WaveRef) (slice : Nat) : Option (Wave × Crew × Gang × WaitState) :=
  match s.wave? r, s.crew? r.crew with
  | some w, some c =>
    if s.roundHolds r then none else
    match w.gang? slice with
    | some g => match g.wait with
      | .cond x => some (w, c, g, x)
      | _ => none
    | none => none
  | _, _ => none

/-- The deadline of a WAIT has passed before this cycle, and it is for the passing of time to end it; a Woad partition takes a
time-out only as an input (R203). -/
def State.pastDeadline (s : State) (c : Crew) (x : WaitState) : Bool :=
  !(s.part c.part).woad && (match x.deadline with | some d => decide (d < s.tick) | none => false)

/-- A cycle observes the conditions of a waiting gang, and it completes when they hold (R201). -/
def execWaitConditionMet (w : WaveRef) (gang : Nat) (s : State) : Host.Outcome State Fault Refusal :=
  match s.waiter w gang with
  | none => .next s
  | some (w, c, g, x) =>
    if s.pastDeadline c x then .next s
    else
      let (x, s) := s.observe w c x
      .next (s.putWave (if x.met then w.endWait g x false else w.park g (.cond x)))

/-- A time-out of a wave in a Woad round is an input of it: the commit pass takes it, when recording (R108, R109). -/
def State.roundTimeout (s : State) (w : WaveRef) (gang : Nat) : State :=
  match s.crew? w.crew with
  | none => s
  | some c =>
    let p := s.part c.part
    if p.wctl.getLsbD 1 then s else s.putPart { p with inputs := p.inputs ++ [.waitTimeout w gang] }

/-- The deadline ends the wait, unless the conditions hold in the same cycle (R201). -/
def execWaitTimeout (w : WaveRef) (gang : Nat) (s : State) : Host.Outcome State Fault Refusal :=
  if s.roundHolds w then .next (s.roundTimeout w gang)
  else match s.waiter w gang with
  | none => .next s
  | some (w, c, g, x) => .next (s.testWait w c g x)

/-! ## The passing of time (R201): every gang in a WAIT observes its conditions once in each cycle -/

/-- The first tick, from one on, at which a timer condition holds (R200, kind 6). -/
def Condition.reached (k : Condition) (lo : Nat) : Nat :=
  let d := BitVec.ofNat 32 lo - k.opnd
  if d.msb then lo + (-d).toNat else lo

/-- Insert into a list of rising numbers, once. -/
def insertRising (x : Nat) : List Nat → List Nat
  | [] => [x]
  | y :: r => if x < y then x :: y :: r else if x = y then y :: r else y :: insertRising x r

/-- The moments from one tick to another at which an observation may find what it did not find before: the first, those at which
timers are reached, and the last. -/
def WaitState.moments (x : WaitState) (lo hi : Nat) : List Nat :=
  let ts := ((x.conds.filter fun k => k.kind == 6).map fun k => k.reached lo).filter fun t => t ≤ hi
  (hi :: ts).foldr insertRising [lo]

/-- Observe at the given moments, in turn, until the conditions are met. -/
def State.observeAt (s : State) (w : Wave) (c : Crew) : List Nat → WaitState → WaitState × State
  | [], x => (x, s)
  | t :: ts, x =>
    if x.met then (x, s)
    else
      let now := s.tick
      let (x, s) := { s with tick := t }.observe w c x
      { s with tick := now }.observeAt w c ts x

/-- The gang of a wave that holds a slice, if it is in a WAIT, observes its conditions in every cycle that has passed since a
tick, up to its deadline: what is met then ends the WAIT, else a deadline that is reached does. A gang that a handler had
suspended beyond its deadline tests them once (R203). -/
def State.sweepWait (s : State) (lo : Nat) (r : WaveRef) (slice : Nat) : State :=
  match s.waiter r slice with
  | none => s
  | some (w, c, g, x) =>
    let hi := match x.deadline with | some d => min d s.tick | none => s.tick
    let (x, s) := s.observeAt w c (if hi < lo then [s.tick] else x.moments lo hi) x
    if x.met then s.putWave (w.endWait g x false)
    else if x.expired s.tick && !(s.part c.part).woad then s.putWave (w.endWait g x true)
    else s.putWave (w.park g (.cond x))

/-- The gangs that are in a WAIT, each by its wave and lowest slice. -/
def State.inWait (s : State) : List (WaveRef × Nat) :=
  s.waves.flatMap fun w => w.gangs.filterMap fun g =>
    match g.wait with
    | .cond _ => some (w.ref, (SliceMask.slices g.slices).headD 0)
    | _ => none

/-- Ticks and cycles pass. Nothing else changes in them, and the WAITs observe it (R201). -/
def State.passTime (s : State) (ticks cycles : Nat) : State :=
  let t := { s with tick := s.tick + ticks, cycle := s.cycle + cycles }
  if ticks = 0 && cycles = 0 then t
  else s.inWait.foldl (fun t x => t.sweepWait s.tick x.1 x.2) t

/-! ## Fences (R89, R210) -/

/-- A fence waits for the wave's held accesses (R344), and a remote one for what it promotes: the reads before it may have met
any line (R94). One that acquires at crew scope or wider empties L1. -/
def fence (i : Instr) (acquire : Bool) (o : Opnd) (s : State) : Host.Outcome State Fault Refusal :=
  issue i plain s fun c =>
    if (!c.wave.sup && !(s.heldOf c.wave.ref).isEmpty) || (o.ext.mod.getLsbD 2 && s.promotes fun _ => true) then
      s.putWave (c.wave.park c.gang .held)
    else
      let s := if acquire && o.ext.mod.toNat % 4 != 0 then s.dropL1 (c.crew.coreOf c.wave.ref.rank) else s
      s.retire c i c.wave

/-- FENCE.acq (R210). -/
def execFenceAcq (o : Opnd) (s : State) : Host.Outcome State Fault Refusal := fence (.fenceAcq o) true o s

/-- FENCE.rel (R210). -/
def execFenceRel (o : Opnd) (s : State) : Host.Outcome State Fault Refusal := fence (.fenceRel o) false o s

/-- FENCE.acqrel (R210). -/
def execFenceAcqrel (o : Opnd) (s : State) : Host.Outcome State Fault Refusal := fence (.fenceAcqrel o) true o s

end Sys2Proof.Machine

end
end

