-- ==== Sys2Proof/Machine/Queues.lean ====
section
/-! DEFINITION. Stage queues (R34, R35, R58, R208, R209) and barriers (R55, R204, R205). -/

noncomputable section

namespace Sys2Proof.Machine

/-! ## Stage queues -/

/-- Depth of a queue (R58). -/
def Block.queueDepth (b : Block) (q : Nat) : Nat := bits (b.queueWord q 0) 25 20 + 1

/-- push (R209). -/
def Block.push (b : Block) (q wave : Nat) (h : Word) : Block :=
  let w1 := b.queueWord q 1
  let tail := bits w1 13 8
  let al := 0x200 + 32 * q + wave
  let b := b.store al [BitVec.ofNat 8 (b.allowance q wave - 1)]
  let b := b.putWord (b.visible (bits (b.queueWord q 0) 19 0 + 4 * tail)) h.toNat
  let b := b.store (0x400 + 64 * q + tail) [BitVec.ofNat 8 (wave % 32)]
  let b := b.putWord (0x104 + 16 * q) (setBits (setBits w1 13 8 ((tail + 1) % b.queueDepth q)) 22 16 (bits w1 22 16 + 1))
  b.putWord (0x10C + 16 * q) ((b.queueWord q 3 + 1) % 2 ^ 32)

/-- pop (R209): the handle and the block after it. -/
def Block.pop (b : Block) (q : Nat) : Word × Block :=
  let w1 := b.queueWord q 1
  let head := bits w1 5 0
  let h := b.seen (bits (b.queueWord q 0) 19 0 + 4 * head)
  let pusher := leNat (b.bytes (0x400 + 64 * q + head) 1) % 32
  let al := 0x200 + 32 * q + pusher
  let b := b.store al [BitVec.ofNat 8 (b.allowance q pusher + 1)]
  (BitVec.ofNat 32 h, b.putWord (0x104 + 16 * q) (setBits (setBits w1 5 0 ((head + 1) % b.queueDepth q)) 22 16 (bits w1 22 16 - 1)))

/-- The waves of a block. -/
def State.wavesOf (s : State) (crew rank : Nat) : List Wave :=
  s.waves.filter fun w => w.ref.crew == crew && w.ref.rank == rank

/-- Gangs that wait in QPOP on a queue of a block: their stamps. One that is suspended while its wave's handler runs performs
nothing (R354), so later pops go ahead of it meanwhile (log entry 68). -/
def State.popStamps (s : State) (crew rank q : Nat) : List Nat :=
  (s.wavesOf crew rank).flatMap fun w => w.gangs.filterMap fun g =>
    match g.wait with
    | .qpop k _ st => if k = q then some st else none
    | _ => none

/-- The queue number of a QUEUE instruction (R208). -/
def queueNo (o : Opnd) : Nat := o.ext.imm.toNat % 16

/-- The frame of the QUEUE instructions: the checks of rank 7, then the operation on the issuing block. A push
is a release, which waits for the wave's held accesses; nothing passes a held acquire (R98, R344). -/
def queueOp (i : Instr) (o : Opnd) (pushes waits : Bool) (s : State) (k : Issue → Block → State) :
    Host.Outcome State Fault Refusal :=
  issue i (fun _ => { notInHandler := waits }) s fun c =>
    match s.block? c.crew.id c.wave.ref.rank with
    | none => s
    | some b =>
      let q := queueNo o
      if bits (b.queueWord q 0) 31 31 = 0 then s.takeTrap c.wave (c.trap 0x12 1 (BitVec.ofNat 64 q) c.activeGroup)
      else if pushes && !(BitVec.ofNat 32 (b.queueWord q 2)).getLsbD c.wave.ref.wave then
        s.takeTrap c.wave (c.trap 0x12 2 (BitVec.ofNat 64 q) c.activeGroup)
      else if !c.wave.sup && s.mustWait c.wave.ref pushes pushes then s.putWave (c.wave.park c.gang .held)
      else k c b

/-- QPUSH waits while its allowance is 0 (R208). -/
def execQpush (o : Opnd) (s : State) : Host.Outcome State Fault Refusal :=
  queueOp (.qpush o) o true true s fun c b =>
    let q := queueNo o
    if b.allowance q c.wave.ref.wave = 0 then s.putWave (c.wave.park c.gang (.qpush q o.a.toNat))
    else (s.putBlock (b.push q c.wave.ref.wave (c.wave.readG o.a.toNat))).retire c (.qpush o) c.wave

/-- QPOP waits while the queue is empty, behind the pops that wait already (R209). -/
def execQpop (o : Opnd) (s : State) : Host.Outcome State Fault Refusal :=
  queueOp (.qpop o) o false true s fun c b =>
    let q := queueNo o
    if b.queueCount q ≤ (s.popStamps c.crew.id c.wave.ref.rank q).length then
      let (st, s) := s.takeStamp
      s.putWave (c.wave.park c.gang (.qpop q o.d.toNat st))
    else
      let (h, b) := b.pop q
      (s.putBlock b).retire c (.qpop o) (c.wave.writeG c.gang.slices o.d.toNat h)

/-- QOFFER: 1 if pushed, else 0 (R208). -/
def execQoffer (o : Opnd) (s : State) : Host.Outcome State Fault Refusal :=
  queueOp (.qoffer o) o true false s fun c b =>
    let q := queueNo o
    if b.allowance q c.wave.ref.wave = 0 then s.retire c (.qoffer o) (c.wave.writeG c.gang.slices o.d.toNat 0)
    else
      (s.putBlock (b.push q c.wave.ref.wave (c.wave.readG o.a.toNat))).retire c (.qoffer o)
        (c.wave.writeG c.gang.slices o.d.toNat 1)

/-- QPOLL: the handle and 1 if popped, else 0 in the second register (R208). -/
def execQpoll (o : Opnd) (s : State) : Host.Outcome State Fault Refusal :=
  queueOp (.qpoll o) o false false s fun c b =>
    let q := queueNo o
    let d := o.d.toNat
    if b.queueCount q ≤ (s.popStamps c.crew.id c.wave.ref.rank q).length then
      s.retire c (.qpoll o) (c.wave.writeG c.gang.slices (d + 1) 0)
    else
      let (h, b) := b.pop q
      (s.putBlock b).retire c (.qpoll o) ((c.wave.writeG c.gang.slices d h).writeG c.gang.slices (d + 1) 1)

/-- A waiting QPUSH or QPOP is performed; it takes its issue position now (R208, R209). -/
def execQueueWaitPerformed (w : WaveRef) (gang : Nat) (s : State) : Host.Outcome State Fault Refusal :=
  if s.roundHolds w then .next s else
  match s.wave? w, s.block? w.crew w.rank with
  | some x, some b =>
    match x.gang? gang with
    | none => .next s
    | some g =>
      match g.wait with
      | .qpush q a =>
        if b.allowance q w.wave = 0 || !x.isFull .g a || s.mustWait w true true then .next s
        else .next ((s.putBlock (b.push q w.wave (x.readG a))).putWave (x.advance g (g.pc + 8)))
      | .qpop q d st =>
        if b.queueCount q = 0 || !x.isFull .g d || s.mustWait w false false || (s.popStamps w.crew w.rank q).any fun t => t < st then .next s
        else
          let (h, b) := b.pop q
          .next ((s.putBlock b).putWave ((x.writeG g.slices d h).advance g (g.pc + 8)))
      | _ => .next s
  | _, _ => .next s

/-! ## Barriers -/

/-- GEN of a barrier word. -/
def barGen (w : Nat) : Bool := bits w 31 31 = 1

/-- Gangs of a wave that wait for a generation that is over go on (R204); one that is stopped for pre-emption goes on when
it is resumed. -/
def Wave.leaveBarrier (w : Wave) (gen : Bool) : Wave :=
  { w with gangs := w.gangs.map fun g =>
      match g.wait with
      | .barrier h halted => if h != gen then { g with pc := g.pc + 8, wait := if halted then .stopped none else .ready } else g
      | _ => g }

/-- The wave's gangs that wait at its block's barrier go on if their generation is over; run when a barrier completes
and when a wave leaves its handler (R354). -/
def State.leaveBarriers (s : State) (crew rank : Nat) : State :=
  match s.block? crew rank with
  | none => s
  | some b =>
    let gen := barGen (b.word 0x800)
    { s with waves := updWhere (fun w => w.ref.crew == crew && w.ref.rank == rank) (fun w => w.leaveBarrier gen) s.waves }

/-- complete_block (R204). -/
def State.completeBlock (s : State) (b : Block) : State :=
  let w0 := b.word 0x800
  let b' := (b.putWord 0x800 (if barGen w0 then 0 else 2 ^ 31)).putWord 0x804 0
  (s.putBlock { b' with barCrew := none }).leaveBarriers b.crew b.rank

/-- A block has a wave that has not exited. -/
def State.blockLive (s : State) (crew rank : Nat) : Bool := (s.wavesOf crew rank).any fun w => !w.hasExited

/-- check_crew (R204); a generation is in progress while the crew COUNT is not 0. -/
def State.checkCrew (s : State) (c : Crew) : State :=
  match s.block? c.id 0 with
  | none => s
  | some r0 =>
    let w := r0.word 0x808
    let arrived := BitVec.ofNat 32 (r0.word 0x80C)
    let live := (List.range c.size).filter fun r => s.blockLive c.id r
    if bits w 3 0 = 0 || live.any fun r => !arrived.getLsbD r then s
    else
      let s := s.putBlock ((r0.putWord 0x808 (if barGen w then 0 else 2 ^ 31)).putWord 0x80C 0)
      let s := (List.range c.size).foldl (fun s r => s.dropL1 (c.coreOf r)) s
      live.foldl (fun s r => match s.block? c.id r with | some b => s.completeBlock b | none => s) s

/-- check_block (R204); a generation is in progress while COUNT is not 0. A block arrives once at the crew. -/
def State.checkBlock (s : State) (c : Crew) (rank : Nat) : State :=
  match s.block? c.id rank with
  | none => s
  | some b =>
    let arrived := BitVec.ofNat 32 (b.word 0x804)
    let waits := (s.wavesOf c.id rank).any fun w => !w.hasExited && !arrived.getLsbD w.ref.wave
    if bits (b.word 0x800) 5 0 = 0 || waits then s
    else if b.barCrew != some true then s.completeBlock b
    else match s.block? c.id 0 with
    | none => s
    | some r0 =>
      let arr := r0.word 0x80C
      let s :=
        if (BitVec.ofNat 32 arr).getLsbD rank then s
        else s.putBlock ((r0.putWord 0x80C (arr + 2 ^ rank)).putWord 0x808 (r0.word 0x808 + 1))
      s.checkCrew c

/-- A wave's arrival (R204, R205). -/
def Block.arrive (b : Block) (wave : Nat) (crew : Bool) : Block :=
  let w0 := b.word 0x800
  let arr := b.word 0x804
  let b := { b with barCrew := if bits w0 5 0 = 0 then some crew else b.barCrew }
  if (BitVec.ofNat 32 arr).getLsbD wave then b else (b.putWord 0x804 (arr + 2 ^ wave)).putWord 0x800 (w0 + 1)

/-- The waves of a tile block's G-buffer step are alone at their barriers (R283). -/
def Crew.isGbuffer (c : Crew) : Bool :=
  match c.kind with
  | .tile t => t.step == .gbuffer
  | _ => false

/-- The frame of BAR (R204). An arrival is a release: it waits for the wave's held accesses (R98, R344). -/
def barrier (i : Instr) (crew waits : Bool) (s : State) : Host.Outcome State Fault Refusal :=
  issue i (fun _ => { notInHandler := true }) s fun c =>
    let w := c.wave
    if c.crew.isGbuffer then
      if s.mustWait w.ref true true then s.putWave (w.park c.gang .held) else s.retire c i w
    else match s.block? c.crew.id w.ref.rank with
    | none => s
    | some b =>
      let w0 := b.word 0x800
      if bits w0 5 0 != 0 && b.barCrew == some (!crew) then s.takeTrap w (c.trap 0x12 4 0 c.activeGroup)
      else if s.mustWait w.ref true true then s.putWave (w.park c.gang .held)
      else
        let s := s.putBlock (b.arrive w.ref.wave crew)
        let s := if waits then s.putWave { (w.park c.gang (.barrier (barGen w0) false)) with
                   issued := w.issued + 1, roundIssued := w.roundIssued + 1 }
                 else s.retire c i w
        s.checkBlock c.crew w.ref.rank

/-- BAR.sync (R204). -/
def execBarSync (o : Opnd) (s : State) : Host.Outcome State Fault Refusal := barrier (.barSync o) false true s

/-- BAR.arrive (R204). -/
def execBarArrive (o : Opnd) (s : State) : Host.Outcome State Fault Refusal := barrier (.barArrive o) false false s

/-- BAR.crew (R204). -/
def execBarCrew (o : Opnd) (s : State) : Host.Outcome State Fault Refusal := barrier (.barCrew o) true true s

end Sys2Proof.Machine

end
end

