-- ==== Sys2Proof/Machine/Crews.lean ====
section
/-! DEFINITION. What a core has room for (R14, R21, R52, R245), and the end of a crew (R20, R198). -/

namespace Sys2Proof.Machine

/-! ## Room on a core -/

/-- What is taken on a core: wave slots, wave-registers, tile bytes and accumulator banks. -/
structure Room where
  slots : Nat
  regs : Nat
  tile : Nat
  banks : Nat
  deriving DecidableEq, Repr

/-- Number of set bits. -/
def count32 (x : BitVec 32) : Nat := ((List.range 32).filter fun k => x.getLsbD k).length

/-- Banks that a block keeps from others: its set-aside, and the held banks bound from the core (R245, R246). -/
def Block.banks (b : Block) : Nat := b.setAside + count32 (b.held &&& ~~~b.fromAside)

/-- A wave holds its slot and its registers: until every producer of an exited wave has landed (R198), and until it
reaches a PHASE (R37). -/
def Wave.holdsSlot (w : Wave) : Bool := w.reached.isNone && !(w.hasExited && w.landings.isEmpty)

/-- The blocks that a crew has on its rank r. Each G-buffer wave of a tile block is a block of its own over the tile
block's allocation (R283): what it has for itself stands in a block of rank 8 and up. -/
def State.blocksOf (s : State) (crew r : Nat) : List Block :=
  s.blocks.filter fun b => b.crew == crew && (b.rank == r || (r == 0 && 8 ≤ b.rank))

/-- What resident crews take on a core. A combiner wave runs in the core's combiner slot (R228). -/
def State.used (s : State) (core : Nat) : Room :=
  s.crews.foldl (fun u c =>
    let combiner := match c.kind with | .combiner _ => true | _ => false
    if !c.resident || combiner then u
    else (List.range c.size).foldl (fun u r =>
      if c.coreOf r != core then u
      else
        let ws := (s.wavesOf c.id r).filter Wave.holdsSlot
        let u := { u with slots := u.slots + ws.length, regs := u.regs + (ws.map fun (w : Wave) => w.regs + 1).sum }
        let bs := s.blocksOf c.id r
        ({ u with tile := u.tile + (bs.map fun (b : Block) => b.tileSize).sum, banks := u.banks + (bs.map Block.banks).sum } : Room)) u) { slots := 0, regs := 0, tile := 0, banks := 0 }

/-- The ranges of a core's tile memory that blocks hold: first byte and size (R52). -/
def State.tileRanges (s : State) (core : Nat) : List (Nat × Nat) :=
  s.crews.flatMap fun c =>
    if c.resident && !c.isCombiner then
      (List.range c.size).filterMap fun r =>
        if c.coreOf r = core then (s.block? c.id r).map fun b => (b.base, b.tileSize) else none
    else []

/-- The lowest place of a core's tile memory with n bytes free in one piece (R52). -/
def State.tileGap (s : State) (core n : Nat) : Option Nat :=
  let rs := s.tileRanges core
  let free (a : Nat) : Bool := decide (a + n ≤ 768 * 1024) && rs.all fun x => a + n ≤ x.1 || x.1 + x.2 ≤ a
  ((0 :: rs.map fun x => x.1 + x.2).filter free).foldl (fun (m : Option Nat) a =>
    match m with
    | some b => some (min a b)
    | none => some a) none

/-- A core has room for more (R14, R52, R293). -/
def State.hasRoom (s : State) (core : Nat) (n : Room) : Bool :=
  let u := s.used core
  u.slots + n.slots ≤ 32 && u.regs + n.regs ≤ 1024 && u.tile + n.tile ≤ 768 * 1024 &&
    (n.tile = 0 || (s.tileGap core n.tile).isSome) && u.banks + n.banks ≤ 32

/-- A block takes its range of a core's tile memory. A unit that was poisoned there stays so until it is written (R396):
placement writes the control area of a new block, so that no hardware read of it meets poison (R53, R398), and resumption
the whole allocation. -/
def State.seat (s : State) (core : Nat) (b : Block) (new : Bool) : Block × State :=
  let base := (s.tileGap core b.tileSize).getD 0
  let here (x : Nat × Nat) : Bool := x.1 == core && base ≤ x.2 && x.2 < base + b.tileSize
  let found := ((s.tilePoison.filter here).map fun x => x.2 - base).filter fun u => 0x1000 ≤ u
  ({ b with base := base, tilePoison := if new then found else b.tilePoison },
   { s with tilePoison := s.tilePoison.filter fun x => !here x })

/-! ## The end of a crew -/

/-- The wave has exited, and everything it issued is done (R198, R290). -/
def State.waveQuiet (s : State) (w : Wave) : Bool :=
  w.hasExited && w.landings.isEmpty && w.buffer.isEmpty && (s.heldOf w.ref).isEmpty

/-- Every wave of the crew has exited and nothing of the crew is under way. -/
def State.crewQuiet (s : State) (c : Crew) : Bool :=
  (s.waves.all fun w => w.ref.crew != c.id || s.waveQuiet w) &&
    (s.blocks.all fun b => b.crew != c.id || b.commands.isEmpty)

/-- The crew may end now: a tile block ends only after its tile has retired (R281). -/
def State.mayEnd (s : State) (c : Crew) : Bool :=
  (match c.kind with
   | .tile t => t.retired && t.step == .resolve
   | .combiner _ => false
   | _ => c.resident) && s.crewQuiet c

/-- The slots of a pool that hold records at these addresses. -/
def Graph.slotAt (g : Graph) (a : Nat) : Nat := (a - g.pool) / max g.slotSize 1

/-- Slots return to the pool (R297, R381). -/
def Graph.release (g : Graph) (addrs : List Nat) : Graph :=
  let out := addrs.map g.slotAt
  { g with used := g.used.filter fun u => !out.contains u.1 }

/-- A crew ends: its resources are freed together (R20), its work counts it, and a batch releases its records (R297). Its
partition becomes IDLE if it was the last that was resident (R307). -/
def State.endCrew (s : State) (c : Crew) : State :=
  let s := (s.dropCrews fun x => x.id == c.id).idleRunning c.part
  match c.kind with
  | .batch _ rs =>
    match s.graph? c.work with
    | some g => s.putGraph (g.release rs)
    | none => s
  | .tile _ => s
  | .combiner _ => s
  | _ =>
    match s.work? c.work with
    | some w => s.putWork { w with crewsEnded := w.crewsEnded + 1 }
    | none => s

/-- Every crew that may end ends. -/
def State.settle (s : State) : State := s.crews.foldl (fun s c => if s.mayEnd c then s.endCrew c else s) s

/-! ## Geometry lanes -/

/-- The global lane index of a lane of a wave (R43). -/
def Wave.globalLane (w : Wave) (l : Nat) : Nat := 96 * (w.blockId.toNat * w.waves + w.ref.wave) + l

/-- Lanes of a geometry wave that end without a BIN submit nothing (R270, R272). -/
def State.laneGone (s : State) (c : Crew) (w : Wave) (lanes : LaneMask) : State :=
  match c.kind, s.passOf c with
  | .geometry, some r =>
    let ls := ((lanes &&& ~~~w.binned).lanes.map w.globalLane).filter fun n => n < r.glanes
    s.putPass { r with gone := r.gone ++ ls }
  | _, _ => s

/-! ## Tiles -/

/-- A tile retires (R263, R279): the pass no longer owns it. -/
def State.retireTile (s : State) (c : Crew) : State :=
  match c.kind, s.passOf c with
  | .tile t, some r =>
    let ts := r.tiles.zipIdx.map fun (x, k) => if k = t.tile then { x with owned := false, retired := true } else x
    (s.putPass { r with tiles := ts }).putCrew { c with kind := .tile { t with retired := true } }
  | _, _ => s

end Sys2Proof.Machine
end

