-- ==== Sys2Proof/Machine/Phases.lean ====
section
/-! DEFINITION. EXIT, phases and safe points (R36 to R40, R60, R198, R206, R207). -/

noncomputable section

namespace Sys2Proof.Machine

/-! ## Phase records (R60) -/

/-- The table entry of phase index n (R153). -/
def Image.phase (k : Image) (n : Nat) : PhaseEntry :=
  k.phases.getD (n - 1) { entry := 0, carryP := 0, carryV := 0, carryG := 0 }

/-- The carried registers of an entry, ascending. -/
def PhaseEntry.vs (e : PhaseEntry) : List Nat := (List.range 64).filter fun n => e.carryV.getLsbD n
def PhaseEntry.gs (e : PhaseEntry) : List Nat := (List.range 61).filter fun n => e.carryG.getLsbD n
def PhaseEntry.ps (e : PhaseEntry) : List Nat := (List.range 7).filter fun n => e.carryP.getLsbD n

/-- Where a wave's phase record lies. -/
def Block.phaseRecord (b : Block) (wave : Nat) : Nat := bits (b.word 0x900) 19 0 + wave * bits (b.word 0x904) 19 0

/-- The bytes of a lane register, lane l at 4l. -/
def lanesBytes (x : Lanes) : List Byte := (List.range 96).flatMap fun l => leBytes 4 (x.at_ l).toNat

/-- The wave's number within its block: a G-buffer wave is the one wave of a block of its own (R283). -/
def Crew.waveNo (c : Crew) (w : Wave) : Nat := if c.isGbuffer then 0 else w.ref.wave

/-- Write a wave's phase record. -/
def Block.writePhase (b : Block) (w : Wave) (wave n : Nat) (e : PhaseEntry) : Block :=
  let at_ := b.phaseRecord wave
  let b := b.store at_ (leBytes 16 n)
  let b := e.vs.zipIdx.foldl (fun b (r, k) => if r < w.regs then b.store (at_ + 16 + 384 * k) (lanesBytes (w.readV r)) else b) b
  let g0 := at_ + 16 + 384 * e.vs.length
  let b := e.gs.zipIdx.foldl (fun b (r, k) => b.store (g0 + 4 * k) (leBytes 4 (w.readG r).toNat)) b
  let p0 := g0 + 4 * e.gs.length
  e.ps.zipIdx.foldl (fun b (r, k) => b.store (p0 + 12 * k) (leBytes 12 (w.readP r).toNat)) b

/-- The carry set returns from the record, with init bits set and the registers full (R38). -/
def Wave.restoreCarry (w : Wave) (b : Block) (wave : Nat) (e : PhaseEntry) : Wave :=
  let at_ := b.phaseRecord wave
  let w := e.vs.zipIdx.foldl (fun w (r, k) =>
    if r < w.regs then w.writeV r (BitVec.allOnes 96) fun l => BitVec.ofNat 32 (b.word (at_ + 16 + 384 * k + 4 * l)) else w) w
  let g0 := at_ + 16 + 384 * e.vs.length
  let w := e.gs.zipIdx.foldl (fun w (r, k) => w.writeG allSlices r (BitVec.ofNat 32 (b.word (g0 + 4 * k)))) w
  let p0 := g0 + 4 * e.gs.length
  e.ps.zipIdx.foldl (fun w (r, k) => w.writeP r (BitVec.allOnes 96) (BitVec.ofNat 96 (leNat (b.bytes (p0 + 12 * k) 12)))) w

/-! ## Reaching a PHASE (R37, R206) -/

/-- The index of the PHASE that a gang waits at. -/
def Gang.atPhase (g : Gang) : Option Nat :=
  match g.wait with
  | .phase n => some n
  | _ => none

/-- The registers of a carry set are full: the device reads them (R143). -/
def Wave.carryFull (w : Wave) (e : PhaseEntry) : Bool :=
  (e.vs.all fun n => w.isFull .v n) && e.gs.all fun n => w.isFull .g n

/-- The gang that holds the lowest slice. -/
def Wave.lowestGang (w : Wave) : Option Gang :=
  w.gangs.find? fun g => w.gangs.all fun h => (SliceMask.slices g.slices).headD 24 ≤ (SliceMask.slices h.slices).headD 24

/-- A wave all of whose live slices wait at a PHASE reaches it, or fails where they name different indices; run when an
arrival, an EXIT, a landing or an RTE may complete it (R206). -/
def State.phaseCheck (s : State) (r : WaveRef) : State :=
  match s.wave? r with
  | none => s
  | some w =>
    match s.crew? r.crew, s.block? r.crew r.rank, w.lowestGang with
    | some c, some b, some g =>
      if w.sup || w.reached.isSome || (w.gangs.any fun g => g.atPhase.isNone) then s
      else
        let n := g.atPhase.getD 0
        if w.gangs.any fun x => x.atPhase != some n then
          let w := w.park g .ready
          s.takeTrap w { cause := 0x12, sub := 5, pc := g.pc, addr := BitVec.ofNat 64 n, slices := g.slices,
                         lanes := g.slices.lanes &&& w.act }
        else
          let e := c.image.phase n
          if !w.carryFull e then s
          else
            let s := s.putBlock (b.writePhase w (c.waveNo w) n e)
            s.putWave { w with reached := some n, gangs := [] }
    | _, _, _ => s

/-- PHASE (R206): a release at block scope, which waits for the wave's held accesses (R98, R344). -/
def execPhase (o : Opnd) (s : State) : Host.Outcome State Fault Refusal :=
  let n := o.ext.imm.toNat
  issue (.phase o) (fun c => { notInHandler := true, noEntry := n = 0 || c.crew.image.kernel.phaseN < n }) s fun c =>
    let w := c.wave
    let others := w.gangs.filter fun g => g.slices != c.gang.slices
    if (others.all fun g => g.atPhase.isSome) && others.any fun g => g.atPhase != some n then
      s.takeTrap w (c.trap 0x12 5 (BitVec.ofNat 64 n) c.activeGroup)
    else if s.mustWait w.ref true true then s.putWave (w.park c.gang .held)
    else
      let w := w.park c.gang (.phase n)
      (s.putWave { w with issued := w.issued + 1, roundIssued := w.roundIssued + 1 }).phaseCheck w.ref

/-- SAFE stops the cohort after it when a pre-emption request is pending, outside the handler (R207, R356). -/
def execSafe (o : Opnd) (s : State) : Host.Outcome State Fault Refusal :=
  let n := o.ext.imm.toNat
  issue (.safe o) (fun c => { noEntry := c.crew.image.kernel.safeN ≤ n }) s fun c =>
    let w := c.wave.advance c.gang (c.nextPc (.safe o))
    if c.wave.sup || c.crew.preempt.isNone then s.putWave w
    else s.putWave (w.park c.gang (.stopped (some n)))

/-! ## Stopping for pre-emption (R40, R203, R367) -/

/-- The waits that end at the request (R40). -/
def Wait.stopsAtOnce : Wait → Bool
  | .registers => true
  | .regang => true
  | .barrier _ _ => true
  | .qpush _ _ => true
  | .qpop _ _ _ => true
  | .cond _ => true
  | .record => true
  | .acqacc _ _ => true
  | _ => false

/-- The gangs of a wave that p picks stop, those of its entry frame too: a WAIT loses its destination and keeps its
deadline, and a REGANG will issue again (R367). -/
def Wave.halt (w : Wave) (p : Wait → Bool) : Wave :=
  let hit := (w.gangs ++ (w.frame.map fun f => f.gangs).getD []).filter fun g => p g.wait
  let waits := hit.filterMap fun g => match g.wait with | .cond x => some x | _ => none
  let f (g : Gang) : Gang := if p g.wait then g.halt else g
  { w with
    gFull := waits.foldl (fun m x => m ||| regBit x.dst) w.gFull
    bands := if hit.any fun g => g.wait == .regang then [] else w.bands
    gangs := w.gangs.map f
    frame := w.frame.map fun x => { x with gangs := x.gangs.map f } }

/-- Every live slice of the wave has stopped, or it has exited or reached a PHASE. -/
def Wave.isHalted (w : Wave) : Bool := w.hasExited || w.reached.isSome || w.gangs.all Gang.isHalted

/-! ## EXIT -/

/-- Slots that a wave received and did not send are freed when it exits (R381). -/
def State.freeSlots (s : State) (c : Crew) (w : Wave) : State :=
  match s.graph? c.work with
  | none => s
  | some g => s.putGraph (g.release ((w.slots.filter fun x => !x.sent).map fun x => x.addr))

/-- The EXIT of this gang ends the last wave of a resolve step whose tile has not retired (R281). -/
def State.lastOfResolve (s : State) (c : Issue) : Bool :=
  match c.crew.kind with
  | .tile t => t.step == .resolve && !t.retired && (c.wave.live &&& ~~~c.gang.slices) = 0 &&
      (s.waves.all fun w => w.ref.crew != c.crew.id || w.ref == c.wave.ref || w.hasExited)
  | _ => false

/-- The tile block of a crew has engine commands in flight, or a wave of it accesses that are held: TDONE waits for them
(R263, R344). -/
def State.crewBusy (s : State) (c : Crew) : Bool :=
  (s.blocks.any fun b => b.crew == c.id && !b.commands.isEmpty) || s.held.any fun h => h.wave.crew == c.id && h.kind.isOfWave

/-- EXIT (R198). -/
def execExit (o : Opnd) (s : State) : Host.Outcome State Fault Refusal :=
  issue (.exit o) (fun _ => { notInHandler := true }) s fun c =>
    let last := s.lastOfResolve c
    if last && s.crewBusy c.crew then
      s.putWave (c.wave.park c.gang .tdone)
    else
      let s := if last then s.retireTile c.crew else s
      let w := { c.wave with
        act := c.wave.act &&& ~~~c.cohort
        exited := c.wave.exited ||| c.gang.slices
        gangs := c.wave.gangs.filter fun g => g.slices != c.gang.slices
        issued := c.wave.issued + 1, roundIssued := c.wave.roundIssued + 1 }.noteBands
      let s := (s.putWave w).laneGone c.crew w c.cohort
      if w.hasExited then
        let s := s.freeSlots c.crew w
        let s := s.putWave { w with slots := w.slots.filter fun x => x.sent }
        let s :=
          if c.crew.isGbuffer then s
          else
            let s := s.checkBlock c.crew w.ref.rank
            if s.blockLive c.crew.id w.ref.rank then s else s.checkCrew c.crew
        s.settle
      else s.phaseCheck w.ref

/-! ## The start of a phase (R38) -/

/-- A wave at the start of the phase it named: launch contents, its carry set, one gang at the phase's entry. A slice
that has exited stays exited (R23). -/
def Wave.atPhaseStart (w : Wave) (c : Crew) (ctx : Context) (b : Block) (n : Nat) : Wave :=
  let e := c.image.phase n
  let id := w.blockId.toNat * w.waves + w.ref.wave
  let x := launchWave w.ref w.regs w.role w.blockId.toNat w.waves c.karg ctx (segsOf ctx b.tileSize id)
    (w.mask &&& w.live.lanes) (c.image.codeBase + BitVec.ofNat 64 e.entry)
  let x := { x with mask := w.mask, traps := w.traps, unsettled := w.unsettled, issued := w.issued, slots := w.slots, binned := w.binned, buffer := w.buffer
                    roundStores := w.roundStores, roundIssued := w.roundIssued }
  x.restoreCarry b (c.waveNo w) e

end Sys2Proof.Machine

end
end

