-- ==== Sys2Proof/Machine/System.lean ====
section
/-! DEFINITION. The SYS group (R148, R211 to R213, R361, R364), the return from a handler (R337, R355), and the
delivery of asynchronous traps and translation misses (R336, R350, R354). -/

noncomputable section

namespace Sys2Proof.Machine

/-! ## System registers -/

/-- Registers marked S (R148). -/
def supervisorOnly (n : Nat) : Bool := n = 0x01C || n = 0x020 || (0x022 ≤ n && n ≤ 0x028)

/-- Registers marked R/Ws. -/
def supervisorWritten (n : Nat) : Bool := 0x018 ≤ n && n ≤ 0x01B

/-- The registers whose reads the Woad log records (R109). -/
def isTimer (n : Nat) : Bool := (0x008 ≤ n && n ≤ 0x00B) || (0x040 ≤ n && n ≤ 0x047)

/-- GSYS (R211). -/
def execGsys (o : Opnd) (s : State) : Host.Outcome State Fault Refusal :=
  let n := o.ext.imm.toNat % 4096
  issue (.gsys o) (fun c => { denied := supervisorOnly n && !c.wave.sup }) s fun c =>
    let (x, w, s) := s.sysRead c.wave c.crew n
    let part := s.part c.crew.part
    if part.woad && isTimer n && n % 2 = 0 then
      let whole := x.toNat + 2 ^ 32 * ((latchOf n).map fun k => (w.latches.getD k 0).toNat).getD 0
      let (v, s) := s.woadRead c.crew.part 4 (waveKey c.wave c.crew ++ [c.wave.roundIssued]) [whole]
      let v := BitVec.ofNat 64 (v.headD 0)
      let w := match latchOf n with
        | some k => { w with latches := setAt w.latches k (hi32 v) }
        | none => w
      s.retire c (.gsys o) (w.writeG c.gang.slices o.d.toNat (lo32 v))
    else s.retire c (.gsys o) (w.writeG c.gang.slices o.d.toNat x)

/-- One half of a 64-bit register replaced. -/
def setHalf (n : Nat) (x : BitVec 64) (v : Word) : BitVec 64 := if n % 2 = 0 then hi32 x ++ v else v ++ lo32 x

/-- The wave after an SSYS that its mode permits (R113, R148, R333, R353). -/
def Wave.sysWrite (w : Wave) (n : Nat) (v : Word) : Wave :=
  match n with
  | 0x010 => { w with fp := v &&& 0x3F8F }
  | 0x018 => { w with handlerBase := setHalf n w.handlerBase v }
  | 0x019 => { w with handlerBase := setHalf n w.handlerBase v }
  | 0x01A => { w with poolBase := setHalf n w.poolBase v }
  | 0x01B => { w with poolBase := setHalf n w.poolBase v }
  | 0x01C => { w with dbgCtl := v &&& 3 }
  | 0x020 => { w with trapCause := (w.trapCause &&& 0x3FFFFFFF) ||| (v &&& 0xC0000000) }
  | 0x022 => { w with trapPc := setHalf n w.trapPc v }
  | 0x023 => { w with trapPc := setHalf n w.trapPc v }
  | 0x024 => { w with trapAddr := setHalf n w.trapAddr v }
  | 0x025 => { w with trapAddr := setHalf n w.trapAddr v }
  | 0x026 => { w with trapLanes := w.trapLanes.extractLsb' 32 64 ++ v }
  | 0x027 => { w with trapLanes := w.trapLanes.extractLsb' 64 32 ++ v ++ w.trapLanes.extractLsb' 0 32 }
  | 0x028 => { w with trapLanes := v ++ w.trapLanes.extractLsb' 0 64 }
  | _ => w

/-- SSYS (R211). -/
def execSsys (o : Opnd) (s : State) : Host.Outcome State Fault Refusal :=
  let n := o.ext.imm.toNat % 4096
  let ok (sup : Bool) : Bool := n = 0x010 || (sup && (supervisorOnly n || supervisorWritten n))
  issue (.ssys o) (fun c => { denied := !ok c.wave.sup }) s fun c =>
    s.retire c (.ssys o) (c.wave.sysWrite n (c.wave.readG o.a.toNat))

/-! ## Traps by instruction -/

/-- The wave after an instruction that counts as performed though it traps (R364). -/
def Wave.performed (w : Wave) : Wave := { w with issued := w.issued + 1, roundIssued := w.roundIssued + 1 }

/-- TRAP raises SOFTWARE; TRAP_PC is the address after it (R364). -/
def execTrap (o : Opnd) (s : State) : Host.Outcome State Fault Refusal :=
  issue (.trap o) plain s fun c =>
    s.takeTrap c.wave.performed { c.trap 0x10 0 (o.ext.imm.setWidth 64) c.activeGroup with pc := c.nextPc (.trap o) }

/-- BKPT raises BREAKPOINT; TRAP_PC is its own address (R364). -/
def execBkpt (o : Opnd) (s : State) : Host.Outcome State Fault Refusal :=
  issue (.bkpt o) plain s fun c => s.takeTrap c.wave.performed (c.trap 0x0F 0 (o.ext.imm.setWidth 64) c.activeGroup)

/-- NOP (R211). -/
def execNop (o : Opnd) (s : State) : Host.Outcome State Fault Refusal :=
  issue (.nop o) plain s fun c => s.retire c (.nop o) c.wave

/-! ## RTE -/

/-- What ACT does to the entry that a TRANSLATION trap was for (R337). -/
def State.actOnEntry (s : State) (cluster index act : Nat) : State :=
  match (s.buffer cluster).entries.find? fun e => e.index == index && e.state == .handler with
  | none => s
  | some e =>
    if act = 0 then s.updEntry cluster index fun e => { e with state := .walk, install := false }
    else if act = 1 && e.sub == 1 then s.updEntry cluster index fun e => { e with state := .walk, install := true }
    else s.entryToHost cluster index

/-- A wave leaves its handler (R337, R355); barriers that completed meanwhile let its gangs go on, a PHASE may now
be reached, and with a pre-emption request pending it stops at this boundary (R366). -/
def State.returnFrom (s : State) (w : Wave) : State :=
  let s := match w.frame with
    | some { entry := some (cl, k), .. } => if w.trapCause.extractLsb' 0 8 == 0x08 then s.actOnEntry cl k (bits w.trapCause.toNat 31 30) else s
    | _ => s
  let s := s.putWave w.performed.leaveHandler
  let s := (s.leaveBarriers w.ref.crew w.ref.rank).phaseCheck w.ref
  match s.crew? w.ref.crew, s.wave? w.ref with
  | some c, some w => if c.preempt.isSome then s.putWave (w.halt fun _ => true) else s
  | _, _ => s

/-- RTE (R211, R355). -/
def execRte (o : Opnd) (s : State) : Host.Outcome State Fault Refusal :=
  issue (.rte o) (fun _ => { privileged := true }) s fun c => s.returnFrom c.wave

/-! ## TLBINV and SETSEG -/

/-- TLBINV (R212). -/
def execTlbinv (o : Opnd) (s : State) : Host.Outcome State Fault Refusal :=
  issue (.tlbinv o) (fun _ => { privileged := true }) s fun c =>
    let w := c.wave
    let mine (t : TlbEntry) : Bool := t.ctag == c.crew.ctx.ctag && t.part == c.crew.part
    let first := (w.readG2 o.a.toNat).toNat % 2 ^ 57 / 2 ^ 17
    let n := (w.readG o.b.toNat).toNat
    -- a count of 0 removes nothing
    let covers (t : TlbEntry) : Bool := o.ext.mod.getLsbD 0 || (n != 0 && t.page < first + n && first < t.page + t.pages)
    { s with tlb := s.tlb.filter fun t => !(mine t && covers t) }.retire c (.tlbinv o) w

/-- A value as a segment register keeps it (R49). -/
def segValue (n : Nat) (v : BitVec 64) : BitVec 64 :=
  match n with
  | 0x030 => v &&& 0xFFFFFFFFFF000000
  | 0x032 => (v &&& 0xFFFFF) ||| 0xFFF
  | 0x034 => v &&& 0xFFFFFFFFFF000000
  | 0x036 => (v &&& 0xFFFFFF) ||| 0xF
  | 0x038 => v &&& 0xFFFFFFFFFFFFFF80
  | 0x03A => v &&& 0xFFFFFFFFFFFE0000
  | _ => v ||| 0x1FFFF

/-- The segment registers after a SETSEG. -/
def Segs.set (g : Segs) (n : Nat) (v : BitVec 64) : Segs :=
  match n with
  | 0x034 => { g with stackBase := v }
  | 0x036 => { g with stackLimit := v }
  | 0x038 => { g with stackBack := v }
  | 0x03A => { g with globalBase := v }
  | 0x03C => { g with globalLimit := v }
  | _ => g

/-- A SETSEG value that R213 and R361 refuse. -/
def Segs.refuses (g : Segs) (n : Nat) (v : BitVec 64) : Bool :=
  match n with
  | 0x030 => v != g.tileBase
  | 0x032 => v != g.tileLimit
  | 0x034 => v == g.tileBase || !canonical v
  | 0x03A => g.globalLimit < v
  | 0x03C => v < g.globalBase
  | _ => false

/-- SETSEG (R213): a refused value traps APERTURE_LIMIT and the register keeps its value. -/
def execSetseg (o : Opnd) (s : State) : Host.Outcome State Fault Refusal :=
  let n := o.ext.imm.toNat % 4096
  issue (.setseg o) (fun _ => { privileged := true }) s fun c =>
    let raw := c.wave.readG2 o.a.toNat
    let v := segValue n raw
    if c.wave.segs.refuses n v then s.takeTrap c.wave (c.trap 0x06 0 raw c.activeGroup)
    else s.retire c (.setseg o) { c.wave with segs := c.wave.segs.set n v }

/-! ## Delivery at an instruction boundary -/

/-- The wave can take a trap now: it holds registers, is not in its handler and has not stopped for pre-emption. -/
def Wave.canTrap (w : Wave) : Bool :=
  !w.sup && !w.hasExited && w.reached.isNone && w.gangs.any fun g => match g.wait with | .stopped _ => false | _ => true

/-- The wave's crew holds cores. -/
def State.isResident (s : State) (r : WaveRef) : Bool :=
  match s.crew? r.crew with
  | some c => c.resident
  | none => false

/-- The oldest asynchronous trap is delivered (R350, R354): the handler gang is made of the slices that hold its
lanes. -/
def execAsyncTrapDelivery (w : WaveRef) (s : State) : Host.Outcome State Fault Refusal :=
  match s.wave? w with
  | none => .next s
  | some x =>
    match x.traps with
    | [] => .next s
    | t :: r =>
      if !x.canTrap || !s.isResident w || !((s.crew? w.crew).any fun c =>
          x.trapFirst (s.ownedEntry x c) && !(t.cause = 0x0E && s.poisonUnposted c.part)) then .next s
      else .next (s.takeTrap { x with traps := r } { t with async := true, slices := LaneMask.toSlices t.lanes })

/-- The lanes and first addresses of a wave's accesses on an entry: the faulters (R336). An engine unit has none. -/
def State.faulters (s : State) (r : WaveRef) (e : Entry) (cluster : Nat) : LaneMask × BitVec 64 :=
  let hs := s.held.filter fun h => h.wave == r && h.cluster == cluster && h.entry == some e.index
  let low := hs.foldl (fun (b : Option Held) h =>
    match b with
    | none => some h
    | some x => if h.lane < x.lane then some h else b) none
  let lanes := hs.foldl (fun (m : LaneMask) h =>
    match h.kind with
    | .unit _ _ => m
    | .fetch => m ||| h.data.setWidth 96
    | .descriptor _ => m ||| h.data.setWidth 96
    | _ => m ||| (1#96 <<< h.lane)) 0
  (lanes, match low with | some h => h.addr | none => pageAddr e.page)

/-- The owner of a fault-buffer entry vectors to its handler (R336). -/
def execTranslationVector (w : WaveRef) (s : State) : Host.Outcome State Fault Refusal :=
  match s.wave? w, s.crew? w.crew with
  | some x, some c =>
    match s.ownedEntry x c with
    | none => .next s
    | some e =>
      if !x.canTrap || !c.resident || x.trapFirst (some e) then .next s
      else
        let (lanes, addr) := s.faulters w e c.clusterNo
        let s := s.updEntry c.clusterNo e.index fun e => { e with state := .handler }
        .next (s.takeTrap x { cause := 0x08, sub := e.sub, kind := e.kind, async := e.async, fbi := e.index, pc := e.pc,
                              addr := addr, lanes := lanes, slices := LaneMask.toSlices lanes, cluster := c.clusterNo }
          (some (c.clusterNo, e.index)))
  | _, _ => .next s

end Sys2Proof.Machine

end
end

