-- ==== Sys2Proof/Machine/Memory.lean ====
section
/-! DEFINITION. Loads, stores, prefetch, atomics and compare-and-swap (R80 to R97, R214 to R224), and the landing of
their values (R143, R216). -/

noncomputable section

namespace Sys2Proof

/-! ## Atomic operations -/

/-- The new value of an atomic operation (R222). -/
def AtomOp.apply (op : AtomOp) (old b : BitVec 64) : BitVec 64 :=
  let x := old.extractLsb' 0 32
  let y := b.extractLsb' 0 32
  let r (v : Word) : BitVec 64 := v.setWidth 64
  match op with
  | .addS32 => r (x + y)
  | .addS64 => old + b
  | .addF32 => r (addF32Plain x y)
  | .minS32 => r (if y.slt x then y else x)
  | .maxS32 => r (if x.slt y then y else x)
  | .minN32 => r (if y < x then y else x)
  | .maxN32 => r (if x < y then y else x)
  | .and => r (x &&& y)
  | .or => r (x ||| y)
  | .xor => r (x ^^^ y)
  | .exch => r y
  | .inc => r (if y ≤ x then 0 else x + 1)

/-- The number of an operation (R222). -/
def AtomOp.code : AtomOp → Nat
  | .addS32 => 0 | .addS64 => 1 | .addF32 => 2 | .minS32 => 3 | .maxS32 => 4 | .minN32 => 5
  | .maxN32 => 6 | .and => 7 | .or => 8 | .xor => 9 | .exch => 10 | .inc => 11

def AtomOp.ofCode : Nat → AtomOp
  | 0 => .addS32 | 1 => .addS64 | 2 => .addF32 | 3 => .minS32 | 4 => .maxS32 | 5 => .minN32
  | 6 => .maxN32 | 7 => .and | 8 => .or | 9 => .xor | 10 => .exch | _ => .inc

def AtomOp.size (op : AtomOp) : Nat := if op = .addS64 then 8 else 4

/-- The bytes that an operation leaves. -/
def AtomOp.bytes (op : AtomOp) (b : BitVec 64) (old : List Byte) : List Byte :=
  leBytes op.size (op.apply (BitVec.ofNat 64 (leNat old)) b).toNat

end Sys2Proof

namespace Sys2Proof.Machine

/-! ## Orders (R81, R82, R215) -/

/-- The order of an access: the scope of a strong access, and what it does. -/
structure Order where
  strong : Option Nat
  acquire : Bool
  release : Bool
  /-- REMOTE: the acquire promotes (R94). -/
  remote : Bool := false
  deriving DecidableEq, Repr

/-- The ordering field of LD, ST, LDT and STT, in C (R215). -/
def Order.ofC (c : BitVec 6) : Order :=
  let k := c.toNat % 4
  { strong := if k = 0 then none else some (c.toNat / 4 % 4), acquire := k % 2 = 1, release := 2 ≤ k, remote := c.getLsbD 4 }

/-- The order and scope of an ATOM (R222): always a strong access. -/
def Order.ofAtom (order : BitVec 2) (mod : BitVec 3) : Order :=
  { strong := some (mod.toNat % 4), acquire := order.getLsbD 0, release := order.getLsbD 1, remote := mod.getLsbD 2 }

/-- How a held access keeps its order, beside a number below 256. -/
def Order.pack (o : Order) (n : Nat) : Nat :=
  n + 256 * (match o.strong with | some k => k + 1 | none => 0) + (if o.release then 2048 else 0) + (if o.remote then 4096 else 0)

/-- The acquire actions at a scope: none at block scope, for a load of a gate's word too (R63, R89, log entry 79). -/
def State.acquire (s : State) (c : Crew) (rank : Nat) (o : Order) : State :=
  if o.acquire && o.strong.getD 0 != 0 then s.dropL1 (c.coreOf rank) else s

/-! ## Asynchronous traps of an instruction's lanes -/

/-- One asynchronous trap for the lanes of this instruction (R392, R398), which waits for the lanes of its producer that
are still to be answered; one of the handler's own accesses fails the context (R356). -/
def State.raiseLanes (s : State) (c : Issue) (cause sub kind : Nat) (lanes : List Nat) (addr : Nat → BitVec 64)
    (id : Option Nat := none) : State :=
  match lanes, s.wave? c.wave.ref with
  | l :: _, some w =>
    let t : Trap := { cause := cause, sub := sub, kind := kind, async := true, pc := c.gang.pc, addr := addr l, lanes := laneSet lanes }
    if c.wave.sup then s.failCrew c.crew cause
    else match id with
    | none => s.raise w.ref t
    | some id => s.putWave { w with unsettled := w.unsettled ++ [(id, t)] }.settle
  | _, _ => s

/-- The crew is a combiner's. -/
def Crew.combines (c : Crew) : Option Nat :=
  match c.kind with
  | .combiner o => some o
  | _ => none

/-- The first missing piece of an instruction's lanes. -/
def firstMissing (ok : List (Nat × List Piece)) : Option (Nat × Piece × Nat) :=
  (ok.flatMap fun x => x.2.filterMap fun p =>
    match p.place with
    | .missing sub => some (x.1, p, sub)
    | _ => none).head?

/-- A combiner wave's miss discards its batch (R377); for any other wave, the access goes on. -/
def State.unlessDiscarded (s : State) (c : Issue) (ok : List (Nat × List Piece)) (k : State) : State :=
  match c.crew.combines, firstMissing ok with
  | some o, some (l, p, sub) => (s.holdPiece c (.home o) 0 0 0 none false l p sub).requeueBatch o true none
  | _, _ => k

/-! ## Formats (R146, R217, R218) -/

/-- Bytes of an element of a format. -/
def fmtBytes (fmt : Nat) : Nat :=
  match fmt with
  | 2 => 2 | 3 => 2 | 4 => 4 | 5 => 8 | 6 => 16 | 8 => 4 | 9 => 2 | 10 => 2
  | _ => 1

/-- The floating format of a code. -/
def fmtFloat (fmt : Nat) : FloatFmt :=
  match fmt with
  | 9 => f16 | 10 => bf16 | 11 => e4m3 | 12 => e5m2
  | _ => e2m1

/-- The registers a load writes from the bytes of its element; `half` is e2m1's nibble (R217, R218). -/
def ldWords (fmt half : Nat) (bs : List Byte) : List Word :=
  let n := leNat bs
  match fmt with
  | 0 => [BitVec.ofNat 32 n]
  | 1 => [(BitVec.ofNat 8 n).signExtend 32]
  | 2 => [BitVec.ofNat 32 n]
  | 3 => [(BitVec.ofNat 16 n).signExtend 32]
  | 13 => [BitVec.ofNat 32 (e2m1.widen false (e2m1.decode (n / 16 ^ half % 16))).code]
  | _ =>
    if 9 ≤ fmt then [BitVec.ofNat 32 ((fmtFloat fmt).widen false ((fmtFloat fmt).decode n)).code]
    else (List.range ((bs.length + 3) / 4)).map fun k => BitVec.ofNat 32 (n / 2 ^ (32 * k))

/-- The element that a store writes, as a number: narrowing ignores FP_CTRL (R217). -/
def stValue (fmt : Nat) (ws : List Word) : Nat :=
  if 9 ≤ fmt then ((fmtFloat fmt).narrow 0 false (11 ≤ fmt) (f32.decode (ws.getD 0 0).toNat)).code
  else leNat (ws.flatMap fun w => leBytes 4 w.toNat) % 2 ^ (8 * fmtBytes fmt)

/-- Byte and nibble of element n of an e2m1 array (R125, R218). -/
def e2m1Place (a : BitVec 64) (n : Nat) : BitVec 64 × Nat :=
  let i := n % 32
  let j := 8 * (i % 4) + i / 4
  (a + BitVec.ofNat 64 (16 * (n / 32) + j / 2), j % 2)

/-! ## Reading -/

/-- What a lane's load gives. -/
inductive LaneRead where
  | words (ws : List Word) (held : Bool)
  /-- It consumes poison; `held`: another unit of the lane is held. -/
  | poison (sub : Nat) (held : Bool)
  | refused (sub : Nat)
  deriving DecidableEq, Repr

/-- A unit of the lane is held. -/
def LaneRead.held : LaneRead → Bool
  | .words _ h => h
  | .poison _ h => h
  | .refused _ => false

/-- The SUB with which the lane consumes poison. -/
def LaneRead.poisonSub : LaneRead → Option Nat
  | .poison k _ => some k
  | _ => none

/-- A read of system memory in a Woad partition, by an instruction of an index in its wave's round, is an external input (R109,
R408 TYPE 3). -/
def State.portRead (s : State) (w : Wave) (c : Crew) (index l : Nat) (p : Piece) (bs : List Byte) : List Byte × State :=
  match p.place with
  | .mem mt _ _ _ _ _ =>
    if 9 ≤ mt && (s.part c.part).woad then
      let (ws, s) := s.woadRead c.part 3 (waveKey w c ++ [index % 1024 + 1024 * l + 2 ^ 17 * p.size]) (wordsOf bs)
      ((ws.flatMap fun w => leBytes 8 w).take p.size, s)
    else (bs, s)
  | _ => (bs, s)

/-- One lane's load: its pieces read, or held in the fault buffer for the landing, each as an event of its own (R328). A refused
lane performs nothing (R392). The held units of a lane that consumes poison are spent. -/
def State.readLane (s : State) (c : Issue) (o : Order) (fmt : Nat) (half : Nat) (landing l : Nat) (ps : List Piece) :
    LaneRead × State :=
  match ps.findSome? (s.refusal? c.wave c.crew o.strong false) with
  | some k => (.refused k, s)
  | none =>
  let (rs, s) := ps.foldl (fun (acc : List (Piece × PieceRead) × State) p =>
    let (r, s) := acc.2.readPiece c.wave c.crew o.strong p
    match r with
    | .bytes bs => let (bs, s) := s.portRead c.wave c.crew c.wave.roundIssued l p bs; (acc.1 ++ [(p, .bytes bs)], s)
    | r => (acc.1 ++ [(p, r)], s)) ([], s)
  let bytes := rs.flatMap fun x =>
    match x.2 with
    | .bytes bs => bs
    | _ => List.replicate x.1.size 0
  let missing := rs.filterMap fun x => match x.2 with | .held sub => some (x.1, sub) | _ => none
  let poison := rs.findSome? fun x => match x.2 with | .poison k => some k | _ => none
  let s := missing.foldl (fun s (p, sub) =>
    s.holdPiece c .load (o.pack (fmt + 64 * half)) 0 0 (some landing) o.acquire l p sub poison.isSome) s
  match poison with
  | some k => (.poison k (!missing.isEmpty), s)
  | none =>
    (.words (if !missing.isEmpty && rs.length = 1 then [] else ldWords fmt half bytes) (!missing.isEmpty), s)

/-- The lanes of a kind of outcome. -/
def lanesWhere {α : Type} (outs : List (Nat × α)) (p : α → Bool) : List Nat := (outs.filter fun x => p x.2).map fun x => x.1

/-- The values of n registers from the outcomes of the lanes. -/
def outcomeData (n : Nat) (outs : List (Nat × LaneRead)) : List Lanes :=
  (List.range n).map fun k => Lanes.build fun l =>
    match outs.find? fun x => x.1 == l with
    | some (_, .words ws _) => ws.getD k 0
    | _ => 0

/-- The frame of a load (R214 to R216): checks, reads, and a producer that lands in n registers from d. -/
def State.loadLanes (s : State) (c : Issue) (i : Instr) (o : Order) (f : AccessForm) (active : LaneMask) (d n fmt : Nat)
    (half : Nat → Nat) (addr : Nat → BitVec 64) : State :=
  s.lanesAccess c f false o.remote active addr fun s ok =>
    s.unlessDiscarded c ok <|
      let (id, s) := s.takeStamp
      let (outs, s) := ok.foldl (fun (acc : List (Nat × LaneRead) × State) x =>
        let (r, s) := acc.2.readLane c o fmt (half x.1) id x.1 x.2
        (acc.1 ++ [(x.1, r)], s)) ([], s)
      let held := lanesWhere outs LaneRead.held
      let w := c.wave.produce { id := id, file := false, reg := d, lanes := active, data := outcomeData n outs,
                                pending := laneSet held }
      let s := s.retire c i w
      let s := if held.isEmpty then s.acquire c.crew c.wave.ref.rank o else s
      let s := s.raiseLanes c 0x0E 1 f.kind (lanesWhere outs fun r => r.poisonSub == some 1) addr (some id)
      let s := s.raiseLanes c 0x0E 5 f.kind (lanesWhere outs fun r => r.poisonSub == some 5) addr (some id)
      let s := s.raiseLanes c 0x0A 1 f.kind (lanesWhere outs fun r => r == .refused 1) addr (some id)
      s.raiseLanes c 0x0A 2 f.kind (lanesWhere outs fun r => r == .refused 2) addr (some id)

/-- The address of a lane operand (R214). -/
def laneAddr (w : Wave) (a : Nat) (off : BitVec 16) (l : Nat) : BitVec 64 := w.readV2 a l + sext64 off

/-- LD (R217, R218): an e2m1 array that is not 16-byte aligned is MISALIGNED. -/
def execLd (fmt : BitVec 6) (o : Opnd) (s : State) : Host.Outcome State Fault Refusal :=
  issue (.ld fmt o) plain s fun c =>
    let w := c.wave
    let k := fmt.toNat
    let active := c.active o.ext
    let n := max 1 (fmtBytes k / 4)
    let f : AccessForm := { size := fmtBytes k, align := fmtBytes k, need := { r := true }, write := false, kind := 0 }
    let base := laneAddr w o.a.toNat o.ext.imm
    if k = 13 then
      let at_ (l : Nat) := e2m1Place (base l) ((w.readV o.b.toNat).at_ l).toNat
      let bad := active.lanes.filter fun l => (base l).toNat % 16 != 0
      match bad with
      | l :: _ => s.takeTrap w (c.trap 0x05 0 (at_ l).1 (laneSet bad))
      | [] =>
        s.loadLanes c (.ld fmt o) (Order.ofC o.ext.c) f active o.d.toNat 1 k (fun l => (at_ l).2) (fun l => (at_ l).1)
    else s.loadLanes c (.ld fmt o) (Order.ofC o.ext.c) f active o.d.toNat n k (fun _ => 0) base

/-- The format that moves raw bits of a size code (R220). -/
def rawFmt (size : Nat) : Nat := 4 + size

/-- The address of a uniform-base operand (R220). -/
def baseAddr (w : Wave) (o : Opnd) (l : Nat) : BitVec 64 :=
  w.readG2 o.a.toNat + ((w.readV o.b.toNat).at_ l).setWidth 64 + sext64 o.ext.imm

/-- LDT (R220). -/
def execLdt (size : BitVec 6) (o : Opnd) (s : State) : Host.Outcome State Fault Refusal :=
  issue (.ldt size o) plain s fun c =>
    let k := rawFmt size.toNat
    s.loadLanes c (.ldt size o) (Order.ofC o.ext.c)
      { size := fmtBytes k, align := fmtBytes k, need := { r := true }, write := false, kind := 0 }
      (c.active o.ext) o.d.toNat (fmtBytes k / 4) k (fun _ => 0) (baseAddr c.wave o)

/-! ## Writing -/

/-- What a lane's store or atomic gives. -/
inductive LaneWrite where
  /-- The old value of an atomic; `denied` where a CAS lacks W (R332). -/
  | done (old : Nat) (denied : Bool)
  | held
  | poison (sub : Nat)
  | refused (sub : Nat)
  deriving DecidableEq, Repr

/-- One lane's store: its pieces written, or held with their data. A refused lane performs nothing (R392). -/
def State.writeLane (s : State) (c : Issue) (o : Order) (l : Nat) (ps : List Piece) (bs : List Byte) : LaneWrite × State :=
  match ps.findSome? (s.refusal? c.wave c.crew o.strong true) with
  | some k => (.refused k, s)
  | none =>
  ps.foldl (fun (acc : LaneWrite × State) p =>
    match acc.2.writePiece c.wave c.crew o.strong p bs with
    | (.done, s) => (acc.1, s.noteRelease (c.crew.coreOf c.wave.ref.rank) o.release p)
    | (.refused k, s) => (.refused k, s)
    | (.lost, s) => (.poison 5, s)
    | (.held sub, s) =>
      (acc.1, s.holdPiece c .store (o.pack 0) (BitVec.ofNat 128 (leNat ((bs.drop p.off).take p.size))) 0 none false l p sub))
    (.done 0 false, s)

/-- The wave as the state now has it. -/
def State.nowWave (s : State) (c : Issue) : Wave := (s.wave? c.wave.ref).getD c.wave

/-- Distinct 16-byte units in a batch buffer. -/
def Wave.bufferUnits (w : Wave) : Nat := ((w.buffer.map fun b => (b.mt, b.pa / 16)).dedup).length

/-- A batch whose stores need more than 256 units is discarded: it relaunches with half its requests, or is rejected
(R379). -/
def State.checkBatchBuffer (s : State) (c : Issue) : State :=
  match c.crew.combines with
  | none => s
  | some id =>
    if (s.nowWave c).bufferUnits ≤ 256 then s
    else match s.object? id with
    | none => s
    | some ob =>
      let n := (ob.running.getD []).length
      if n ≤ 1 then (s.endBatch ob).rejectRequests (ob.running.getD []) 5 0
      else s.requeueBatch id false (some ((n + 1) / 2))

/-- The end of a store: the cohort goes on, and its lanes' asynchronous traps are raised. -/
def State.endStore (s : State) (c : Issue) (i : Instr) (o : Order) (kind : Nat) (outs : List (Nat × LaneWrite))
    (addr : Nat → BitVec 64) : State :=
  let w := s.nowWave c
  let w := if o.strong.isNone && (s.part c.crew.part).woad then { w with roundStores := w.roundStores + 1 } else w
  let s := s.retire c i w
  let s := s.raiseLanes c 0x0E 2 kind (lanesWhere outs fun r => r == .poison 2) addr
  let s := s.raiseLanes c 0x0E 5 kind (lanesWhere outs fun r => r == .poison 5) addr
  let s := s.raiseLanes c 0x0A 1 kind (lanesWhere outs fun r => r == .refused 1) addr
  let s := s.raiseLanes c 0x0A 2 kind (lanesWhere outs fun r => r == .refused 2) addr
  s.checkBatchBuffer c

/-- The frame of a store (R214 to R219): lanes ascending, so the highest lane's value remains (R84). -/
def State.storeLanes (s : State) (c : Issue) (i : Instr) (o : Order) (size : Nat) (active : LaneMask)
    (addr : Nat → BitVec 64) (bytes : Nat → List Byte) : State :=
  let f : AccessForm := { size := size, align := size, need := { w := true }, write := true, kind := 1 }
  s.lanesAccess c f o.release false active addr fun s ok =>
    s.unlessDiscarded c ok <|
      let (outs, s) := ok.foldl (fun (acc : List (Nat × LaneWrite) × State) x =>
        let (r, s) := acc.2.writeLane c o x.1 x.2 (bytes x.1)
        (acc.1 ++ [(x.1, r)], s)) ([], s)
      s.endStore c i o 1 outs addr

/-! ## Read-modify-writes -/

/-- What one read-modify-write gives. -/
inductive Rmw where
  | old (bs : List Byte)
  /-- A CAS that compared equal on a page without W (R332). -/
  | denied (bs : List Byte)
  | poison (sub : Nat)
  | refused (sub : Nat)
  | held (sub : Nat)
  deriving DecidableEq, Repr

/-- The bytes of a piece as they stand. -/
def State.peekPiece (s : State) (c : Crew) (p : Piece) : List Byte :=
  match p.place with
  | .tile r off => match s.block? c.id r with | some b => b.bytes off p.size | none => []
  | .mem mt pa _ _ _ _ => s.rawBytes mt pa p.size
  | _ => []

/-- The piece lies on a page without W. -/
def Piece.barred (p : Piece) : Bool := match p.place with | .mem _ _ _ e _ _ => !entryW e | _ => false

/-- One read-modify-write at its point of execution (R90): past L1, whose copy in the issuing core is dropped, unless
it is a store's. `inp` is what a read of system memory gives (R109); `f` gives the bytes to write, if any. One that is refused
does nothing at all (R392). It is one indivisible step, whatever the scopes and points of two of them: R91 would let some
pairs miss each other's update, and the model never shows that (log entry 64). -/
def State.rmwPiece (s : State) (w : Wave) (c : Crew) (strong : Option Nat) (isStore : Bool) (p : Piece)
    (inp : State → Piece → List Byte → List Byte × State) (f : List Byte → Option (List Byte)) : Rmw × State :=
  let (pt, place, key) := pointOf c w (strong.getD 0) p.place
  let write (s : State) (bs : List Byte) : State :=
    match p.place with
    | .tile r off =>
      match s.block? c.id r with
      | none => s
      | some b => s.putBlock (b.store off bs)
    | .mem mt pa comp e lmt lpa =>
      let s := s.touchLeaf c.clusterNo e lmt lpa true
      let s := s.touchL2 c.part c.ctx.ctag (some (c.id, w.ref.rank)) mt pa p.size true comp
      if isStore then s.writeL1 (c.coreOf w.ref.rank) mt pa bs else s.rawWrite mt pa bs
    | _ => s
  let act (s : State) (old : List Byte) : Rmw × State :=
    let (old, s) := inp s p old
    match strong with
    | none =>
      match f old with
      | none => (.old old, s)
      | some new => if p.barred then (.denied old, s) else (.old old, write (s.clearTag pt place key p.size) new)
    | some _ =>
      let fs := s.mixers pt place key p.size ((f old).isSome && !p.barred)
      let (old, s) := s.blur fs key old
      match f old with
      | none => (.old old, (s.smear fs pt place key p.size).noteStrong pt place key p.size false)
      | some new =>
        if p.barred then (.denied old, (s.smear fs pt place key p.size).noteStrong pt place key p.size false)
        else
          let (new, s) := s.strongWrite pt place key new
          (.old old, write s new)
  match s.refusal? w c strong ((f (s.peekPiece c p)).isSome && !p.barred) p with
  | some k => (.refused k, s)
  | none =>
    match p.place with
    | .tile r off =>
      match s.block? c.id r with
      | none => (.old [], s)
      | some b =>
        if b.tilePoison.contains (off / 16 * 16) then (.poison 2, s) else act s (b.bytes off p.size)
    | .mem mt pa comp e lmt lpa =>
      let s := s.touchLeaf c.clusterNo e lmt lpa false
      let s := s.touchL2 c.part c.ctx.ctag (some (c.id, w.ref.rank)) mt pa p.size false comp
      let s := if isStore then s else s.dropL1Line (c.coreOf w.ref.rank) mt pa
      if s.memPoisoned mt pa p.size then (.poison 2, s) else act s (s.rawBytes mt pa p.size)
    | .missing sub => (.held sub, s)
    | .lost => (.poison 5, s)

/-- The input of a read-modify-write that is no external one. -/
def ownBytes (s : State) (_ : Piece) (bs : List Byte) : List Byte × State := (bs, s)

/-- The byte with one nibble replaced. -/
def nibbleBytes (half v : Nat) (old : List Byte) : List Byte :=
  let n := leNat old
  leBytes 1 (if half = 0 then n / 16 * 16 + v % 16 else n % 16 + 16 * (v % 16))

/-- An e2m1 store is a read-modify-write of its byte (R218), which as a strong access is checked and tagged (R391); stores that are
held back go to the wave's buffer. -/
def State.nibbleLane (s : State) (c : Issue) (o : Order) (l half v : Nat) (p : Piece) : LaneWrite × State :=
  let held (sub : Nat) (s : State) : LaneWrite × State :=
    (.held, s.holdPiece c .atomic (o.pack (16 + half)) (BitVec.ofNat 128 v) 0 none false l p sub)
  if s.buffers? c.crew o.strong then
    match s.refusal? c.wave c.crew o.strong true p with
    | some k => (.refused k, s)
    | none =>
    match s.readPiece (s.nowWave c) c.crew none p with
    | (.bytes bs, s) =>
      let (bs, s) := s.portRead c.wave c.crew c.wave.roundIssued l p bs
      match s.writePiece (s.nowWave c) c.crew o.strong { p with off := 0 } (nibbleBytes half v bs) with
      | (.refused k, s) => (.refused k, s)
      | (_, s) => (.done 0 false, s)
    | (.poison k, s) => (.poison (if k = 5 then 5 else 2), s)
    | (.refused k, s) => (.refused k, s)
    | (.held sub, s) => held sub s
  else match s.rmwPiece c.wave c.crew o.strong true p (fun s p bs => s.portRead c.wave c.crew c.wave.roundIssued l p bs)
      (fun bs => some (nibbleBytes half v bs)) with
  | (.old _, s) => (.done 0 false, s.noteRelease (c.crew.coreOf c.wave.ref.rank) o.release p)
  | (.denied _, s) => (.done 0 false, s)
  | (.poison k, s) => (.poison k, s)
  | (.refused k, s) => (.refused k, s)
  | (.held sub, s) => held sub s

/-- ST (R217 to R219). -/
def execSt (fmt : BitVec 6) (o : Opnd) (s : State) : Host.Outcome State Fault Refusal :=
  issue (.st fmt o) plain s fun c =>
    let w := c.wave
    let k := fmt.toNat
    let active := c.active o.ext
    let ord := Order.ofC o.ext.c
    let base := laneAddr w o.a.toNat o.ext.imm
    let ws (l : Nat) : List Word := (List.range (max 1 (fmtBytes k / 4))).map fun j => (w.readV (o.b.toNat + j)).at_ l
    if k = 13 then
      let at_ (l : Nat) := e2m1Place (base l) ((w.readV o.d.toNat).at_ l).toNat
      let bad := active.lanes.filter fun l => (base l).toNat % 16 != 0
      match bad with
      | l :: _ => s.takeTrap w (c.trap 0x05 0 (at_ l).1 (laneSet bad) 2)
      | [] =>
        let addr (l : Nat) := (at_ l).1
        let f : AccessForm := { size := 1, align := 1, need := { w := true }, write := true, kind := 2 }
        s.lanesAccess c f ord.release false active addr fun s ok =>
          s.unlessDiscarded c ok <|
            let (outs, s) := ok.foldl (fun (acc : List (Nat × LaneWrite) × State) x =>
              x.2.foldl (fun acc p =>
                let (r, s) := acc.2.nibbleLane c ord x.1 (at_ x.1).2 (stValue 13 (ws x.1)) p
                (acc.1 ++ [(x.1, r)], s)) acc) ([], s)
            s.endStore c (.st fmt o) ord 2 outs addr
    else s.storeLanes c (.st fmt o) ord (fmtBytes k) active base fun l => leBytes (fmtBytes k) (stValue k (ws l))

/-- STT (R220). -/
def execStt (size : BitVec 6) (o : Opnd) (s : State) : Host.Outcome State Fault Refusal :=
  issue (.stt size o) plain s fun c =>
    let n := fmtBytes (rawFmt size.toNat)
    s.storeLanes c (.stt size o) (Order.ofC o.ext.c) n (c.active o.ext) (baseAddr c.wave o) fun l =>
      (List.range (n / 4)).flatMap fun j => leBytes 4 ((c.wave.readV (o.d.toNat + j)).at_ l).toNat

/-- PREF of one lane (R221): where the address reaches readable memory, the implementation may bring its line into the
home L2 slice and, for PREF.l1, into the core's L1. A lane that fails a check, or whose page is missing, does nothing:
no trap, no entry of the fault buffer, no A bit. -/
def State.prefetchLane (s : State) (c : Issue) (l1 : Bool) (l : Nat) (a : Addr) : State :=
  let f : AccessForm := { size := 1, align := 1, need := { r := true }, write := false, kind := 0 }
  match s.reachLane c.wave c.crew f l a with
  | (.ok ({ place := .mem mt pa comp _ _ _, .. } :: _), s) =>
    let (k, s) := s.choose 2
    if k = 1 then s
    else
      let s := s.touchL2 c.crew.part c.crew.ctx.ctag (some (c.crew.id, c.wave.ref.rank)) mt pa 1 false comp
      if l1 then (s.readL1 (c.crew.coreOf c.wave.ref.rank) mt (pa / 128 * 128) 128).2 else s
  | (_, s) => s

/-- Every active lane of a PREF, in lane order. -/
def State.prefetchLanes (s : State) (c : Issue) (l1 : Bool) (o : Opnd) : State :=
  (c.active o.ext).lanes.foldl (fun s l => s.prefetchLane c l1 l (laneAddr c.wave o.a.toNat o.ext.imm l)) s

/-- PREF changes no architectural state: caches and their counts only (R150, R221). -/
def prefetch (l1 : Bool) (i : Instr) (o : Opnd) (s : State) : Host.Outcome State Fault Refusal :=
  issue i plain s fun c => (s.prefetchLanes c l1 o).retire c i c.wave

def execPrefL1 (o : Opnd) (s : State) : Host.Outcome State Fault Refusal := prefetch true (.prefL1 o) o s
def execPrefL2 (o : Opnd) (s : State) : Host.Outcome State Fault Refusal := prefetch false (.prefL2 o) o s

/-! ## Atomics -/

/-- The end of an atomic or CAS: old values land in n registers from d, unless nothing returns; traps are raised. -/
def State.endRmw (s : State) (c : Issue) (i : Instr) (o : Order) (kind : Nat) (active : LaneMask) (landing : Option (Nat × Nat × Nat))
    (outs : List (Nat × LaneWrite)) (addr : Nat → BitVec 64) : State :=
  let held := lanesWhere outs fun r => r == .held
  let w := s.nowWave c
  let w := match landing with
    | none => w
    | some (id, d, n) =>
      w.produce { id := id, file := false, reg := d, lanes := active, pending := laneSet held
                  data := (List.range n).map fun k => Lanes.build fun l =>
                    match outs.find? fun x => x.1 == l with
                    | some (_, .done old _) => BitVec.ofNat 32 (old / 2 ^ (32 * k))
                    | _ => 0 }
  let s := s.retire c i w
  let s := if held.isEmpty then s.acquire c.crew c.wave.ref.rank o else s
  let s := s.raiseLanes c 0x0E 2 kind (lanesWhere outs fun r => r == .poison 2) addr (landing.map fun x => x.1)
  let s := s.raiseLanes c 0x0E 5 kind (lanesWhere outs fun r => r == .poison 5) addr (landing.map fun x => x.1)
  let s := s.raiseLanes c 0x09 0 kind (lanesWhere outs fun r => match r with | .done _ d => d | _ => false) addr (landing.map fun x => x.1)
  let s := s.raiseLanes c 0x0A 1 kind (lanesWhere outs fun r => r == .refused 1) addr (landing.map fun x => x.1)
  s.raiseLanes c 0x0A 2 kind (lanesWhere outs fun r => r == .refused 2) addr (landing.map fun x => x.1)

/-- The outcome of a lane's read-modify-write. -/
def rmwOutcome : Rmw → LaneWrite
  | .old bs => .done (leNat bs) false
  | .denied bs => .done (leNat bs) true
  | .poison k => .poison k
  | .refused k => .refused k
  | .held _ => .held

/-- The pieces of an access whose page is missing. -/
def missingOf (ps : List Piece) : List (Piece × Nat) :=
  ps.filterMap fun p => match p.place with | .missing sub => some (p, sub) | _ => none

/-- A read-modify-write of a whole access whose every page is mapped: of its one piece, or of the two units of 8 bytes in
STACK (R62), which are read, then written. One that is refused at either unit does nothing (R392). -/
def State.rmw (s : State) (w : Wave) (c : Crew) (strong : Option Nat) (ps : List Piece) (inp : State → Piece → List Byte → List Byte × State)
    (f : List Byte → Option (List Byte)) : Rmw × State :=
  match ps with
  | [p] => s.rmwPiece w c strong false p inp f
  | _ =>
    let barred := ps.any Piece.barred
    let writes := (f (ps.flatMap (s.peekPiece c))).isSome && !barred
    match ps.findSome? (s.refusal? w c strong writes) with
    | some k => (.refused k, s)
    | none =>
      let probe := ps.map fun p => (s.rmwPiece w c none false p ownBytes fun _ => none).1
      match probe.find? fun r => match r with | .old _ => false | _ => true with
      | some r => (r, s)
      | none =>
        let (old, s) := ps.foldl (fun (acc : List Byte × State) p =>
          match acc.2.rmwPiece w c strong false p inp fun _ => none with
          | (.old bs, s) => (acc.1 ++ bs, s)
          | (_, s) => (acc.1, s)) ([], s)
        match f old with
        | none => (.old old, s)
        | some new =>
          if barred then (.denied old, s)
          else (.old old, ps.foldl (fun s p =>
            (s.rmwPiece w c strong false p ownBytes fun _ => some ((new.drop p.off).take p.size)).2) s)

/-- The frame of ATOM and CAS: active lanes ascending, one read-modify-write each (R95, R223). Each missing unit of a lane is
presented; the units of 8 bytes in STACK are performed together, once no page of theirs is missing (R328, log entry 80). -/
def State.rmwLanes (s : State) (c : Issue) (i : Instr) (ord : List (Nat × LaneWrite) → Order) (most : Order)
    (f : AccessForm) (kind : HeldKind) (code : Nat) (dst : Option (Nat × Nat)) (active : LaneMask) (addr : Nat → BitVec 64)
    (data : Nat → BitVec 128) (data2 : Nat → BitVec 64) (new : Nat → List Byte → Option (List Byte)) : State :=
  s.lanesAccess c f most.release most.remote active addr fun s ok =>
    let (id, s) := s.takeStamp
    let landing := dst.map fun x => (id, x.1, x.2)
    let (outs, s) := ok.foldl (fun (acc : List (Nat × LaneWrite) × State) x =>
      let (l, ps) := x
      match missingOf ps with
      | [] =>
        let (r, s) := acc.2.rmw c.wave c.crew most.strong ps (fun s p bs => s.portRead c.wave c.crew c.wave.roundIssued l p bs) (new l)
        let wrote := match r with | .old bs => (new l bs).isSome | _ => false
        let s := ps.foldl (fun s p => s.noteRelease (c.crew.coreOf c.wave.ref.rank) (most.release && wrote) p) s
        (acc.1 ++ [(l, rmwOutcome r)], s)
      | miss =>
        let fmt := most.pack (code + (if ps.length = 1 then 0 else 128))
        let s := miss.foldl (fun s (p, sub) =>
          s.holdPiece c kind fmt (data l) (data2 l) (dst.map fun _ => id) most.acquire l { p with size := f.size } sub) acc.2
        (acc.1 ++ [(l, .held)], s)) ([], s)
    s.endRmw c i (ord outs) f.kind active landing outs addr

/-- ATOM (R222, R223). -/
def atomic (i : Instr) (op : AtomOp) (order : BitVec 2) (o : Opnd) (s : State) : Host.Outcome State Fault Refusal :=
  issue i plain s fun c =>
    let w := c.wave
    let ord := Order.ofAtom order o.ext.mod
    let arg (l : Nat) : BitVec 64 := if op = .addS64 then w.readV2 o.b.toNat l else ((w.readV o.b.toNat).at_ l).setWidth 64
    s.rmwLanes c i (fun _ => ord) ord
      { size := op.size, align := op.size, need := { r := true, w := true }, write := true, kind := 2 } .atomic op.code
      (if o.ext.c = 0 then some (o.d.toNat, op.size / 4) else none) (c.active o.ext) (laneAddr w o.a.toNat o.ext.imm)
      (fun l => (arg l).setWidth 128) (fun _ => 0) (fun l bs => some (op.bytes (arg l) bs))

def execAtomAddS32 (order : BitVec 2) (o : Opnd) (s : State) : Host.Outcome State Fault Refusal :=
  atomic (.atomAddS32 order o) .addS32 order o s
def execAtomAddS64 (order : BitVec 2) (o : Opnd) (s : State) : Host.Outcome State Fault Refusal :=
  atomic (.atomAddS64 order o) .addS64 order o s
def execAtomAddF32 (order : BitVec 2) (o : Opnd) (s : State) : Host.Outcome State Fault Refusal :=
  atomic (.atomAddF32 order o) .addF32 order o s
def execAtomMinS32 (order : BitVec 2) (o : Opnd) (s : State) : Host.Outcome State Fault Refusal :=
  atomic (.atomMinS32 order o) .minS32 order o s
def execAtomMaxS32 (order : BitVec 2) (o : Opnd) (s : State) : Host.Outcome State Fault Refusal :=
  atomic (.atomMaxS32 order o) .maxS32 order o s
def execAtomMinN32 (order : BitVec 2) (o : Opnd) (s : State) : Host.Outcome State Fault Refusal :=
  atomic (.atomMinN32 order o) .minN32 order o s
def execAtomMaxN32 (order : BitVec 2) (o : Opnd) (s : State) : Host.Outcome State Fault Refusal :=
  atomic (.atomMaxN32 order o) .maxN32 order o s
def execAtomAnd (order : BitVec 2) (o : Opnd) (s : State) : Host.Outcome State Fault Refusal :=
  atomic (.atomAnd order o) .and order o s
def execAtomOr (order : BitVec 2) (o : Opnd) (s : State) : Host.Outcome State Fault Refusal :=
  atomic (.atomOr order o) .or order o s
def execAtomXor (order : BitVec 2) (o : Opnd) (s : State) : Host.Outcome State Fault Refusal :=
  atomic (.atomXor order o) .xor order o s
def execAtomExch (order : BitVec 2) (o : Opnd) (s : State) : Host.Outcome State Fault Refusal :=
  atomic (.atomExch order o) .exch order o s
def execAtomInc (order : BitVec 2) (o : Opnd) (s : State) : Host.Outcome State Fault Refusal :=
  atomic (.atomInc order o) .inc order o s

/-- CAS (R93, R224): W is checked after the comparison (R332). The success order applies where a lane succeeds, the
failure order where one fails. -/
def compareSwap (i : Instr) (n : Nat) (o : Opnd) (s : State) : Host.Outcome State Fault Refusal :=
  issue i plain s fun c =>
    let w := c.wave
    let sord := o.ext.imm.toNat % 4
    let facq := o.ext.imm.getLsbD 2
    let most : Order := { strong := some (o.ext.mod.toNat % 4), acquire := sord % 2 = 1 || facq, release := 2 ≤ sord, remote := o.ext.mod.getLsbD 2 }
    let val (r l : Nat) : BitVec 64 := if n = 8 then w.readV2 r l else ((w.readV r).at_ l).setWidth 64
    let hit (l : Nat) (old : Nat) : Bool := old = (val o.b.toNat l).toNat
    let ord (outs : List (Nat × LaneWrite)) : Order :=
      { most with
        acquire := outs.any fun x => match x.2 with | .done old _ => if hit x.1 old then sord % 2 = 1 else facq | _ => false }
    s.rmwLanes c i ord most
      { size := n, align := n, need := { r := true }, write := true, kind := 3 } .cas 0 (some (o.d.toNat, n / 4)) (c.active o.ext)
      (fun l => w.readV2 o.a.toNat l) (fun l => (val o.b.toNat l).setWidth 128) (fun l => val o.ext.c.toNat l)
      (fun l bs => if hit l (leNat bs) then some (leBytes n (val o.ext.c.toNat l).toNat) else none)

def execCasB32 (o : Opnd) (s : State) : Host.Outcome State Fault Refusal := compareSwap (.casB32 o) 4 o s
def execCasB64 (o : Opnd) (s : State) : Host.Outcome State Fault Refusal := compareSwap (.casB64 o) 8 o s

/-! ## Landing -/

/-- A gang that waits only for registers, or for an access that is done, may go on: waiting is tested when it issues. -/
def execProducerLanding (w : WaveRef) (n : Nat) (s : State) : Host.Outcome State Fault Refusal :=
  match s.wave? w with
  | none => .next s
  | some x =>
    match x.landings[n]? with
    | none => .next s
    | some ld =>
      if ld.pending != 0 then .next s
      else .next (((s.putWave (x.land ld)).phaseCheck w).settle)

end Sys2Proof.Machine

end
end

