-- ==== Sys2Proof/Machine/Engines.lean ====
section
/-! DEFINITION. Engine commands: gates and PUBLISH (R236, R237, R373), descriptors and their checks (R238 to R244,
R368, R369), issue (R233), the transfer of units, and commands that end in error (R234, R235, R370 to R375). -/

noncomputable section

namespace Sys2Proof.Machine

/-! ## Gates (R59, R236, R373) -/

/-- The four words of a gate. -/
structure Gate where
  arrived : Nat
  expected : Nat
  flags : Nat
  gen : Nat
  deriving DecidableEq, Repr

def Gate.phase (g : Gate) : Bool := bits g.flags 0 0 = 1
def Gate.poison (g : Gate) : Bool := bits g.flags 1 1 = 1
def Gate.pub (g : Gate) : Bool := bits g.flags 2 2 = 1
def Gate.armed (g : Gate) : Bool := bits g.flags 3 3 = 1
def Gate.region (g : Gate) : Nat := bits g.flags 7 4

def Block.gate (b : Block) (off : Nat) : Gate :=
  let w (k : Nat) := b.word (b.visible off + 4 * k)
  { arrived := w 0, expected := w 1, flags := w 2, gen := w 3 }

/-- One 16-byte update of a gate. -/
def Block.putGate (b : Block) (off : Nat) (g : Gate) : Block :=
  b.store (b.visible off) (leBytes 4 g.arrived ++ leBytes 4 g.expected ++ leBytes 4 g.flags ++ leBytes 4 g.gen)

/-- The completion check that ends a gate update (R236); none while POISON is 1 (R373). A gate's REGION is valid and
double-buffered, as GATEINIT has checked (R369). -/
def Block.checkGate (b : Block) (off : Nat) (g : Gate) : Block :=
  if g.armed && !g.poison && decide (g.expected ≤ g.arrived) then
    let g' : Gate := { arrived := 0, expected := g.expected, flags := setBits (setBits g.flags 0 0 (if g.phase then 0 else 1)) 3 3 0,
                       gen := (g.gen + 1) % 2 ^ 32 }
    let b := b.putGate off g'
    if g.pub && (b.region g.region).isSome then b.publish g.region else b
  else b.putGate off g

/-- An engine adds counted bytes to a gate. -/
def Block.addToGate (b : Block) (off n : Nat) : Block :=
  let g := b.gate off
  b.checkGate off { g with arrived := (g.arrived + n) % 2 ^ 32 }

/-- POISON is set, with no completion check (R372). -/
def Block.poisonGate (b : Block) (off : Nat) : Block :=
  let g := b.gate off
  b.putGate off { g with flags := setBits g.flags 1 1 1 }

/-! ## Descriptors -/

/-- Bits hi:lo of the word at an offset of a descriptor. -/
def dfield (d off hi lo : Nat) : Nat := bits d (8 * off + hi) (8 * off + lo)

/-- Kinds of a progress record (R234). -/
def kindCopy : Nat := 1
def kindCopyw : Nat := 2
def kindCopys : Nat := 3
def kindXfm : Nat := 4

/-- Side bytes of a row per KLEN of a panel format, if the layout takes the format (R239). -/
def sideBytes (fmt layout : Nat) : Option Nat :=
  if fmt ∈ [0x01, 0x09, 0x0A, 0x0B, 0x0C] then some 0
  else if fmt ∈ [0x10, 0x11] then some 1
  else if fmt = 0x12 then some 4
  else if fmt = 0x18 && layout = 1 then some 4
  else if fmt = 0x19 && layout = 1 then some 0
  else none

/-- The fields of a COPY or COPYS descriptor (R238). -/
structure CopyDesc where
  maddr : Nat
  side : Nat
  toff : Nat
  dscale : Nat
  rows : Nat
  rbytes : Nat
  mstride : Nat
  tstride : Nat
  fmt : Nat
  layout : Nat
  klen : Nat
  sstride : Nat
  deriving DecidableEq, Repr

def copyDesc (d : Nat) : CopyDesc :=
  { maddr := dfield d 0 63 0, side := dfield d 8 63 0, toff := dfield d 0x10 19 0, dscale := dfield d 0x14 19 0,
    rows := dfield d 0x18 15 0, rbytes := dfield d 0x1C 19 0, mstride := dfield d 0x20 31 0, tstride := dfield d 0x24 19 0,
    fmt := dfield d 0x28 5 0, layout := dfield d 0x28 7 6, klen := dfield d 0x28 15 12 + 1, sstride := dfield d 0x38 31 0 }

/-- Side bytes of a row (R239). -/
def CopyDesc.sbr (c : CopyDesc) : Nat := if c.layout = 0 then 0 else (sideBytes c.fmt c.layout).getD 0 * c.klen

/-- Bytes of a row: RBYTES, or KB (R239). -/
def CopyDesc.rowBytes (c : CopyDesc) : Nat := if c.layout = 0 then c.rbytes else 32 * c.klen

/-- The panel height (R239). -/
def CopyDesc.height (c : CopyDesc) : Nat := if c.layout = 2 then 32 else 8

/-- Units of the rows, and of the scale panel. -/
def CopyDesc.rowUnits (c : CopyDesc) : Nat := c.rows * (c.rowBytes / 16)
def CopyDesc.scaleUnits (c : CopyDesc) : Nat := (c.rows * c.sbr + 15) / 16

/-- The fields of a COPYW descriptor (R241). -/
structure WindowDesc where
  src : Nat
  irs : Nat
  h : Nat
  w : Nat
  c : Nat
  fmt : Nat
  rg : Nat
  clamp : Bool
  fh : Nat
  fw : Nat
  sy : Nat
  sx : Nat
  pt : Nat
  pb : Nat
  pl : Nat
  pr : Nat
  oy0 : Nat
  orows : Nat
  dst : Nat
  dpitch : Nat
  deriving DecidableEq, Repr

def windowDesc (d : Nat) : WindowDesc :=
  { src := dfield d 0 63 0, irs := dfield d 8 31 0, h := dfield d 0xC 15 0, w := dfield d 0xC 31 16, c := dfield d 0x10 15 0,
    fmt := dfield d 0x10 21 16, rg := dfield d 0x10 23 22, clamp := dfield d 0x10 24 24 = 1, fh := dfield d 0x14 7 0,
    fw := dfield d 0x14 15 8, sy := dfield d 0x14 23 16, sx := dfield d 0x14 31 24, pt := dfield d 0x18 7 0,
    pb := dfield d 0x18 15 8, pl := dfield d 0x18 23 16, pr := dfield d 0x18 31 24, oy0 := dfield d 0x1C 15 0,
    orows := dfield d 0x1C 31 16, dst := dfield d 0x20 19 0, dpitch := dfield d 0x24 19 0 }

/-- G, the regrouping factor. -/
def WindowDesc.g (x : WindowDesc) : Nat := 2 ^ x.rg

/-- e, bytes of an element. -/
def WindowDesc.e (x : WindowDesc) : Nat := fmtBytes x.fmt

/-- H', W' and C' (R242). -/
def WindowDesc.h' (x : WindowDesc) : Nat := x.h / x.g
def WindowDesc.w' (x : WindowDesc) : Nat := x.w / x.g
def WindowDesc.c' (x : WindowDesc) : Nat := x.c * x.g * x.g

/-- OH, OW and n (R242). -/
def WindowDesc.oh (x : WindowDesc) : Int := ((x.h' + x.pt + x.pb : Int) - x.fh) / (x.sy : Int) + 1
def WindowDesc.ow (x : WindowDesc) : Int := ((x.w' + x.pl + x.pr : Int) - x.fw) / (x.sx : Int) + 1
def WindowDesc.n (x : WindowDesc) : Int := min (x.orows : Int) (x.oh - x.oy0)

/-- Something is delivered. -/
def WindowDesc.delivers (x : WindowDesc) : Bool := 0 < x.oh && 0 < x.ow && 0 < x.n

/-- TR and TC (R242). -/
def WindowDesc.tr (x : WindowDesc) : Nat := ((x.n - 1) * (min x.sy x.fh : Nat) + x.fh).toNat
def WindowDesc.tc (x : WindowDesc) : Nat := ((x.ow - 1) * (min x.sx x.fw : Nat) + x.fw).toNat

/-- DPITCH' (R242). -/
def WindowDesc.pitch (x : WindowDesc) : Nat := roundUp (x.tc * x.c' * x.e) 16

/-- src_coord of R242. -/
def srcCoord (d o0 s f p : Nat) : Int :=
  if s ≤ f then (o0 * s : Int) - p + d else ((o0 + d / f) * s : Int) - p + (d % f : Nat)

/-- A coordinate inside an extent, the clamped one, or none where it reads as zero. -/
def resolveCoord (clamp : Bool) (n : Nat) (y : Int) : Option Nat :=
  if 0 ≤ y && y < n then some y.toNat
  else if clamp then some (if y < 0 then 0 else n - 1) else none

/-- Image row and column of a destination pixel. -/
def WindowDesc.y (x : WindowDesc) (d : Nat) : Option Nat := resolveCoord x.clamp x.h' (srcCoord d x.oy0 x.sy x.fh x.pt)
def WindowDesc.x (x : WindowDesc) (c : Nat) : Option Nat := resolveCoord x.clamp x.w' (srcCoord c 0 x.sx x.fw x.pl)

/-- The source of byte b of destination row d: an address, or none for zero. -/
def WindowDesc.byteAt (x : WindowDesc) (d b : Nat) : Option (BitVec 64) :=
  let px := x.c' * x.e
  if x.tc * px ≤ b then none
  else match x.y d, x.x (b / px) with
  | some y, some col =>
    let ch := b % px / x.e
    let k := ch / x.c
    some (BitVec.ofNat 64 (x.src + (y * x.g + k / x.g) * x.irs + (col * x.g + k % x.g) * (x.c * x.e) + ch % x.c * x.e + b % x.e))
  | _, _ => none

/-- The fields of an XFM descriptor (R243). -/
structure XfmDesc where
  stream : Nat
  table : Nat
  dst : Nat
  nsym : Nat
  sbytes : Nat
  init : Nat
  logl : Nat
  outw : Nat
  deriving DecidableEq, Repr

def xfmDesc (d : Nat) : XfmDesc :=
  { stream := dfield d 0 63 0, table := dfield d 8 63 0, dst := dfield d 0x10 63 0, nsym := dfield d 0x18 31 0,
    sbytes := dfield d 0x1C 31 0, init := dfield d 0x20 8 0, logl := dfield d 0x28 3 0, outw := dfield d 0x28 5 4 }

/-- w, bits of a symbol; L, entries of the table. -/
def XfmDesc.w (x : XfmDesc) : Nat := 4 * 2 ^ x.outw
def XfmDesc.l (x : XfmDesc) : Nat := 2 ^ x.logl

/-- COMPL, MCAST, GATE, CWORD and CVALUE (R235). -/
def compl (d : Nat) : Nat := dfield d 0x28 9 8
def mcast (d : Nat) : Nat := dfield d 0x28 23 16
def gateOff (d : Nat) : Nat := dfield d 0x2C 19 0
def cwordOff (d : Nat) : Nat := dfield d 0x30 19 0
def cvalue (d : Nat) : Nat := dfield d 0x34 31 0

/-- Destination units of a command. -/
def totalUnits (kind d : Nat) : Nat :=
  if kind = kindXfm then (xfmDesc d).nsym * (xfmDesc d).w / 128
  else if kind = kindCopyw then
    let x := windowDesc d
    if x.delivers then x.tr * (x.pitch / 16) else 0
  else (copyDesc d).rowUnits + (if kind = kindCopy then (copyDesc d).scaleUnits else 0)

/-- Crew ranks whose blocks a command writes and completes in (R235). -/
def targetRanks (kind d own : Nat) : List Nat :=
  let m := (List.range 8).filter fun k => (mcast d).testBit k
  if kind = kindCopys || kind = kindXfm || m.isEmpty then [own] else m

/-- Where a byte of a unit comes from. -/
inductive Source where
  | addr (a : BitVec 64) (n : Nat)
  /-- The issuing block's tile memory. -/
  | own (off n : Nat)
  | zero (n : Nat)
  deriving DecidableEq, Repr

/-- Where a unit goes. -/
inductive Dest where
  /-- Tile offset in every target block. -/
  | tile (off : Nat)
  | addr (a : BitVec 64)
  deriving DecidableEq, Repr

/-- Sources and destination of unit k; XFM's bytes are decoded apart. -/
def unitOf (kind d k : Nat) : List Source × Dest :=
  if kind = kindXfm then ([], .addr (BitVec.ofNat 64 ((xfmDesc d).dst + 16 * k)))
  else if kind = kindCopyw then
    let x := windowDesc d
    let u := x.pitch / 16
    let row := k / u
    let src := (List.range 16).map fun j =>
      match x.byteAt row (16 * (k % u) + j) with
      | some a => Source.addr a 1
      | none => .zero 1
    (src, .tile (x.dst + row * x.dpitch + 16 * (k % u)))
  else
    let c := copyDesc d
    let u := c.rowBytes / 16
    if k < c.rowUnits then
      let mem := BitVec.ofNat 64 (c.maddr + k / u * c.mstride + 16 * (k % u))
      let off := c.toff + (if c.layout = 0 then k / u * c.tstride + 16 * (k % u) else 16 * k)
      if kind = kindCopys then ([.own off 16], .addr mem) else ([.addr mem 16], .tile off)
    else
      let v := k - c.rowUnits
      let src := (List.range 16).map fun j =>
        let i := 16 * v + j
        if i / c.sbr < c.rows then Source.addr (BitVec.ofNat 64 (c.side + i / c.sbr * c.sstride + i % c.sbr)) 1 else .zero 1
      (src, .tile (c.dscale + 16 * v))

/-! ## Checks at issue (R368, R369) -/

/-- What a check at issue fails with: cause, SUB, address. -/
structure IssueFault where
  cause : Nat
  sub : Nat
  addr : BitVec 64
  deriving DecidableEq, Repr

/-- Nonzero reserved fields that are judged at rank 9, with COMPL and MCAST, and COPY's FMT with LAYOUT 0 (R238, R368). -/
def lateReserved (kind d : Nat) : Bool :=
  let z (off hi lo : Nat) : Bool := dfield d off hi lo != 0
  let common := 1 < compl d || z 0x2C 31 20 || z 0x30 31 20 || z 0x28 31 24
  common ||
    (if kind = kindXfm then z 0x20 31 9 || z 0x24 31 0 || z 0x28 7 6 || z 0x28 15 10 || z 0x28 23 16 || z 0x38 63 0
     else if kind = kindCopyw then z 0x10 31 25 || z 0x20 31 20 || z 0x24 31 20 || z 0x28 7 0 || z 0x28 15 10 || z 0x38 63 0
     else
       let c := copyDesc d
       z 0x10 31 20 || z 0x14 31 20 || z 0x18 31 16 || z 0x1C 31 20 || z 0x24 31 20 || z 0x28 11 10 || z 0x3C 31 0 ||
         (c.sbr = 0 && (z 8 63 0 || z 0x14 31 0)) ||
         (if c.layout = 0 then z 0x28 5 0 else z 0x1C 31 0 || z 0x24 31 0) ||
         (kind = kindCopys && z 0x28 23 16))

/-- SUB 7 conditions that decide how the extent is formed (R368). -/
def extentReserved (kind d : Nat) : Bool :=
  if kind = kindXfm then (xfmDesc d).outw = 3
  else if kind = kindCopyw then (windowDesc d).rg = 3 || !((windowDesc d).fmt ≤ 4 || (8 ≤ (windowDesc d).fmt && (windowDesc d).fmt ≤ 0xC))
  else
    let c := copyDesc d
    c.layout = 3 || (kind = kindCopys && (c.layout != 0 || c.fmt != 0)) || (c.layout != 0 && (sideBytes c.fmt c.layout).isNone)

/-- SUB 8: geometry outside its limits (R369). -/
def badGeometry (kind d : Nat) : Bool :=
  if kind = kindXfm then
    let x := xfmDesc d
    x.logl = 0 || 9 < x.logl || x.l ≤ x.init || x.nsym * x.w % 128 != 0
  else if kind = kindCopyw then
    let x := windowDesc d
    x.h = 0 || x.w = 0 || x.c = 0 || x.fh = 0 || x.fw = 0 || x.sy = 0 || x.sx = 0 || x.dpitch % 16 != 0 ||
      x.h % x.g != 0 || x.w % x.g != 0 || (0 < x.ow && x.dpitch < x.pitch)
  else
    let c := copyDesc d
    c.rows = 0 || c.mstride % 16 != 0 || (c.layout = 0 && (c.rbytes % 16 != 0 || c.tstride % 16 != 0)) ||
      (c.layout != 0 && (c.rows % c.height != 0 || 12 < c.klen))

/-- The addresses and offsets of a descriptor with the alignment each needs. -/
def aligned (kind d : Nat) : List (Nat × Nat) :=
  (if kind = kindXfm then [((xfmDesc d).table, 4), ((xfmDesc d).dst, 16)]
   else if kind = kindCopyw then [((windowDesc d).dst, 16)]
   else
     let c := copyDesc d
     [(c.maddr, 16), (c.toff, 16)] ++ (if c.sbr = 0 then [] else [(c.dscale, 16)])) ++
    (if compl d = 0 then [(gateOff d, 16)] else if compl d = 1 then [(cwordOff d, 4)] else [])

/-- How far into a run of n bytes its first 16-byte unit that fails a check lies. -/
def firstBad (n : Nat) (ok : Nat → Nat → Bool) : Nat :=
  match (List.range ((n + 15) / 16)).find? fun k => !ok (16 * k) (min 16 (n - 16 * k)) with
  | some k => 16 * k
  | none => 0

/-- Canonical form of a run of addresses (R328, step 2). -/
def runCanonical (a : BitVec 64) (n : Nat) : Option IssueFault :=
  if n = 0 || (canonical a && canonical (a + BitVec.ofNat 64 (n - 1))) then none
  else some { cause := 0x07, sub := 0, addr := a }

/-- The limits of a run of canonical addresses: in one aperture window and, in TILE, under one core index (R368). TRAP_ADDR
is the run's first byte, or the first unit that breaks a limit. DEDUCED (log entry 25). -/
def State.runLimit (s : State) (c : Crew) (g : Segs) (own : Nat) (a : BitVec 64) (n : Nat) (write tileOk : Bool) : Option IssueFault :=
  let last := a + BitVec.ofNat 64 (n - 1)
  let limit : IssueFault := { cause := 0x06, sub := 0, addr := a }
  if n = 0 then none
  else match steer g a with
  | .stack _ => some limit
  | .tile core off =>
    if !tileOk || 2 ^ 20 < off + n then some limit
    else match (c.rankOf own core).bind fun r => s.block? c.id r with
    | none => some limit
    | some b =>
      if s.tileRunOk c b g.tileLimit.toNat off n write then none
      else some { limit with addr := a + BitVec.ofNat 64 (firstBad n fun k m => s.tileRunOk c b g.tileLimit.toNat (off + k) m write) }
  | .global =>
    let outside (x y : BitVec 64) : Bool := x < g.globalBase || g.globalLimit < y
    if (g.tileBase - a).toNat < n || (g.stackBase - a).toNat < n then some limit
    else if (if last < a then g.globalBase != 0 || g.globalLimit != BitVec.allOnes 64 else outside a last) then
      some { limit with addr := a + BitVec.ofNat 64 (firstBad n fun k m => !outside (a + BitVec.ofNat 64 k) (a + BitVec.ofNat 64 (k + m - 1))) }
    else none

/-- Runs of addresses that a command names: address, bytes, whether it writes, whether TILE is allowed. -/
def addressRuns (kind d : Nat) : List (BitVec 64 × Nat × Bool × Bool) :=
  if kind = kindXfm then
    let x := xfmDesc d
    [(BitVec.ofNat 64 x.stream, x.sbytes, false, false), (BitVec.ofNat 64 x.table, 4 * x.l, false, false),
     (BitVec.ofNat 64 x.dst, x.nsym * x.w / 8, true, true)]
  else if kind = kindCopyw then
    let x := windowDesc d
    if !x.delivers then []
    else
      let ys := ((List.range x.tr).filterMap x.y).dedup
      let xs := (List.range x.tc).filterMap x.x
      match xs with
      | [] => []
      | x0 :: _ =>
        let lo := xs.foldl min x0
        let hi := xs.foldl max x0
        let px := x.g * x.c * x.e
        ys.flatMap fun y => (List.range x.g).map fun k =>
          (BitVec.ofNat 64 (x.src + (y * x.g + k) * x.irs + lo * px), (hi + 1 - lo) * px, false, true)
  else
    let c := copyDesc d
    (List.range c.rows).flatMap fun i =>
      (BitVec.ofNat 64 (c.maddr + i * c.mstride), c.rowBytes, decide (kind = kindCopys), true) ::
        (if c.sbr = 0 then [] else [(BitVec.ofNat 64 (c.side + i * c.sstride), c.sbr, false, true)])

/-- Runs of tile offsets: a COPYS source, or destinations in every target block. -/
def offsetRuns (kind d : Nat) : List (Nat × Nat) :=
  if kind = kindXfm then []
  else if kind = kindCopyw then
    let x := windowDesc d
    if x.delivers then (List.range x.tr).map fun i => (x.dst + i * x.dpitch, x.pitch) else []
  else
    let c := copyDesc d
    if c.layout = 0 then (List.range c.rows).map fun i => (c.toff + i * c.tstride, c.rbytes)
    else [(c.toff, c.rows * c.rowBytes), (c.dscale, 16 * c.scaleUnits)]

/-- The extent checks of R368: canonical form first (R328), then limits, the memory side first. A COPYS may read the control
area (R54). -/
def State.extentFault (s : State) (w : Wave) (c : Crew) (kind d : Nat) : Option IssueFault :=
  let own := w.ref.rank
  let blocks := (targetRanks kind d own).map fun r => s.block? c.id r
  let limit := w.segs.tileLimit.toNat
  let at_ (off : Nat) : IssueFault := { cause := 0x06, sub := 0, addr := BitVec.ofNat 64 off }
  let fits (off n : Nat) : Bool :=
    blocks.all fun b => match b with | some b => s.tileRunOk c b limit off n (kind != kindCopys) | none => false
  let tile (off n : Nat) : Option IssueFault :=
    if n = 0 || fits off n then none else some (at_ (off + firstBad n fun k m => fits (off + k) m))
  let done (off n : Nat) : Option IssueFault :=
    if blocks.all fun b => match b with | some b => s.tileRunOk c b limit off n true | none => false then none else some (at_ off)
  let form := (addressRuns kind d).findSome? fun r => runCanonical r.1 r.2.1
  let mem := (addressRuns kind d).findSome? fun r => s.runLimit c w.segs own r.1 r.2.1 r.2.2.1 r.2.2.2
  let many := if kind = kindCopy || kind = kindCopyw then (if 2 ^ c.size ≤ mcast d then some (at_ (mcast d)) else none) else none
  form <|> mem <|> many <|> ((offsetRuns kind d).findSome? fun r => tile r.1 r.2) <|>
    (if compl d = 0 then done (gateOff d) 16 else if compl d = 1 then done (cwordOff d) 4 else none)

/-- Every check of R368 on a descriptor that was read at `da`, in rank order. -/
def State.descFault (s : State) (w : Wave) (c : Crew) (kind d : Nat) (da : BitVec 64) : Option IssueFault :=
  match (aligned kind d).find? fun x => x.1 % x.2 != 0 with
  | some x => some { cause := 0x05, sub := 0, addr := BitVec.ofNat 64 x.1 }
  | none =>
    if extentReserved kind d then some { cause := 0x0B, sub := 7, addr := da }
    else if badGeometry kind d then some { cause := 0x0B, sub := 8, addr := da }
    else match s.extentFault w c kind d with
    | some f => some f
    | none => if lateReserved kind d then some { cause := 0x0B, sub := 7, addr := da } else none

/-! ## Reading and writing for a command -/

/-- Why a unit is not done. -/
inductive UnitError where
  | missing (a : BitVec 64) (sub : Nat)
  /-- A batch holds the line (R105): the unit waits. -/
  | busy
  /-- The command ends in error (R372). -/
  | error (cause sub : Nat) (a : BitVec 64)
  deriving DecidableEq, Repr

/-- A read of system memory by an engine in a Woad partition is an external input like any other (R109), of the command's
instruction. -/
def State.enginePort (s : State) (c : Crew) (rank : Nat) (m : Command) (mt : Nat) (bs : List Byte) : List Byte × State :=
  if 9 ≤ mt && (s.part c.part).woad then
    match s.wave? { crew := c.id, rank := rank, wave := m.wave } with
    | none => (bs, s)
    | some w =>
      let (ws, s) := s.woadRead c.part 3 (waveKey w c ++ [m.index + 2 ^ 17 * bs.length]) (wordsOf bs)
      ((ws.flatMap fun w => leBytes 8 w).take bs.length, s)
  else (bs, s)

/-- n bytes, inside one 16-byte unit, read past L1 (R63, R233). An error names the unit (R372). -/
def State.engineRead (s : State) (c : Crew) (rank : Nat) (m : Command) (a : BitVec 64) (n : Nat) :
    Except UnitError (List Byte) × State :=
  let u := a &&& ~~~(0xF : BitVec 64)
  match steer m.segs a with
  | .stack _ => (.error (.error 0x06 0 u), s)
  | .tile core off =>
    match (c.rankOf rank core).bind fun r => s.block? c.id r with
    | none => (.error (.error 0x06 0 u), s)
    | some b =>
      if b.poisoned off n then (.error (.error 0x0E 1 u), s) else (.ok (b.readVisible off n), s)
  | .global =>
    match s.translate c.ctx c.part c.clusterNo a { r := true } with
    | (.mem mt pa comp e lmt lpa, s) =>
      if s.lineHeld c.id mt pa then (.error .busy, s)
      else
      let s := s.touchLeaf c.clusterNo e lmt lpa false
      let s := s.touchL2 c.part c.ctx.ctag (some (c.id, rank)) mt pa n false comp
      if s.memPoisoned mt pa n then (.error (.error 0x0E 1 u), s)
      else
        let (bs, s) := s.enginePort c rank m mt (s.rawBytes mt pa n)
        (.ok bs, s)
    | (.missing sub, s) => (.error (.missing u sub), s)
    | (.malformed sub, s) => (.error (.error 0x14 sub u), s)
    | (.permission, s) => (.error (.error 0x09 0 u), s)
    | (.poisoned, s) => (.error (.error 0x0E 5 u), s)

/-- The bytes of a list of sources. -/
def State.readSources (s : State) (c : Crew) (rank : Nat) (m : Command) : List Source → Except UnitError (List Byte) × State
  | [] => (.ok [], s)
  | x :: r =>
    let (one, s) := match x with
      | .addr a n => s.engineRead c rank m a n
      | .zero n => (.ok (List.replicate n 0), s)
      | .own off n =>
        match s.block? c.id rank with
        | none => (.ok (List.replicate n 0), s)
        | some b =>
          if b.poisoned off n then (.error (.error 0x0E 1 (BitVec.ofNat 64 off)), s) else (.ok (b.readVisible off n), s)
    match one with
    | .error e => (.error e, s)
    | .ok bs =>
      match s.readSources c rank m r with
      | (.ok rest, s) => (.ok (bs ++ rest), s)
      | (.error e, s) => (.error e, s)

/-- A 16-byte unit written to tile memory at a physical offset: poison and tags are cleared (R397, R391). -/
def State.putTileUnit (s : State) (crew rank off : Nat) (bs : List Byte) : State :=
  match s.block? crew rank with
  | none => s
  | some b =>
    let b := b.store off bs
    (s.putBlock { b with tilePoison := b.tilePoison.filter fun u => u != off }).clearTag 0 (8 * crew + rank) off 16

/-- A unit written to its destination: the copy that was hidden at issue (R57), or an address (R240). -/
def State.engineWrite (s : State) (c : Crew) (rank : Nat) (m : Command) (dst : Dest) (bs : List Byte) : Except UnitError Unit × State :=
  match dst with
  | .tile off =>
    (.ok (), (targetRanks m.kind m.bits rank).foldl (fun s r =>
      match s.block? c.id r with
      | none => s
      | some b => s.putTileUnit c.id r (b.remapWith (fun i => !(m.cur.getD r 0).getLsbD i) off) bs) s)
  | .addr a =>
    match steer m.segs a with
    | .stack _ => (.error (.error 0x06 0 a), s)
    | .tile core off =>
      match c.rankOf rank core with
      | none => (.error (.error 0x06 0 a), s)
      | some r =>
        match s.block? c.id r with
        | none => (.error (.error 0x06 0 a), s)
        | some b => (.ok (), s.putTileUnit c.id r (b.visible off) bs)
    | .global =>
      match s.translate c.ctx c.part c.clusterNo a { w := true } with
      | (.mem mt pa comp e lmt lpa, s) =>
        if s.lineHeld c.id mt pa then (.error .busy, s)
        else
        let s := s.touchLeaf c.clusterNo e lmt lpa true
        let s := s.touchL2 c.part c.ctx.ctag (some (c.id, rank)) mt pa bs.length true comp
        (.ok (), (s.rawWrite mt pa bs).clearTag 3 0 (memKey mt pa) 16)
      | (.missing sub, s) => (.error (.missing a sub), s)
      | (.malformed sub, s) => (.error (.error 0x14 sub a), s)
      | (.permission, s) => (.error (.error 0x09 0 a), s)
      | (.poisoned, s) => (.error (.error 0x0E 5 a), s)

/-! ## XFM (R244, R374) -/

/-- BASE, NB and SYM of a table entry. -/
def entryBase (t : Nat) : Nat := bits t 28 20
def entryNb (t : Nat) : Nat := bits t 19 16
def entrySym (t : Nat) : Nat := bits t 15 0

/-- A table entry that breaks R244 (R374). -/
def badEntry (x : XfmDesc) (t : Nat) : Bool :=
  bits t 31 29 != 0 || x.logl < entryNb t || x.l < entryBase t + 2 ^ entryNb t || 2 ^ x.w ≤ entrySym t

/-- The whole state table, as four-byte words. -/
def State.readTable (s : State) (c : Crew) (rank : Nat) (m : Command) : Except UnitError (List Nat) × State :=
  let x := xfmDesc m.bits
  (List.range x.l).foldl (fun (acc : Except UnitError (List Nat) × State) k =>
    match acc with
    | (.error e, s) => (.error e, s)
    | (.ok l, s) =>
      match s.engineRead c rank m (BitVec.ofNat 64 (x.table + 4 * k)) 4 with
      | (.ok bs, s) => (.ok (l ++ [leNat bs]), s)
      | (.error e, s) => (.error e, s)) (.ok [], s)

/-- NB bits of the stream from a position on, lowest first; past SBYTES they are 0. -/
def State.streamBits (s : State) (c : Crew) (rank : Nat) (m : Command) (pos : Nat) : Nat → Except UnitError Nat × State
  | 0 => (.ok 0, s)
  | n + 1 =>
    let x := xfmDesc m.bits
    let (bit, s) :=
      if pos < 8 * x.sbytes then
        match s.engineRead c rank m (BitVec.ofNat 64 (x.stream + pos / 8)) 1 with
        | (.ok bs, s) => (Except.ok (leNat bs / 2 ^ (pos % 8) % 2), s)
        | (.error e, s) => (.error e, s)
      else (.ok 0, s)
    match bit with
    | .error e => (.error e, s)
    | .ok b =>
      match s.streamBits c rank m (pos + 1) n with
      | (.ok v, s) => (.ok (b + 2 * v), s)
      | (.error e, s) => (.error e, s)

/-- Decode n symbols: their value as a little-endian number, the state and the position after them. -/
def State.decodeSymbols (s : State) (c : Crew) (rank : Nat) (m : Command) : Nat → Nat → Nat → Except UnitError (Nat × Nat × Nat) × State
  | 0, x, pos => (.ok (0, x, pos), s)
  | n + 1, x, pos =>
    let t := m.table.getD x 0
    match s.streamBits c rank m pos (entryNb t) with
    | (.error e, s) => (.error e, s)
    | (.ok v, s) =>
      match s.decodeSymbols c rank m n (entryBase t + v) (pos + entryNb t) with
      | (.error e, s) => (.error e, s)
      | (.ok (rest, x', pos'), s) =>
        (.ok (entrySym t % 2 ^ (xfmDesc m.bits).w + 2 ^ (xfmDesc m.bits).w * rest, x', pos'), s)

/-! ## Progress -/

/-- The command in flight of a progress record. -/
def Block.command? (b : Block) (rec : Nat) : Option Command := b.commands.find? fun m => m.recNo == rec

def Block.putCommand (b : Block) (m : Command) : Block :=
  { b with commands := updWhere (fun x => x.recNo == m.recNo) (fun _ => m) b.commands }

/-- Its progress record is freed (R233, R234); its 32 bytes are zero then (log entry 69). -/
def Block.freeRecord (b : Block) (rec : Nat) : Block :=
  { b.store (0xA00 + 32 * rec) (List.replicate 32 0) with commands := b.commands.filter fun x => x.recNo != rec }

/-- Update the gate of a command in every block that it completes in. -/
def State.onGates (s : State) (crew rank : Nat) (m : Command) (f : Block → Block) : State :=
  (targetRanks m.kind m.bits rank).foldl (fun s r =>
    match s.block? crew r with
    | none => s
    | some b => s.gateUpdate b (gateOff m.bits) f) s

/-- A command's held units are dropped. -/
def State.dropUnits (s : State) (crew rank rec : Nat) : State :=
  { s with held := s.held.filter fun h =>
      !(h.wave.crew == crew && h.wave.rank == rank && (match h.kind with | .unit r _ => r == rec | _ => false)) }

/-- DONE of units that stand before the first unwritten one. -/
def leading (written : List Nat) : Nat → Nat → Nat
  | 0, n => n
  | fuel + 1, n => if written.contains n then leading written fuel (n + 1) else n

/-- The completion word of a command is written in a block: a strong write of 4 bytes (R80, R102). -/
def State.putCword (s : State) (b : Block) (m : Command) : State :=
  let off := b.visible (cwordOff m.bits)
  let place := 8 * b.crew + b.rank
  let (bs, s) := s.strongWrite 0 place off (leBytes 4 (cvalue m.bits))
  s.putBlock (b.store off bs)

/-- Count the units before the first unwritten one (R234, R371); at the end the completion word is written (R102) and
the record freed. A command of no unit makes one update of 0, or writes its word at once (R235). -/
def State.countUnits (s : State) (crew rank : Nat) (m : Command) : State :=
  let done := leading m.written m.written.length m.done
  let s := if compl m.bits = 0 && (m.done < done || m.total = 0) then
      s.onGates crew rank m fun b => b.addToGate (gateOff m.bits) (16 * (done - m.done)) else s
  let m := { m with done := done, written := m.written.filter fun u => decide (done ≤ u) }
  let s := match s.block? crew rank with
    | none => s
    | some b => s.putBlock ((b.putWord (0xA00 + 32 * m.recNo + 4) done).putCommand m)
  if done < m.total then s
  else
    let s := if compl m.bits = 1 then (targetRanks m.kind m.bits rank).foldl (fun s r =>
        match s.block? crew r with
        | none => s
        | some b => s.putCword b m) s else s
    match s.block? crew rank with
    | none => s
    | some b => (s.putBlock (b.freeRecord m.recNo)).settle

/-- A wave can take the trap of its command: live, and not at a PHASE (R370). -/
def Wave.ownsCommands (w : Wave) : Bool := !w.hasExited && w.reached.isNone

/-- A command ends in error (R372): gates poisoned, the issuing wave trapped or an SUB 4 record written, the record
freed. A handler's own command fails the context (R356). -/
def State.commandError (s : State) (c : Crew) (rank : Nat) (m : Command) (cause sub : Nat) (a : BitVec 64) : State :=
  let s := s.dropUnits c.id rank m.recNo
  let s := if compl m.bits = 0 then s.onGates c.id rank m fun b => b.poisonGate (gateOff m.bits) else s
  let s := match s.block? c.id rank with
    | none => s
    | some b => s.putBlock (b.freeRecord m.recNo)
  let r : WaveRef := { crew := c.id, rank := rank, wave := m.wave }
  if m.fromHandler then s.failCrew c cause
  else
    match s.wave? r with
    | some w =>
      if w.ownsCommands then
        s.raise r { cause := cause, sub := sub, kind := 5, async := true, pc := m.pc, addr := a }
      else (s.postEvent c.part 4 c.queue m.desc c.ctx.ctag (0x30 + cause)).settle
    | none => (s.postEvent c.part 4 c.queue m.desc c.ctx.ctag (0x30 + cause)).settle

/-- A unit that misses is held with KIND 5 (R370); one of the handler's own fails the context (R356). -/
def State.holdUnit (s : State) (c : Crew) (rank : Nat) (m : Command) (unit : Nat) (a : BitVec 64) (sub : Nat) : State :=
  if m.fromHandler then s.failCrew c 0x08
  else
    let (st, s) := s.takeStamp
    let s := match s.block? c.id rank with
      | none => s
      | some b => s.putBlock (b.putCommand { m with held := if m.held.contains unit then m.held else m.held ++ [unit] })
    s.present { stamp := st, wave := { crew := c.id, rank := rank, wave := m.wave }, index := m.index, lane := unit, addr := a, size := 16,
                kind := .unit m.recNo unit, fmt := 0, data := 0, data2 := 0, landing := none, part := 0, pc := m.pc,
                fromHandler := false, context := c.ctx, partition := c.part, acquire := false,
                cluster := c.clusterNo, entry := none, saved := false } sub true

/-- Perform one unit of a command: `hold` says what a missing translation does. -/
def State.performUnit (s : State) (c : Crew) (rank : Nat) (m : Command) (unit : Nat)
    (hold : State → Command → BitVec 64 → Nat → State) : State :=
  let fail (s : State) (m : Command) : UnitError → State
    | .missing a sub => hold s m a sub
    | .busy =>
      match s.block? c.id rank with
      | none => s
      | some b => s.putBlock (b.putCommand { m with held := m.held.filter fun u => u != unit })
    | .error cause sub a => s.commandError c rank m cause sub a
  let written (s : State) (m : Command) : State :=
    s.countUnits c.id rank { m with written := m.written ++ [unit], held := m.held.filter fun u => u != unit }
  let (src, dst) := unitOf m.kind m.bits unit
  if m.kind != kindXfm then
    match s.readSources c rank m src with
    | (.error e, s) => fail s m e
    | (.ok bs, s) =>
      match s.engineWrite c rank m dst bs with
      | (.error e, s) => fail s m e
      | (.ok (), s) => written s m
  else if m.table.isEmpty then
    let x := xfmDesc m.bits
    match s.readTable c rank m with
    | (.error e, s) => fail s m e
    | (.ok t, s) =>
      if t.any (badEntry x) then s.commandError c rank m 0x0B 9 (BitVec.ofNat 64 x.table)
      else
        let m := { m with table := t, held := m.held.filter fun u => u != unit }
        match s.block? c.id rank with
        | none => s
        | some b =>
          let s := s.putBlock (b.putCommand m)
          if m.total = 0 then s.countUnits c.id rank m else s
  else
    match m.starts[unit]? with
    | none => s
    | some (x, pos) =>
      match s.decodeSymbols c rank m (128 / (xfmDesc m.bits).w) x pos with
      | (.error e, s) => fail s m e
      | (.ok (v, next), s) =>
        let m := { m with starts := m.starts.take (unit + 1) ++ next :: m.starts.drop (unit + 2) }
        match s.engineWrite c rank m dst (leBytes 16 v) with
        | (.error e, s) => fail s m e
        | (.ok (), s) => written s m

/-- One unit of a command's own accord (R234, R370). Before its state table is read, an XFM reads it as a unit past its
last one. -/
def execEngineUnitTransfer (crew rank : Nat) (rec : Fin 16) (unit : Nat) (s : State) : Host.Outcome State Fault Refusal :=
  match s.crew? crew, (s.block? crew rank).bind fun b => b.command? rec.val with
  | some c, some m =>
    let tableFirst := m.kind = kindXfm && m.table.isEmpty
    if !c.resident || m.held.contains unit || m.written.contains unit || unit < m.done || (!tableFirst && m.total ≤ unit) ||
        (tableFirst && unit != m.total) then .next s
    else .next (s.performUnit c rank m unit fun s m a sub => s.holdUnit c rank m unit a sub)
  | _, _ => .next s

/-! ## Issue (R233) -/

/-- The first progress record not in use. -/
def Block.freeRecordNo (b : Block) : Option Nat := (List.range 16).find? fun k => (b.command? k).isNone

/-- The gangs of a wave, those of its entry frame among them. -/
def Wave.allGangs (w : Wave) : List Gang := w.gangs ++ (w.frame.map fun f => f.gangs).getD []

/-- The cohorts of a block that have taken a progress record and wait for their descriptor (R233). -/
def State.takenRecords (s : State) (crew rank : Nat) : Nat :=
  ((s.waves.filter fun w => w.ref.crew == crew && w.ref.rank == rank).map fun w =>
    (w.allGangs.filter fun g => match g.wait with | .descriptor true _ => true | _ => false).length).sum

/-- A block has a progress record that no command and no cohort has taken (R233). -/
def State.recordFree (s : State) (crew rank : Nat) : Bool :=
  match s.block? crew rank with
  | none => true
  | some b => decide (((List.range 16).filter fun k => (b.command? k).isSome).length + s.takenRecords crew rank < 16)

/-- What reading a descriptor gives, or the page to wait for. -/
inductive DescRead where
  | got (x : Got)
  | missing (p : Piece) (sub : Nat)

/-- The checks of R328 on a descriptor's 16-byte units, with LD's causes (R233, R363): its pieces, each with its first byte in
the descriptor, or the earliest check that fails. -/
def State.reachDesc (s : State) (w : Wave) (c : Crew) (a : BitVec 64) (n kind : Nat) : Except Failure (List Piece) × State :=
  let f : AccessForm := { size := 16, align := 16, need := { r := true }, write := false, kind := kind }
  let (rs, s') := (List.range (n / 16)).foldl (fun (acc : List (Except Failure (List Piece)) × State) k =>
    let (r, s) := acc.2.reachLane w c f 0 (a + BitVec.ofNat 64 (16 * k))
    (acc.1 ++ [r], s)) ([], s)
  let bad := rs.filterMap fun r => match r with | .error e => some e | _ => none
  let step := bad.foldl (fun m x => min m x.step) 9
  match bad.find? fun x => x.step == step with
  | some e => (.error e, s)
  | none => (.ok (rs.zipIdx.flatMap fun (r, k) =>
      match r with
      | .ok l => l.map fun (p : Piece) => { p with off := 16 * k + p.off }
      | _ => []), s')

/-- Read a descriptor whose pieces have been reached. -/
def State.readDesc (s : State) (w : Wave) (c : Crew) (a : BitVec 64) (ps : List Piece) : DescRead × State :=
  let (outs, s) := ps.foldl (fun (acc : List (Piece × PieceRead) × State) p =>
    let (r, s) := acc.2.readPiece w c none p
    match r with
    | .bytes bs => let (bs, s) := s.portRead w c w.roundIssued 0 p bs; (acc.1 ++ [(p, .bytes bs)], s)
    | r => (acc.1 ++ [(p, r)], s)) ([], s)
  match outs.findSome? fun x => match x.2 with | .held sub => some (x.1, sub) | _ => none with
  | some (p, sub) => (.missing p sub, s)
  | none =>
    match outs.findSome? fun x => match x.2 with | .poison k => some k | _ => none with
    | some k => (.got (.lost 0x0E k a), s)
    | none => (.got (.bits a (leNat (outs.flatMap fun x => match x.2 with | .bytes bs => bs | _ => []))), s)

/-- A descriptor read is held: the gang stays within its instruction (R334), with the progress record that an engine command has
taken (R233). The held access keeps the instruction's lanes and the gang's slices, the descriptor's address, and whether its
units lie 384 bytes apart. -/
def State.holdDesc (s : State) (c : Issue) (kind : Nat) (a : BitVec 64) (lanes : LaneMask) (split : Bool) (p : Piece) (sub : Nat) : State :=
  let s := s.holdPiece c (.descriptor kind) (if split then 1 else 0) ((c.gang.slices ++ lanes).setWidth 128) a none false
    (LaneMask.lowest lanes) p sub
  match s.wave? c.wave.ref with
  | some w => s.putWave (w.park c.gang (.descriptor (kind == 5) none))
  | none => s

/-- An address steers to STACK. -/
def inStack (g : Segs) (a : BitVec 64) : Bool :=
  match steer g a with
  | .stack _ => true
  | _ => false

/-- A command goes on once its descriptor has been read (R233): its checks (R368), then it fills the progress record that it has
taken, and runs in the background. -/
def State.startCommand (s : State) (c : Issue) (i : Instr) (kind : Nat) (got : Got) : State :=
  let w := c.wave
  let rank := w.ref.rank
  match got with
  | .lost cause sub a =>
    let s := s.retire c i w
    if w.sup then s.failContext c.crew.part c.crew.ctx.ctag cause
    else s.raise w.ref { cause := cause, sub := sub, kind := 5, async := true, pc := c.gang.pc, addr := a }
  | .bits da d =>
    match s.descFault w c.crew kind d da with
    | some f => s.takeTrap w (c.trap f.cause f.sub f.addr c.activeGroup (if f.cause = 0x0B then 0 else 5))
    | none =>
      match (s.block? c.crew.id rank).bind Block.freeRecordNo with
      | none => s
      | some rec =>
        let m : Command :=
          { recNo := rec, kind := kind, wave := w.ref.wave, index := w.roundIssued % 1024, pc := c.gang.pc, desc := da.toNat, bits := d, segs := w.segs
            total := totalUnits kind d, done := 0, written := [], held := []
            cur := (List.range c.crew.size).map fun r => match s.block? c.crew.id r with | some b => b.curs | none => 0
            table := [], starts := [((xfmDesc d).init, 0)], fromHandler := w.sup }
        let s := s.retire c i w
        match s.block? c.crew.id rank with
        | none => s
        | some b =>
          let b := b.store (0xA00 + 32 * rec) (leBytes 4 (2 ^ 31 + 2 ^ 28 * kind + 2 ^ 16 * w.ref.wave) ++ leBytes 4 0 ++
            leBytes 8 da.toNat ++ leBytes 4 m.total ++ leBytes 12 0)
          let s := s.putBlock { b with commands := b.commands ++ [m] }
          if kind = kindXfm then s.performUnit c.crew rank m m.total fun s m a sub => s.holdUnit c.crew rank m m.total a sub
          else if m.total = 0 then s.countUnits c.crew.id rank m else s

/-- The frame of COPY, COPYW, COPYS and XFM (R233, R368): the checks of the descriptor's address, the waits for a progress
record, which it takes, and for earlier held accesses (R344), the descriptor's read, then the command. No byte of the
descriptor is read while it waits. -/
def engineCommand (i : Instr) (kind : Nat) (o : Opnd) (s : State) : Host.Outcome State Fault Refusal :=
  issue i plain s fun c =>
    match c.gang.wait with
    | .descriptor _ (some got) => s.startCommand c i kind got
    | .descriptor _ none => s
    | _ =>
    let w := c.wave
    let da := w.readG2 o.a.toNat
    let trap (cause sub : Nat) : State := s.takeTrap w (c.trap cause sub da c.activeGroup 5)
    if da.toNat % 64 != 0 then trap 0x05 0
    else if canonical da && inStack w.segs da then trap 0x06 0
    else match s.reachDesc w c.crew da 64 5 with
    | (.error f, _) => trap f.cause f.sub
    | (.ok ps, s') =>
      if !s.recordFree c.crew.id w.ref.rank then s.putWave (w.park c.gang .record)
      else if (!w.sup && !(s.heldOf w.ref).isEmpty) || s.piecesHeld c.crew.id [(0, ps)] then s.putWave (w.park c.gang .held)
      else match s'.readDesc w c.crew da ps with
      | (.missing p sub, s) => s.holdDesc c 5 da c.activeGroup false p sub
      | (.got got, s) => s.startCommand c i kind got

def execCopy (o : Opnd) (s : State) : Host.Outcome State Fault Refusal := engineCommand (.copy o) kindCopy o s
def execCopyw (o : Opnd) (s : State) : Host.Outcome State Fault Refusal := engineCommand (.copyw o) kindCopyw o s
def execCopys (o : Opnd) (s : State) : Host.Outcome State Fault Refusal := engineCommand (.copys o) kindCopys o s
def execXfm (o : Opnd) (s : State) : Host.Outcome State Fault Refusal := engineCommand (.xfm o) kindXfm o s

/-! ## GATEINIT, GATEARM and PUBLISH -/

/-- A region-table entry that is valid and double-buffered (R237). -/
def Block.doubleBuffered (b : Block) (i : Nat) : Bool := (b.region i).isSome

/-- The block and offset that a gate locator names (R232, R363), or the cause it fails with. -/
def State.gateAt (s : State) (w : Wave) (c : Crew) (loc : Word) : Except Nat (Nat × Nat) :=
  let n := loc.toNat
  let off := bits n 19 0
  if n % 16 != 0 then .error 0x05
  else if bits n 31 24 != 0 then .error 0x06
  else match c.rankOf w.ref.rank (bits n 23 20) with
  | none => .error 0x06
  | some r =>
    match s.block? c.id r with
    | none => .error 0x06
    | some b => if s.tileRunOk c b w.segs.tileLimit.toNat off 16 true then .ok (r, off) else .error 0x06

/-- The frame of GATEINIT and GATEARM: a write, which waits for earlier held reads (R344). -/
def gateOp (i : Instr) (o : Opnd) (s : State) (refuse : Block → Bool) (f : Issue → Block → Nat → Block) : Host.Outcome State Fault Refusal :=
  issue i plain s fun c =>
    let loc := c.wave.readG o.a.toNat
    match s.gateAt c.wave c.crew loc with
    | .error cause => s.takeTrap c.wave (c.trap cause 0 (loc.setWidth 64) c.activeGroup 1)
    | .ok (r, off) =>
      match s.block? c.crew.id r with
      | none => s
      | some b =>
        if refuse b then s.takeTrap c.wave (c.trap 0x0B 10 (loc.setWidth 64) c.activeGroup)
        else if !c.wave.sup && s.mustWait c.wave.ref true false then s.putWave (c.wave.park c.gang .held)
        else (s.gateUpdate b off fun b => f c b off).retire c i c.wave

/-- GATEINIT (R236, R369). -/
def execGateinit (o : Opnd) (s : State) : Host.Outcome State Fault Refusal :=
  let region := o.ext.imm.toNat % 16
  let pub := o.ext.imm.getLsbD 4
  let arm := o.ext.mod.getLsbD 0
  gateOp (.gateinit o) o s (fun b => pub && !b.doubleBuffered region) fun c b off =>
    b.checkGate off { arrived := 0, expected := (c.wave.readG o.b.toNat).toNat, gen := 0
                      flags := 16 * region + (if arm then 8 else 0) + (if pub then 4 else 0) }

/-- GATEARM (R236): it adds to EXPECTED while the gate is armed. -/
def execGatearm (o : Opnd) (s : State) : Host.Outcome State Fault Refusal :=
  gateOp (.gatearm o) o s (fun _ => false) fun c b off =>
    let g := b.gate off
    let n := (c.wave.readG o.b.toNat).toNat
    b.checkGate off { g with expected := if g.armed then (g.expected + n) % 2 ^ 32 else n, flags := setBits g.flags 3 3 1 }

/-- PUBLISH (R237): a release, which waits for earlier held accesses (R103, R344). -/
def execPublish (o : Opnd) (s : State) : Host.Outcome State Fault Refusal :=
  let i := o.ext.imm.toNat % 16
  issue (.publish o) plain s fun c =>
    match s.block? c.crew.id c.wave.ref.rank with
    | none => s
    | some b =>
      if !b.doubleBuffered i then s.takeTrap c.wave (c.trap 0x0B 10 (BitVec.ofNat 64 i) c.activeGroup)
      else if !c.wave.sup && s.mustWait c.wave.ref true true then s.putWave (c.wave.park c.gang .held)
      else (s.putBlock (b.publish i)).retire c (.publish o) c.wave

end Sys2Proof.Machine

end
end

