-- ==== Sys2Proof/Machine/Smalt.lean ====
section
/-! DEFINITION. The Smalt lattice formats and block scaling (R120 to R132): the quantiser, its codes, and the MX and
e2m1x encoders. -/

namespace Sys2Proof

/-- A lattice format's box: the least coordinate and the number of values of a coset, the least coordinate of coset 1
being half a unit away. -/
structure Box where
  /-- Digit d of coset h has the coordinate d - bias + h × half. -/
  bias : Int
  half : Rat
  digits : Nat
  deriving DecidableEq, Repr

/-- l8x2: c = d - 1 - h/2 (R126). -/
def boxX2 : Box := { bias := 1, half := -(mkRat 1 2), digits := 4 }

/-- l8x4: c = d - 4 + h/2 (R127). -/
def boxX4 : Box := { bias := 4, half := mkRat 1 2, digits := 8 }

/-- The coordinate of a digit. -/
def Box.coord (b : Box) (h : Bool) (d : Nat) : Rat := ((d : Int) - b.bias : Int) + (if h then b.half else 0)

/-- The coordinates of a coset's box, ascending. -/
def Box.values (b : Box) (h : Bool) : List Rat := (List.range b.digits).map (b.coord h)

/-- The sum of rationals. -/
def ratSum (l : List Rat) : Rat := l.foldl (fun a x => a + x) 0

/-- The first place with the greatest value of a key. -/
def firstMax (l : List Rat) : Nat :=
  (l.zipIdx.foldl (fun (best : Rat × Nat) x => if best.1 < x.1 then x else best) (l.headD 0, 0)).2

/-- An integer-valued rational is odd. -/
def oddRat (q : Rat) : Bool := q.num % 2 != 0

/-- Change place k of a list. -/
def modAt (l : List Rat) (k : Nat) (f : Rat → Rat) : List Rat := l.zipIdx.map fun x => if x.2 == k then f x.1 else x.1

/-- The squared distance of two points. -/
def dist2 (a b : List Rat) : Rat := ratSum ((a.zip b).map fun x => (x.1 - x.2) * (x.1 - x.2))

/-- The nearest point of coset h, ties to the lower coordinate, parity repaired (R129). -/
def nearestPoint (y : List Rat) (h : Bool) : List Rat :=
  let g : Rat := if h then mkRat 1 2 else 0
  let c := y.map fun v => (((v - g - mkRat 1 2).ceil : Int) : Rat) + g
  if oddRat (ratSum c) then
    let k := firstMax ((y.zip c).map fun x => ratAbs (x.1 - x.2))
    let v := y.getD k 0
    modAt c k fun x =>
      if x < v then x + 1 else if v < x then x - 1 else if x < 0 then x + 1 else if 0 < x then x - 1 else 1
  else c

/-- Of the values given, the nearest to v; on a tie the lower. -/
def nearestOf (v : Rat) (xs : List Rat) : Rat :=
  xs.foldl (fun best x => if ratAbs (v - x) < ratAbs (v - best) then x else best) (xs.headD 0)

/-- The best point of coset h's box, its parity repaired (R130). -/
def boxedPoint (b : Box) (y : List Rat) (h : Bool) : List Rat :=
  let vs := b.values h
  let p := y.map fun v => nearestOf v vs
  if oddRat (ratSum p) then
    let n := (y.zip p).map fun x => nearestOf x.1 (vs.filter fun u => u != x.2)
    let add := (y.zip (p.zip n)).map fun x => (x.1 - x.2.2) * (x.1 - x.2.2) - (x.1 - x.2.1) * (x.1 - x.2.1)
    let k := firstMax (add.map fun a => -a)
    modAt p k fun _ => n.getD k 0
  else p

/-- A lattice point: its coordinates and coset, and whether the box overflowed. -/
structure Point where
  c : List Rat
  h : Bool
  overflow : Bool
  deriving DecidableEq, Repr

/-- Q (R129, R130). -/
def quantise (b : Box) (y : List Rat) : Point :=
  let c0 := nearestPoint y false
  let c1 := nearestPoint y true
  let h := decide (dist2 y c1 < dist2 y c0)
  let c := if h then c1 else c0
  if c.all fun x => (b.values h).contains x then { c := c, h := h, overflow := false }
  else
    let b0 := boxedPoint b y false
    let b1 := boxedPoint b y true
    if dist2 y b1 < dist2 y b0 then { c := b1, h := true, overflow := true } else { c := b0, h := false, overflow := true }

/-- The digits of a point (R130). -/
def Box.digitsOf (b : Box) (p : Point) : List Nat :=
  p.c.map fun x => (x - (if p.h then b.half else 0) + (b.bias : Rat)).num.toNat

/-- An l8x2 code (R126). -/
def encodeX2 (p : Point) : Nat :=
  let d := boxX2.digitsOf p
  (d.take 7).zipIdx.foldl (fun n x => n + x.1 * 4 ^ x.2) 0 + d.getD 7 0 / 2 * 2 ^ 14 + (if p.h then 2 ^ 15 else 0)

/-- An l8x4 code without its gain (R127). -/
def encodeX4 (p : Point) : Nat :=
  let d := boxX4.digitsOf p
  (d.take 7).zipIdx.foldl (fun n x => n + x.1 * 8 ^ x.2) 0 + d.getD 7 0 / 2 * 2 ^ 21 + (if p.h then 2 ^ 23 else 0)

/-- The coordinates of an l8x2 code (R126). -/
def coordsX2 (code : Nat) : List Rat :=
  let d := (List.range 7).map fun k => bits code (2 * k + 1) (2 * k)
  let top := bits code 14 14 * 2
  let d7 := top + (d.foldl (fun a b => a + b) top) % 2
  (d ++ [d7]).map (boxX2.coord (bits code 15 15 = 1))

/-- The coordinates of an l8x4 code (R127). -/
def coordsX4 (code : Nat) : List Rat :=
  let d := (List.range 7).map fun k => bits code (3 * k + 2) (3 * k)
  let top := bits code 22 21 * 2
  let d7 := top + (d.foldl (fun a b => a + b) top) % 2
  (d ++ [d7]).map (boxX4.coord (bits code 23 23 = 1))

/-- The gain of an l8x4 code; none for a NaN gain. -/
def gainX4 (code : Nat) : Option Rat :=
  match e4m3.decode (bits code 30 24) with
  | .fin _ m => some m
  | _ => none

/-- The zero point's codes. -/
def zeroX2 : Nat := 0x1555
def zeroX4 : Nat := 0x524924

/-- The factor of a scale byte (R121); none for a NaN block. -/
def scaleOf (e : Nat) : Option Rat := if e = 255 then none else some (pow2 ((e : Int) - 127))

/-- The eight values of an l8x2 code under a scale. -/
def valuesX2 (code e : Nat) : List (Option Rat) := (coordsX2 code).map fun c => (scaleOf e).map fun s => c * s

/-- The eight values of an l8x4 code. -/
def valuesX4 (code : Nat) : List (Option Rat) := (coordsX4 code).map fun c => (gainX4 code).map fun g => c * g

/-! ## Block scaling -/

/-- The magnitude of the largest element; none where one is a NaN or infinite. -/
def amaxOf (x : List FVal) : Option Rat :=
  x.foldl (fun a v => match a, v with
    | some m, .fin _ n => some (max m n)
    | _, _ => none) (some 0)

/-- The scale byte of a block (R122). -/
def mxScale (x : List FVal) (emax : Int) : Nat :=
  match amaxOf x with
  | none => 255
  | some m => if m = 0 then 127 else (min (max (floorLog2 m - emax + 127) 0) 254).toNat

/-- The exact value of a finite element. -/
def FVal.real : FVal → Rat
  | .fin n m => signedRat n m
  | _ => 0

/-- The element divided by a positive scale. -/
def FVal.scaled (v : FVal) (s : Rat) : FVal :=
  match v with
  | .fin n m => .fin n (m / s)
  | v => v

/-- An MX block of e4m3 or e5m2: its scale and codes (R122). -/
def mxEncode (f : FloatFmt) (x : List FVal) : Nat × List Nat :=
  let sb := mxScale x f.emax
  match scaleOf sb with
  | none => (255, x.map fun _ => 0)
  | some s => (sb, x.map fun v => (f.narrow 0 false true (v.scaled s)).code)

/-- An e2m1x block: scale, spare and codes (R124). -/
def e2m1xEncode (x : List FVal) : Nat × Nat × List Nat :=
  let sb := mxScale x 2
  match scaleOf sb with
  | none => (255, 0, x.map fun _ => 0)
  | some s =>
    if x.all fun v => v.real == 0 then (127, 0, x.map fun _ => 0)
    else
      let y := x.map fun v => v.scaled s
      let q := y.map fun v => (e2m1.narrow 0 false true v).code
      let err := (y.zip q).map fun p => ratAbs (p.1.real - (e2m1.decode p.2).real)
      let j := firstMax err
      let sp := (e4m3.narrow 0 false true (y.getD j (.fin false 0))).code
      let spv := (e4m3.decode sp).real
      (sb, sp, (y.zip (q.zip err)).map fun p =>
        if ratAbs (p.1.real - spv) < p.2.2 then 8 else if p.2.1 = 8 then 0 else p.2.1)

/-- An l8x2 block of 32 values: scale, four codes and whether a box overflowed (R131). -/
def l8x2Encode (x : List FVal) : Nat × List Nat × Bool :=
  match amaxOf x with
  | none => (255, List.replicate 4 zeroX2, false)
  | some m =>
    if m = 0 then (127, List.replicate 4 zeroX2, false)
    else
      let e := (min (max (floorLog2 m + 127) 0) 254).toNat
      let s := pow2 ((e : Int) - 127)
      let ps := (List.range 4).map fun g => quantise boxX2 (((x.drop (8 * g)).take 8).map fun v => v.real / s)
      (e, ps.map encodeX2, ps.any fun p => p.overflow)

/-- The nibble in which element i of a block of 4-bit codes lies (R125). -/
def nibbleOf (i : Nat) : Nat := 8 * (i % 4) + i / 4

/-- The element that nibble j holds. -/
def elementOf (j : Nat) : Nat := 4 * (j % 8) + j / 8

/-- The 16 bytes of a block of 32 4-bit codes (R125). -/
def packNibbles (codes : List Nat) : List Byte :=
  (List.range 16).map fun k =>
    BitVec.ofNat 8 (codes.getD (elementOf (2 * k)) 0 % 16 + 16 * (codes.getD (elementOf (2 * k + 1)) 0 % 16))

/-- The code of element i in 16 bytes. -/
def nibbleAt (bs : List Byte) (i : Nat) : Nat :=
  let j := nibbleOf i
  let b := (bs.getD (j / 2) 0).toNat
  if j % 2 = 0 then b % 16 else b / 16

/-- The value of an e2m1x code under a scale and a spare (R123); none for a NaN. -/
def e2m1xValue (e spare code : Nat) : Option Rat :=
  match scaleOf e with
  | none => none
  | some s =>
    if code = 8 then
      match e4m3.decode spare with
      | .fin n m => some (signedRat n m * s)
      | _ => none
    else some ((e2m1.decode code).real * s)

end Sys2Proof
end

