-- ==== Sys2Proof/Machine/Special.lean ====
section
/-! DEFINITION. The special functions of FSFU (R170): the correctly rounded ones, and the ones of which the spec gives a
bound, where an implementation's result is a free value within the bound (log entry 10). -/

namespace Sys2Proof

/-! ## Close rational values of the exact functions, for the bounds -/

/-- Keep 200 bits of fraction. -/
def cut (q : Rat) : Rat := mkRat (q * ((2 ^ 200 : Nat) : Rat)).floor (2 ^ 200)

/-- π and ln 2, to 320 bits of fraction. -/
def piQ : Rat :=
  mkRat 6710401180212168915155840974220003240804194089427148950727106424351713218671805380099500388914039 (2 ^ 320)
def ln2Q : Rat :=
  mkRat 1480553391661173448385607439722553250922680800745876974795605978609098082859138712941075737848984 (2 ^ 320)

/-- The sum of a series of terms, each the one before times x over the next divisor. -/
def series (x : Rat) (divs : List Nat) (first : Rat) : Rat :=
  (divs.foldl (fun (sum, t) d => let t := cut (t * x / (d : Rat)); (sum + t, t)) (first, first)).1

/-- e^x for |x| ≤ 1. -/
def expSmall (x : Rat) : Rat := series x ((List.range 40).map fun k => k + 1) 1

/-- 2^x. -/
def exp2Q (x : Rat) : Rat :=
  let k := x.floor
  if k < -400 then pow2 (-400) else if 400 < k then pow2 400 else expSmall (cut ((x - (k : Rat)) * ln2Q)) * pow2 k

/-- e^x. -/
def expQ (x : Rat) : Rat := exp2Q (if x < -300 then -400 else if 300 < x then 400 else cut (x / ln2Q))

/-- log2 of a positive x. -/
def log2Q (x : Rat) : Rat :=
  let k := floorLog2 x
  let m := x / pow2 k
  let z := cut ((m - 1) / (m + 1))
  let z2 := cut (z * z)
  let sum := ((List.range 70).foldl (fun (sum, p) n => (sum + p / ((2 * n + 1 : Nat) : Rat), cut (p * z2))) (((0 : Rat), z))).1
  (k : Rat) + 2 * sum / ln2Q

/-- sin and cos of x, after the exact reduction by multiples of 2π. -/
def reduce (x : Rat) : Rat := cut (x - ((x / (2 * piQ) + mkRat 1 2).floor : Rat) * (2 * piQ))

def sinQ (x : Rat) : Rat :=
  let r := reduce x
  series (-(cut (r * r))) ((List.range 24).map fun k => (2 * k + 2) * (2 * k + 3)) r

def cosQ (x : Rat) : Rat :=
  let r := reduce x
  series (-(cut (r * r))) ((List.range 24).map fun k => (2 * k + 1) * (2 * k + 2)) 1

def tanhQ (x : Rat) : Rat :=
  let e := expQ (2 * (if x < -100 then -100 else if 100 < x then 100 else x))
  (e - 1) / (e + 1)

def sigmQ (x : Rat) : Rat := 1 / (1 + expQ (-(if x < -250 then -250 else if 100 < x then 100 else x)))

/-- The square root of a positive x, to 80 bits and more. -/
def sqrtQ (x : Rat) : Rat :=
  let k := floorLog2 x / 2
  let y := x / pow2 (2 * k)
  (natSqrt 102 (y * ((2 ^ 200 : Nat) : Rat)).floor.toNat : Rat) / ((2 ^ 100 : Nat) : Rat) * pow2 k

/-! ## Results within a bound -/

/-- The spacing of f32 at a value. -/
def ulpAt (v : Rat) : Rat := if v = 0 then pow2 (-149) else pow2 (max (floorLog2 (ratAbs v)) (-126) - 23)

/-- A result within `bound` of the exact value, between lo and hi: the implementation's own value if it is so, else the
exact value, held between lo and hi, rounded. v is the exact value but for less than 2^-20 ulp, which is taken off the
bound (log entry 10). The result is inexact. -/
def boundedRes (fn : Nat) (ftz : Bool) (x : Word) (v bound lo hi : Rat) : FRes :=
  let tol := bound - ulpAt v / 1048576
  let own := (Config.special fn x).toNat
  let ok :=
    match f32.decode own with
    | .fin neg m => let c := signedRat neg m; decide (ratAbs (c - v) ≤ tol) && decide (lo ≤ c) && decide (c ≤ hi)
    | _ => false
  let code := if ok then own else (f32.roundRat 0 false (v < 0) (max lo (min hi v))).code
  match f32.decode code with
  | .fin neg m =>
    if m < pow2 (-126) then { code := if ftz then f32.encodeFin neg 0 else code, flags := UF ||| NX }
    else { code := code, flags := NX }
  | _ => { code := code, flags := NX }

/-- Nothing beyond f32's own range. -/
def wide : Rat := f32.largest

/-- 1/A, correctly rounded. -/
def frcp (mode : RMode) (ftz : Bool) (x : FVal) : FRes :=
  match x with
  | .nan s => f32.nanRes s
  | .inf neg => { code := f32.encodeFin neg 0 }
  | .fin neg m => if m = 0 then { code := f32.encodeInf neg, flags := DZ } else f32.roundMag mode ftz neg (1 / m)

/-- √A, correctly rounded: an inexact root is a little above the value found, which no rounding can tell. -/
def fsqrt (mode : RMode) (ftz : Bool) (x : FVal) : FRes :=
  match x with
  | .nan s => f32.nanRes s
  | .inf neg => if neg then f32.nanRes true else { code := f32.encodeInf false }
  | .fin neg m =>
    if m = 0 then { code := f32.encodeFin neg 0 }
    else if neg then f32.nanRes true
    else
      let r := sqrtQ m
      f32.roundMag mode ftz false (if r * r = m then r else r + pow2 (floorLog2 r - 90))

/-- 1/√A within 1 ulp. -/
def frsq (ftz : Bool) (w : Word) (x : FVal) : FRes :=
  match x with
  | .nan s => f32.nanRes s
  | .inf neg => if neg then f32.nanRes true else { code := f32.encodeFin false 0 }
  | .fin neg m =>
    if m = 0 then { code := f32.encodeInf neg, flags := DZ }
    else if neg then f32.nanRes true
    else
      let v := 1 / sqrtQ m
      let r := boundedRes 1 ftz w v (ulpAt v) 0 wide
      match f32.decode r.code with
      | .fin _ c => if c * c * m = 1 then { r with flags := 0 } else r
      | _ => r

/-- 2^A within 2 ulp, exact powers of two. -/
def fexp2 (ftz : Bool) (w : Word) (x : FVal) : FRes :=
  match x with
  | .nan s => f32.nanRes s
  | .inf neg => if neg then { code := f32.encodeFin false 0 } else { code := f32.encodeInf false }
  | .fin neg m =>
    let q := signedRat neg m
    if 128 ≤ q then { code := f32.encodeInf false, flags := OF ||| NX }
    else if q.den = 1 && decide (-149 ≤ q) then f32.roundMag 0 ftz false (pow2 q.num)
    else
      let v := exp2Q q
      boundedRes 3 ftz w v (2 * ulpAt v) 0 wide

/-- log2 A. -/
def flog2 (ftz : Bool) (w : Word) (x : FVal) : FRes :=
  match x with
  | .nan s => f32.nanRes s
  | .inf neg => if neg then f32.nanRes true else { code := f32.encodeInf false }
  | .fin neg m =>
    if m = 0 then { code := f32.encodeInf true, flags := DZ }
    else if neg then f32.nanRes true
    else if pow2 (floorLog2 m) = m then f32.roundRat 0 ftz false (floorLog2 m : Rat)
    else
      let v := log2Q m
      let b := if mkRat 1 2 ≤ m && m ≤ 2 then pow2 (-22) else 2 * ulpAt v
      boundedRes 4 ftz w v b (-wide) wide

/-- sin A and cos A. -/
def fsin (ftz : Bool) (w : Word) (x : FVal) : FRes :=
  match x with
  | .nan s => f32.nanRes s
  | .inf _ => f32.nanRes true
  | .fin neg m =>
    if m = 0 then { code := f32.encodeFin neg 0 }
    else
      let v := sinQ (signedRat neg m)
      boundedRes 5 ftz w v (max (2 * ulpAt v) (pow2 (-22))) (-1) 1

def fcos (ftz : Bool) (w : Word) (x : FVal) : FRes :=
  match x with
  | .nan s => f32.nanRes s
  | .inf _ => f32.nanRes true
  | .fin neg m =>
    if m = 0 then { code := f32.encodeFin false 1 }
    else
      let v := cosQ (signedRat neg m)
      boundedRes 6 ftz w v (max (2 * ulpAt v) (pow2 (-22))) (-1) 1

/-- tanh A. -/
def ftanh (ftz : Bool) (w : Word) (x : FVal) : FRes :=
  match x with
  | .nan s => f32.nanRes s
  | .inf neg => { code := f32.encodeFin neg 1 }
  | .fin neg m =>
    if m = 0 then { code := f32.encodeFin neg 0 }
    else
      let v := tanhQ (signedRat neg m)
      boundedRes 7 ftz w v (max (2 * ulpAt v) (pow2 (-23))) (-1) 1

/-- 1/(1 + e^(-A)). -/
def fsigm (ftz : Bool) (w : Word) (x : FVal) : FRes :=
  match x with
  | .nan s => f32.nanRes s
  | .inf neg => { code := f32.encodeFin false (if neg then 0 else 1) }
  | .fin neg m =>
    if m = 0 then { code := f32.encodeFin false (mkRat 1 2) }
    else
      let v := sigmQ (signedRat neg m)
      boundedRes 8 ftz w v (max (2 * ulpAt v) (pow2 (-23))) 0 1

end Sys2Proof
end

