-- ==== Sys2Proof/Machine/Graphics.lean ====
section
/-! DEFINITION. The graphics instructions and tile retirement (R255 to R263), and the parts of the tile pipeline that
they read (R266 to R269, R271). -/

noncomputable section

namespace Sys2Proof

/-! ## Exact values -/

/-- The exact sum of values: NaN where one is or where both infinities occur; an exact zero is −0 only where every term
is. -/
def sumVals (l : List FVal) : FVal :=
  if l.any FVal.isNan then .nan false
  else
    let infs := l.filterMap fun v => match v with | .inf n => some n | _ => none
    match infs with
    | n :: r => if r.all (fun m => m == n) then .inf n else .nan false
    | [] =>
      let q := ratSum (l.map FVal.real)
      if q = 0 then .fin (!l.isEmpty && l.all fun v => match v with | .fin n _ => n | _ => false) 0
      else .fin (q < 0) (ratAbs q)

/-- A value times a positive rational. -/
def FVal.times (v : FVal) (q : Rat) : FVal :=
  match v with
  | .fin n m => .fin n (m * q)
  | v => v

/-- One rounding to a format: RN, subnormals kept, overflow to an infinity, no flag. -/
def FloatFmt.roundVal (f : FloatFmt) (v : FVal) : Nat :=
  match v with
  | .nan _ => f.canonicalNan
  | .inf n => f.encodeInf n
  | .fin n m => if m = 0 then f.encodeFin n 0 else (f.roundMag 0 false n m).code

/-- P / Q (R257). -/
def quotVal (p q : FVal) : FVal :=
  match p, q with
  | .nan _, _ => .nan false
  | _, .nan _ => .nan false
  | .inf _, .inf _ => .nan false
  | .inf a, .fin b _ => .inf (a != b)
  | .fin a _, .inf b => .fin (a != b) 0
  | .fin a m, .fin b n => if n = 0 then (if m = 0 then .nan false else .inf (a != b)) else .fin (a != b) (m / n)

end Sys2Proof

namespace Sys2Proof.Machine

/-! ## Tiles and pixels -/

/-- Tile columns and rows (R266). -/
def RenderPass.cols (r : RenderPass) : Nat := (r.width + r.edge - 1) / r.edge
def RenderPass.rows (r : RenderPass) : Nat := (r.height + r.edge - 1) / r.edge

/-- The pixel of record k, local to its tile (R268). -/
def pixelOf (edge k : Nat) : Nat × Nat :=
  let q := k / 4
  let m := k % 4
  (2 * (q % (edge / 2)) + m % 2, 2 * (q / (edge / 2)) + m / 2)

/-- Sample positions in 1/256 of a pixel (R269). -/
def samplePos (samples s : Nat) : Nat × Nat :=
  if samples = 1 then (128, 128)
  else match s with
  | 0 => (96, 32) | 1 => (224, 96) | 2 => (32, 160) | _ => (160, 224)

/-- The pass and tile of a tile-pass wave that may still use its tile. -/
def State.tilePass (s : State) (c : Crew) : Option (RenderPass × TilePass) :=
  match c.kind, s.passOf c with
  | .tile t, some r => some (r, t)
  | _, _ => none

/-- ROLE 2 outside a tile-pass wave, 7 once the tile has retired (R255, R362). -/
def pixelNeeds (c : Issue) : Needs :=
  match c.crew.kind with
  | .tile t => { place := if t.retired then some 7 else none }
  | _ => { place := some 2 }

/-- Words of the depth and primitive planes for a sample of a record (R267). -/
def RenderPass.depthAt (r : RenderPass) (b : Block) (k s : Nat) : Nat := b.word (r.planes.2.1 + 4 * (r.samples * k + s))
def RenderPass.primAt (r : RenderPass) (b : Block) (k s : Nat) : Nat := b.word (r.planes.2.2.1 + 4 * (r.samples * k + s))

/-- What PIXINFO gives for a record (R256). -/
def pixinfo (r : RenderPass) (t : TilePass) (b : Block) (sel s k : Nat) : Word :=
  let (x, y) := pixelOf r.edge k
  let prim := r.primAt b k s
  BitVec.ofNat 32 (match sel with
  | 0 => (t.tile % r.cols * r.edge + x) + 2 ^ 16 * (t.tile / r.cols * r.edge + y)
  | 1 => prim
  | 2 => ((List.range r.samples).map fun j => if r.primAt b k j = prim then 2 ^ j else 0).sum
  | 3 => r.depthAt b k s
  | _ => if r.backs.contains prim then 1 else 0)

/-- The lanes of a mask whose record has a pixel (R256). -/
def withPixel (r : RenderPass) (w : Wave) (m : LaneMask) : LaneMask :=
  laneSet (m.lanes.filter fun l => 96 * w.ref.wave + l < r.edge * r.edge)

/-- The frame of PIXINFO and IPA: the active lanes that have a pixel receive a value. -/
def perPixel (i : Instr) (o : Opnd) (f : Wave → RenderPass → TilePass → Block → Nat → Nat → Word) (s : State) :
    Host.Outcome State Fault Refusal :=
  issue i pixelNeeds s fun c =>
    match s.tilePass c.crew, s.block? c.crew.id c.wave.ref.rank with
    | some (r, t), some b =>
      let m := withPixel r c.wave (c.active o.ext)
      s.retire c i (c.wave.writeV o.d.toNat m fun l => f c.wave r t b (96 * c.wave.ref.wave + l) l)
    | _, _ => s.retire c i c.wave

/-- PIXINFO (R256). -/
def execPixinfo (o : Opnd) (s : State) : Host.Outcome State Fault Refusal :=
  perPixel (.pixinfo o) o (fun _ r t b k _ =>
    pixinfo r t b (o.ext.imm.toNat % 16) (o.ext.imm.toNat / 16 % 4 % r.samples) k) s

/-- The point of a record, in screen pixels (R257). -/
def pointAt (r : RenderPass) (t : TilePass) (imm : Nat) (k : Nat) : Rat × Rat :=
  let (x, y) := pixelOf r.edge k
  let (px, py) := if imm / 4 % 2 = 1 then samplePos r.samples (imm % 4 % r.samples) else (128, 128)
  (mkRat (256 * (t.tile % r.cols * r.edge + x) + px : Nat) 256, mkRat (256 * (t.tile / r.cols * r.edge + y) + py : Nat) 256)

/-- A plane equation at a point (R257). -/
def planeAt (w : Wave) (a l : Nat) (p : Rat × Rat) : FVal :=
  let v (n : Nat) : FVal := f32.decode ((w.readV (a + n)).at_ l).toNat
  sumVals [(v 0).times p.1, (v 1).times p.2, v 2]

/-- IPA (R257). -/
def execIpa (o : Opnd) (s : State) : Host.Outcome State Fault Refusal :=
  perPixel (.ipa o) o (fun w r t _ k l =>
    BitVec.ofNat 32 (f32.roundVal (planeAt w o.a.toNat l (pointAt r t o.ext.imm.toNat k)))) s

/-- IPA.persp (R257). -/
def execIpaPersp (o : Opnd) (s : State) : Host.Outcome State Fault Refusal :=
  perPixel (.ipaPersp o) o (fun w r t _ k l =>
    let p := pointAt r t o.ext.imm.toNat k
    BitVec.ofNat 32 (f32.roundVal (quotVal (planeAt w o.a.toNat l p) (planeAt w o.b.toNat l p)))) s

/-! ## Texture sampling (R258 to R260) -/

/-- A texture descriptor (R258). -/
structure Texture where
  base : Nat
  w : Nat
  h : Nat
  fmt : Nat
  lvm1 : Nat
  addrU : Nat
  addrV : Nat
  filt : Nat
  deriving DecidableEq, Repr

def textureOf (d : Nat) : Texture :=
  { base := dfield d 0 63 0, w := dfield d 8 15 0 + 1, h := dfield d 8 31 16 + 1, fmt := dfield d 0xC 1 0, lvm1 := dfield d 0xC 5 2,
    addrU := dfield d 0xC 7 6, addrV := dfield d 0xC 9 8, filt := dfield d 0xC 11 10 }

/-- A reserved value, or an LVM1 that is too large (R258, R260, R363). -/
def textureBad (d : Nat) : Bool :=
  let t := textureOf d
  t.fmt = 3 || t.addrU = 3 || t.addrV = 3 || t.filt = 3 || dfield d 0xC 31 12 != 0 || d / 2 ^ 128 % 2 ^ 128 != 0 ||
    t.base % 128 != 0 || Nat.log2 (max t.w t.h) < t.lvm1

/-- Bytes of a texel. -/
def Texture.tb (t : Texture) : Nat := if t.fmt = 1 then 8 else 4

/-- Width, height and pitch of a level. -/
def Texture.levelW (t : Texture) (m : Nat) : Nat := max 1 (t.w / 2 ^ m)
def Texture.levelH (t : Texture) (m : Nat) : Nat := max 1 (t.h / 2 ^ m)
def Texture.pitch (t : Texture) (m : Nat) : Nat := roundUp (t.levelW m * t.tb) 16

/-- Where a level starts. -/
def Texture.start (t : Texture) : Nat → Nat
  | 0 => t.base
  | m + 1 => t.start m + roundUp (t.levelH m * t.pitch m) 128

/-- The address of texel (i, j) of a level. -/
def Texture.texel (t : Texture) (m i j : Nat) : BitVec 64 := BitVec.ofNat 64 (t.start m + j * t.pitch m + i * t.tb)

/-- The channels of a texel. -/
def Texture.channels (t : Texture) (bs : List Byte) : List FVal :=
  match t.fmt with
  | 0 => (List.range 4).map fun k => .fin false (mkRat (bs.getD k 0).toNat 255)
  | 1 => (List.range 4).map fun k => f16.decode (numAt_ bs (2 * k) 2)
  | _ => [f32.decode (numAt_ bs 0 4), .fin false 0, .fin false 0, .fin false 1]
where
  numAt_ (bs : List Byte) (off n : Nat) : Nat := leNat ((bs.drop off).take n)

/-- A coordinate as a real: NaN is 0, clamped to ±2^20 (R260). -/
def coordOf (v : FVal) : Rat :=
  match v with
  | .nan _ => 0
  | .inf n => signedRat n (2 ^ 20 : Nat)
  | .fin n m => signedRat n (min m ((2 ^ 20 : Nat) : Rat))

/-- The address mode of an axis (R260). -/
def addressMode (mode n : Nat) (i : Int) : Nat :=
  match mode with
  | 0 => (i % n).toNat
  | 1 => (min (max i 0) (n - 1)).toNat
  | _ => let p := (i % (2 * n)).toNat; if p < n then p else 2 * n - 1 - p

/-- Texels and weights of an axis, the weights adding up to 256 (R260). -/
def axisTexels (bilinear : Bool) (mode n : Nat) (u : Rat) : List (Nat × Nat) :=
  if bilinear then
    let su : Int := (u * n * 256).floor - 128
    let i0 := su.fdiv 256
    let fu := (su - 256 * i0).toNat
    [(addressMode mode n i0, 256 - fu), (addressMode mode n (i0 + 1), fu)]
  else [(addressMode mode n (u * n).floor, 256)]

/-- λ after its clamp (R259). -/
def lodOf (t : Texture) (v : FVal) : Rat :=
  match v with
  | .nan _ => 0
  | .inf n => if n then 0 else (t.lvm1 : Rat)
  | .fin n m => if n then 0 else min m (t.lvm1 : Rat)

/-- Levels and their weights, out of 256 (R259). -/
def levelsOf (t : Texture) (lam : Rat) : List (Nat × Nat) :=
  if t.filt = 2 then
    let m0 := lam.floor.toNat
    let fl := ((lam - m0) * 256).floor.toNat
    [(m0, 256 - fl), (min (m0 + 1) t.lvm1, fl)]
  else [(min (lam + mkRat 1 2).floor.toNat t.lvm1, 256)]

/-- The texels of a sample with their weights, out of 2^24 (R259, R260). -/
def texelsOf (t : Texture) (u v : FVal) (lam : FVal) : List (BitVec 64 × Nat) :=
  (levelsOf t (lodOf t lam)).flatMap fun (m, wl) =>
    (axisTexels (t.filt != 0) t.addrV (t.levelH m) (coordOf v)).flatMap fun (j, wv) =>
      (axisTexels (t.filt != 0) t.addrU (t.levelW m) (coordOf u)).map fun (i, wu) => (t.texel m i j, wl * wv * wu)

/-- The filtered channels (R260). -/
def filtered (t : Texture) (ts : List (Nat × List Byte)) : List Word :=
  (List.range 4).map fun k =>
    BitVec.ofNat 32 (f32.roundVal (sumVals ((ts.filter fun x => x.1 != 0).map fun x =>
      ((t.channels x.2).getD k (.fin false 0)).times (mkRat x.1 (2 ^ 24)))))

/-- The checks of R328 for the texels of a lane: their pieces, each numbered by eight times its texel and its first byte
there, and the texels that fail. -/
def State.reachTexels (s : State) (w : Wave) (c : Crew) (t : Texture) (l : Nat) (as : List (BitVec 64)) :
    List Piece × List (BitVec 64 × Failure) × State :=
  let f : AccessForm := { size := t.tb, align := t.tb, need := { r := true }, write := false, kind := 0 }
  as.zipIdx.foldl (fun (ps, bad, s) (a, k) =>
    match s.reachLane w c f l a with
    | (.ok qs, s) => (ps ++ qs.map fun (q : Piece) => { q with off := 8 * k + q.off }, bad, s)
    | (.error e, s) => (ps, bad ++ [(a, e)], s)) ([], [], s)

/-- What reading the texels of a lane gives: the bytes of its units, those that are missing, and the first that consumes
poison, with SUB and address. -/
structure Texels where
  units : List (Nat × List Byte)
  missing : List (Piece × Nat)
  poison : Option (Nat × BitVec 64)
  deriving DecidableEq, Repr

/-- Read the texels of a lane whose pieces have been reached. -/
def State.readTexels (s : State) (w : Wave) (c : Crew) (l : Nat) (ps : List Piece) : Texels × State :=
  ps.foldl (fun (x, s) p =>
    match s.readPiece w c none p with
    | (.bytes bs, s) => let (bs, s) := s.portRead w c w.roundIssued l p bs; ({ x with units := x.units ++ [(p.off, bs)] }, s)
    | (.held sub, s) => ({ x with missing := x.missing ++ [(p, sub)] }, s)
    | (.poison k, s) => ({ x with poison := if x.poison.isNone then some (k, p.addr) else x.poison }, s)
    | (.refused _, s) => (x, s)) ({ units := [], missing := [], poison := none }, s)

/-- The words that a lane receives from the bytes of its texels (R260). -/
def sampledWords (t : Texture) (ts : List (BitVec 64 × Nat)) (units : List (Nat × List Byte)) : List Word :=
  filtered t (ts.zipIdx.map fun (x, k) =>
    (x.2, [8 * k, 8 * k + 4].flatMap fun n => ((units.find? fun u => u.1 == n).map fun u => u.2).getD []))

/-- The derivatives' λ of a quad (R259), as an f32 value: half the log2 of ρ². The max of two squared lengths of which one is
a NaN is a NaN (log entry 87). -/
def quadLod (ftz : Bool) (t : Texture) (w : Wave) (a l : Nat) : Word :=
  let l0 := l / 4 * 4
  let x (reg n : Nat) : FVal := f32.decode ((w.readV reg).at_ (l0 + n)).toNat
  let diff (reg n size : Nat) : FVal := (sumVals [x reg n, (x reg 0).negate]).times size
  let sq (v : FVal) : FVal := (mulVal v v).1
  let len (n : Nat) : FVal := sumVals [sq (diff a n t.w), sq (diff (a + 1) n t.h)]
  let lx := len 1
  let ly := len 2
  let rho := if lx.isNan || ly.isNan then FVal.nan false else if ltVal lx ly then ly else lx
  let code := f32.roundVal rho
  let lg := (flog2 ftz (BitVec.ofNat 32 code) (f32.decode code)).code
  BitVec.ofNat 32 (f32.roundVal ((f32.decode lg).times (mkRat 1 2)))

/-- The trap of a sampling instruction some of whose texels fail (R329): the earliest step, its lanes, the lowest's texel. -/
def Issue.texelTrap (c : Issue) (bad : List (Nat × BitVec 64 × Failure)) : Trap :=
  let step := bad.foldl (fun m x => min m x.2.2.step) 9
  let at_ := bad.filter fun x => x.2.2.step == step
  match at_ with
  | [] => c.trap 0 0 0 0
  | (_, a, x) :: _ => c.trap x.cause x.sub a (laneSet (at_.map fun y => y.1))

/-- The texels of a sampled lane, with their weights, from its coordinates and λ. -/
def sampleTexels (t : Texture) (u v lam : Word) : List (BitVec 64 × Nat) :=
  texelsOf t (f32.decode u.toNat) (f32.decode v.toNat) (f32.decode lam.toNat)

/-- A sampling instruction's producer. -/
def Wave.produceSample (w : Wave) (id : Nat) (o : Opnd) (lanes held : LaneMask) (f : Nat → List Word)
    (texels : List (Nat × Nat × List Byte)) : Wave :=
  w.produce { id := id, file := false, reg := o.d.toNat, lanes := lanes, pending := held, texels := texels
              data := (List.range 4).map fun k => Lanes.build fun l => (f l).getD k 0 }

/-- The lanes of a sampling instruction whose descriptor has been read: every texel is checked first (R329), each missing
page is presented (R334), and POISON is asynchronous (R363). -/
def State.sampleLanes (s : State) (c : Issue) (i : Instr) (o : Opnd) (got : Got) (d : Nat) (lam : Texture → Nat → Word) : State :=
  let w := c.wave
  let active := c.active o.ext
  let u (l : Nat) : Word := (w.readV o.a.toNat).at_ l
  let v (l : Nat) : Word := (w.readV (o.a.toNat + 1)).at_ l
  let t := textureOf d
  let texels (l : Nat) := sampleTexels t (u l) (v l) (lam t l)
  let (work, bad, s') := active.lanes.foldl (fun (acc : List (Nat × List Piece) × List (Nat × BitVec 64 × Failure) × State) l =>
    let (ps, b, s) := acc.2.2.reachTexels w c.crew t l ((texels l).map fun x => x.1)
    (acc.1 ++ [(l, ps)], acc.2.1 ++ b.map fun x => (l, x), s)) ([], [], s)
  if !bad.isEmpty then s.takeTrap w (c.texelTrap bad)
  else if (!w.sup && s.samePageHeld w.ref work) || s.piecesHeld c.crew.id work then s.putWave (w.park c.gang (.descriptor false (some got)))
  else
    let (id, s) := s'.takeStamp
    let (outs, s) := work.foldl (fun (acc : List (Nat × Texels) × State) x =>
      let (r, s) := acc.2.readTexels w c.crew x.1 x.2
      (acc.1 ++ [(x.1, r)], s)) ([], s)
    let held := outs.filter fun x => !x.2.missing.isEmpty
    let s := held.foldl (fun s x => x.2.missing.foldl (fun s m =>
      s.holdPiece c .texel (lam t x.1).toNat (BitVec.ofNat 128 d) (v x.1 ++ u x.1) (some id) false x.1 m.1 m.2 x.2.poison.isSome) s) s
    let words (l : Nat) : List Word :=
      match outs.find? fun x => x.1 == l with
      | some (_, x) => if x.poison.isNone && x.missing.isEmpty then sampledWords t (texels l) x.units else []
      | none => []
    let s := s.retire c i ((s.nowWave c).produceSample id o active (laneSet (held.map fun x => x.1)) words
      (held.flatMap fun x => x.2.units.map fun y => (x.1, y)))
    let lost := outs.filterMap fun x => x.2.poison.map fun p => (x.1, p)
    let s := lost.foldl (fun s x =>
      if w.sup then s.failCrew c.crew 0x0E
      else s.raiseLane w.ref { cause := 0x0E, sub := x.2.1, kind := 0, async := true, pc := c.gang.pc } x.1 x.2.2 (some id)) s
    match s.wave? w.ref with
    | some w => s.putWave w.settle
    | none => s

/-- A sampling instruction goes on once its descriptor has been read. -/
def State.startSample (s : State) (c : Issue) (i : Instr) (o : Opnd) (lam : Wave → Texture → Nat → Word) (got : Got) : State :=
  let lanes := c.active o.ext
  match got with
  | .lost cause sub a =>
    let (id, s) := s.takeStamp
    (s.retire c i (c.wave.produceSample id o lanes 0 (fun _ => []) [])).raiseLanes c cause sub 0 lanes.lanes fun _ => a
  | .bits da d =>
    if textureBad d then s.takeTrap c.wave (c.trap 0x0B 6 da lanes) else s.sampleLanes c i o got d (lam c.wave)

/-- The frame of SAMPLE and SAMPLEL: the descriptor, read for each instruction, then the lanes (R258, R363). -/
def sampling (i : Instr) (o : Opnd) (lam : Wave → Texture → Nat → Word) (s : State) : Host.Outcome State Fault Refusal :=
  issue i plain s fun c =>
    match c.gang.wait with
    | .descriptor _ (some got) => s.startSample c i o lam got
    | .descriptor _ none => s
    | _ =>
    let w := c.wave
    let da := w.readG2 o.b.toNat
    let lanes := c.active o.ext
    if lanes = 0 then
      let (id, s) := s.takeStamp
      s.retire c i (w.produceSample id o 0 0 (fun _ => []) [])
    else if da.toNat % 32 != 0 then s.takeTrap w (c.trap 0x05 0 da lanes)
    else match s.reachDesc w c.crew da 32 0 with
    | (.error f, _) => s.takeTrap w (c.trap f.cause f.sub da lanes)
    | (.ok ps, s') =>
      if (!w.sup && (s.mustWait w.ref false false || s.samePageHeld w.ref [(0, ps)])) || s.piecesHeld c.crew.id [(0, ps)] then
        s.putWave (w.park c.gang .held)
      else match s'.readDesc w c.crew da ps with
      | (.missing p sub, s) => s.holdDesc c 0 da lanes (inStack w.segs da) p sub
      | (.got got, s) => s.startSample c i o lam got

/-- SAMPLE (R258, R259). -/
def execSample (o : Opnd) (s : State) : Host.Outcome State Fault Refusal :=
  sampling (.sample o) o (fun w t l => quadLod false t w o.a.toNat l) s

/-- SAMPLEL (R258, R259). -/
def execSamplel (o : Opnd) (s : State) : Host.Outcome State Fault Refusal :=
  sampling (.samplel o) o (fun w _ l => (w.readV o.ext.c.toNat).at_ l) s

/-! ## BLEND (R261) -/

/-- One channel. -/
def blendChannel (op : Nat) (sc dc sa : FVal) : Nat :=
  f16.roundVal (match op with
  | 0 => sc
  | 1 => sumVals [sc, (mulVal dc (sumVals [.fin false 1, sa.negate])).1]
  | 2 => sumVals [sc, dc]
  | _ => (mulVal sc dc).1)

/-- The colour field after a blend. -/
def blendBytes (op : Nat) (src : BitVec 64) (old : List Byte) : List Byte :=
  let ch (n k : Nat) : FVal := f16.decode (bits n (16 * k + 15) (16 * k))
  let d := leNat old
  (List.range 4).flatMap fun k => leBytes 2 (blendChannel op (ch src.toNat k) (ch d k) (ch src.toNat 3))

/-- BLEND (R261, R363). -/
def execBlend (o : Opnd) (s : State) : Host.Outcome State Fault Refusal :=
  issue (.blend o) pixelNeeds s fun c =>
    let w := c.wave
    let addr (l : Nat) : BitVec 64 := w.readV2 o.b.toNat l
    let f : AccessForm := { size := 8, align := 8, need := { r := true, w := true }, write := true, kind := 2 }
    let lanes := (c.active o.ext).lanes
    let isTile (l : Nat) : Bool := match steer w.segs (addr l) with | .tile _ _ => true | _ => false
    let other := (lanes.filter fun l => !isTile l).map fun l =>
      (l, ({ step := if (addr l).toNat % 8 != 0 then 1 else if canonical (addr l) then 3 else 2,
             cause := if (addr l).toNat % 8 != 0 then 5 else if canonical (addr l) then 6 else 7, sub := 0 } : Failure))
    let (ok, bad, s') := s.reachLanes w c.crew f addr (lanes.filter isTile)
    let bad := lanes.filterMap fun l => (bad ++ other).find? fun x => x.1 == l
    if !bad.isEmpty then s.takeTrap w (faultOf c f addr bad)
    else if !w.sup && s.mustWait w.ref true false then s.putWave (w.park c.gang .held)
    else
      let op := o.ext.mod.toNat
      let (outs, s) := ok.foldl (fun (acc : List (Nat × Rmw) × State) x =>
        x.2.foldl (fun (acc : List (Nat × Rmw) × State) p =>
          let (r, s) := acc.2.rmwPiece w c.crew (some 0) false p ownBytes fun bs => some (blendBytes op (w.readV2 o.a.toNat x.1) bs)
          (acc.1 ++ [(x.1, r)], s)) acc) ([], s')
      let pick (p : Rmw → Bool) : List Nat := (outs.filter fun x => p x.2).map fun x => x.1
      let s := s.retire c (.blend o) w
      let s := s.raiseLanes c 0x0E 2 2 (pick fun r => match r with | .poison _ => true | _ => false) addr
      let s := s.raiseLanes c 0x0A 1 2 (pick fun r => r == .refused 1) addr
      s.raiseLanes c 0x0A 2 2 (pick fun r => r == .refused 2) addr

/-! ## BIN (R262, R271) -/

/-- A coordinate snapped to 16.8; none where the triangle is culled for it. -/
def snap (x : Word) : Option Int :=
  match f32.decode x.toNat with
  | .fin n m =>
    let q := signedRat n m
    if q < -32768 || mkRat (32768 * 256 - 1) 256 < q then none
    else let k := (roundQuanta 0 n (m * 256) : Int); some (if n then -k else k)
  | _ => none

/-- A triangle as the binner resolves it: snapped vertices with A > 0, its z and q, and whether it is back-facing and
was exchanged. -/
structure Triangle where
  xy : List (Int × Int)
  z : List Word
  q : List Word
  area : Int
  back : Bool
  swap : Bool
  deriving DecidableEq, Repr

/-- Resolve a submission; none where it is culled (R262, R271). -/
def RenderPass.resolve (r : RenderPass) (v : List Word) : Option Triangle :=
  let w (k : Nat) : Word := v.getD k 0
  let nan (k : Nat) : Bool := (f32.decode (w k).toNat).isNan
  match [0, 4, 8].mapM (fun k => snap (w k)), [1, 5, 9].mapM (fun k => snap (w k)) with
  | some xs, some ys =>
    let x (k : Nat) : Int := xs.getD k 0
    let y (k : Nat) : Int := ys.getD k 0
    let a := (x 1 - x 0) * (y 2 - y 0) - (x 2 - x 0) * (y 1 - y 0)
    if [2, 3, 6, 7, 10, 11].any nan || a = 0 then none
    else
      let back := if r.front then 0 < a else a < 0
      if (r.cull = 1 && back) || (r.cull = 2 && !back) then none
      else
        let order := if a < 0 then [0, 2, 1] else [0, 1, 2]
        some { xy := order.map fun k => (x k, y k), z := order.map fun k => w (4 * k + 2), q := order.map fun k => w (4 * k + 3),
               area := if a < 0 then -a else a, back := back, swap := a < 0 }
  | _, _ => none

/-- The tiles of a range of one axis, clipped to the grid. -/
def tileSpan (lo hi : Int) (edge n : Nat) : List Nat :=
  (List.range n).filter fun (k : Nat) => lo.fdiv (256 * edge) ≤ (k : Int) && (k : Int) ≤ hi.fdiv (256 * edge)

/-- The tiles that a triangle touches, ascending (R271). -/
def RenderPass.touched (r : RenderPass) (t : Triangle) : List Nat :=
  let xs := t.xy.map fun p => p.1
  let ys := t.xy.map fun p => p.2
  let lo (l : List Int) : Int := l.foldl min (l.headD 0)
  let hi (l : List Int) : Int := l.foldl max (l.headD 0)
  (tileSpan (lo ys) (hi ys) r.edge r.rows).flatMap fun row =>
    (tileSpan (lo xs) (hi xs) r.edge r.cols).map fun col => row * r.cols + col

/-- ROLE 3: outside a geometry block, or a lane that has submitted (R362). A BIN that goes on is no second one. -/
def binNeeds (o : Opnd) (c : Issue) : Needs :=
  match c.crew.kind, c.gang.wait with
  | .geometry, .bin _ => {}
  | .geometry, _ => { notInHandler := true, place := if c.active o.ext &&& c.wave.binned != 0 then some 3 else none }
  | _, _ => { notInHandler := true, place := some 3 }

/-- BIN (R262): culled lanes are done at once, the others are submitted and the cohort waits for their commits. -/
def execBin (o : Opnd) (s : State) : Host.Outcome State Fault Refusal :=
  issue (.bin o) (binNeeds o) s fun c =>
    let w := c.wave
    match s.passOf c.crew with
    | none => s.retire c (.bin o) w
    | some r =>
      if !w.sup && !(s.heldOf w.ref).isEmpty then s.putWave (w.park c.gang .held)
      else
        let lanes := match c.gang.wait with
          | .bin left => left
          | _ => c.active o.ext
        let attr (l : Nat) : BitVec 64 := w.readV2 o.b.toNat l
        let new := lanes.lanes.map fun l =>
          ({ prim := w.globalLane l, xyzq := (List.range 12).map fun k => (w.readV (o.a.toNat + k)).at_ l, attr := attr l, wave := w.ref, lane := l } : Submission)
        let keep := new.filter fun x => match r.resolve x.xyzq with | some t => !(r.touched t).isEmpty | none => false
        let culled := new.filter fun x => match r.resolve x.xyzq with | some t => (r.touched t).isEmpty | none => true
        let s := s.putPass { r with
          subs := r.subs ++ (keep.filter fun x => r.subs.all fun y => y.prim != x.prim)
          gone := r.gone ++ culled.map fun x => x.prim }
        let w := { w with binned := w.binned ||| laneSet (culled.map fun x => x.lane) }
        if keep.isEmpty then s.retire c (.bin o) w
        else s.putWave (w.park c.gang (.bin (laneSet (keep.map fun x => x.lane))))

/-! ## Tile retirement (R263) -/

/-- TILEINFO's value. -/
def tileInfo (r : RenderPass) (t : TilePass) (sel : Nat) : Word :=
  if t.retired then 0xFFFFFFFF
  else BitVec.ofNat 32 (match sel with
  | 0 => t.tile % r.cols + 2 ^ 16 * (t.tile / r.cols)
  | 1 => r.edge
  | 2 => r.planes.1
  | _ => (if t.resumed then 1 else 0) + 256 * min 255 t.flushes)

/-- TILEINFO (R263). -/
def execTileinfo (o : Opnd) (s : State) : Host.Outcome State Fault Refusal :=
  issue (.tileinfo o) (fun c => { place := match c.crew.kind with | .tile _ => none | _ => some 2 }) s fun c =>
    match s.tilePass c.crew with
    | some (r, t) => s.retire c (.tileinfo o) (c.wave.writeG c.gang.slices o.d.toNat (tileInfo r t (o.ext.imm.toNat % 16)))
    | none => s.retire c (.tileinfo o) (c.wave.writeG c.gang.slices o.d.toNat 0xFFFFFFFF)

/-- ROLE of TDONE (R362). -/
def tdoneNeeds (c : Issue) : Needs :=
  match c.crew.kind with
  | .tile t => { place := if t.flush || t.step != .resolve then some 2 else if t.retired then some 7 else none }
  | _ => { place := some 2 }

/-- TDONE (R263): it waits for the block's engine commands and, as a release, for the wave's held accesses. -/
def execTdone (o : Opnd) (s : State) : Host.Outcome State Fault Refusal :=
  issue (.tdone o) tdoneNeeds s fun c =>
    if (s.blocks.any fun b => b.crew == c.crew.id && !b.commands.isEmpty) || !(s.heldOf c.wave.ref).isEmpty then
      s.putWave (c.wave.park c.gang .tdone)
    else (s.retire c (.tdone o) c.wave).retireTile c.crew

end Sys2Proof.Machine

end
end

