-- ==== Sys2Proof/Machine/Loader.lean ====
section
/-! DEFINITION. Code objects: reading them in a context, the check of R413, the choice of a kernel record (R154, R310),
and the image that a launch runs (R64, R153). -/

namespace Sys2Proof.Machine

/-- Why a code object is refused. -/
inductive LoadError where
  /-- A missing translation, with its address and SUB. -/
  | missing (a : BitVec 64) (sub : Nat)
  | poison
  /-- A code of R311. -/
  | code (n : Nat)
  deriving DecidableEq, Repr

/-- The refusal code (R311, R383). -/
def LoadError.number : LoadError → Nat
  | .missing _ _ => 6
  | .poison => 0x24
  | .code n => n

/-- A code object as read: its address, and the kind, offset and bytes of each section. -/
structure CodeObject where
  base : BitVec 64
  sections : List (Nat × Nat × List Byte)
  deriving DecidableEq, Repr

def CodeObject.section_ (o : CodeObject) (k : Nat) : Option (Nat × List Byte) := (o.sections.find? fun x => x.1 == k).map fun x => x.2
def CodeObject.bytes (o : CodeObject) (k : Nat) : List Byte := ((o.section_ k).map fun x => x.2).getD []

/-- CODE_BASE: the address of the text section. -/
def CodeObject.codeBase (o : CodeObject) : BitVec 64 := o.base + BitVec.ofNat 64 (((o.section_ 1).map fun x => x.1).getD 0)

/-- A number of n bytes at an offset of a byte list. -/
def numAt (bs : List Byte) (off n : Nat) : Nat := leNat ((bs.drop off).take n)

/-- Kernel record i (R153). -/
def CodeObject.kernel (o : CodeObject) (i : Nat) : Kernel :=
  let r := (o.bytes 2).drop (64 * i)
  let w (off : Nat) := numAt r off 4
  { name := w 0, entry := w 4, textEnd := w 8, acc := bits (w 0xC) 21 16, regs := bits (w 0xC) 14 8, waves := bits (w 0xC) 5 0,
    tile := w 0x10, safe0 := bits (w 0x14) 15 0, safeN := bits (w 0x14) 31 16, phase0 := bits (w 0x18) 15 0,
    phaseN := bits (w 0x18) 31 16, cimage := w 0x1C, roles := BitVec.ofNat 64 (numAt r 0x20 8), sig := BitVec.ofNat 32 (w 0x28),
    care := BitVec.ofNat 32 (w 0x2C) }

def CodeObject.kernelCount (o : CodeObject) : Nat := (o.bytes 2).length / 64

/-- Entry i of the phase table. -/
def CodeObject.phaseEntry (o : CodeObject) (i : Nat) : PhaseEntry :=
  let r := (o.bytes 4).drop (32 * i)
  { entry := numAt r 0 4, carryP := BitVec.ofNat 7 (numAt r 4 4), carryV := BitVec.ofNat 64 (numAt r 8 8),
    carryG := BitVec.ofNat 64 (numAt r 16 8) &&& 0x1FFFFFFFFFFFFFFF }

/-- Entry i of the safe-point table. -/
def CodeObject.safeEntry (o : CodeObject) (i : Nat) : SafeEntry :=
  let r := (o.bytes 3).drop (16 * i)
  { liveV := BitVec.ofNat 64 (numAt r 0 8), liveG := BitVec.ofNat 64 (numAt r 8 8) }

/-- Code offset, BATCH and WINDOW of a method that is VALID (R153). -/
def CodeObject.method (o : CodeObject) (m : Nat) : Option (Nat × Nat × Nat) :=
  let r := (o.bytes 5).drop (16 * m)
  if bits (numAt r 4 4) 31 31 = 1 then some (numAt r 0 4, bits (numAt r 4 4) 6 0, numAt r 8 4) else none

/-! ## The check of R413 -/

/-- Step 3: the directory, as kind, offset, size and reserved word of each entry. -/
def directoryOk (nsec : Nat) (dir : List (Nat × Nat × Nat × Nat)) (len : Option Nat) : Bool :=
  let kinds := dir.map fun x => x.1
  let within (n : Nat) : Bool := match len with | some l => n ≤ l | none => true
  1 ≤ nsec && nsec ≤ 7 && within (8 + 16 * nsec) &&
    (dir.all fun x => 1 ≤ x.1 && x.1 ≤ 7 && x.2.2.2 = 0 && x.2.1 % 128 = 0 && within (x.2.1 + x.2.2.1)) &&
    kinds.Nodup && kinds.contains 1 && kinds.contains 2 &&
    (dir.all fun x => 8 + 16 * nsec ≤ x.2.1 || x.2.2.1 = 0) &&
    (dir.all fun x => dir.all fun y => x.1 == y.1 || x.2.1 + x.2.2.1 ≤ y.2.1 || y.2.1 + y.2.2.1 ≤ x.2.1) &&
    (dir.all fun x =>
      let unit := match x.1 with | 1 => 4 | 2 => 64 | 3 => 16 | 4 => 32 | _ => 1
      x.2.2.1 % unit = 0 && (x.1 != 5 || x.2.2.1 = 4096))

/-- The ranges that a control-area image's regions take: each region, then its shadow copy. -/
def imageRanges (img : List Byte) : List (Nat × Nat) :=
  (List.range 16).flatMap fun i =>
    let w (k : Nat) := numAt img (16 * i + 4 * k) 4
    if w 3 % 2 = 0 then []
    else (w 0, w 1) :: (if bits (w 2) 31 31 = 1 then [(bits (w 2) 19 0, w 1)] else [])

/-- No two ranges of a list overlap. -/
def apart : List (Nat × Nat) → Bool
  | [] => true
  | x :: r => (r.all fun y => x.1 + x.2 ≤ y.1 || y.1 + y.2 ≤ x.1) && apart r

/-- STRIDE as R60 gives it for the carry sets of a phase table. -/
def phaseStride (es : List PhaseEntry) : Nat :=
  let pop (f : PhaseEntry → Nat → Bool) (e : PhaseEntry) : Nat := ((List.range 64).filter (f e)).length
  let most (f : PhaseEntry → Nat → Bool) : Nat := (es.map (pop f)).foldl max 0
  roundUp (16 + 384 * most (fun e n => e.carryV.getLsbD n) + 4 * most (fun e n => e.carryG.getLsbD n) +
    12 * most (fun e n => e.carryP.getLsbD n)) 16

/-- The control-area image of a kernel, beside the object's phase table (R35, R56, R58, R60). -/
def imageOk (img : List Byte) (k : Kernel) (phases : List PhaseEntry) : Bool :=
  let w (off : Nat) := numAt img off 4
  let byte (off : Nat) := numAt img off 1
  let inside (x : Nat × Nat) : Bool := 0x1000 ≤ x.1 && x.1 + x.2 ≤ 0x1000 + k.tile
  let region (i : Nat) : Bool :=
    let r (j : Nat) := w (16 * i + 4 * j)
    bits (r 0) 31 20 = 0 && bits (r 1) 31 20 = 0 && bits (r 2) 29 20 = 0 && r 3 < 2 &&
      (r 3 = 0 || (r 0 % 16 = 0 && r 1 % 16 = 0 && r 1 != 0 && (bits (r 2) 31 31 = 0 || bits (r 2) 3 0 = 0)))
  let queue (q : Nat) : Bool :=
    let r (j : Nat) := w (0x100 + 16 * q + 4 * j)
    let d := bits (r 0) 25 20 + 1
    let senders := (List.range 32).filter fun x => (r 2).testBit x
    bits (r 0) 30 26 = 0 && bits (r 1) 31 23 = 0 && bits (r 1) 15 14 = 0 && bits (r 1) 7 6 = 0 &&
      ((List.range 32).all fun x => byte (0x200 + 32 * q + x) < 128) && ((List.range 64).all fun x => byte (0x400 + 64 * q + x) < 32) &&
      (bits (r 0) 31 31 = 0 ||
        (bits (r 0) 1 0 = 0 && inside (bits (r 0) 19 0, 4 * d) && (senders.all fun x => 0 < byte (0x200 + 32 * q + x)) &&
          (senders.map fun x => byte (0x200 + 32 * q + x)).sum ≤ d))
  let phrec := w 0x900
  let stride := w 0x904
  ((List.range 16).all region) && ((List.range 16).all queue) && ((imageRanges img).all inside) && apart (imageRanges img) &&
    phrec < 2 ^ 20 && phrec % 16 = 0 && stride < 2 ^ 20 &&
    (k.phaseN = 0 || (stride = phaseStride phases && inside (phrec, k.waves * stride))) &&
    bits (w 0x800) 30 6 = 0 && bits (w 0x808) 30 4 = 0 && bits (w 0x80C) 31 8 = 0 &&
    ((List.range 240).all fun i => byte (0x810 + i) = 0) && ((List.range 248).all fun i => byte (0x908 + i) = 0)

/-- The control-area image and the phase entries of a kernel. -/
def CodeObject.controlImage (o : CodeObject) (k : Kernel) : List Byte := ((o.bytes 6).drop k.cimage).take 0xA00
def CodeObject.phasesOf (o : CodeObject) (k : Kernel) : List PhaseEntry := (List.range k.phaseN).map fun i => o.phaseEntry (k.phase0 + i)

/-- The whole phase table of an object. -/
def CodeObject.phaseTable (o : CodeObject) : List PhaseEntry := (List.range ((o.bytes 4).length / 32)).map o.phaseEntry

/-- Step 4 for kernel record i. -/
def CodeObject.recordOk (o : CodeObject) (i : Nat) : Bool :=
  let k := o.kernel i
  let r := (o.bytes 2).drop (64 * i)
  let w3 := numAt r 0xC 4
  bits w3 31 22 = 0 && bits w3 15 15 = 0 && bits w3 7 6 = 0 && numAt r 0x30 16 = 0 &&
    k.entry % 4 = 0 && k.textEnd % 4 = 0 && k.entry < k.textEnd && k.textEnd ≤ (o.bytes 1).length && k.name < (o.bytes 7).length &&
    1 ≤ k.waves && k.waves ≤ 32 && k.regs % 4 = 0 && 4 ≤ k.regs && k.regs ≤ 64 && k.acc ≤ 32 && k.tile % 16 = 0 &&
    0x1000 + k.tile ≤ 768 * 1024 && (k.roles >>> (2 * k.waves)) = 0 &&
    ((List.range 8).all fun c =>
      let care := bits k.care.toNat (4 * c + 3) (4 * c)
      let sig := bits k.sig.toNat (4 * c + 3) (4 * c)
      (care = 0 && sig = 0) || (care = 15 && sig ≤ 12)) &&
    k.safe0 + k.safeN ≤ (o.bytes 3).length / 16 && k.phase0 + k.phaseN ≤ (o.bytes 4).length / 32 &&
    k.cimage % 16 = 0 && k.cimage + 0xA00 ≤ (o.bytes 6).length && imageOk (o.controlImage k) k o.phaseTable

/-- Step 4 for entry i of the phase table. -/
def CodeObject.phaseOk (o : CodeObject) (i : Nat) : Bool :=
  let r := (o.bytes 4).drop (32 * i)
  let e := o.phaseEntry i
  e.entry % 4 = 0 && e.entry < (o.bytes 1).length && ((List.range 64).filter fun n => e.carryV.getLsbD n).length ≤ 16 &&
    numAt r 4 4 < 128 && numAt r 16 8 < 2 ^ 61 && numAt r 24 8 = 0

/-- Step 4 for entry m of the method table. -/
def CodeObject.methodOk (o : CodeObject) (m : Nat) : Bool :=
  let r := (o.bytes 5).drop (16 * m)
  if m < 16 then leNat (r.take 16) = 0
  else
    bits (numAt r 4 4) 30 7 = 0 && numAt r 12 4 = 0 &&
      (match o.method m with
       | some (off, batch, _) => off % 4 = 0 && off < (o.bytes 1).length && 1 ≤ batch && batch ≤ 96
       | none => true)

/-- Step 4. -/
def CodeObject.tablesOk (o : CodeObject) : Bool :=
  ((List.range o.kernelCount).all o.recordOk) && ((List.range ((o.bytes 4).length / 32)).all o.phaseOk) &&
    ((o.section_ 5).isNone || (List.range 256).all o.methodOk)

/-- Read bytes of an object in a context. -/
def State.loadBytes (s : State) (c : Context) (part : Nat) (a : BitVec 64) (n : Nat) (blind : Bool := false) :
    Except LoadError (List Byte) × State :=
  match s.devRead c part none a n blind with
  | (.ok bs, s) => (.ok bs, s)
  | (.error (.missing a sub), s) => (.error (.missing a sub), s)
  | (.error (.fault _ _), s) => (.error (.code 6), s)
  | (.error .poison, s) => (.error .poison, s)

/-- The sections of a directory, in order. Poison in the text is for the fetch to meet, and of the data section only
control-area images are read here (R398). -/
def State.loadSections (s : State) (c : Context) (part : Nat) (base : BitVec 64) :
    List (Nat × Nat × Nat × Nat) → Except LoadError (List (Nat × Nat × List Byte)) × State
  | [] => (.ok [], s)
  | (kind, off, size, _) :: r =>
    match s.loadBytes c part (base + BitVec.ofNat 64 off) size (kind == 1 || kind == 6) with
    | (.error e, s) => (.error e, s)
    | (.ok bs, s) =>
      match s.loadSections c part base r with
      | (.error e, s) => (.error e, s)
      | (.ok l, s) => (.ok ((kind, off, bs) :: l), s)

/-- The control-area images of these kernel records can be read. -/
def State.loadImages (s : State) (c : Context) (part : Nat) (o : CodeObject) : List Nat → Option LoadError × State
  | [] => (none, s)
  | i :: r =>
    let off := (o.kernel i).cimage
    match o.section_ 6 with
    | none => (none, s)
    | some (at_, bs) =>
      if bs.length < off + 0xA00 then s.loadImages c part o r
      else match s.loadBytes c part (o.base + BitVec.ofNat 64 (at_ + off)) 0xA00 with
      | (.error e, s) => (some e, s)
      | (.ok _, s) => s.loadImages c part o r

/-- Steps 1 to 4 of R413 on the object at an address; `len` is its length where the mailbox gives one. -/
def State.loadObject (s : State) (c : Context) (part : Nat) (base : BitVec 64) (len : Option Nat) : Except LoadError CodeObject × State :=
  let whole := match len with
    | some n => s.loadBytes c part base n true
    | none => (.ok [], s)
  match whole with
  | (.error e, s) => (.error e, s)
  | (.ok _, s) =>
    let short : Bool := match len with | some n => n < 6 | none => false
    if short then (.error (.code 1), s)
    else match s.loadBytes c part base (match len with | some n => min n 8 | none => 8) with
    | (.error e, s) => (.error e, s)
    | (.ok h, s) =>
      let nsec := numAt h 6 2
      let ends (n : Nat) : Bool := match len with | some l => l < n | none => false
      let good := numAt h 0 4 = 0x4F434C4A && numAt h 4 2 = 1
      if ends (8 + 16 * nsec) then (.error (.code (if good then 2 else 1)), s)
      else match s.loadBytes c part (base + 8) (16 * nsec) with
      | (.error e, s) => (.error e, s)
      | (.ok d, s) =>
        let dir := (List.range nsec).map fun i => (numAt d (16 * i) 4, numAt d (16 * i + 4) 4, numAt d (16 * i + 8) 4, numAt d (16 * i + 12) 4)
        let inside := dir.filter fun x => !ends (x.2.1 + x.2.2.1)
        match s.loadSections c part base inside with
        | (.error e, s) => (.error e, s)
        | (.ok secs, s) =>
          let o : CodeObject := { base := base, sections := secs }
          match s.loadImages c part o (List.range o.kernelCount) with
          | (some e, s) => (.error e, s)
          | (none, s) =>
            if !good then (.error (.code 1), s)
            else if !directoryOk nsec dir len || ((o.section_ 7).isSome && (o.bytes 7).getLast? != some 0) then (.error (.code 2), s)
            else if !o.tablesOk then (.error (.code 5), s)
            else (.ok o, s)

/-! ## Choice and image -/

/-- Nonzero CARE nibbles. -/
def Kernel.careCount (k : Kernel) : Nat := ((List.range 8).filter fun c => bits k.care.toNat (4 * c + 3) (4 * c) != 0).length

/-- The record that R310 chooses for entry KIDX: KIDX and its variants that match DEFSIG, the one with the most nonzero
CARE nibbles, the lowest index among those. -/
def CodeObject.choose (o : CodeObject) (kidx : Nat) (defsig : BitVec 32) : Except LoadError Nat :=
  if o.kernelCount ≤ kidx then .error (.code 3)
  else
    let name := (o.kernel kidx).name
    let run := ((List.range (o.kernelCount - kidx)).map fun i => kidx + i).takeWhile fun i => (o.kernel i).name == name
    let fit := run.filter fun i => (defsig &&& (o.kernel i).care) == ((o.kernel i).sig &&& (o.kernel i).care)
    match fit.foldl (fun (b : Option Nat) i =>
      match b with
      | none => some i
      | some j => if (o.kernel j).careCount < (o.kernel i).careCount then some i else b) none with
    | some i => .ok i
    | none => .error (.code 4)

/-- The image of a kernel record: its tables, and its code range fetched as it stands (R64). -/
def State.imageOf (s : State) (c : Context) (part : Nat) (o : CodeObject) (i : Nat) : Image × State :=
  let k := o.kernel i
  let base := o.codeBase
  let (ws, s) := s.readCode c part (base + BitVec.ofNat 64 k.entry) ((k.textEnd - k.entry) / 4)
  ({ kernel := k, codeBase := base, safes := (List.range k.safeN).map fun n => o.safeEntry (k.safe0 + n)
     phases := o.phasesOf k, cimage := o.controlImage k, code := ws }, s)

/-- The image of entry KIDX of the object at an address: all six steps of R413. -/
def State.loadKernel (s : State) (c : Context) (part : Nat) (base : BitVec 64) (kidx : Nat) : Except LoadError Image × State :=
  match s.loadObject c part base none with
  | (.error e, s) => (.error e, s)
  | (.ok o, s) =>
    match o.choose kidx s.module.defsig with
    | .error e => (.error e, s)
    | .ok i =>
      let (img, s) := s.imageOf c part o i
      (.ok img, s)

end Sys2Proof.Machine
end

