-- ==== Sys2Proof/Machine/Madder.lean ====
section
/-! DEFINITION. Madder: requests, methods, batches at the home and combiner waves (R105, R106, R225 to R231, R376 to
R379). -/

noncomputable section

namespace Sys2Proof.Machine

/-! ## Objects and replies -/

/-- The object of a request: its line in the requesting context (R226). -/
def State.objectOf? (s : State) (q : Request) : Option Object :=
  s.objects.find? fun o => o.ctag == q.context.ctag && o.part == q.part && o.mt == q.mt && o.pa == q.pa / 128 * 128

/-- A reply lands in its lane; what follows it acquires (R106). -/
def State.reply (s : State) (q : Request) (v : Word) : State :=
  match s.wave? q.wave with
  | none => s
  | some w =>
    let s := s.putWave (w.updProducer q.landing fun x => x.put q.lane [v])
    match s.crew? q.wave.crew with
    | some c => s.dropL1 (c.coreOf q.wave.rank)
    | none => s

/-- Objects with nothing pending and no batch are forgotten. -/
def State.tidyObjects (s : State) : State :=
  { s with objects := s.objects.filter fun o => !o.pending.isEmpty || o.running.isSome || o.blocked }

/-! ## HCALL (R225, R226) -/

/-- The checks of an HCALL lane: those of an atomic, with TILE and STACK outside its limits and system memory not
permitted (R363). -/
def State.reachCall (s : State) (w : Wave) (c : Crew) (f : AccessForm) (l : Nat) (a : BitVec 64) : Except Failure Piece × State :=
  let far := match steer w.segs a with | .global => false | _ => true
  if a.toNat % f.align = 0 && canonical a && canonical (a + BitVec.ofNat 64 (f.size - 1)) && far then
    (.error { step := 3, cause := 0x06, sub := 0 }, s)
  else match s.reachLane w c f l a with
  | (.error e, s) => (.error e, s)
  | (.ok (p :: _), s) =>
    (match p.place with
     | .mem mt _ _ _ _ _ => if 9 ≤ mt then .error { step := 5, cause := 0x09, sub := 0 } else .ok p
     | _ => .ok p, s)
  | (.ok [], s) => (.error { step := 3, cause := 0x06, sub := 0 }, s)

/-- HCALL: one request for each active lane; D is empty until every reply has come. It waits for every earlier held
access of the wave (R344). -/
def execHcall (o : Opnd) (s : State) : Host.Outcome State Fault Refusal :=
  let m := o.ext.imm.toNat % 256
  issue (.hcall o) (fun c => { notInHandler := true, place := if c.crew.combines.isSome then some 5 else none }) s fun c =>
    let w := c.wave
    let size := if m = 2 then 8 else 4
    let f : AccessForm := { size := size, align := size, need := { r := true, w := true }, write := true, kind := 2 }
    let active := c.active o.ext
    let addr (l : Nat) : BitVec 64 := w.readV2 o.a.toNat l
    let (outs, s') := active.lanes.foldl (fun (acc : List (Nat × Except Failure Piece) × State) l =>
      let (r, s) := acc.2.reachCall w c.crew f l (addr l)
      (acc.1 ++ [(l, r)], s)) ([], s)
    let bad := outs.filterMap fun x => match x.2 with | .error e => some (x.1, e) | _ => none
    if !bad.isEmpty then s.takeTrap w (faultOf c f addr bad)
    else if !(s.heldOf w.ref).isEmpty then s.putWave (w.park c.gang .held)
    else
      let (id, s) := s'.takeStamp
      let s := s.retire c (.hcall o) (w.produce { id := id, file := false, reg := o.d.toNat, lanes := active, data := [Lanes.build fun _ => 0],
                                                  pending := active })
      let arg (l : Nat) : Word := (w.readV o.b.toNat).at_ l
      let lost := outs.filterMap fun x =>
        match x.2 with
        | .ok p => (match p.place with | .lost => some x.1 | _ => none)
        | _ => none
      let s := outs.foldl (fun s (l, r) =>
        match r with
        | .error _ => s
        | .ok p =>
          match p.place with
          | .mem mt pa comp e lmt lpa =>
            let s := s.dropL1Line (c.crew.coreOf w.ref.rank) mt pa
            let q : Request :=
              { wave := w.ref, lane := l, landing := id, method := m, arg := arg l, addr := addr l, mt := mt, pa := pa, comp := comp
                leaf := e, leafMt := lmt, leafPa := lpa, stamp := id, pc := c.gang.pc, context := c.crew.ctx, part := c.crew.part
                arrived := 0 }
            { s with inflight := s.inflight ++ [q] }
          | .missing sub =>
            s.holdPiece c .request m ((arg l).setWidth 128) (BitVec.ofNat 64 id) (some id) false l p sub
          | _ =>
            match s.wave? w.ref with
            | some w => s.putWave (w.landZero id l)
            | none => s) s
      s.raiseLanes c 0x0E 5 2 lost addr (some id)

/-! ## Methods (R227) -/

/-- What a method number comes to in a context. -/
inductive Method where
  | builtin
  | user (o : CodeObject) (off batch window : Nat)
  | bad (sub : Nat)
  | miss (a : BitVec 64) (sub : Nat)
  deriving DecidableEq, Repr

/-- The method's entry (R227, R376). -/
def State.methodOf (s : State) (c : Context) (part m : Nat) : Method × State :=
  if m < 12 then (.builtin, s)
  else if m < 16 then (.bad 2, s)
  else if c.methobj = 0 then (.bad 3, s)
  else match s.loadObject c part c.methobj none with
  | (.error (.missing a sub), s) => (.miss a sub, s)
  | (.error _, s) => (.bad 3, s)
  | (.ok o, s) =>
    match o.method m with
    | some (off, batch, window) => (.user o off batch window, s)
    | none => (.bad 1, s)

/-- BATCH and WINDOW in force: a batch of one in the host-assisted mode (R227, R301); no window in a Woad round (R108). -/
def State.batchOf (s : State) (part : Nat) : Method → Nat × Nat
  | .user _ _ batch window =>
    if (s.part part).modes.getLsbD 3 then (1, 0) else (batch, if (s.part part).woad then 0 else window)
  | _ => if (s.part part).modes.getLsbD 3 then (1, 0) else (96, 0)

/-- The operation of a built-in method. -/
def builtinOp (m : Nat) : AtomOp :=
  match m with
  | 0 => .addS32 | 1 => .addF32 | 2 => .addS64 | 3 => .minS32 | 4 => .maxS32 | 5 => .minN32
  | 6 => .maxN32 | 7 => .and | 8 => .or | 9 => .xor | 10 => .exch | _ => .inc

/-- The home's cluster, and its paired core (R228). -/
def State.homeCore (s : State) (o : Object) : Nat × Nat :=
  let h := s.homeOf o.part o.mt o.pa
  (h, Config.pairedCore h % 8)

/-- The read of a method table misses (R227): it is held without an owner, and the object launches nothing until it is
resolved (R377). -/
def State.holdMethod (s : State) (o : Object) (q : Request) (a : BitVec 64) (sub : Nat) : State :=
  let (st, s) := s.takeStamp
  let s := { s with nextCrew := s.nextCrew + 1 }.putObject { o with blocked := true }
  s.present { stamp := st, wave := { crew := s.nextCrew - 1, rank := 0, wave := 0 }, lane := 0, addr := a, size := 4, kind := .home o.id,
              fmt := 0, data := 0, data2 := 0, landing := none, part := 0, pc := q.pc, fromHandler := false, context := q.context,
              partition := q.part, acquire := false, cluster := (s.homeCore o).1, entry := none, saved := false } sub false

/-! ## Arrival and launch (R228) -/

/-- The head run (R228). -/
def Object.headRun (o : Object) : List Request :=
  match o.pending with
  | [] => []
  | q :: _ => o.pending.takeWhile fun x => x.method == q.method

/-- A request of a built-in batch, by the home ALU (R90, R227, R398). -/
def State.builtin (s : State) (q : Request) : State :=
  match s.wave? q.wave, s.crew? q.wave.crew with
  | some w, some c =>
    let op := builtinOp q.method
    let arg : BitVec 64 := if op = .addS64 then q.arg.signExtend 64 else q.arg.setWidth 64
    let p : Piece := { off := 0, size := op.size, addr := q.addr, place := .mem q.mt q.pa q.comp q.leaf q.leafMt q.leafPa }
    let trap (s : State) (cause sub : Nat) : State :=
      s.raiseLane q.wave { cause := cause, sub := sub, kind := 2, async := true, pc := q.pc } q.lane q.addr (some q.landing)
    match s.rmwPiece w c (some 2) false p ownBytes (fun bs => some (op.bytes arg bs)) with
    | (.old bs, s) => s.reply q (BitVec.ofNat 32 (leNat bs))
    | (.refused k, s) => (trap s 0x0A k).reply q 0
    | (.poison k, s) => (trap s 0x0E k).reply q 0
    | (_, s) => s.reply q 0
  | _, _ => s

/-- A batch of another object, of another context, holds the same line (R105). -/
def State.lineTaken (s : State) (o : Object) : Bool :=
  s.objects.any fun x => x.id != o.id && x.running.isSome && x.mt == o.mt && x.pa == o.pa

/-- A batch of an object launches if `due` says so of the head run's length, BATCH and WINDOW; requests whose method is
refused are rejected first. -/
def State.launchBatch (s : State) (id : Nat) (due : Object → Nat → Nat → Nat → Bool) : State :=
  match s.object? id with
  | none => s
  | some o =>
    match o.pending with
    | [] => s
    | q :: _ =>
      if o.running.isSome || o.blocked || s.lineTaken o then s
      else match s.methodOf q.context q.part q.method with
      | (.bad sub, s) => ((s.putObject { o with pending := o.pending.drop 1 }).rejectRequests [q] sub 0).tidyObjects
      | (.miss a sub, s) => s.holdMethod o q a sub
      | (r, s) =>
        let (batch, window) := s.batchOf q.part r
        let run := o.headRun
        if !due o run.length batch window then s
        else
          let k := min (min run.length batch) (o.limit.getD batch)
          let taken := run.take k
          let o := { o with pending := o.pending.drop k, limit := none }
          match r with
          | .user _ _ _ _ =>
            let (st, s) := s.takeStamp
            s.putObject { o with running := some taken, replies := [], launched := st }
          | _ => (taken.foldl State.builtin (s.putObject o)).tidyObjects

/-- A batch launches now: BATCH requests, WINDOW 0, a request of another method behind the run, or the relaunch of half a
batch (R228, R379). -/
def State.launchNow (s : State) (id : Nat) : State :=
  s.launchBatch id fun o n batch window => batch ≤ n || window = 0 || n < o.pending.length || o.limit.isSome

/-- The request arrives at its home (R106: one lane's requests to one object in issue order, one instruction's in
lane order); a method that is refused rejects it (R376). -/
def execMadderRequestArrival (n : Nat) (s : State) : Host.Outcome State Fault Refusal :=
  match s.inflight[n]? with
  | none => .next s
  | some q =>
    let same (x : Request) : Bool := x.context.ctag == q.context.ctag && x.part == q.part && x.mt == q.mt && x.pa / 128 == q.pa / 128 &&
      x.wave == q.wave && (x.lane == q.lane || x.stamp == q.stamp)
    if (s.inflight.take n).any same then .next s
    else
      let s := { s with inflight := s.inflight.eraseIdx n }
      let q := { q with arrived := s.tick }
      match s.methodOf q.context q.part q.method with
      | (.bad sub, s) => .next (s.rejectRequests [q] sub 0)
      | (r, s) =>
        let (o, s) := match s.objectOf? q with
          | some o => (o, s)
          | none =>
            let (id, s) := s.takeStamp
            ({ id := id, ctag := q.context.ctag, line := q.addr &&& ~~~(0x7F : BitVec 64), mt := q.mt, pa := q.pa / 128 * 128, part := q.part,
               pending := [], running := none, replies := [], crew := none, launched := 0, blocked := false, limit := none },
             s)
        let o := { o with pending := o.pending ++ [q] }
        let s := if s.objects.any fun x => x.id == o.id then s.putObject o else { s with objects := s.objects ++ [o] }
        match r with
        | .miss a sub => .next (if o.blocked then s else s.holdMethod o q a sub)
        | _ => .next (s.launchNow o.id)

/-- MADDER_BATCH_LAUNCH (R228). -/
def execMadderBatchLaunch (line : Nat) (s : State) : Host.Outcome State Fault Refusal := .next (s.launchNow line)

/-- MADDER_WINDOW_EXPIRY (R228): WINDOW ticks since the oldest pending request arrived. -/
def execMadderWindowExpiry (line : Nat) (s : State) : Host.Outcome State Fault Refusal :=
  .next (s.launchBatch line fun o _ _ window =>
    match o.pending with
    | q :: _ => decide (q.arrived + window ≤ s.tick)
    | [] => false)

/-! ## Combiner waves (R228, R229) -/

/-- The state in which a combiner wave starts (R229); WAVE_ID reads g0 · g5 + g1 as in any wave (R148). It belongs to no grid
and has no declared role: BLOCK_ID reads the method number, ROLE GENERAL (log entry 85). -/
def combinerWave (ref : WaveRef) (ctx : Context) (m n : Nat) (line : BitVec 64) (pc : Addr) : Wave :=
  let segs : Segs := { tileBase := ctx.tilewin, tileLimit := 0xFFF, stackBase := ctx.stackwin, stackLimit := 0xF, stackBack := 0,
                       globalBase := ctx.gbase, globalLimit := ctx.glimit }
  let w := launchWave ref 32 0 m 1 0 ctx segs (maskOf fun l => l < n) pc
  { w with g := setAt (setAt (setAt (setAt (setAt (setAt w.g 0 (BitVec.ofNat 32 m)) 1 (BitVec.ofNat 32 n)) 2 (lo32 line)) 3 (hi32 line)) 4 (markerG 4)) 5 1
           gInit := w.gInit &&& ~~~regBit 4 }

/-- The oldest batch that waits for its home's combiner slot starts, when the slot is free. It sees what happens before it,
and its line as the batch before left it: its core's L1 keeps nothing older (R105, R106, R231). -/
def execCombinerWaveStart (line : Nat) (s : State) : Host.Outcome State Fault Refusal :=
  match s.object? line with
  | none => .next s
  | some o =>
    let (home, core) := s.homeCore o
    let rivals := s.objects.filter fun x => x.running.isSome && (s.homeCore x).1 == home
    match o.running with
    | none => .next s
    | some [] => .next s
    | some (q :: rest) =>
      if o.crew.isSome || rivals.any fun x => x.crew.isSome || x.launched < o.launched then .next s
      else match s.methodOf q.context q.part q.method with
      | (.user obj off _ _, s) =>
        let text := obj.bytes 1
        let k : Kernel := { name := 0, entry := 0, textEnd := text.length, acc := 0, regs := 32, waves := 1, tile := 0, safe0 := 0, safeN := 0,
                            phase0 := 0, phaseN := 0, cimage := 0, roles := 0, sig := 0, care := 0 }
        let (code, s) := s.readCode q.context q.part obj.codeBase (text.length / 4)
        let img : Image := { kernel := k, codeBase := obj.codeBase, safes := [], phases := [], cimage := [], code := code }
        let id := s.nextCrew
        let c : Crew :=
          { id := id, work := (match s.crew? q.wave.crew with | some x => x.work | none => 0), kind := .combiner o.id, part := q.part
            queue := 2048, index := 0, size := 1, span := home / 12, cluster := home % 12, core := core, resident := true, ctx := q.context
            image := img, karg := 0, nlanes := 0, preempt := none }
        let line := q.addr &&& ~~~(0x7F : BitVec 64)
        let w := combinerWave { crew := id, rank := 0, wave := 0 } q.context q.method (rest.length + 1) line (obj.codeBase + BitVec.ofNat 64 off)
        let s := { s with nextCrew := id + 1, crews := s.crews ++ [c], blocks := s.blocks ++ [newBlock id 0 0 img] }
        let (w, s) := (s.dropL1 (c.coreOf 0)).loadLatches w c
        .next ({ s with waves := s.waves ++ [w] }.putObject { o with crew := some id, line := line })
      | (.bad sub, s) => .next ((s.endBatch o).rejectRequests (q :: rest) sub 0).tidyObjects
      | (.miss a sub, s) =>
        match (s.requeueBatch o.id false none).object? o.id with
        | some o => .next ((s.requeueBatch o.id false none).holdMethod o q a sub)
        | none => .next s
      | (.builtin, s) => .next s

/-! ## Instructions of a combiner wave (R225, R230, R231) -/

/-- The place of HREPLY, HARG, HDONE and HINFO. -/
def inCombiner (c : Issue) : Needs := { place := if c.crew.combines.isNone then some 5 else none }

/-- The object whose batch the issuing combiner wave runs. -/
def State.batchObject (s : State) (c : Issue) : Option Object := c.crew.combines.bind s.object?

/-- HREPLY: the last reply of a request stands. -/
def execHreply (o : Opnd) (s : State) : Host.Outcome State Fault Refusal :=
  issue (.hreply o) inCombiner s fun c =>
    let s := match s.batchObject c with
      | none => s
      | some b =>
        let new := (c.active o.ext).lanes.map fun l => (l, (c.wave.readV o.a.toNat).at_ l)
        s.putObject { b with replies := (b.replies.filter fun (x : Nat × Word) => !(c.active o.ext).getLsbD x.1) ++ new }
    s.retire c (.hreply o) c.wave

/-- Field f of a request (R230). -/
def Request.field (q : Request) (f : Nat) : Word :=
  match f with
  | 0 => q.arg
  | 1 => lo32 q.addr
  | 2 => hi32 q.addr
  | _ => BitVec.ofNat 32 q.lane

/-- HARG. -/
def execHarg (o : Opnd) (s : State) : Host.Outcome State Fault Refusal :=
  issue (.harg o) inCombiner s fun c =>
    let qs := ((s.batchObject c).bind fun b => b.running).getD []
    let f := o.ext.imm.toNat % 4
    s.retire c (.harg o) (c.wave.writeV o.d.toNat (c.active o.ext) fun l =>
      match qs[l]? with
      | some q => q.field f
      | none => 0)

/-- HINFO. -/
def execHinfo (o : Opnd) (s : State) : Host.Outcome State Fault Refusal :=
  issue (.hinfo o) inCombiner s fun c =>
    let qs := ((s.batchObject c).bind fun b => b.running).getD []
    let m := (qs.head?.map fun q => q.method).getD 0
    s.retire c (.hinfo o) (c.wave.writeG c.gang.slices o.d.toNat (BitVec.ofNat 32 (qs.length + 256 * m)))

/-- Buffered bytes of a wave on a core become visible in one step, oldest first, in that core's L1 too (R63); D is set in their leaves, units that one store covers lose
their poison, plain stores clear tags (R391), and a link that is down takes none (R75, R231, R397, R403). -/
def State.commitBytes (s : State) (core part ctag : Nat) (blk : Option (Nat × Nat)) (buffer : List HeldByte) : State :=
  let s := ((buffer.map fun x => (x.leaf, x.leafMt, x.leafPa)).dedup).foldl (fun s x => s.touchLeaf (core / 8) x.1 x.2.1 x.2.2 true) s
  let s := buffer.reverse.foldl (fun s x => s.writeL1 core x.mt x.pa [x.byte]) s
  let s := buffer.foldl (fun s x => if x.whole then s.clearPoison x.mt x.pa else s) s
  let s := buffer.foldl (fun s x => if x.strong then s else s.clearTag 3 0 (memKey x.mt x.pa) 1) s
  ((buffer.map fun x => (x.mt, x.pa / 16 * 16, x.comp)).dedup).foldl (fun s u =>
    let n := (buffer.filter fun x => x.mt == u.1 && x.pa / 16 * 16 == u.2.1 && x.comp == u.2.2).length
    s.touchL2 part ctag blk u.1 u.2.1 n true u.2.2) s

/-- HDONE: stores and replies in one step, and the wave ends (R231). -/
def execHdone (o : Opnd) (s : State) : Host.Outcome State Fault Refusal :=
  issue (.hdone o) inCombiner s fun c =>
    match s.batchObject c with
    | none => s
    | some b =>
      let qs := b.running.getD []
      let s := s.commitBytes (c.crew.coreOf 0) c.crew.part c.crew.ctx.ctag none c.wave.buffer
      let s := s.endBatch b
      let s := qs.zipIdx.foldl (fun s (q, i) => s.reply q (((b.replies.find? fun x => x.1 == i).map fun x => x.2).getD 0)) s
      s.tidyObjects

end Sys2Proof.Machine

end
end

