-- ==== Sys2Proof/Machine/Faults.lean ====
section
/-! DEFINITION. The life of a fault-buffer entry after its allocation: walk and first-touch install (R77, R78, R335,
R338, R339), replay of held accesses (R332, R344, R345), re-presentation (R340), and the control node's path (R342,
R343). -/

noncomputable section

namespace Sys2Proof.Machine

/-! ## Performing one held access (R345) -/

/-- Set word k of a lane's value. -/
def Landing.putWord (ld : Landing) (l k : Nat) (v : Word) : Landing :=
  { ld with data := ld.data.zipIdx.map fun (x, j) => if j = k then Lanes.build fun m => if m == l then v else Lanes.at_ x m else x }

/-- Change a landing of a wave. -/
def State.updLanding (s : State) (r : WaveRef) (id : Nat) (f : Landing → Landing) : State :=
  match s.wave? r with
  | none => s
  | some w => s.putWave (w.updProducer id f)

/-- The access is held no longer; a lane whose last held unit it was may land. -/
def State.release (s : State) (h : Held) : State :=
  let s := { s with held := s.held.filter fun x => x.stamp != h.stamp }
  match h.landing with
  | none => s
  | some id =>
    if h.kind == .request || s.held.any fun x => x.landing == some id && x.lane == h.lane then s
    else s.updLanding h.wave id fun x => { x with pending := x.pending &&& ~~~(1#96 <<< h.lane) }

/-- A discarded or refused access: its lane receives 0 (R332, R335, R398). The other texels of its lane go with a texel; the
other units of a load's lane are read for nothing. -/
def State.discardHeld (s : State) (h : Held) : State :=
  let mate (k : HeldKind) (x : Held) : Bool := h.kind == k && x.kind == k && x.landing == h.landing && x.lane == h.lane
  let s := s.release h
  let s := { s with held := updWhere (mate .load) (fun x => { x with spent := true }) (s.held.filter fun x => !mate .texel x) }
  match h.landing with
  | none => s
  | some id => s.updLanding h.wave id fun x => x.put h.lane []

/-- An asynchronous trap for a held access; one of the handler's own fails its context (R356). -/
def State.trapHeld (s : State) (h : Held) (cause sub : Nat) : State :=
  if h.fromHandler then
    if (s.crew? h.wave.crew).isSome then s.failContext h.partition h.context.ctag cause else s
  else
    let kind := match h.kind with
      | .atomic => 2
      | k => k.code
    match h.kind with
    | .fetch => s.raise h.wave { cause := cause, sub := sub, kind := kind, async := true, pc := h.pc, addr := h.addr, lanes := h.data.setWidth 96 }
    | _ => s.raiseLane h.wave { cause := cause, sub := sub, kind := kind, async := true, pc := h.pc } h.lane h.addr h.landing

/-- The acquire actions of a held access that acquires (R344). -/
def State.acquireHeld (s : State) (h : Held) (c : Crew) : State :=
  if h.acquire && h.fmt / 256 % 8 != 1 then s.dropL1 (c.coreOf h.wave.rank) else s

/-- The scope of a held strong access. -/
def Held.strong (h : Held) : Option Nat := if h.fmt / 256 % 8 = 0 then none else some (h.fmt / 256 % 8 - 1)

/-- A held access has been made: of a release, the line's home records the core (R94). -/
def State.releaseHeld (s : State) (h : Held) (c : Crew) (p : Piece) : State :=
  s.noteRelease (c.coreOf h.wave.rank) (decide (h.fmt / 2048 % 2 = 1)) p

/-- What a held access of a wave reads of system memory (R109). -/
def Held.input (h : Held) (w : Wave) (c : Crew) (s : State) (p : Piece) (bs : List Byte) : List Byte × State :=
  s.portRead w c h.index h.lane p bs

/-- Change gangs of a wave, and of those that its handler has suspended. -/
def Wave.mapGangs (w : Wave) (f : Gang → Gang) : Wave :=
  { w with gangs := w.gangs.map f, frame := w.frame.map fun x => { x with gangs := x.gangs.map f } }

/-- Gangs that wait for a fetch at an address are ready again. -/
def Wave.wakeFetch (w : Wave) (pc : Addr) : Wave :=
  w.mapGangs fun g => if g.pc == pc && g.wait == .fetch then { g with wait := .ready } else g

/-- The instruction whose descriptor read was held goes on with what came of it (R337). -/
def State.giveDesc (s : State) (h : Held) (got : Got) : State :=
  let s := s.release h
  match s.wave? h.wave with
  | none => s
  | some w => s.putWave (w.mapGangs fun g =>
      match g.wait with
      | .descriptor rec none => if g.pc == h.pc && g.slices == h.data.extractLsb' 96 24 then { g with wait := .descriptor rec (some got) } else g
      | _ => g)

/-- A held access that may not be made: what a descriptor read gives its instruction, an asynchronous trap for any other. -/
def State.refuseHeld (s : State) (h : Held) (cause sub : Nat) : State :=
  match h.kind with
  | .descriptor _ => s.giveDesc h (.lost cause sub h.data2)
  | _ => (s.trapHeld h cause sub).discardHeld h

/-- What each kind of held access does once its bytes are reached. -/
def State.performAt (s : State) (h : Held) (w : Wave) (c : Crew) (p : Piece) : State :=
  let word (s : State) (ws : List Word) : State :=
    match h.landing with
    | none => s
    | some id => s.updLanding h.wave id fun x => x.put h.lane ws
  match h.kind with
  | .load =>
    (match s.readPiece w c h.strong p with
     | (.bytes bs, s) =>
       let (bs, s) := h.input w c s p bs
       let one := (h.landing.bind fun id => w.landings.find? fun x => x.id == id).map fun x => decide (h.size = 4 * x.data.length)
       let s := s.release h
       let s := match h.landing with
         | none => s
         | some id =>
           if h.spent then s
           else if h.part = 0 && (one = some true || h.size < 4) then s.updLanding h.wave id fun x => x.put h.lane (ldWords (h.fmt % 64) (h.fmt / 64 % 4) bs)
           else if h.size = 4 then s.updLanding h.wave id fun x => x.putWord h.lane (h.part / 4) (BitVec.ofNat 32 (leNat bs))
           else s.updLanding h.wave id fun x => x.put h.lane (ldWords (h.fmt % 64) (h.fmt / 64 % 4) bs)
       s.acquireHeld h c
     | (.poison k, s) => (s.trapHeld h 0x0E k).discardHeld h
     | (.refused k, s) => (s.trapHeld h 0x0A k).discardHeld h
     | (.held _, s) => s)
  | .store =>
    (match s.writePiece w c h.strong { p with off := 0 } (leBytes h.size h.data.toNat) with
     | (.refused k, s) => (s.trapHeld h 0x0A k).release h
     | (.lost, s) => (s.trapHeld h 0x0E 5).release h
     | (_, s) => (s.release h).releaseHeld h c p)
  | .atomic =>
    let code := h.fmt % 128
    let (r, s) :=
      if 16 ≤ code then s.rmwPiece w c h.strong true p (h.input w c) fun bs => some (nibbleBytes (code - 16) h.data.toNat bs)
      else s.rmwPiece w c h.strong false p (h.input w c) fun bs => some ((AtomOp.ofCode code).bytes (h.data.setWidth 64) bs)
    (match r with
     | .old bs =>
       ((word (s.release h) ((List.range ((bs.length + 3) / 4)).map fun k => BitVec.ofNat 32 (leNat bs / 2 ^ (32 * k)))).acquireHeld h c).releaseHeld h c p
     | .denied _ => (s.trapHeld h 0x09 0).discardHeld h
     | .poison k => (s.trapHeld h 0x0E k).discardHeld h
     | .refused k => (s.trapHeld h 0x0A k).discardHeld h
     | .held _ => s)
  | .cas =>
    let f (bs : List Byte) : Option (List Byte) :=
      if leNat bs = (h.data.setWidth 64).toNat then some (leBytes h.size h.data2.toNat) else none
    let (r, s) := s.rmwPiece w c h.strong false p (h.input w c) f
    let done (s : State) (bs : List Byte) : State :=
      (word (s.release h) ((List.range (h.size / 4)).map fun k => BitVec.ofNat 32 (leNat bs / 2 ^ (32 * k)))).acquireHeld h c
    (match r with
     | .old bs => let s := done s bs; if (f bs).isSome then s.releaseHeld h c p else s
     | .denied bs => done (s.trapHeld h 0x09 0) bs
     | .poison k => (s.trapHeld h 0x0E k).discardHeld h
     | .refused k => (s.trapHeld h 0x0A k).discardHeld h
     | .held _ => s)
  | .request =>
    (match p.place, h.landing with
     | .mem mt pa comp e lmt lpa, some id =>
       if 9 ≤ mt then (s.trapHeld h 0x09 0).discardHeld h
       else
         let q : Request :=
           { wave := h.wave, lane := h.lane, landing := id, method := h.fmt, arg := h.data.setWidth 32, addr := h.addr, mt := mt, pa := pa
             comp := comp, leaf := e, leafMt := lmt, leafPa := lpa, stamp := id, pc := h.pc, context := h.context, part := h.partition
             arrived := 0 }
         let s := s.release h
         { s.dropL1Line (c.coreOf h.wave.rank) mt pa with inflight := s.inflight ++ [q] }
     | _, _ => s.discardHeld h)
  | _ => s.release h

/-- The units of an 8-byte access that STACK splits (R62): the address of the first, from the one it is held on. -/
def Held.splitBase (h : Held) : BitVec 64 := h.addr - BitVec.ofNat 64 (96 * h.part)

/-- Another unit of the same split access that the buffer holds too. -/
def State.otherHalf (s : State) (h : Held) : Option Held :=
  s.held.find? fun x => x.wave == h.wave && x.lane == h.lane && x.kind == h.kind && x.pc == h.pc && x.landing == h.landing &&
    x.fmt / 128 % 2 = 1 && x.part != h.part && x.splitBase == h.splitBase

/-- Both units of a split atomic or CAS, read, then written (R62); the other unit, if it was held too, is done with it. -/
def State.performSplit (s : State) (h : Held) (w : Wave) (c : Crew) (ps : List Piece) : State :=
  let s := match s.otherHalf h with
    | some x => { s with held := s.held.filter fun y => y.stamp != x.stamp }
    | none => s
  let f (bs : List Byte) : Option (List Byte) :=
    match h.kind with
    | .cas => if leNat bs = (h.data.setWidth 64).toNat then some (leBytes 8 h.data2.toNat) else none
    | _ => some ((AtomOp.ofCode (h.fmt % 128)).bytes (h.data.setWidth 64) bs)
  let put (s : State) (bs : List Byte) : State :=
    let s := s.release h
    match h.landing with
    | none => s
    | some id => s.updLanding h.wave id fun x => x.put h.lane [BitVec.ofNat 32 (leNat bs), BitVec.ofNat 32 (leNat bs / 2 ^ 32)]
  match s.rmw w c h.strong ps (h.input w c) f with
  | (.old bs, s) =>
    let s := (put s bs).acquireHeld h c
    if (f bs).isSome then ps.foldl (fun s p => s.releaseHeld h c p) s else s
  | (.denied bs, s) => put (s.trapHeld h 0x09 0) bs
  | (.poison k, s) => (s.trapHeld h 0x0E k).discardHeld h
  | (.refused k, s) => (s.trapHeld h 0x0A k).discardHeld h
  | (.held _, s) => s

/-- The access is presented again: its page is still missing (R340). -/
def State.represent (s : State) (h : Held) (sub : Nat) : State := s.present h sub true

/-- A texel that was held is read; the last of its lane gives the lane its value (R258, R345). -/
def State.performTexel (s : State) (h : Held) (w : Wave) (c : Crew) (p : Piece) : State :=
  match s.readPiece w c none p with
  | (.bytes bs, s) =>
    let (bs, s) := h.input w c s p bs
    let s := { s with held := s.held.filter fun x => x.stamp != h.stamp }
    let last := s.held.all fun x => !(x.landing == h.landing && x.lane == h.lane)
    (match h.landing with
     | none => s
     | some id => s.updLanding h.wave id fun x =>
       let x := { x with texels := (h.lane, h.part, bs) :: x.texels }
       if last && h.spent then x.put h.lane []
       else if last then
         let t := textureOf h.data.toNat
         x.put h.lane (sampledWords t (sampleTexels t (lo32 h.data2) (hi32 h.data2) (BitVec.ofNat 32 h.fmt))
           (x.texels.filterMap fun y => if y.1 = h.lane then some y.2 else none))
       else x)
  | (.poison k, s) => s.refuseHeld h 0x0E k
  | (_, s) => s.discardHeld h

/-- The addresses and sizes of a held descriptor's pieces, each with its first byte: 16-byte units, or the words of a STACK
address (R61, R62). -/
def Held.descUnits (h : Held) : List (Nat × Nat × BitVec 64) :=
  let n := if h.kind == .descriptor 5 then 64 else 32
  if h.fmt = 1 then (List.range (n / 4)).map fun k => (4 * k, 4, h.addr - BitVec.ofNat 64 (96 * h.part) + BitVec.ofNat 64 (384 * k))
  else (List.range (n / 16)).map fun k => (16 * k, 16, h.addr - BitVec.ofNat 64 h.part + BitVec.ofNat 64 (16 * k))

/-- A held descriptor is read, from step 4 of R328 on (R345); a page of it that is still missing is presented again. -/
def State.performDesc (s : State) (h : Held) (w : Wave) (c : Crew) : State :=
  let (rs, s) := h.descUnits.foldl (fun (acc : List (Nat × Nat × BitVec 64 × Reached) × State) u =>
    let (r, s) := acc.2.translate h.context h.partition h.cluster u.2.2 { r := true }
    (acc.1 ++ [(u.1, u.2.1, u.2.2, r)], s)) ([], s)
  match rs.find? fun x => match x.2.2.2 with | .mem _ _ _ _ _ _ => false | _ => true with
  | some (off, _, a, .missing sub) => s.represent { h with addr := a, part := off } sub
  | some (_, _, _, .malformed sub) => s.refuseHeld h 0x14 sub
  | some (_, _, _, .permission) => s.refuseHeld h 0x09 0
  | some (_, _, _, .poisoned) => s.refuseHeld h 0x0E 5
  | _ =>
    let ps : List Piece := rs.filterMap fun (off, n, a, r) =>
      match r with
      | .mem mt pa comp e lmt lpa => some { off := off, size := n, addr := a, place := .mem mt pa comp e lmt lpa }
      | _ => none
    match s.readDesc w c h.data2 ps with
    | (.got got, s) => s.giveDesc h got
    | (.missing _ _, s) => s

/-- Perform a held access against the current tables, or present it again (R340, R345). One that no longer may be made
is answered as R332 and R335 give. -/
def State.performHeld (s : State) (h : Held) : State :=
  match h.kind with
  | .home id =>
    let s := s.release h
    (match s.object? id with
     | some o => s.putObject { o with blocked := false }
     | none => s)
  | .unit rec unit =>
    let s := s.release h
    (match s.crew? h.wave.crew, (s.block? h.wave.crew h.wave.rank).bind fun b => b.command? rec with
     | some c, some m => s.performUnit c h.wave.rank m unit fun s m a sub => s.holdUnit c h.wave.rank m unit a sub
     | _, _ => s)
  | .fetch =>
    let s := s.release h
    (match s.wave? h.wave with
     | some w => s.putWave (w.wakeFetch h.pc)
     | none => s)
  | .spill _ => s.release h
  | .descriptor _ =>
    (match s.wave? h.wave, s.crew? h.wave.crew with
     | some w, some c => s.performDesc h w c
     | _, _ => s.release h)
  | kind =>
    let need : Perm := match kind with
      | .load => { r := true }
      | .texel => { r := true }
      | .cas => { r := true }
      | .store => { w := true }
      | .atomic => if 16 ≤ h.fmt % 128 then { w := true } else { r := true, w := true }
      | _ => { r := true, w := true }
    match s.wave? h.wave, s.crew? h.wave.crew with
    | some w, some c =>
      let split := (kind == .atomic || kind == .cas) && h.fmt / 128 % 2 = 1
      let addrs := if split then [h.splitBase, h.splitBase + 384] else [h.addr]
      let (rs, s) := addrs.foldl (fun (acc : List (BitVec 64 × Reached) × State) a =>
        let (r, s) := acc.2.translate h.context h.partition h.cluster a need
        (acc.1 ++ [(a, r)], s)) ([], s)
      (match rs.find? fun x => match x.2 with | .mem _ _ _ _ _ _ => false | _ => true with
       | some (a, .missing sub) =>
         let h' := { h with addr := a, part := if split then (if a == h.splitBase then 0 else 4) else h.part }
         if split && h'.part != h.part && (s.otherHalf h).isSome then s.release h else s.represent h' sub
       | some (_, .malformed sub) => s.refuseHeld h 0x14 sub
       | some (_, .permission) => s.refuseHeld h 0x09 0
       | some (_, .poisoned) => s.refuseHeld h 0x0E 5
       | _ =>
         let ps : List Piece := rs.zipIdx.filterMap fun (x, k) =>
           match x.2 with
           | .mem mt pa comp e lmt lpa =>
             some { off := if split then 4 * k else 0, size := if split then 4 else h.size, addr := x.1, place := .mem mt pa comp e lmt lpa }
           | _ => none
         if split then s.performSplit h w c ps
         else match ps with
         | p :: _ => if kind == .texel then s.performTexel h w c p else s.performAt h w c p
         | [] => s)
    | _, _ => s.release h

/-- Is a held access's line held by a batch (R105), or does it promote what is still to be acknowledged (R94)? Then its
replay waits. -/
def State.heldBusy (s : State) (h : Held) : Bool :=
  (!s.objects.isEmpty || (h.acquire && h.fmt / 4096 % 2 = 1)) &&
    (match h.kind with
     | .home _ => false
     | .unit _ _ => false
     | .fetch => false
     | .request => false
     | _ =>
       match (s.translate h.context h.partition h.cluster h.addr {}).1 with
       | .mem mt pa _ _ _ _ =>
         s.lineHeld h.wave.crew mt pa || (h.acquire && h.fmt / 4096 % 2 = 1 && s.promotes fun line => line == memKey mt pa / 128)
       | _ => false)

/-- Waves whose accesses were performed may reach a PHASE or end their crews. -/
def State.afterReplay (s : State) (hs : List Held) : State :=
  (hs.foldl (fun s h => s.phaseCheck h.wave) s).settle

/-! ## Install (R77, R338, R339) -/

/-- The pool of an entry: its owner's POOL_BASE, else the context's. -/
def State.poolOf (s : State) (e : Entry) : BitVec 64 :=
  match e.owner.bind s.wave? with
  | some w => w.poolBase
  | none => e.context.pool

/-- Take a frame from a span's descriptor, in one atomic step; the pool event of LOW. A descriptor with a nonzero reserved
field is bad and gives none (R6, log entry 71). -/
def State.takeFrame (s : State) (c : Context) (part : Nat) (pool : BitVec 64) (span : Nat) : Option Nat × State :=
  let at_ := pool + BitVec.ofNat 64 (64 * span)
  match s.devRead c part none at_ 64 with
  | (.error _, s) => (none, s)
  | (.ok bs, s) =>
    let w (k : Nat) := leNat ((bs.drop (8 * k)).take 8)
    let count := w 0
    let next := w 1
    if count ≤ next || leNat (bs.drop 32) != 0 then (none, s)
    else match s.devRead c part none (BitVec.ofNat 64 (w 2 + 8 * next)) 8 with
    | (.error _, s) => (none, s)
    | (.ok fw, s) =>
      match s.devWrite c part none (at_ + 8) (leBytes 8 (next + 1)) with
      | .error _ => (none, s)
      | .ok s =>
        let s := if count - (next + 1) = w 3 then
            s.postRecord part (record (causeWord 0 15 0 0 false) (span * 256) 0 c.ctag 0 0) else s
        (some (leNat fw), s)

/-- The spans whose descriptors are tried, in order (R77). -/
def State.poolSpans (s : State) (e : Entry) : List Nat :=
  e.span :: (List.range 8).filter fun i => i != e.span && (s.part e.part).spans.getLsbD i

/-- Every byte of a frame is written zero, and no L1 keeps an older one (R78, R347). -/
def State.zeroFrame (s : State) (mt pa : Nat) : State :=
  let k := memKey mt pa
  { s.clearTag 3 0 k (2 ^ 17) with
           l1 := s.l1.filter fun x => !(x.mt == mt && x.line / 1024 == pa / 2 ^ 17)
           mem := s.mem.filter fun c => !(decide (k ≤ c.1) && decide (c.1 < k + 2 ^ 17))
           loose := cutLoose s.loose k (2 ^ 17)
           poison := s.poison.filter fun u => !(decide (k ≤ u) && decide (u < k + 2 ^ 17)) }

/-- The leaf that an install writes (R338). -/
def installedLeaf (old : BitVec 64) (frame : Nat) : BitVec 64 :=
  (old &&& 0xFF0000000000009C) ||| (BitVec.ofNat 64 frame &&& 0x000FFFFFFFFEF000) ||| 0x23

/-- INSTALL on a first-touch entry: none where no descriptor holds a frame. -/
def State.install (s : State) (e : Entry) (old : BitVec 64) (mt pa : Nat) : Option State :=
  let pool := s.poolOf e
  let taken := (s.poolSpans e).foldl (fun (acc : Option Nat × State) i =>
    match acc with
    | (some f, s) => (some f, s)
    | (none, s) => s.takeFrame e.context e.part pool i) (none, s)
  match taken with
  | (none, _) => none
  | (some f, s) =>
    let leaf := installedLeaf old f
    let s := s.zeroFrame (entryMt leaf) (entryFrame leaf * 2 ^ 17)
    some (s.putMem (memKey mt pa) (leBytes 8 leaf.toNat))

/-! ## The walk of an entry (R335) -/

/-- Free an entry; accesses still marked with it lose the mark. -/
def State.freeEntry (s : State) (cluster index : Nat) : State :=
  let b := s.buffer cluster
  s.putBuffer { b with entries := b.entries.filter fun e => e.index != index }

/-- The accesses held on an entry, in the order in which they were first held. -/
def State.heldOn (s : State) (cluster index : Nat) : List Held :=
  s.held.filter fun h => h.cluster == cluster && h.entry == some index && !h.saved

/-- A cluster's buffer has a FREE entry. -/
def State.bufferHasRoom (s : State) (cluster : Nat) : Bool := (s.buffer cluster).entries.length < 8

/-- A held access whose page is still missing is presented; any other is performed. -/
def State.performOrPresent (s : State) (h : Held) : State :=
  match s.translate h.context h.partition h.cluster h.addr {} with
  | (.missing sub, s) => s.represent h sub
  | (_, s) => s.performHeld h

/-- DROPPED clears, and every unattached held access of the cluster is performed or presented again, in the order in
which they were first held. -/
def State.representAll (s : State) (cluster : Nat) : State :=
  let b := s.buffer cluster
  let s := s.putBuffer { b with dropped := false, replayAll := false }
  let hs := s.held.filter fun h => h.cluster == cluster && h.entry.isNone && !h.saved
  (hs.foldl (fun s h => s.performOrPresent h) s).afterReplay hs

/-- An entry has become FREE: the unattached accesses are presented again, if a REPLAYALL stands, or if the buffer is empty
with DROPPED set (R340). -/
def State.entryFreed (s : State) (cluster : Nat) : State :=
  let b := s.buffer cluster
  if (b.replayAll && s.bufferHasRoom cluster) || (b.dropped && b.entries.isEmpty) then s.representAll cluster else s

/-- Discard an entry's accesses with one cause (R335, R398), and free it. -/
def State.discardEntry (s : State) (cluster index cause sub : Nat) : State :=
  let hs := s.heldOn cluster index
  let s := s.freeEntry cluster index
  let s := hs.foldl (fun s h =>
    match h.kind with
    | .home _ => s.performHeld h
    | .unit rec _ =>
      let s := s.release h
      (match s.crew? h.wave.crew, (s.block? h.wave.crew h.wave.rank).bind fun b => b.command? rec with
       | some c, some m => s.commandError c h.wave.rank m cause sub h.addr
       | _, _ => s)
    | .spill _ => s.release h
    | .fetch => (s.performHeld h).trapHeld h cause sub
    | _ => s.refuseHeld h cause sub) s
  (s.afterReplay hs).entryFreed cluster

/-- Replay an entry's accesses and free it (R335, R345). Every access of the cluster that is held for its page is performed,
in the order in which they were first held: of a wave, in its issue order (R344). -/
def State.replayEntry (s : State) (cluster : Nat) (e : Entry) : State :=
  let hs := s.held.filter fun h => h.cluster == cluster && !h.saved &&
    (h.entry == some e.index ||
      (h.entry.isNone && h.context.ctag == e.ctag && h.partition == e.part && h.addr.toNat % 2 ^ 57 / 2 ^ 17 == e.page))
  let s := hs.foldl (fun s h => s.performHeld h) (s.freeEntry cluster e.index)
  (s.afterReplay hs).entryFreed cluster

/-- What k does while a leaf of a log stands at (mt, pa) in place of the one that memory has there; of what k writes there,
the A and D bits stay (R409, R75). -/
def State.withLeaf (s : State) (leaf now : BitVec 64) (mt pa : Nat) (k : State → State) : State :=
  if leaf = now then k s
  else
    let s := k { s.putMem (memKey mt pa) (leBytes 8 leaf.toNat) with tlb := s.tlb.filter fun t => t.mt != mt || t.pa != pa }
    let left := BitVec.ofNat 64 (s.rawRead mt pa 8)
    if (left ||| 0x60) = (leaf ||| 0x60) then s.putMem (memKey mt pa) (leBytes 8 (now ||| (left &&& 0x60)).toNat) else s

/-- What the walk of an entry's page gives once an install has been made where it may be. In a replay the entry replays with
the leaf that the log names (R409). -/
def State.finishWalk (s : State) (cluster : Nat) (e : Entry) (r : Walk) (logged : Option (BitVec 64) := none) : State :=
  match r with
  | .leaf leaf _ mt pa =>
    let used := logged.getD leaf
    (s.logEntry e.part 8 [e.ctag, e.page * 2 ^ 17, used.toNat]).withLeaf used leaf mt pa fun s => s.replayEntry cluster e
  | .malformed sub => s.discardEntry cluster e.index 0x14 sub
  | .poisoned => s.discardEntry cluster e.index 0x0E 5
  | .missing sub _ _ _ => (s.updEntry cluster e.index fun x => { x with sub := sub }).entryToHost cluster e.index

/-- An entry in WALK walks its page again, or installs a first-touch frame (R335, R338, R339). -/
def State.walkEntry (s : State) (cl : Nat) (e : Entry) (logged : Option (BitVec 64) := none) : State :=
  if (s.heldOn cl e.index).any s.heldBusy then s
  else
    let a := BitVec.ofNat 64 (e.page * 2 ^ 17)
    match s.walk e.context e.part cl a with
    | (.missing 1 old mt pa, s) =>
      if e.install then
        match s.install e old mt pa with
        | none => s.finishWalk cl e (.missing 1 old mt pa) logged
        | some s => let (r, s) := s.walk e.context e.part cl a; s.finishWalk cl e r logged
      else s.finishWalk cl e (.missing 1 old mt pa) logged
    | (r, s) => s.finishWalk cl e r logged

/-- FAULT_ENTRY_WALK; in a Woad partition the replay takes effect at the round's end (R408). -/
def execFaultEntryWalk (cluster : Fin 96) (entry : Fin 8) (s : State) : Host.Outcome State Fault Refusal :=
  match (s.buffer cluster.val).entries.find? fun e => e.index == entry.val && e.state == .walk with
  | none => .next s
  | some e => s.asInput e.part (.faultEntryWalk cluster entry) fun s => s.walkEntry cluster.val e

/-! ## REPLAYALL and re-presentation (R340) -/

/-- REPLAYALL (R340). -/
def execReplayall (o : Opnd) (s : State) : Host.Outcome State Fault Refusal :=
  issue (.replayall o) (fun _ => { privileged := true }) s fun c =>
    let cl := c.crew.clusterNo
    let s := s.retire c (.replayall o) c.wave
    if s.bufferHasRoom cl then s.representAll cl
    else
      let b := s.buffer cl
      s.putBuffer { b with replayAll := true }

/-- FAULT_REPRESENT (R340): an entry is free with a REPLAYALL pending, or the buffer is empty with DROPPED set. Where an
entry becomes FREE by its replay, its discard or its owner's save, this comes about in that step; here, where it went with
its context or its partition. -/
def execFaultRepresent (cluster : Fin 96) (s : State) : Host.Outcome State Fault Refusal := .next (s.entryFreed cluster.val)

/-! ## The fault ring and FRES (R342, R343) -/

/-- Write the oldest waiting record to the partition's ring, in the memory of the node that the control port faces. -/
def execFaultRecordPost (p : Fin 8) (s : State) : Host.Outcome State Fault Refusal :=
  let x := s.part p.val
  match x.records, s.controlPort with
  | r :: rest, some port =>
    if x.flog = 0 || 16 < x.flog || (x.fwr - x.frd).toNat = 2 ^ x.flog then .next s
    else
      let key := memKey (9 + port) ((x.fring.toNat + 32 * (x.fwr.toNat % 2 ^ x.flog)) % 2 ^ 52)
      .next ((s.putMem key (leBytes 32 r)).putPart { x with records := rest, fwr := x.fwr + 1 })
  | _, _ => .next s

/-- The entry that a FRES value names, if it is in HOST and belongs to the partition. -/
def State.fresEntry (s : State) (p : Nat) (v : BitVec 32) : Option (Nat × Entry) :=
  let cl := 12 * bits v.toNat 10 8 + bits v.toNat 6 3
  if 12 ≤ bits v.toNat 6 3 then none else ((s.buffer cl).entries.find? fun e => e.index == bits v.toNat 2 0 && e.state == .host && e.part == p).map fun e => (cl, e)

/-- FRES with FAIL = 0 (R343): the entry walks again. -/
def State.fresRetry (s : State) (p : Nat) (v : BitVec 32) : State :=
  match s.fresEntry p v with
  | some (cl, e) => s.updEntry cl e.index fun e => { e with state := .walk }
  | none => s

/-- FRES with FAIL = 1 (R343): held accesses are discarded and the context fails; a command that waits on it ends in
error (R372), and a spill fails (R389). -/
def State.fresFail (s : State) (p : Nat) (v : BitVec 32) : State :=
  match s.fresEntry p v with
  | none => s
  | some (cl, e) =>
    let hs := s.heldOn cl e.index
    let s := hs.foldl (fun s h =>
      match h.kind with
      | .unit rec _ =>
        (match s.crew? h.wave.crew, (s.block? h.wave.crew h.wave.rank).bind fun b => b.command? rec with
         | some c, some m => s.commandError c h.wave.rank m 0x08 e.sub h.addr
         | _, _ => s)
      | .spill id =>
        (match s.crew? id with
         | some c => s.postEvent c.part 3 c.queue c.index c.ctx.ctag 0x23
         | none => s)
      | _ => s) s
    let s := { s with held := s.held.filter fun h => !(h.cluster == cl && h.entry == some e.index) }
    ((s.freeEntry cl e.index).failContext p e.ctag 0x82).entryFreed cl

/-- A write to FRES. -/
def State.fres (s : State) (p : Nat) (v : BitVec 32) : State := if v.getLsbD 12 then s.fresFail p v else s.fresRetry p v

/-- FRES_RETRY: the register is written with FAIL = 0; an input of a Woad partition (R408). -/
def execFresRetry (port : Fin 4) (p : Fin 8) (value : BitVec 32) (s : State) : Host.Outcome State Fault Refusal :=
  if s.administers port.val p.val && !value.getLsbD 12 then
    s.asInput p.val (.fresRetry port p value) fun s => s.fresRetry p.val value
  else .next s

/-- FRES_FAIL: the register is written with FAIL = 1. -/
def execFresFail (port : Fin 4) (p : Fin 8) (value : BitVec 32) (s : State) : Host.Outcome State Fault Refusal :=
  if s.administers port.val p.val && value.getLsbD 12 then
    s.asInput p.val (.fresFail port p value) fun s => s.fresFail p.val value
  else .next s

end Sys2Proof.Machine

end
end

