-- ==== Sys2Proof/Machine/Packets.lean ====
section
/-! DEFINITION. From a queue's ring to taken work: which head is served (R290, R294, R301), the packets and what they
name (R265, R286, R288 to R292, R296), refusal (R384) and the moment a dependence holds (R290, R385). -/

noncomputable section

namespace Sys2Proof.Machine

/-! ## Queue heads -/

/-- Where packet i of a ring lies (R286). -/
def Queue.slot (x : Queue) (i : Nat) : BitVec 64 := x.base + BitVec.ofNat 64 (64 * (i % 2 ^ x.logsz))

/-- The packets between RD and WR (R286). -/
def Queue.unread (x : Queue) : Nat := (x.wr - x.rd).toNat

/-- The packet at an index, as it can be read now. -/
def State.peekPacket (s : State) (x : Queue) (i : Nat) : Option Nat :=
  match (s.devRead (s.queueContext x.num) x.part none (x.slot i) 64).1 with
  | .ok bs => some (leNat bs)
  | .error _ => none

/-- The queue's head may be taken: the queue is enabled in a running partition, nothing taken stops it, and the quota
of uncompleted packets is not reached (R290). -/
def State.queueReady (s : State) (x : Queue) : Bool :=
  x.en && x.unread != 0 && x.waitFor.isNone && x.blocked.isNone && (s.part x.part).state = 3 &&
    s.outstanding x.num < min 16 (s.part x.part).qout

/-- One class for each full 100,000 ticks since then (R294). -/
def State.agedSince (s : State) (t : Nat) : Nat := (s.tick - t) / 100000

/-- The class of a queue head: its packet's PRIO, and what aging adds (R294). -/
def State.headClass (s : State) (x : Queue) : Nat :=
  min 7 (((s.peekPacket x x.rd.toNat).map fun d => dfield d 0 10 8).getD 0 + max x.aged (s.agedSince x.since))

/-- The queue that an I/O chiplet serves next: of the highest class among the heads that are ready, the next in turn
after the one it served last (R294). -/
def State.roundRobin (s : State) (chiplet : Nat) : Option Nat :=
  let ready := s.queues.filter fun x => x.num / 1024 = chiplet && s.queueReady x && !(s.part x.part).modes.getLsbD 1
  let cls := ready.map fun x => (x.num, s.headClass x)
  let top := (cls.map fun x => x.2).foldl max 0
  let last := s.served.getD chiplet (1024 * chiplet + 1023)
  let turn (q : Nat) : Nat := (q + 2048 - last - 1) % 1024
  (cls.filter fun x => x.2 = top).foldl (fun (best : Option Nat) x =>
    match best with
    | none => some x.1
    | some b => if turn x.1 < turn b then some x.1 else some b) none

/-- The head of this queue is the one to take now: the front end's choice, or with QARB the control node's (R301). -/
def State.mayTake (s : State) (x : Queue) : Bool :=
  s.queueReady x &&
    (if (s.part x.part).modes.getLsbD 1 then (s.part x.part).order.head? == some x.num
     else s.roundRobin (x.num / 1024) == some x.num)

/-! ## Refusal (R384) -/

/-- The front end refuses the packet at RD. -/
def State.refusePacket (s : State) (q code : Nat) (c : Context) : State :=
  let x := s.queue q
  let s := s.putQueue { x with en := false }
  (s.postEvent x.part 1 q x.rd.toNat c.ctag code).idleRunning x.part

/-- A packet whose descriptor fails after the take completes in error, with a record of SUB 1 (R290). -/
def State.workBad (s : State) (w : Work) (code : Nat) : State :=
  let tag := (s.queueContext w.queue).ctag
  (s.workInError w.seq).postEvent w.part 1 w.queue w.ring tag code

/-! ## Packet fields (R288) -/

/-- A nonzero reserved field, or a reserved KIND. SIG and DEP of a WAITEVENT, SIGNAL or BARRIER count as reserved (log
entry 70); DEPEV and SIGEV that are not used do not (R291). -/
def packetReserved (d : Nat) : Bool :=
  let kind := dfield d 0 7 0
  let w (off : Nat) : Nat := dfield d off 31 0
  let mask (m v : Nat) : Bool := (BitVec.ofNat 32 v) &&& ~~~(BitVec.ofNat 32 m) != 0
  let zero (offs : List Nat) : Bool := offs.any fun o => w o != 0
  match kind with
  | 1 => mask 0x3F071FFF (w 0) || mask 0x1FFFFFFF (w 4)
  | 2 => mask 0x1FFF (w 0) || zero [0x04, 0x10, 0x14, 0x18, 0x1C, 0x20, 0x38, 0x3C]
  | 3 => mask 0x1FFF (w 0) || zero [0x04, 0x10, 0x14, 0x18, 0x1C, 0x20, 0x38, 0x3C]
  | 4 => mask 0x7FF (w 0) || zero [0x04, 0x08, 0x0C, 0x10, 0x14, 0x18, 0x1C, 0x20, 0x30, 0x34, 0x38, 0x3C]
  | 5 => mask 0x7FF (w 0) || zero [0x04, 0x08, 0x0C, 0x10, 0x14, 0x18, 0x1C, 0x20, 0x30, 0x34, 0x38, 0x3C]
  | 6 => mask 0x7FF (w 0) || zero [0x04, 0x08, 0x0C, 0x10, 0x14, 0x18, 0x1C, 0x20, 0x24, 0x28, 0x2C, 0x30, 0x34, 0x38, 0x3C]
  | _ => true

/-- An event number in use lies at or above the quota (R291). -/
def packetEvents (d evq : Nat) : Bool :=
  let kind := dfield d 0 7 0
  let dep := dfield d 0x24 15 0
  let sig := dfield d 0x24 31 16
  (((kind ≤ 3 && dfield d 0 11 11 = 1) || kind = 4) && evq ≤ dep) || (((kind ≤ 3 && dfield d 0 12 12 = 1) || kind = 5) && evq ≤ sig)

/-- The weight of span i (R292). -/
def pvecWeight (pvec : BitVec 64) (spans : BitVec 8) (i : Nat) : Nat :=
  if pvec = 0 then (if spans.getLsbD i then 1 else 0) else bits pvec.toNat (8 * i + 7) (8 * i)

/-- PVEC names a span outside the partition (R292). -/
def pvecBad (pvec : BitVec 64) (spans : BitVec 8) : Bool :=
  (List.range 8).any fun i => bits pvec.toNat (8 * i + 7) (8 * i) != 0 && !spans.getLsbD i

/-- The crews of each span: the first and the one after the last (R292). -/
def spanShares (pvec : BitVec 64) (spans : BitVec 8) (n : Nat) : List (Nat × Nat) :=
  let c (i : Nat) : Nat := ((List.range i).map (pvecWeight pvec spans)).sum
  (List.range 8).map fun i => (n * c i / c 8, n * c (i + 1) / c 8)

/-! ## Taken work -/

/-- The record of a taken packet, before what its kind adds. -/
def State.newWork (s : State) (x : Queue) (kind : WorkKind) (d : Nat) : Work :=
  { seq := s.nextSeq, kind := kind, part := x.part, queue := x.num, ring := x.rd.toNat, prio := dfield d 0 10 8
    sig := dfield d 0 12 12 = 1, dep := dfield d 0 11 11 = 1, depev := dfield d 0x24 15 0, sigev := dfield d 0x24 31 16
    deptgt := dfield d 0x28 63 0, desc := dfield d 0x08 63 0, pvec := BitVec.ofNat 64 (dfield d 0x30 63 0), grid := 0, nlanes := 0
    karg := 0, size := 1, takenAt := s.tick, aged := 0, placeable := false, image := none, shares := [], since := [], crewsEnded := 0
    pass := none }

/-- A work's grid becomes placeable: the crews of each span wait from now on. -/
def Work.ready (w : Work) (s : State) (spans : BitVec 8) : Work :=
  { w with placeable := true, shares := spanShares w.pvec spans (w.grid / w.size), since := List.replicate 8 s.tick }

/-- A packet has been taken: RD moves on, and the queue's next head begins to wait. -/
def State.advanceQueue (s : State) (x : Queue) (f : Queue → Queue) : State :=
  let s := s.putQueue (f { x with rd := x.rd + 1, since := s.tick, aged := 0 })
  let p := s.part x.part
  let s := s.putPart { p with order := if p.order.head? == some x.num then p.order.drop 1 else p.order }
  { s with served := (List.range 2).map fun k => if k = x.num / 1024 then x.num else s.served.getD k (1024 * k + 1023) }

/-- Work joins those taken; it takes its number in take order (R108). -/
def State.addWork (s : State) (w : Work) : State := { s with works := s.works ++ [w], nextSeq := s.nextSeq + 1 }

/-! ## LAUNCH (R289) -/

/-- The fields of a LAUNCH agree with the kernel record. -/
def launchAgrees (d : Nat) (k : Kernel) : Bool :=
  let waves := dfield d 0 29 24
  let size := dfield d 0 18 16 + 1
  let grid := dfield d 0x10 31 0
  waves = k.waves && dfield d 4 22 16 = k.regs && dfield d 4 28 23 = k.acc && dfield d 0x20 31 0 = k.tile &&
    dfield d 0x38 63 0 = k.roles.toNat && grid != 0 && grid % size = 0

/-- Take a LAUNCH. -/
def State.takeLaunchPacket (s : State) (x : Queue) (c : Context) (d : Nat) : State :=
  match s.loadKernel c x.part (BitVec.ofNat 64 (dfield d 8 63 0)) (dfield d 4 15 0) with
  | (.error e, s) => s.refusePacket x.num e.number c
  | (.ok img, s) =>
    if !launchAgrees d img.kernel then s.refusePacket x.num 0x12 c
    else
      let w := { s.newWork x .launch d with
        grid := dfield d 0x10 31 0, nlanes := dfield d 0x14 31 0, karg := BitVec.ofNat 64 (dfield d 0x18 63 0)
        size := dfield d 0 18 16 + 1, image := some img }
      let w := if w.dep then w else w.ready s (s.part x.part).spans
      (s.addWork w).advanceQueue x id

/-! ## RENDERPASS (R265 to R267) -/

/-- The field entries of a render-pass descriptor: in use, as offset and end. -/
def passFields (d : Nat) : List (Nat × Nat) :=
  (List.range 16).filterMap fun i =>
    let o := dfield d (0x40 + 4 * i) 8 0
    let n := dfield d (0x40 + 4 * i) 17 9
    if n = 0 then none else some (o, n)

/-- A render-pass descriptor outside R265. -/
def passBad (a d : Nat) : Bool :=
  let width := dfield d 0 15 0
  let height := dfield d 0 31 16
  let recsz := dfield d 4 12 8
  a % 64 != 0 || width = 0 || 16384 < width || height = 0 || 16384 < height || dfield d 4 4 3 = 3 || dfield d 4 7 6 = 3 ||
    recsz = 0 || 24 < recsz || dfield d 4 31 13 != 0 || dfield d 0x0C 31 0 != 0 || dfield d 0x34 31 0 != 0 ||
    bits d 2047 1024 != 0 || dfield d 0x1C 31 0 = 0 || 2 ^ 23 < dfield d 0x1C 31 0 || dfield d 0x28 5 0 != 0 ||
    dfield d 0x30 31 0 < 2 || 2 ^ 24 < dfield d 0x30 31 0 || dfield d 0x38 6 0 != 0 ||
    ((List.range 16).any fun i => dfield d (0x40 + 4 * i) 31 18 != 0) ||
    ((passFields d).any fun x => 16 * recsz < x.1 + x.2) || !apart (passFields d)

/-- A control-area image declares a queue (R283). -/
def imageHasQueue (img : List Byte) : Bool := (List.range 16).any fun q => numAt img (0x100 + 16 * q) 4 / 2 ^ 31 = 1

/-- The pass that a descriptor describes, or the code that refuses it (R383). -/
def State.readPass (s : State) (c : Context) (w : Work) : Except Nat RenderPass × State :=
  match s.devRead c w.part none (BitVec.ofNat 64 w.desc) 256 with
  | (.error .poison, s) => (.error 0x24, s)
  | (.error _, s) => (.error 0x06, s)
  | (.ok bs, s) =>
    let d := leNat bs
    let listu := (s.part w.part).listu
    if passBad w.desc d then (.error 0x15, s)
    else if listu = 0 || listu < dfield d 0x30 31 0 then (.error 0x18, s)
    else
      let kobj := BitVec.ofNat 64 (dfield d 0x10 63 0)
      let (r, s) := [7, 15, 23, 31].foldl (fun (acc : Except Nat (List Image) × State) hi =>
        match acc with
        | (.error e, s) => (.error e, s)
        | (.ok l, s) =>
          match s.loadKernel c w.part kobj (dfield d 0x18 hi (hi - 7)) with
          | (.error e, s) => (.error e.number, s)
          | (.ok img, s) => (.ok (l ++ [img]), s)) (.ok [], s)
      match r with
      | .ok [geom, gbuf, shade, res] =>
        let p : RenderPass :=
          { part := w.part, seq := w.seq, queue := w.queue, context := c, width := dfield d 0 15 0, height := dfield d 0 31 16
            edge := 8 * 2 ^ dfield d 4 1 0, samples := if dfield d 4 2 2 = 1 then 4 else 1, cull := dfield d 4 4 3
            front := dfield d 4 5 5 = 1, depthf := dfield d 4 7 6, recsz := dfield d 4 12 8, clearz := BitVec.ofNat 32 (dfield d 8 31 0)
            karg := BitVec.ofNat 64 (dfield d 0x20 63 0), glanes := dfield d 0x1C 31 0
            poolBase := BitVec.ofNat 64 (dfield d 0x28 63 0), poolUnits := dfield d 0x30 31 0, resBase := BitVec.ofNat 64 (dfield d 0x38 63 0)
            geom := geom, gbuf := gbuf, shade := shade, res := res, next := 1, commit := 0, subs := [], setups := [], gone := [], tiles := []
            flushing := false, notified := false, lastFlush := none, backs := [], flushes := 0, final := false, requests := [] }
        if gbuf.kernel.waves != 1 || imageHasQueue gbuf.cimage then (.error 0x15, s)
        else if 768 * 1024 < p.planes.2.2.2 then (.error 0x16, s)
        else (.ok p, s)
      | .ok _ => (.error 0x15, s)
      | .error e => (.error e, s)

/-- The geometry grid of a pass (R270): its crews. -/
def RenderPass.grid (r : RenderPass) : Nat := (r.glanes + 96 * r.geom.kernel.waves - 1) / (96 * r.geom.kernel.waves)

/-! ## GRAPH (R296, R297) -/

/-- A graph descriptor's header or node entries break R296. -/
def graphBad (a d : Nat) (nodes : List Nat) : Bool :=
  let n := dfield d 0 6 0
  let slotsz := dfield d 0x24 8 0
  let rest := nodes.drop 1
  a % 64 != 0 || n = 0 || 64 < n || dfield d 0 31 7 != 0 || dfield d 4 31 0 = 0 || dfield d 0x18 7 0 != 0 ||
    slotsz % 16 != 0 || slotsz < 16 || 256 < slotsz || dfield d 0x24 31 9 != 0 || bits d 511 320 != 0 ||
    (nodes.any fun e => dfield e 0 31 24 != 0 || dfield e 4 15 7 != 0 || dfield e 4 31 25 != 0 || bits e 255 128 != 0) ||
    (rest.any fun e =>
      dfield e 4 6 0 = 0 || 96 < dfield e 4 6 0 || dfield e 4 24 16 = 0 || 256 < dfield e 4 24 16 || slotsz < dfield e 4 24 16 ||
        dfield e 0x0C 31 0 = 0) ||
    dfield d 0x20 31 0 < (rest.map fun e => dfield e 0x0C 31 0).sum

/-- The graph that a descriptor describes, with the root grid's lanes, or the code that refuses it. -/
def State.readGraph (s : State) (c : Context) (w : Work) : Except Nat (Graph × Nat) × State :=
  let err (e : DevError) : Nat := match e with | .poison => 0x24 | _ => 0x06
  match s.devRead c w.part none (BitVec.ofNat 64 w.desc) 64 with
  | (.error e, s) => (.error (err e), s)
  | (.ok bs, s) =>
    let d := leNat bs
    let n := dfield d 0 6 0
    if n = 0 || 64 < n then (.error 0x17, s)
    else match s.devRead c w.part none (BitVec.ofNat 64 (w.desc + 0x40)) (32 * n) with
    | (.error e, s) => (.error (err e), s)
    | (.ok nb, s) =>
      let es := (List.range n).map fun i => leNat ((nb.drop (32 * i)).take 32)
      if graphBad w.desc d es then (.error 0x17, s)
      else
        let (r, s) := es.foldl (fun (acc : Except Nat (List Node) × State) e =>
          match acc with
          | (.error x, s) => (.error x, s)
          | (.ok l, s) =>
            match s.loadKernel c w.part (BitVec.ofNat 64 (dfield d 8 63 0)) (dfield e 0 15 0) with
            | (.error x, s) => (.error x.number, s)
            | (.ok img, s) =>
              (.ok (l ++ [{ kidx := dfield e 0 15 0, phase := dfield e 0 23 16, batch := dfield e 4 6 0, recsz := dfield e 4 24 16,
                            tmo := dfield e 8 31 0, res := dfield e 0x0C 31 0, image := img }]), s)) (.ok [], s)
        match r with
        | .error e => (.error e, s)
        | .ok ns =>
          if (ns.drop 1).any (fun x => x.image.kernel.waves != 1) || ns.any fun x => x.image.kernel.phaseN < x.phase then (.error 0x17, s)
          else
            (.ok ({ seq := w.seq, karg := BitVec.ofNat 64 (dfield d 0x10 63 0), pool := dfield d 0x18 63 0, slots := dfield d 0x20 31 0
                    slotSize := dfield d 0x24 8 0, nodes := ns, used := [], pending := [], ready := [] }, dfield d 4 31 0), s)

/-- A work's descriptor is read as it becomes placeable (R290): the work as it goes on, or the code that refuses it. -/
def State.openWork (s : State) (c : Context) (w : Work) : Except Nat (Work × Option Graph) × State :=
  match w.kind with
  | .launch => (.ok (w.ready s (s.part w.part).spans, none), s)
  | .render =>
    match s.readPass c w with
    | (.error e, s) => (.error e, s)
    | (.ok p, s) => (.ok ({ w with placeable := true, pass := some p }, none), s)
  | .graph =>
    match s.readGraph c w with
    | (.error e, s) => (.error e, s)
    | (.ok (g, lanes), s) =>
      match g.nodes with
      | [] => (.error 0x17, s)
      | root :: _ =>
        let k := root.image.kernel.waves
        let w := { w with grid := (lanes + 96 * k - 1) / (96 * k), nlanes := lanes, karg := g.karg, image := some root.image }
        (.ok (w.ready s (s.part w.part).spans, some g), s)

/-- Take a RENDERPASS or GRAPH. -/
def State.takeDescribed (s : State) (x : Queue) (c : Context) (kind : WorkKind) (d : Nat) : State :=
  let w := s.newWork x kind d
  if w.dep then (s.addWork w).advanceQueue x id
  else match s.openWork c w with
  | (.error e, s) => s.refusePacket x.num e c
  | (.ok (w, g), s) =>
    let s := { s with graphs := s.graphs ++ g.toList }
    (s.addWork w).advanceQueue x id

/-! ## Taking (R286, R290) -/

/-- A packet's bits are taken from a queue as KIND gives. -/
def State.takeBits (s : State) (x : Queue) (c : Context) (d : Nat) : State :=
  let p := s.part x.part
  if packetReserved d then s.refusePacket x.num 0x11 c
  else if packetEvents d p.evq then s.refusePacket x.num 0x14 c
  else if dfield d 0 7 0 ≤ 3 && pvecBad (BitVec.ofNat 64 (dfield d 0x30 63 0)) p.spans then s.refusePacket x.num 0x13 c
  else match dfield d 0 7 0 with
  | 1 => s.takeLaunchPacket x c d
  | 2 => s.takeDescribed x c .render d
  | 3 => s.takeDescribed x c .graph d
  | 4 =>
    let e := dfield d 0x24 15 0
    let target := dfield d 0x28 63 0
    let met := target ≤ (s.eventCount x.part e).toNat
    s.advanceQueue x fun x => { x with waitFor := if met then none else some (e, target, dfield d 0 10 8, s.tick) }
  | 5 => (s.advanceQueue x fun x => { x with blocked := some (some (dfield d 0x24 31 16, dfield d 0x28 63 0)) }).settleQueue x.num
  | _ => (s.advanceQueue x fun x => { x with blocked := some none }).settleQueue x.num

/-- Why a queue's context record cannot be used, as a CODE: it is poisoned (R398), or a reserved field of it is not zero (R6,
log entry 71). -/
def State.contextBad (s : State) (queue : Nat) : Option Nat :=
  let (mt, pa) := (s.queue queue).ctxPlace
  if s.memPoisoned mt pa 256 then some 0x24 else if s.contextReserved mt pa then some 0x11 else none

/-- The head of a queue is taken, if it is one of this kind; a slot that cannot be read, or a KIND that is reserved, is
refused by whichever take meets it. In a Woad partition the packet is recorded (R408). -/
def State.takeHead (s : State) (q kind : Nat) : State :=
  let x := s.queue q
  if !s.mayTake x then s
  else
    let c := s.queueContext q
    match s.contextBad q with
    | some code => s.refusePacket q code c
    | none =>
    match s.devRead c x.part none (x.slot x.rd.toNat) 64 with
    | (.error .poison, s) => s.refusePacket q 0x24 c
    | (.error _, s) => s.refusePacket q 0x06 c
    | (.ok bs, s') =>
      let d := leNat bs
      let k := dfield d 0 7 0
      if k != kind && 1 ≤ k && k ≤ 6 then s
      else
        let s := s'.logEntry x.part 1 ((q + 2 ^ 32 * x.rd.toNat) :: wordsOf bs)
        s.takeBits x c d

/-- A packet that a replayed partition takes from its log (R409). -/
def State.takeLogged (s : State) (q ring d : Nat) : State :=
  let x := s.queue q
  s.takeBits { x with rd := BitVec.ofNat 32 ring } (s.queueContext q) d

/-- TAKE_LAUNCH. -/
def execTakeLaunch (q : Fin 2048) (s : State) : Host.Outcome State Fault Refusal :=
  s.asInput (s.queue q.val).part (.takeLaunch q) fun s => s.takeHead q.val 1

/-- TAKE_RENDERPASS. -/
def execTakeRenderpass (q : Fin 2048) (s : State) : Host.Outcome State Fault Refusal :=
  s.asInput (s.queue q.val).part (.takeRenderpass q) fun s => s.takeHead q.val 2

/-- TAKE_GRAPH. -/
def execTakeGraph (q : Fin 2048) (s : State) : Host.Outcome State Fault Refusal :=
  s.asInput (s.queue q.val).part (.takeGraph q) fun s => s.takeHead q.val 3

/-- TAKE_WAITEVENT. -/
def execTakeWaitevent (q : Fin 2048) (s : State) : Host.Outcome State Fault Refusal :=
  s.asInput (s.queue q.val).part (.takeWaitevent q) fun s => s.takeHead q.val 4

/-- TAKE_SIGNAL. -/
def execTakeSignal (q : Fin 2048) (s : State) : Host.Outcome State Fault Refusal :=
  s.asInput (s.queue q.val).part (.takeSignal q) fun s => s.takeHead q.val 5

/-- TAKE_BARRIER. -/
def execTakeBarrier (q : Fin 2048) (s : State) : Host.Outcome State Fault Refusal :=
  s.asInput (s.queue q.val).part (.takeBarrier q) fun s => s.takeHead q.val 6

/-- DEPENDENCE_SATISFIED (R290): taken work becomes placeable; a descriptor that is found bad completes it in error. -/
def execDependenceSatisfied (seq : Nat) (s : State) : Host.Outcome State Fault Refusal :=
  match s.work? seq with
  | none => .next s
  | some w =>
    if w.placeable || !w.dep || (s.eventCount w.part w.depev).toNat < w.deptgt then .next s
    else match s.openWork (s.queueContext w.queue) w with
    | (.error e, s) => .next (s.workBad w e)
    | (.ok (w, g), s) => .next ({ s with graphs := s.graphs ++ g.toList }.putWork w)

end Sys2Proof.Machine

end
end

