-- ==== Sys2Proof/Machine/Host.lean ====
section
/-! DEFINITION. The control window and bring-up (R285, R286, R291, R301 to R303, R306 to R309, R342, R395, R407,
R414): what the control node writes, and the commands of a partition. -/

noncomputable section

namespace Sys2Proof.Machine

/-- POWER_ON_BRINGUP (R303, R308): all stages; every partition becomes RESET. -/
def execPowerOnBringup (b : BringupInput) (s : State) : Host.Outcome State Fault Refusal :=
  if s.module.ready then .next s
  else .next { s with
    module := { s.module with stepping := b.stepping, defsig := b.defsig, portRole := b.portRole, stage := 5, ready := true }
    parts := s.parts.map fun x => { x with state := 1, admin := BitVec.ofNat 4 (bits b.admin.toNat (4 * x.num + 3) (4 * x.num)) } }

/-! ## Partition commands (R307) -/

/-- Work, crews and everything else of a partition end without being saved. -/
def State.clearPartition (s : State) (p : Nat) : State :=
  let s := s.dropCrews fun c => c.part == p
  { s with
    works := s.works.filter fun w => w.part != p
    graphs := s.graphs.filter fun g => s.works.all fun w => w.part != p || w.seq != g.seq
    passes := s.passes.filter fun r => r.part != p
    objects := s.objects.filter fun o => o.part != p
    inflight := s.inflight.filter fun r => r.part != p
    held := s.held.filter fun h => h.partition != p
    buffers := s.buffers.map fun (b : Buffer) => { b with entries := b.entries.filter fun e => e.part != p }
    l2 := s.l2.filter fun l => l.part != p
    tlb := s.tlb.filter fun t => t.part != p
    queues := updWhere (fun (q : Queue) => q.part == p)
      (fun (q : Queue) => { q with en := false, rd := q.wr, waitFor := none, blocked := none }) s.queues }

/-- RESET (R307): STATE becomes RESET, the fill counts of its slices 0 (R148), and Woad mode ends until the next START. -/
def State.resetPartition (s : State) (p : Nat) : State :=
  let s := s.clearPartition p
  let s := { s with fills := s.fills.filter fun x => !(s.part p).spans.getLsbD (x.1 / 12) }
  let x := s.part p
  s.putPart { x with
    state := 1, status := 0, events := [], woad := false, round := 0, log := [], inputs := [], order := [], stall := false, div := false, pass := none }

/-- START (R307, R407): rounds begin if WEN is 1, a replay's when its log has the first. -/
def State.startPartition (s : State) (p : Nat) : State :=
  let x := s.part p
  let x := { x with state := 2, status := 0, woad := x.wctl.getLsbD 0, round := if x.wctl.getLsbD 0 then 1 else 0 }
  ((s.putPart x).waitForLog p).idleRunning p

/-- The spans that NEWSPANS adds belong to partitions in RESET or IDLE, or to none (R307). -/
def State.spansFree (s : State) (p : Nat) (new : BitVec 8) : Bool :=
  s.parts.all fun x => x.num == p || x.state = 1 || x.state = 2 || (x.spans &&& new) = 0

/-- RESIZE (R307): L2 slices are written back and emptied before they change owner (R65). -/
def State.resizePartition (s : State) (p : Nat) (new : BitVec 8) : State :=
  let s := { s with
    parts := s.parts.map fun x =>
      if x.num == p then { x with spans := new, status := 0 } else { x with spans := x.spans &&& ~~~new }
    l2 := s.l2.filter fun l => l.part != p && ((s.part l.part).spans &&& new) = 0 }
  s

/-- GO (R307). -/
def State.go (s : State) (p cmd : Nat) (new : BitVec 8) : State :=
  let x := s.part p
  let status (n : Nat) : State := s.putPart { x with status := n }
  if x.busy then status 1
  else match cmd with
  | 1 => if x.state = 0 then status 4 else s.resetPartition p
  | 2 =>
    if x.state != 1 && x.state != 2 then status 4
    else if !s.spansFree p new then status 2
    else s.resizePartition p new
  | 3 => if x.state = 1 then s.startPartition p else status 4
  | _ => status 3

/-! ## Queue registers (R285, R286) -/

/-- The queue control word is written: EN, PART and LOGSZ; a 0-to-1 EN brings what waited into force and sets RD to WR. -/
def State.writeQueueCtl (s : State) (q : Nat) (v : BitVec 32) : State :=
  let x := s.queue q
  let old := x.part
  let x := { x with nextLogsz := bits v.toNat 4 0, part := bits v.toNat 10 8 }
  let x :=
    if !v.getLsbD 31 then { x with en := false, logsz := if x.en then x.logsz else x.nextLogsz }
    else if x.en then x
    else { x with en := true, base := x.nextBase, ctx := x.nextCtx, logsz := x.nextLogsz, rd := x.wr, since := s.tick, aged := 0 }
  ((s.putQueue x).idleRunning x.part).idleRunning old

/-- WR is written; a count above the ring's size stops the queue with CODE 0x10 (R286, R384). -/
def State.ringDoorbell (s : State) (q : Nat) (wr : BitVec 32) : State :=
  let x := s.queue q
  let s := s.putQueue { x with wr := wr, since := if x.unread = 0 then s.tick else x.since, aged := if x.unread = 0 then 0 else x.aged }
  let y := s.queue q
  if 2 ^ y.logsz < y.unread then s.refusePacket q 0x10 (s.queueContext q) else s

/-- One 32-bit write to the registers of a queue. -/
def State.writeQueue (s : State) (q off : Nat) (v : BitVec 32) : State :=
  let x := s.queue q
  let base (b : BitVec 64) : State := s.putQueue { x with nextBase := b, base := if x.en then x.base else b }
  let ctx (b : BitVec 64) : State :=
    let b := b &&& 0x000FFFFFFFFFFFF0
    s.putQueue { x with nextCtx := b, ctx := if x.en then x.ctx else b }
  match off with
  | 0x00 => base (hi32 x.nextBase ++ v)
  | 0x04 => base (v ++ lo32 x.nextBase)
  | 0x08 => ctx (hi32 x.nextCtx ++ v)
  | 0x0C => ctx (v ++ lo32 x.nextCtx)
  | 0x10 => s.writeQueueCtl q v
  | 0x18 => s.ringDoorbell q v
  | _ => s

/-! ## Partition registers (R306, R342, R395, R407) -/

/-- An LPDDR channel quota that shares a channel with another partition. -/
def State.lpchShared (s : State) (p : Nat) (v : BitVec 32) : Bool := s.parts.any fun x => x.num != p && (x.lpch &&& v) != 0

/-- One 32-bit write to the registers of a partition. -/
def State.writePartition (s : State) (p off : Nat) (v : BitVec 32) : State :=
  let x := s.part p
  let n := v.toNat
  let quiet (y : Partition) : State := if x.state = 1 || x.state = 2 then s.putPart y else s
  match off with
  | 0x00 => quiet { x with modes := v &&& 0x3F }
  | 0x08 =>
    let s := s.putPart { x with cmd := bits n 3 0, newSpans := BitVec.ofNat 8 (bits n 15 8) }
    if v.getLsbD 31 then s.go p (bits n 3 0) (BitVec.ofNat 8 (bits n 15 8)) else s
  | 0x10 => if s.lpchShared p v then quiet { x with status := 3 } else quiet { x with lpch := v }
  | 0x14 => quiet { x with listu := n % 2 ^ 24 }
  | 0x18 => quiet { x with qout := n % 32 }
  | 0x1C => quiet { x with evq := n % 2 ^ 17 }
  | 0x20 => quiet { x with sptmo := n % 2 ^ 21 }
  | 0x24 => quiet { x with vcw := n % 256 }
  | 0x28 => quiet { x with brokq := n % 65536 }
  | 0x30 => quiet { x with saveArea := hi32 x.saveArea ++ v }
  | 0x34 => quiet { x with saveArea := v ++ lo32 x.saveArea }
  | 0x40 => s.putPart { x with fring := hi32 x.fring ++ (v &&& 0xFFFFFFC0) }
  | 0x44 => s.putPart { x with fring := v ++ lo32 x.fring }
  | 0x4C => s.putPart { x with frd := v }
  | 0x50 => s.putPart { x with flog := n % 32 }
  | 0x54 => s.fres p v
  | 0x58 => s.putPart { x with cecnt := v }
  | 0x5C => s.putPart { x with cethr := v }
  | 0x60 => quiet { x with wctl := v &&& 3 }
  | 0x64 => s.putPart { x with wsz := n % 32 }
  | 0x68 => s.putPart { x with wring := hi32 x.wring ++ (v &&& 0xFFFFFFF8) }
  | 0x6C => s.putPart { x with wring := v ++ lo32 x.wring }
  | 0x70 => if x.wctl.getLsbD 1 then (s.putPart { x with wwr := v }).waitForLog p else s
  | 0x74 => if x.wctl.getLsbD 1 then s else s.putPart { x with wrd := v }
  | _ => s

/-- A write to an event counter below the quota (R291). -/
def State.writeEvent (s : State) (p e : Nat) (v : BitVec 64) : State := if e < (s.part p).evq then s.setEvent p e v else s

/-! ## The mailbox (R309, R413) -/

/-- The mailbox's check of a code object: steps 1 to 4 of R413. -/
def State.loaderCheck (s : State) : State :=
  let m := s.mailbox
  let done (s : State) (n : Nat) : State := { s with mailbox := { m with status := n, flip := !m.flip } }
  if (s.queue m.queue).part != m.part then done s 0x06
  else match s.loadObject (s.queueContext m.queue) m.part m.addr (some m.len.toNat) with
  | (.ok _, s) => done s 0
  | (.error (.code n), s) => done s n
  | (.error _, s) => done s 0x06

/-- LOADER_CHECK: LDGO is written. -/
def execLoaderCheck (port : Fin 4) (s : State) : Host.Outcome State Fault Refusal :=
  if s.windowOn port.val then .next s.loaderCheck else .next s

/-- One 32-bit write to the mailbox. -/
def State.writeMailbox (s : State) (off : Nat) (v : BitVec 32) : State :=
  let m := s.mailbox
  match off with
  | 0x00 => { s with mailbox := { m with addr := hi32 m.addr ++ v } }
  | 0x04 => { s with mailbox := { m with addr := v ++ lo32 m.addr } }
  | 0x08 => { s with mailbox := { m with len := v } }
  | 0x10 =>
    let s := { s with mailbox := { m with part := bits v.toNat 2 0, queue := bits v.toNat 26 16 } }
    if v.getLsbD 31 then s.loaderCheck else s
  | _ => s

/-! ## Module registers (R303, R404) -/

/-- MERR is write-one-to-clear (R404). -/
def State.clearMerr (s : State) : State := { s with module := { s.module with merr := false } }

/-- MERR_CLEAR. -/
def execMerrClear (port : Fin 4) (s : State) : Host.Outcome State Fault Refusal :=
  if s.windowOn port.val then .next s.clearMerr else .next s

/-- One 32-bit write to the module registers; POWERCAP keeps to its limits. A role given to a port whose link is down
retrains it (R403). -/
def State.writeModule (s : State) (off : Nat) (v : BitVec 32) : State :=
  match off with
  | 0x10 =>
    let up : BitVec 4 := BitVec.ofNat 4 ((List.range 4).map fun k => if bits v.toNat (2 * k + 1) (2 * k) = 0 then 0 else 2 ^ k).sum
    { s with module := { s.module with portRole := v.setWidth 8, down := s.module.down &&& ~~~up } }
  | 0x18 =>
    let n := v.toNat % 65536
    if 600 ≤ n && n ≤ 1800 then { s with module := { s.module with powerCap := BitVec.ofNat 16 n } } else s
  | 0x1C => if v.getLsbD 31 then s.clearMerr else s
  | _ => s

/-! ## The control window (R302) -/

/-- What an offset of the window belongs to: the module, the mailbox, a queue, a partition or an event counter. -/
inductive WindowPlace where
  | module (off : Nat)
  | mailbox (off : Nat)
  | queue (q off : Nat)
  | partition (p off : Nat)
  | event (p e half : Nat)
  | none
  deriving DecidableEq, Repr

/-- The layout of R302. -/
def windowPlace (off : Nat) : WindowPlace :=
  if off < 0x1000 then .module off
  else if off < 0x2000 then .mailbox (off - 0x1000)
  else if 0x100000 ≤ off && off < 0x110000 then .queue ((off - 0x100000) / 32) ((off - 0x100000) % 32)
  else if 0x200000 ≤ off && off < 0x280000 then .partition ((off - 0x200000) / 0x10000) ((off - 0x200000) % 0x10000)
  else if 0x1000000 ≤ off && off < 0x1400000 then
    .event ((off - 0x1000000) / 0x80000) ((off - 0x1000000) % 0x80000 / 8) ((off - 0x1000000) % 8 / 4)
  else .none

/-- The partition whose register an offset holds. -/
def State.windowPart (s : State) (off : Nat) : Option Nat :=
  match windowPlace off with
  | .queue q _ => some (s.queue q).part
  | .partition p _ => some p
  | .event p _ _ => some p
  | _ => none

/-- One 32-bit write at an offset. -/
def State.write32 (s : State) (off : Nat) (v : BitVec 32) : State :=
  match windowPlace off with
  | .module o => s.writeModule o v
  | .mailbox o => s.writeMailbox o v
  | .queue q o => s.writeQueue q o v
  | .partition p o => s.writePartition p o v
  | .event p e h =>
    let x := s.eventCount p e
    s.writeEvent p e (if h = 0 then hi32 x ++ v else v ++ lo32 x)
  | .none => s

/-- A 32- or 64-bit write; a 64-bit write to an event counter is one write. -/
def State.writeWindow (s : State) (off : Nat) (wide : Bool) (v : BitVec 64) : State :=
  match windowPlace off, wide with
  | .event p e 0, true => s.writeEvent p e v
  | _, true => (s.write32 off (lo32 v)).write32 (off + 4) (hi32 v)
  | _, false => s.write32 off (lo32 v)

/-- The partition registers whose writes are no input of a Woad round: those of R407; and RESET, which ends the rounds. -/
def notAnInput (off : Nat) (v : BitVec 64) : Bool :=
  match windowPlace off with
  | .partition _ o => (0x60 ≤ o && o < 0x80) || (o = 0x08 && bits v.toNat 3 0 = 1)
  | _ => false

/-- CONTROL_REGISTER_WRITE (R302): ignored where the port's node does not administer the queue or partition; an input of
a Woad partition (R408). -/
def execControlRegisterWrite (port : Fin 4) (off : BitVec 26) (wide : Bool) (value : BitVec 64) (s : State) :
    Host.Outcome State Fault Refusal :=
  let o := off.toNat
  if !s.windowOn port.val || o % (if wide then 8 else 4) != 0 then .next s
  else match s.windowPart o with
  | none => .next (s.writeWindow o wide value)
  | some p =>
    if !s.administers port.val p then .next s
    else if notAnInput o value then .next (s.writeWindow o wide value)
    else s.asInput p (.controlRegisterWrite port off wide value) fun s => s.writeWindow o wide value

/-- A command word is written, with GO. -/
def commandWrite (port : Fin 4) (p : Fin 8) (cmd : Nat) (spans : BitVec 8) (s : State) : Host.Outcome State Fault Refusal :=
  execControlRegisterWrite port (BitVec.ofNat 26 (0x200008 + 0x10000 * p.val)) false (BitVec.ofNat 64 (2 ^ 31 + 2 ^ 8 * spans.toNat + cmd)) s

/-- PARTITION_RESET: GO with CMD 1. -/
def execPartitionReset (port : Fin 4) (p : Fin 8) (s : State) : Host.Outcome State Fault Refusal :=
  commandWrite port p 1 (s.part p.val).newSpans s

/-- PARTITION_RESIZE: GO with CMD 2; a window write as any other (R408, R409). -/
def execPartitionResize (port : Fin 4) (p : Fin 8) (newSpans : BitVec 8) (s : State) : Host.Outcome State Fault Refusal :=
  commandWrite port p 2 newSpans s

/-- PARTITION_START: GO with CMD 3. -/
def execPartitionStart (port : Fin 4) (p : Fin 8) (s : State) : Host.Outcome State Fault Refusal :=
  commandWrite port p 3 (s.part p.val).newSpans s

/-- QUEUE_ENABLE: the queue's control word is written. -/
def execQueueEnable (port : Fin 4) (q : Fin 2048) (ctl : BitVec 32) (s : State) : Host.Outcome State Fault Refusal :=
  execControlRegisterWrite port (BitVec.ofNat 26 (0x100010 + 32 * q.val)) false (ctl.setWidth 64) s

/-- DOORBELL: WR is written. -/
def execDoorbell (port : Fin 4) (q : Fin 2048) (wr : BitVec 32) (s : State) : Host.Outcome State Fault Refusal :=
  execControlRegisterWrite port (BitVec.ofNat 26 (0x100018 + 32 * q.val)) false (wr.setWidth 64) s

/-- EVENT_COUNTER_WRITE (R291). -/
def execEventCounterWrite (port : Fin 4) (p : Fin 8) (e : Nat) (value : BitVec 64) (s : State) : Host.Outcome State Fault Refusal :=
  if e < 65536 then
    execControlRegisterWrite port (BitVec.ofNat 26 (0x1000000 + 0x80000 * p.val + 8 * e)) true value s
  else .next s

end Sys2Proof.Machine

end
end

