-- ==== Sys2Proof/Machine/Placement.lean ====
section
/-! DEFINITION. From placeable work to crews on cores and back: priority, inheritance and aging (R294), placement
(R293), waiting for room (R295), pre-emption, saving and resumption (R39 to R41, R346, R365 to R367), completion (R290,
R300). -/

noncomputable section

namespace Sys2Proof.Machine

/-! ## Effective priority (R294) -/

/-- The events that a taken work will signal: its own, and those of SIGNAL packets that follow it in its queue. -/
def State.willSignal (s : State) (w : Work) (e : Nat) : Bool :=
  let x := s.queue w.queue
  (w.sig && w.sigev == e) || (match x.blocked with | some (some (e', _)) => e' == e | _ => false) ||
    (x.en && (List.range (min x.unread (2 ^ x.logsz))).any fun k =>
      match s.peekPacket x (x.rd.toNat + k) with
      | some d => dfield d 0 7 0 = 5 && dfield d 0x24 31 16 = e
      | none => false)

/-- One round of inheritance over the classes of a partition's taken works. -/
def State.inherit (s : State) (ps : List (Work × Nat)) : List (Work × Nat) :=
  ps.map fun (w, p) =>
    let heirs := (ps.filter fun x => x.1.part == w.part && x.1.dep && s.willSignal w x.1.depev).map fun x => x.2
    let waits := s.queues.filterMap fun x =>
      match x.waitFor with
      | some (e, _, prio, taken) => if x.part == w.part && s.willSignal w e then some (min 7 (prio + s.agedSince taken)) else none
      | none => none
    (w, (heirs ++ waits).foldl max p)

/-- The effective priority of every taken work (R294). -/
def State.priorities (s : State) : List (Nat × Nat) :=
  let own := s.works.map fun w => (w, min 7 (w.prio + max w.aged (s.agedSince w.takenAt)))
  let all := if s.works.all (fun w => !w.dep) && s.queues.all (fun x => x.waitFor.isNone) then own
             else (List.range s.works.length).foldl (fun ps _ => s.inherit ps) own
  all.map fun x => (x.1.seq, x.2)

/-- The effective priority of a work; work that is done has none. -/
def State.priorityOf (s : State) (seq : Nat) : Nat := ((s.priorities.find? fun x => x.1 == seq).map fun x => x.2).getD 0

/-! ## What a span would place next (R293, R294, R299) -/

/-- A crew that waits for cores. -/
inductive Candidate where
  /-- A saved crew. -/
  | saved (crew : Nat)
  /-- The next crew of a grid's share. -/
  | grid (seq index : Nat)
  /-- A batch of a graph's node. -/
  | batch (seq node : Nat) (records : List Nat)
  deriving DecidableEq, Repr

/-- A candidate in its place in the order: its class, its work, its place within the work, and since when it waits. -/
structure Ranked where
  prio : Nat
  seq : Nat
  rank : Nat
  since : Nat
  cand : Candidate
  deriving DecidableEq, Repr

/-- Ranked higher: the class, then take order, then the place within the work. -/
def Ranked.before (x y : Ranked) : Bool :=
  y.prio < x.prio || (x.prio = y.prio && (x.seq < y.seq || (x.seq = y.seq && x.rank < y.rank)))

/-- Crews of a tile pass are the broker's (R41). -/
def Crew.isTile (c : Crew) : Bool := match c.kind with | .tile _ => true | _ => false

/-- Everything that waits for the cores of a span. Within one work saved crews come first, then batches, those of
higher nodes before those of lower ones, then the grid. -/
def State.waiting (s : State) (span : Nat) : List Ranked :=
  let prios := s.priorities
  let prio (seq : Nat) : Nat := ((prios.find? fun x => x.1 == seq).map fun x => x.2).getD 0
  let saved := s.saved.filterMap fun x =>
    match s.crew? x.crew with
    | some c => if c.isTile || x.span != span then none
                else some { prio := prio c.work, seq := c.work, rank := 0, since := x.tick, cand := .saved x.crew }
    | none => none
  let grids := s.works.filterMap fun w =>
    let (next, stop) := w.shares.getD span (0, 0)
    if w.placeable && w.image.isSome && next < stop then
      some { prio := prio w.seq, seq := w.seq, rank := 1000, since := w.since.getD span 0, cand := .grid w.seq next }
    else none
  let batches := s.graphs.flatMap fun g =>
    match s.work? g.seq with
    | some w =>
      if (s.part w.part).spans.getLsbD span then
        g.ready.map fun (n, rs, t) => ({ prio := prio g.seq, seq := g.seq, rank := 100 - n, since := t, cand := .batch g.seq n rs } : Ranked)
      else []
    | none => []
  saved ++ batches ++ grids

/-- The candidate that the span's dispatcher must place first. -/
def State.topWaiting (s : State) (span : Nat) : Option Ranked :=
  (s.waiting span).foldl (fun (best : Option Ranked) x =>
    match best with
    | none => some x
    | some b => if x.before b then some x else some b) none

/-! ## Room (R293) -/

/-- What each rank of a crew of an image needs. -/
def Image.room (k : Image) : Room :=
  { slots := k.kernel.waves, regs := k.kernel.waves * (k.kernel.regs + 1), tile := tileAlloc k.kernel.tile, banks := k.kernel.acc }

/-- What a rank of a saved crew needs. -/
def State.savedRoom (s : State) (c : Crew) (rank : Nat) : Room :=
  let ws := (s.wavesOf c.id rank).filter Wave.holdsSlot
  { slots := ws.length, regs := (ws.map fun w => w.regs + 1).sum
    tile := ((s.blocksOf c.id rank).map fun b => b.tileSize).sum, banks := ((s.blocksOf c.id rank).map Block.banks).sum }

/-- The needs of a candidate's ranks. -/
def State.needs (s : State) : Candidate → List Room
  | .saved id => match s.crew? id with | some c => (List.range c.size).map (s.savedRoom c) | none => []
  | .grid seq _ =>
    match s.work? seq with
    | some w => match w.image with | some k => List.replicate w.size k.room | none => []
    | none => []
  | .batch seq n _ =>
    match (s.graph? seq).bind fun g => g.nodes[n]? with
    | some x => [x.image.room]
    | none => []

/-- Cores j to j + c - 1 of a cluster have the room. -/
def State.fits (s : State) (cluster j : Nat) (rs : List Room) : Bool :=
  j + rs.length ≤ 8 && rs.zipIdx.all fun (r, k) => s.hasRoom (8 * cluster + j + k) r

/-- The waves of a queued phase of a block: those that have not exited, once each of them has reached a PHASE (R37). Each
wave of a G-buffer step is a block of its own (R283). -/
def State.phaseWaves (s : State) (c : Crew) (rank : Nat) : List Wave :=
  let ws := (s.wavesOf c.id rank).filter fun w => !w.hasExited
  if c.isGbuffer then (ws.filter fun w => w.reached.isSome).take 1
  else if ws.all fun w => w.reached.isSome then ws else []

/-- The crews with a phase queued on a core. -/
def State.phasesAt (s : State) (core : Nat) : List Crew :=
  s.crews.filter fun c => c.resident && c.preempt.isNone && !c.isCombiner &&
    (List.range c.size).any fun r => c.coreOf r == core && !(s.phaseWaves c r).isEmpty

/-- A phase is queued on a core with a class at or above this one: it goes ahead there (R38, R294). -/
def State.phaseQueued (s : State) (core prio : Nat) : Bool := (s.phasesAt core).any fun c => prio ≤ s.priorityOf c.work

/-! ## Placement -/

/-- The waves of a block at launch. -/
def launchWaves (c : Crew) (b : Block) (k : Kernel) (karg : BitVec 64) (nlanes : Nat) (pc : Addr) : List Wave :=
  (List.range k.waves).map fun i =>
    launchWave { crew := c.id, rank := b.rank, wave := i } k.regs (roleOf k.roles i) b.index k.waves karg c.ctx
      (segsOf c.ctx b.tileSize (b.index * k.waves + i)) (launchMask b.index k.waves i nlanes) pc

/-- Waves join, each with its latches loaded (R148). -/
def State.addWaves (s : State) (c : Crew) (ws : List Wave) : State :=
  ws.foldl (fun s w => let (w, s) := s.loadLatches w c; { s with waves := s.waves ++ [w] }) s

/-- The cores of a crew. -/
def Crew.cores (c : Crew) : List Nat := (List.range c.size).map c.coreOf

/-- A crew's blocks take their tile memory on its cores, and nothing older is left in the L1 of those: what starts there
has acquired (R63, R98, R291, R299). -/
def State.seatCrew (s : State) (c : Crew) (bs : List Block) (new : Bool) : List Block × State :=
  bs.foldl (fun (acc : List Block × State) b =>
    if b.rank < 8 then (let (b, s) := acc.2.seat (c.coreOf b.rank) b new; (acc.1 ++ [b], s)) else (acc.1 ++ [b], acc.2))
    ([], c.cores.foldl State.dropL1 s)

/-- A crew of an image on its cores, with its blocks and waves. -/
def State.placeCrew (s : State) (c : Crew) (pc : Addr) (f : Wave → Wave) : State :=
  let (bs, s) := s.seatCrew c ((List.range c.size).map fun r => newBlock c.id r (c.index * c.size + r) c.image) true
  let s := { s with nextCrew := s.nextCrew + 1, crews := s.crews ++ [c], blocks := s.blocks ++ bs }
  (bs.foldl (fun (s : State) (b : Block) => s.addWaves c ((launchWaves c b c.image.kernel c.karg c.nlanes pc).map f)) s).settle

/-- The crew record of a placement. -/
def State.newCrew (s : State) (w : Work) (kind : CrewKind) (k : Image) (index size : Nat) (p : CoreAt) : Crew :=
  { id := s.nextCrew, work := w.seq, kind := kind, part := w.part, queue := w.queue, index := index, size := size, span := p.span.val
    cluster := p.cluster.val, core := p.core.val, resident := true, ctx := s.queueContext w.queue, image := k, karg := w.karg
    nlanes := w.nlanes, preempt := none }

/-- The address at which a kernel, or a phase of it, starts. -/
def Image.start (k : Image) (phase : Nat) : Addr :=
  k.codeBase + BitVec.ofNat 64 (if phase = 0 then k.kernel.entry else (k.phase phase).entry)

/-- A wave of a batch of k records (R297). -/
def batchWave (node : Nat) (records : List Nat) (w : Wave) : Wave :=
  let m : LaneMask := maskOf fun l => l < records.length
  let live := LaneMask.toSlices m
  let w : Wave := { w with
    mask := m, act := m, exited := ~~~live
    gangs := if live = 0 then [] else w.gangs.map fun (g : Gang) => { g with slices := live } }
  let w := ({ w with g := setAt w.g 0 (BitVec.ofNat 32 node) }).writeG allSlices 6 (BitVec.ofNat 32 records.length)
  let a (l : Nat) : Nat := records.getD l 0
  (w.writeV 2 m fun l => BitVec.ofNat 32 (a l)).writeV 3 m fun l => BitVec.ofNat 32 (a l / 2 ^ 32)

/-- Crew `index` of a grid. -/
def State.placeGrid (s : State) (w : Work) (k : Image) (index : Nat) (p : CoreAt) : State :=
  let kind : CrewKind := match w.kind with | .launch => .launch | .render => .geometry | .graph => .root
  let phase := if w.kind = .graph then (((s.graph? w.seq).bind fun g => g.nodes.head?).map fun n => n.phase).getD 0 else 0
  let w' : Work := { w with
    shares := w.shares.zipIdx.map fun (x, i) => if i = p.span.val then (index + 1, x.2) else x
    since := w.since.zipIdx.map fun (x, i) => if i = p.span.val then s.tick else x }
  (s.putWork w').placeCrew (s.newCrew w kind k index w.size p) (k.start phase) id

/-- A batch of records. -/
def State.placeBatch (s : State) (w : Work) (g : Graph) (n : Node) (node : Nat) (records : List Nat) (p : CoreAt) : State :=
  let left := g.ready.eraseP fun x => x.1 == node && x.2.1 == records
  let s := s.putGraph { g with ready := left }
  let c := { s.newCrew w (.batch node records) n.image node 1 p with nlanes := 0 }
  s.placeCrew c (n.image.start n.phase) (batchWave node records)

/-- A work whose context record is bad when its dispatcher reads it fails with that CODE (R398, log entry 71). -/
def State.failWork (s : State) (seq code : Nat) : State :=
  match s.work? seq with
  | some w => (s.dropCrews fun c => c.work == seq).workBad w code
  | none => s

/-- The context record as a crew reads it again: it keeps its TILE window, which is set at placement alone (R50, R213,
R287). -/
def State.rereadContext (s : State) (c : Crew) : Context := { s.queueContext c.queue with tilewin := c.ctx.tilewin }

/-- CREW_PLACEMENT (R293): the span's first candidate is placed on the cores from this one on, if they have room. -/
def execCrewPlacement (p : CoreAt) (s : State) : Host.Outcome State Fault Refusal :=
  match s.topWaiting p.span.val with
  | none => .next s
  | some x =>
    let rs := s.needs x.cand
    let cluster := 12 * p.span.val + p.cluster.val
    if rs.isEmpty || !s.fits cluster p.core.val rs ||
        (List.range rs.length).any fun k => s.phaseQueued (8 * cluster + p.core.val + k) x.prio then .next s
    else match x.cand with
    | .saved _ => .next s
    | .grid seq i =>
      (match s.work? seq with
       | some w =>
         match s.contextBad w.queue, w.image with
         | some code, _ => .next (s.failWork w.seq code)
         | none, some k => .next (s.placeGrid w k i p)
         | none, none => .next s
       | none => .next s)
    | .batch seq node rs =>
      match s.work? seq, s.graph? seq with
      | some w, some g =>
        match s.contextBad w.queue, g.nodes[node]? with
        | some code, _ => .next (s.failWork w.seq code)
        | none, some n => .next (s.placeBatch w g n node rs p)
        | none, none => .next s
      | _, _ => .next s

/-! ## The start of a phase (R38) -/

/-- It is this crew's turn on a core: no phase queued there and no crew that waits for the span ranks higher (R294). -/
def State.phaseTurn (s : State) (c : Crew) (core : Nat) : Bool :=
  let p := s.priorityOf c.work
  ((s.phasesAt core).all fun x => let q := s.priorityOf x.work; decide (q < p) || (q == p && decide (c.work ≤ x.work))) &&
    (s.waiting c.span).all fun x => decide (x.prio ≤ p)

/-- PHASE_START: the queued phase of a block starts, in its turn, once the core has room (R37, R38); its code is fetched
afresh (R64), and the context record read again (R287). -/
def execPhaseStart (crew rank : Nat) (s : State) : Host.Outcome State Fault Refusal :=
  match s.crew? crew, s.block? crew rank with
  | some c, some b =>
    let ws := s.phaseWaves c rank
    let need : Room := { slots := ws.length, regs := (ws.map fun w => w.regs + 1).sum, tile := 0, banks := 0 }
    let core := c.coreOf rank
    if ws.isEmpty || !c.resident || c.preempt.isSome || c.isCombiner || c.size ≤ rank || !s.hasRoom core need || !s.phaseTurn c core
    then .next s
    else match s.contextBad c.queue with
    | some code => .next (s.failWork c.work code)
    | none =>
      let ctx := s.rereadContext c
      let (img, s) := s.refetch ctx c.part c.image
      let c := { c with ctx := ctx }
      let s := (s.putCrew c).putBlock { b with code := img.code }
      .next (ws.foldl (fun s w =>
        let (w, s) := s.loadLatches (w.atPhaseStart c ctx b (w.reached.getD 1)) c
        s.putWave w) s)
  | _, _ => .next s

/-! ## Aging (R294) -/

/-- PRIORITY_AGING: one class more for another full 100,000 ticks. -/
def execPriorityAging (target : AgeTarget) (s : State) : Host.Outcome State Fault Refusal :=
  match target with
  | .work seq =>
    (match s.work? seq with
     | some w =>
       if w.aged < (s.tick - w.takenAt) / 100000 && w.prio + w.aged < 7 then .next (s.putWork { w with aged := w.aged + 1 }) else .next s
     | none => .next s)
  | .queueHead q =>
    let x := s.queue q.val
    if x.en && x.unread != 0 && x.aged < (s.tick - x.since) / 100000 && x.aged < 7 then .next (s.putQueue { x with aged := x.aged + 1 })
    else .next s

/-! ## Pre-emption (R40, R365, R366) -/

/-- Every gang stops at its next boundary. -/
def Wave.haltAll (w : Wave) : Wave := w.halt fun _ => true

/-- BIN's lanes that are not yet committed are withdrawn; the BIN submits them again on resumption (R262). -/
def State.withdrawBins (s : State) (c : Crew) : State :=
  match c.kind, s.passOf c with
  | .geometry, some r => s.putPass { r with subs := r.subs.filter fun x => x.wave.crew != c.id }
  | _, _ => s

/-- A request: the waits of R40 end. With a safe-point time-out of 0 every wave stops at once. -/
def State.requestPreempt (s : State) (id : Nat) : State :=
  match s.crew? id with
  | none => s
  | some c =>
    let tmo := (s.part c.part).sptmo
    let all := tmo = 0
    let s := s.putCrew { c with preempt := some (s.tick + tmo) }
    let stop (w : Wave) : Wave := if all then w.haltAll else if w.sup then w else w.halt Wait.stopsAtOnce
    let s := { s with waves := updWhere (fun w => w.ref.crew == id && !w.hasExited && w.reached.isNone) stop s.waves }
    s.withdrawBins c

/-- A crew that a request may stop: it holds cores, and no request stands. -/
def Crew.mayPreempt (c : Crew) : Bool :=
  c.resident && c.preempt.isNone && (match c.kind with | .combiner _ => false | _ => true)

/-- PREEMPTION_REQUEST (R40). -/
def execPreemptionRequest (crew : Nat) (s : State) : Host.Outcome State Fault Refusal :=
  match s.crew? crew with
  | some c => if c.mayPreempt then .next (s.requestPreempt crew) else .next s
  | none => .next s

/-- SAFE_POINT_TIMEOUT (R40): waves that have not stopped stop at their next boundary. -/
def execSafePointTimeout (crew : Nat) (s : State) : Host.Outcome State Fault Refusal :=
  match s.crew? crew with
  | some c =>
    (match c.preempt with
     | some d =>
       if s.tick < d then .next s
       else .next { s with
         waves := updWhere (fun w => w.ref.crew == crew && !w.hasExited && w.reached.isNone) Wave.haltAll s.waves }
     | none => .next s)
  | none => .next s

/-- Without these crews, the candidate would fit somewhere on the span. -/
def State.roomWithout (s : State) (span : Nat) (rs : List Room) (gone : List Nat) : Option (Nat × Nat) :=
  let s := { s with crews := updWhere (fun c => gone.contains c.id) (fun c => { c with resident := false }) s.crews }
  ((List.range 12).flatMap fun cl => (List.range 8).map fun j => (12 * span + cl, j)).find? fun x => s.fits x.1 x.2 rs

/-- The resident crews of a lower class on a span, the lowest class first and the youngest first within it. -/
def State.victims (s : State) (span prio : Nat) : List Crew :=
  let vs := s.crews.filter fun c => c.mayPreempt && c.span = span && s.priorityOf c.work < prio
  (List.range prio).flatMap fun k => (vs.filter fun c => s.priorityOf c.work = k).reverse

/-- PLACEMENT_WAIT_TIMEOUT (R295): the span's first candidate has waited 10,000 ticks without room; of the crews of lower
classes as many are pre-empted as its placement needs. -/
def execPlacementWaitTimeout (span : Fin 8) (s : State) : Host.Outcome State Fault Refusal :=
  match s.topWaiting span.val with
  | none => .next s
  | some x =>
    let rs := s.needs x.cand
    let leaving := (s.crews.filter fun c => c.preempt.isSome).map fun c => c.id
    if s.tick < x.since + 10000 || rs.isEmpty || (s.roomWithout span.val rs leaving).isSome then .next s
    else
      let vs := (s.victims span.val x.prio).map fun c => c.id
      match (List.range (vs.length + 1)).find? fun n => (s.roomWithout span.val rs (leaving ++ vs.take n)).isSome with
      | none => .next s
      | some n =>
        let (cl, j) := (s.roomWithout span.val rs (leaving ++ vs.take n)).getD (0, 0)
        let hit (c : Crew) : Bool :=
          c.clusterNo = cl && (List.range c.size).any fun r => j ≤ c.core + r && c.core + r < j + rs.length
        .next ((vs.take n).foldl (fun s id =>
          match s.crew? id with
          | some c => if hit c then s.requestPreempt id else s
          | none => s) s)

/-! ## Saving (R40, R346, R365) -/

/-- A producer whose every lane still to come is held in a fault buffer. -/
def State.heldWhole (s : State) (r : WaveRef) (ld : Landing) : Bool :=
  ld.pending.lanes.all fun l => s.held.any fun h => h.wave == r && h.landing == some ld.id && h.lane = l

/-- A crew may be saved: every wave has stopped, exited or reached a PHASE, and every producer has landed or waits on
held accesses alone. -/
def State.maySave (s : State) (c : Crew) : Bool :=
  c.preempt.isSome && c.resident &&
    s.waves.all fun w => w.ref.crew != c.id || (w.isHalted && w.landings.all fun ld => ld.pending = 0 || s.heldWhole w.ref ld)

/-- The live registers of a wave all of whose slices stopped at a SAFE or wait at a PHASE; none where the wave is saved
whole (R365). -/
def Wave.liveSet (w : Wave) (k : Image) : Option (BitVec 64 × BitVec 64) :=
  if w.sup || w.frame.isSome then none
  else w.gangs.foldl (fun acc g =>
    match acc, g.wait with
    | some (v, x), .stopped (some n) =>
      let e := k.safes.getD n { liveV := 0, liveG := 0 }
      some (v ||| e.liveV, x ||| e.liveG)
    | some (v, x), .phase n => some (v ||| (k.phase n).carryV, x ||| (k.phase n).carryG)
    | _, _ => none) (some (0, 0))

/-- Registers that are not live return with the uninitialised marker and with no init bit (R40); v0 returns with the lane
index, which the outcome that R315 requires reads after a SAFE that does not list it (log entry 77). -/
def Wave.forget (w : Wave) (live : BitVec 64 × BitVec 64) : Wave :=
  { w with
    v := (w.v.zip (launchV w.regs)).zipIdx.map fun (x, n) => if live.1.getLsbD n || !w.isFull .v n then x.1 else x.2
    g := w.g.zipIdx.map fun (x, n) => if live.2.getLsbD n || !w.isFull .g n then x else markerG n
    vInit := w.vInit &&& (live.1 ||| ~~~w.vFull)
    gInit := (w.gInit &&& (live.2 ||| ~~~w.gFull)) ||| 0xE000000000000000 }

/-- What the save of one wave leaves of it: landed producers, and its live registers. -/
def Wave.saved (w : Wave) (c : Crew) : Wave :=
  let w := (w.landings.filter fun ld => ld.pending = 0).foldl (fun w ld => w.land ld) w
  let w := { w with frame := w.frame.map fun f => { f with entry := none } }
  if w.hasExited || w.reached.isSome then w
  else match w.liveSet c.image with
  | some m => w.forget m
  | none => w

/-- The fault-buffer entries that a stopping crew's waves own, or handle, become FREE; what other waves hold on them is
presented again, in its order (R346). -/
def State.leaveEntries (s : State) (c : Crew) : State :=
  let mine := (s.buffer c.clusterNo).entries.filter (Entry.ownedBy fun n => n == c.id)
  mine.foldl (fun s e =>
    let others := (s.heldOn c.clusterNo e.index).filter fun h => h.wave.crew != c.id
    let s := { s.freeEntry c.clusterNo e.index with
      held := updWhere (fun h => h.cluster == c.clusterNo && h.entry == some e.index) (fun h => { h with entry := none }) s.held }
    ((others.foldl (fun s h => s.performOrPresent h) s).afterReplay others).entryFreed c.clusterNo) s

/-- A crew leaves its cores: waves saved, engine commands stopped (R234), held accesses travelling with it (R346), and
poison of its tile memory left where it was too (R396). -/
def State.saveCrew (s : State) (c : Crew) : State :=
  let inn (r : WaveRef) : Bool := r.crew == c.id
  let s := { s with held := updWhere (fun (h : Held) => inn h.wave) (fun (h : Held) => { h with entry := none, saved := true }) s.held }
  let s := (s.leaveEntries c).withdrawBins c
  let s : State := { s with
    tilePoison := s.tilePoison ++ s.blocks.flatMap fun b => if b.crew == c.id && b.rank < 8 then s.leftPoison b else []
    waves := updWhere (fun w => inn w.ref) (fun w => w.saved c) s.waves
    blocks := updWhere (fun (b : Block) => b.crew == c.id) (fun (b : Block) => { b with
      commands := b.commands.map fun (m : Command) => { m with written := [], held := [] } }) s.blocks
    saved := s.saved ++ [{ crew := c.id, span := c.span, tick := s.tick }] }
  s.putCrew { c with resident := false, preempt := none }

/-- CREW_SAVE (R40). -/
def execCrewSave (crew : Nat) (s : State) : Host.Outcome State Fault Refusal :=
  match s.crew? crew with
  | some c => if s.maySave c && !c.isTile then .next (s.saveCrew c) else .next s
  | none => .next s

/-! ## Resumption (R41, R346, R367) -/

/-- A gang of a resumed wave: what stopped goes on at its saved address, where a fetch may be held still (R346), and a PHASE or a
BAR is issued again (R367). -/
def Gang.resumed (held : Addr → Bool) (g : Gang) : Gang :=
  match g.wait with
  | .stopped _ => { g with wait := if held g.pc then .fetch else .ready }
  | .phase _ => { g with wait := .ready }
  | .barrier gen _ => { g with wait := .barrier gen false }
  | _ => g

/-- A fetch of a wave at an address is held. -/
def State.fetchHeld (s : State) (r : WaveRef) (pc : Addr) : Bool := s.held.any fun h => h.wave == r && h.kind == .fetch && h.pc == pc

/-- A resumed wave; `held` says at which addresses it has a held fetch. -/
def Wave.resumed (held : Addr → Bool) (w : Wave) : Wave := w.mapGangs (Gang.resumed held)

/-- The context record gives a resumed wave its segment registers and DEBUG_CTRL; it keeps its TILE window (R50, R287,
R353). -/
def Wave.reload (w : Wave) (ctx : Context) : Wave :=
  { w with
    dbgCtl := ctx.dbgCtl
    segs := { segsOf ctx 1 (w.blockId.toNat * w.waves + w.ref.wave) with tileBase := w.segs.tileBase, tileLimit := w.segs.tileLimit } }

/-- A saved crew takes its new cores; its code is fetched afresh (R64), the context record read again (R287), and its
held accesses are presented in the new cluster before a wave issues. -/
def State.resumeCrew (s : State) (c : Crew) (p : CoreAt) : State :=
  let ctx := s.rereadContext c
  let c := { c with ctx := ctx, span := p.span.val, cluster := p.cluster.val, core := p.core.val, resident := true, preempt := none }
  let (img, s) := s.refetch ctx c.part c.image
  let (bs, s) := s.seatCrew c (s.blocks.filter fun (b : Block) => b.crew == c.id) false
  let s := { s.putCrew c with
    blocks := (s.blocks.filter fun (b : Block) => b.crew != c.id) ++ bs.map fun (b : Block) => { b with code := img.code }
    waves := updWhere (fun w => w.ref.crew == c.id) (fun w => (w.resumed (s.fetchHeld w.ref)).reload ctx) s.waves
    saved := s.saved.filter fun x => x.crew != c.id }
  let mine (h : Held) : Bool := h.wave.crew == c.id && h.saved
  let back (h : Held) : Held := { h with cluster := c.clusterNo, saved := false, context := ctx }
  let hs := (s.held.filter mine).map back
  let s := { s with held := updWhere mine back s.held }
  (hs.foldl (fun s h => s.performOrPresent h) s).afterReplay hs

/-- The place has room for a saved crew. -/
def State.mayResume (s : State) (c : Crew) (p : CoreAt) : Bool :=
  s.fits (12 * p.span.val + p.cluster.val) p.core.val (s.needs (.saved c.id))

/-- A saved crew goes back to work, unless the context record that it is to read is bad (R398). -/
def State.resumeOrFail (s : State) (c : Crew) (p : CoreAt) : State :=
  match s.contextBad c.queue with
  | some code => s.failWork c.work code
  | none => s.resumeCrew c p

/-- A crew's place among what waits for its span, and no phase queued where it would go, let it resume there (R41, R294). -/
def State.resumeTurn (s : State) (c : Crew) (p : CoreAt) : Bool :=
  let core := 8 * (12 * p.span.val + p.cluster.val) + p.core.val
  c.span = p.span.val && (s.topWaiting p.span.val).map (fun x => x.cand) == some (.saved c.id) &&
    (List.range c.size).all fun k => !s.phaseQueued (core + k) (s.priorityOf c.work)

/-! ## Completion (R290, R300) -/

/-- Nothing of the work is left to do. -/
def State.workDone (s : State) (w : Work) : Bool :=
  let crews := s.crews.any fun c => c.work == w.seq && (match c.kind with | .batch _ _ => true | _ => false)
  w.placeable &&
    (match w.kind with
     | .launch => w.crewsEnded = w.grid / w.size
     | .render =>
       (match s.pass? w.part with
        | some r => r.seq == w.seq && r.final && !r.tiles.isEmpty && r.tiles.all fun t => t.retired
        | none => false)
     | .graph =>
       (match s.graph? w.seq with
        | some g => w.crewsEnded = w.grid && !crews && g.used.isEmpty && g.pending.isEmpty && g.ready.isEmpty
        | none => false))

/-- WORK_COMPLETION. -/
def execWorkCompletion (seq : Nat) (s : State) : Host.Outcome State Fault Refusal :=
  match s.work? seq with
  | none => .next s
  | some w =>
    if !s.workDone w then .next s
    else
      let s := { s with
        works := s.works.filter fun x => x.seq != seq
        graphs := s.graphs.filter fun g => g.seq != seq
        passes := s.passes.filter fun r => r.seq != seq }
      let s := if w.sig then s.addEvent w.part w.sigev 1 else s
      .next ((s.settleQueue w.queue).idleRunning w.part)

end Sys2Proof.Machine

end
end

