-- ==== Sys2Proof/Machine/Pipeline.lean ====
section
/-! DEFINITION. The tile pipeline: the start of a render pass (R266, R270), commits and the parameter pool (R271 to
R276, R388), the broker (R279), the steps of a tile pass (R267, R277, R281 to R283, R387), spills (R280, R389) and
restarts (R390, R405). -/

noncomputable section

namespace Sys2Proof.Machine

/-! ## The start of a pass -/

/-- A tile before any primitive. -/
def TileState.initial : TileState :=
  { head := 0, tail := 0, used := 0, count := 0, prev := 0, valid := false, owned := false, retired := false }

/-- RENDER_PASS_START (R266, R270): the oldest RENDERPASS of the partition that is placeable begins, when no earlier one
runs; its geometry grid becomes placeable. -/
def execRenderPassStart (p : Fin 8) (s : State) : Host.Outcome State Fault Refusal :=
  match s.pass? p.val, s.works.find? fun w => w.part == p.val && w.placeable && w.pass.isSome with
  | none, some w =>
    (match w.pass with
     | some r =>
       let r := { r with tiles := List.replicate (r.cols * r.rows) TileState.initial }
       let w : Work := { w with pass := none, image := some r.geom, grid := r.grid, nlanes := r.glanes, karg := r.karg }
       .next ({ s with passes := s.passes ++ [r] }.putWork (w.ready s (s.part p.val).spans))
     | none => .next s)
  | _, _ => .next s

/-! ## Commits (R272 to R275) -/

/-- Unit u of the pool. -/
def RenderPass.unit (r : RenderPass) (u : Nat) : BitVec 64 := r.poolBase + BitVec.ofNat 64 (64 * u)

/-- The tile t of a pass. -/
def RenderPass.tile (r : RenderPass) (t : Nat) : TileState := r.tiles.getD t TileState.initial

/-- Change tile t of a pass. -/
def RenderPass.updTile (r : RenderPass) (t : Nat) (f : TileState → TileState) : RenderPass :=
  { r with tiles := r.tiles.zipIdx.map fun (x, k) => if k = t then f x else x }

/-- The entry of primitive n in tile t's list (R274). -/
def RenderPass.entry (r : RenderPass) (t n : Nat) : List Byte :=
  let d := n + 1 - (r.tile t).prev
  if d < 128 then [BitVec.ofNat 8 d]
  else [BitVec.ofNat 8 (128 + n / 65536 % 128), BitVec.ofNat 8 n, BitVec.ofNat 8 (n / 256)]

/-- Tile t needs a new chunk for primitive n. -/
def RenderPass.newChunk (r : RenderPass) (t n : Nat) : Bool :=
  (r.tile t).tail = 0 || 60 < (r.tile t).used + (r.entry t n).length

/-- The units that primitive n needs (R273). -/
def RenderPass.need (r : RenderPass) (n : Nat) (ts : List Nat) : Nat := 1 + (ts.filter fun t => r.newChunk t n).length

/-- A two's-complement number of 4 bytes. -/
def s32Bytes (x : Int) : List Byte := leBytes 4 (BitVec.ofInt 32 x).toNat

/-- The bytes of a setup record (R275). -/
def setupBytes (n : Nat) (t : Triangle) (attr : BitVec 64) : List Byte :=
  (t.xy.flatMap fun p => s32Bytes p.1 ++ s32Bytes p.2) ++ (t.z.flatMap fun z => leBytes 4 z.toNat) ++
    (t.q.flatMap fun q => leBytes 4 q.toNat) ++ leBytes 8 attr.toNat ++
    leBytes 4 (n + (if t.back then 2 ^ 31 else 0) + (if t.swap then 2 ^ 30 else 0)) ++ leBytes 4 0

/-- The code of a pass that fails for an access of its own (R398, R412). -/
def DevError.passCode : DevError → Nat
  | .poison => 0x24
  | _ => 0x26

/-- Writes of the list engine, on behalf of a geometry block. -/
def State.poolWrites (s : State) (r : RenderPass) (blk : Option (Nat × Nat)) (ws : List (BitVec 64 × List Byte)) : Except DevError State :=
  ws.foldl (fun (acc : Except DevError State) x =>
    match acc with
    | .error e => .error e
    | .ok s => s.devWrite r.context r.part blk x.1 x.2) (.ok s)

/-- Append primitive n to tile t's list (R273): the pass, and the writes that do it. -/
def State.appendEntry (s : State) (r : RenderPass) (blk : Option (Nat × Nat)) (n t : Nat) : Except DevError (RenderPass × State) :=
  let x := r.tile t
  let e := r.entry t n
  if r.newChunk t n then
    let u := r.next
    let chunk := leBytes 4 (2 ^ 24) ++ e ++ List.replicate (60 - e.length) 0
    let link := if x.tail = 0 then [] else [(r.unit x.tail, leBytes 3 u)]
    match s.poolWrites r blk ((r.unit u, chunk) :: link) with
    | .error e => .error e
    | .ok s =>
      let r' := { r with next := u + 1 }
      .ok (r'.updTile t fun x => { x with head := if x.head = 0 then u else x.head, tail := u, used := e.length, count := 1, prev := n + 1 }, s)
  else
    match s.poolWrites r blk [(r.unit x.tail + BitVec.ofNat 64 (4 + x.used), e), (r.unit x.tail + 3, leBytes 1 (x.count + 1))] with
    | .error e => .error e
    | .ok s => .ok (r.updTile t fun x => { x with used := x.used + e.length, count := x.count + 1, prev := n + 1 }, s)

/-- A gang in BIN with some of its lanes binned: it goes on after the BIN when none is left. -/
def Gang.binned (g : Gang) (bit : LaneMask) : Gang :=
  match g.wait with
  | .bin left =>
    if left &&& ~~~bit = 0 then { g with pc := g.pc + 8, wait := .ready, kept := none } else { g with wait := .bin (left &&& ~~~bit) }
  | _ => g

/-- The lane of a committed primitive has been binned; the BIN whose last lane it was takes its issue position, also while
a handler has its gang suspended (R262). -/
def State.laneBinned (s : State) (x : Submission) : State :=
  match s.wave? x.wave with
  | none => s
  | some w =>
    let bit : LaneMask := 1#96 <<< x.lane
    let gs := w.gangs ++ (w.frame.map fun f => f.gangs).getD []
    let done := if gs.any fun g => (match g.wait with | .bin left => left != 0 && left &&& ~~~bit = 0 | _ => false) then 1 else 0
    s.putWave { w.mapGangs (fun g => g.binned bit) with
      binned := w.binned ||| bit, issued := w.issued + done, roundIssued := w.roundIssued + done }

/-- Tiles with a list, ascending. -/
def RenderPass.listed (r : RenderPass) : List Nat := (List.range r.tiles.length).filter fun t => (r.tile t).head != 0

/-- The pass flushes for primitive n (R276): every tile with a list is to be given a flush pass. -/
def RenderPass.startFlush (r : RenderPass) (n : Nat) : RenderPass :=
  { r with flushing := true, notified := false, lastFlush := some n, requests := r.requests ++ r.listed.map fun t => (t, true) }

/-- The first primitive at or above n that has not gone without a submission. -/
def nextPrimitive (gone : List Nat) : Nat → Nat → Nat
  | 0, n => n
  | fuel + 1, n => if gone.contains n then nextPrimitive gone fuel (n + 1) else n

/-- Lanes that submitted nothing are passed over. -/
def RenderPass.skip (r : RenderPass) : RenderPass :=
  let n := nextPrimitive r.gone r.gone.length r.commit
  { r with commit := n, gone := r.gone.filter fun g => n ≤ g }

/-- A commit that does not fit (R276, R301, R388): a flush, the stall that the control node is told of, or failure where
a flush has not helped. -/
def State.overflow (s : State) (r : RenderPass) : State :=
  if r.lastFlush = some r.commit then s.failPass r.part 0 0x22
  else if (s.part r.part).modes.getLsbD 2 then s.putPass { r with notified := true }
  else s.putPass (r.startFlush r.commit)

/-- PRIMITIVE_COMMIT (R273). A write that fails it fails the pass with VAL 0, and none of its writes stays (R412, log entry
35). -/
def execPrimitiveCommit (p : Fin 8) (s : State) : Host.Outcome State Fault Refusal :=
  match s.pass? p.val with
  | none => .next s
  | some r =>
    if r.flushing then .next s
    else
      let r := r.skip
      let n := r.commit
      match r.subs.find? fun x => x.prim == n with
      | none => .next (s.putPass r)
      | some x =>
        match r.resolve x.xyzq with
        | none => .next (s.putPass { r with subs := r.subs.filter fun y => y.prim != n, gone := r.gone ++ [n] })
        | some t =>
          let ts := r.touched t
          if r.poolUnits - r.next < r.need n ts then .next (s.overflow r)
          else
            let blk := some (x.wave.crew, x.wave.rank)
            let r' := { r with
              next := r.next + 1, commit := n + 1, subs := r.subs.filter fun y => y.prim != n, setups := (n, r.next) :: r.setups
              backs := if t.back then n :: r.backs else r.backs, notified := false }
            match s.poolWrites r blk [(r.unit r.next, setupBytes n t x.attr)] with
            | .error e => .next (s.failPass p.val 0 e.passCode)
            | .ok s' =>
              match ts.foldl (fun (acc : Except DevError (RenderPass × State)) t =>
                match acc with
                | .error e => .error e
                | .ok (r, s) => s.appendEntry r blk n t) (.ok (r', s')) with
              | .error e => .next (s.failPass p.val 0 e.passCode)
              | .ok (r, s) => .next ((s.putPass r).laneBinned x)

/-- The tile pass of a crew. -/
def Crew.tile? (c : Crew) : Option TilePass :=
  match c.kind with
  | .tile t => some t
  | _ => none

/-- The same crew with its pass state changed. -/
def Crew.withTile (c : Crew) (t : TilePass) : Crew := { c with kind := .tile t }

/-- POOL_RESET (R276): every flush pass of the flush has finished its visibility step. -/
def execPoolReset (p : Fin 8) (s : State) : Host.Outcome State Fault Refusal :=
  match s.pass? p.val with
  | none => .next s
  | some r =>
    let busy := s.crews.any fun c => c.work == r.seq &&
      (match c.tile? with
       | some t => t.flush && (t.step == .load || t.step == .visibility)
       | none => false)
    if !r.flushing || busy || (r.requests.any fun x => x.2) then .next s
    else .next (s.putPass { r with
      next := 1, flushing := false, flushes := r.flushes + 1, setups := []
      tiles := r.tiles.map fun x => { x with head := 0, tail := 0, used := 0, count := 0, prev := 0 } })

/-- FINAL_ROUND_START (R279): every geometry lane has been committed, culled or has exited unsubmitted. -/
def execFinalRoundStart (p : Fin 8) (s : State) : Host.Outcome State Fault Refusal :=
  match s.pass? p.val with
  | none => .next s
  | some r =>
    let r := r.skip
    if r.final || r.flushing || r.commit < r.glanes then .next s
    else .next (s.putPass { r with final := true, requests := r.requests ++ (List.range r.tiles.length).map fun t => (t, false) })

/-! ## The broker (R267, R279, R280) -/

/-- What a tile block needs of a core: its allocation, its set-aside, and slots and registers for the largest of its
programs. -/
def RenderPass.tileRoom (r : RenderPass) : Room :=
  let ks := [(1, r.gbuf.kernel), (r.shade.kernel.waves, r.shade.kernel), (r.res.kernel.waves, r.res.kernel)]
  { slots := (ks.map fun x => x.1).foldl max 0, regs := (ks.map fun x => x.1 * (x.2.regs + 1)).foldl max 0
    tile := roundUp r.planes.2.2.2 0x1000, banks := (ks.map fun x => x.2.acc).foldl max 0 }

/-- Tile blocks of a partition on its cores. -/
def State.tilesInFlight (s : State) (p : Nat) : Nat := (s.crews.filter fun c => c.part == p && c.isTile && c.resident).length

/-- The broker may issue one more pass (R306, BROKQ). -/
def State.brokerFree (s : State) (p : Nat) : Bool := (s.part p).brokq = 0 || s.tilesInFlight p < (s.part p).brokq

/-- A pass of a tile is issued to a core. -/
def State.issuePass (s : State) (r : RenderPass) (t : Nat) (flush : Bool) (p : CoreAt) : State :=
  let room := r.tileRoom
  let cl := 12 * p.span.val + p.cluster.val
  match s.work? r.seq with
  | none => s
  | some w =>
    if !(s.part r.part).spans.getLsbD p.span.val || !s.fits cl p.core.val [room] then s
    else
      let tp : TilePass :=
        { tile := t, flush := flush, step := .load, cursor := 0, resumed := false, flushes := r.flushes, prims := [], groups := []
          retired := false, restarts := 0, slot := none }
      let c := { s.newCrew w (.tile tp) r.gbuf t 1 p with nlanes := 0, karg := r.karg }
      let b := { newBlock c.id 0 t r.gbuf with tileSize := room.tile, tile := [], loose := blankRange room.tile 0, setAside := room.banks }
      let r := { r.updTile t (fun x => { x with owned := true }) with requests := r.requests.erase (t, flush) }
      let (bs, s) := s.seatCrew c [b] true
      { s with nextCrew := s.nextCrew + 1, crews := s.crews ++ [c], blocks := s.blocks ++ bs }.putPass r

/-! ## Restarts (R390, R405) -/

/-- Where an array of a crew's core stands in a record (R399). -/
def Crew.place (c : Crew) (array : Nat) : Nat := 8 * c.cluster + 256 * c.span + 2 ^ 11 * array + 2 ^ 16 * c.core

/-- The context of a tile block is lost: its pass restarts from step 1 (R390); the fourth time in a row, and where its
list is gone, the render pass fails (R390, R405). -/
def State.restartPass (s : State) (c : Crew) (array : Nat) : State :=
  match c.tile?, s.passOf c, s.block? c.id 0 with
  | some t, some r, some b =>
    if t.flush && t.flushes < r.flushes then s.failPass r.part t.tile 0x23
    else if 3 ≤ t.restarts then s.failPass r.part t.tile 0x25
    else
      let s := s.postError c.part 6 0 (c.place array) 0 c.ctx.ctag (t.restarts + 1) 0
      let s : State := { s with
        waves := s.waves.filter fun w => w.ref.crew != c.id
        blocks := s.blocks.filter fun b => b.crew != c.id || b.rank < 8
        held := s.held.filter fun h => h.wave.crew != c.id }
      ((s.putBlock { b with tile := [], loose := blankRange b.tileSize (t.restarts + 1), acc := [], held := 0, fromAside := 0, barCrew := none, commands := [] }).putCrew
        { (c.withTile { t with step := .load, cursor := 0, resumed := false, prims := [], groups := [], restarts := t.restarts + 1, slot := none }) with
          image := r.gbuf, preempt := none }).leaveEntries c
  | _, _, _ => s

/-- RECOV of a partition's MODES: what could be replayed fails its context (R306, R405). -/
def State.recov (s : State) (p : Nat) : Bool := (s.part p).modes.getLsbD 5

/-- A tile block's context is lost: its pass restarts, unless RECOV is 1, where its context fails (R390, R405). -/
def State.restartOrFail (s : State) (c : Crew) (array : Nat) : State :=
  if s.recov c.part then s.failContext c.part c.ctx.ctag 0x83 (c.place array) else s.restartPass c array

/-! ## The save area (R280, R389) -/

/-- The block as changed, with the count of its DRAM bytes as the state now has it (R150). -/
def State.counted (s : State) (b : Block) : Block :=
  { b with dramBytes := ((s.block? b.crew b.rank).map fun x => x.dramBytes).getD b.dramBytes }

/-- Bytes of a tile block's image in the save area: the allocation, then room for the largest banks and wave contexts that
it may hold (log entry 73). -/
def RenderPass.imageSize (r : RenderPass) : Nat := roundUp (r.tileRoom.tile + 8192 * 32 + 384 * r.tileRoom.regs + 1024 * 32) 4096

/-- Place k of the save area. -/
def State.imageAt (s : State) (r : RenderPass) (k : Nat) : BitVec 64 := (s.part r.part).saveArea + BitVec.ofNat 64 (k * r.imageSize)

/-- The lowest place of the save area that no spilled block of the partition has. -/
def State.freeImage (s : State) (part : Nat) : Nat :=
  let taken := s.crews.filterMap fun c => if c.part == part && !c.resident then c.tile?.bind fun t => t.slot else none
  ((List.range (taken.length + 1)).find? fun k => !taken.contains k).getD 0

/-- A spill or a reload misses at an address: it waits in the cluster's fault buffer (R389, R334). -/
def State.holdSpill (s : State) (c : Crew) (cluster : Nat) (a : BitVec 64) (sub : Nat) : State :=
  let (st, s) := s.takeStamp
  s.present { stamp := st, wave := { crew := c.id, rank := 0, wave := 0 }, lane := 0, addr := a, size := 16, kind := .spill c.id,
              fmt := 0, data := 0, data2 := 0, landing := none, part := 0, pc := 0, fromHandler := false, context := c.ctx
              partition := c.part, acquire := false, cluster := cluster, entry := none, saved := false } sub false

/-- An access of a spill or a reload waits. -/
def State.spillHeld (s : State) (crew : Nat) : Bool := s.held.any fun h => h.kind == .spill crew

/-- Each span with its offset from the first. -/
def spanOffsets (l : List Span) : List (Nat × Span) :=
  (l.foldl (fun (acc : Nat × List (Nat × Span)) x => (acc.1 + x.size, acc.2 ++ [(acc.1, x)])) (0, [])).2

/-- An image is written: the tile bytes with their poison, and the rest with bytes that the device chooses. -/
def State.writeImage (s : State) (c : Crew) (b : Block) (l : List Span) : State :=
  let bs := b.bytes 0 b.tileSize
  (spanOffsets l).foldl (fun s (off, x) =>
    let s := s.touchSpan c.ctx c.part (some (c.id, 0)) x true
    let s := s.clearTag 3 0 (memKey x.mt x.pa) x.size
    let now := (bs.drop off).take x.size
    let s := (s.putMem (memKey x.mt x.pa) now).loosen (memKey x.mt (x.pa + now.length)) (x.size - now.length)
    let s := s.unpoison x.mt x.pa x.size
    (b.tilePoison.filter fun u => decide (off ≤ u) && decide (u < off + x.size)).foldl (fun s u => s.addPoison x.mt (x.pa + (u - off))) s) s

/-- What a reload reads: the tile bytes of an image; none where a unit of the image is poisoned. -/
def State.readImage (s : State) (c : Crew) (b : Block) (l : List Span) : Option (List Byte) × State :=
  let s := l.foldl (fun s x => s.touchSpan c.ctx c.part (some (c.id, 0)) x false) s
  if l.any fun x => s.memPoisoned x.mt x.pa x.size then (none, s)
  else (some ((l.flatMap fun x => s.rawBytes x.mt x.pa x.size).take b.tileSize), s)

/-- A tile block goes back to a core: what is left of its image is read first; what that misses waits in the fault buffer,
and where the image cannot be read or is poisoned the pass restarts (R280, R389, R390). -/
def State.reissueTile (s : State) (c : Crew) (r : RenderPass) (p : CoreAt) : State :=
  match c.tile?, s.block? c.id 0 with
  | some t, some b =>
    let lost (s : State) : State :=
      let s := s.resumeOrFail c p
      match s.crew? c.id with
      | some c => s.restartOrFail c 9
      | none => s
    if !(s.part c.part).spans.getLsbD p.span.val || !s.mayResume c p || s.spillHeld c.id then s
    else match t.slot with
    | none => s.resumeOrFail c p
    | some k =>
      match s.devReach c.ctx c.part (s.imageAt r k) r.imageSize { r := true } with
      | (.error (.missing a sub), s) => s.holdSpill c (12 * p.span.val + p.cluster.val) a sub
      | (.error _, s) => lost s
      | (.ok l, s) =>
        match s.readImage c b l with
        | (none, s) => lost s
        | (some bs, s) =>
          let c := c.withTile { t with slot := none }
          ((s.putCrew c).putBlock (s.counted { b with tile := spliceBytes [] 0 bs, loose := [], tilePoison := [] })).resumeOrFail c p
  | _, _ => s

/-- The saved tile block that the broker reissues first. -/
def State.savedTile (s : State) (r : RenderPass) : Option Crew :=
  (s.crews.filter fun c => c.work == r.seq && c.isTile && !c.resident).foldl (fun (best : Option Crew) c =>
    match best with
    | some b => if c.index < b.index then some c else best
    | none => some c) none

/-- BROKER_ISSUE_PASS (R279, R280): a reissued tile first, then the first request whose tile no pass owns. -/
def execBrokerIssuePass (p : Fin 8) (at_ : CoreAt) (s : State) : Host.Outcome State Fault Refusal :=
  match s.pass? p.val with
  | none => .next s
  | some r =>
    if (s.part p.val).modes.getLsbD 4 || !s.brokerFree p.val then .next s
    else match s.savedTile r with
    | some c => .next (s.reissueTile c r at_)
    | none =>
      match r.requests.find? fun x => !(r.tile x.1).owned with
      | some (t, flush) => .next (s.issuePass r t flush at_)
      | none => .next s

/-- CONTROL_NODE_TILE_ASSIGNMENT: the control node issues or reissues a tile in the host-assisted mode (R279, R301). -/
def execControlNodeTileAssignment (port : Fin 4) (p : Fin 8) (tile : Nat) (at_ : CoreAt) (s : State) : Host.Outcome State Fault Refusal :=
  match s.pass? p.val with
  | none => .next s
  | some r =>
    if !(s.administers port.val p.val && (s.part p.val).modes.getLsbD 4) || !s.brokerFree p.val then .next s
    else match s.crews.find? fun c => c.work == r.seq && c.isTile && !c.resident && c.index == tile with
    | some c => .next (s.reissueTile c r at_)
    | none =>
      match r.requests.find? fun x => x.1 == tile && !(r.tile x.1).owned with
      | some (t, flush) => .next (s.issuePass r t flush at_)
      | none => .next s

/-- CREW_RESUME (R41): a crew goes back to its own span, in its turn there; a tile block to any core of its partition, when
it is the one that the broker reissues next (R279, R280). -/
def execCrewResume (crew : Nat) (p : CoreAt) (s : State) : Host.Outcome State Fault Refusal :=
  match s.crew? crew with
  | none => .next s
  | some c =>
    if c.resident then .next s
    else if c.isTile then
      match s.passOf c with
      | some r =>
        if (s.part c.part).modes.getLsbD 4 || !s.brokerFree c.part || (s.savedTile r).map (fun x => x.id) != some crew then .next s
        else .next (s.reissueTile c r p)
      | none => .next s
    else if s.resumeTurn c p && s.mayResume c p then .next (s.resumeOrFail c p)
    else .next s

/-- CONTROL_NODE_POOL_GROWTH (R301): the control node extends POOLUNITS, or requests the flush, after a stall. -/
def execControlNodePoolGrowth (port : Fin 4) (p : Fin 8) (units : Option Nat) (s : State) : Host.Outcome State Fault Refusal :=
  match s.pass? p.val with
  | none => .next s
  | some r =>
    if !(s.administers port.val p.val && (s.part p.val).modes.getLsbD 2 && r.notified) then .next s
    else match units with
    | none => .next (s.putPass (r.startFlush r.commit))
    | some u => if r.poolUnits < u && u ≤ 2 ^ 24 then .next (s.putPass { r with poolUnits := u, notified := false }) else .next s

/-- CONTROL_NODE_QUEUE_HEAD_ORDER (R301): the order in which the heads are to be taken. -/
def execControlNodeQueueHeadOrder (port : Fin 4) (p : Fin 8) (queues : List Nat) (s : State) : Host.Outcome State Fault Refusal :=
  let x := s.part p.val
  if s.administers port.val p.val && x.modes.getLsbD 1 then
    .next (s.putPart { x with order := queues.filter fun q => q < 2048 && (s.queue q).part = p.val })
  else .next s

/-! ## Load and visibility (R281, R282, R387) -/

/-- A tile crew in a step, with its pass and block; none while it is saved or being pre-empted. -/
def State.tileAt (s : State) (crew : Nat) (step : PassStep) : Option (Crew × TilePass × RenderPass × Block) :=
  match s.crew? crew with
  | none => none
  | some c =>
    match c.tile?, s.passOf c, s.block? crew 0 with
    | some t, some r, some b => if t.step == step && c.resident && c.preempt.isNone then some (c, t, r, b) else none
    | _, _, _ => none

/-- The planes of a tile block, as one run of bytes: offset and size. -/
def RenderPass.planeRun (r : RenderPass) : Nat × Nat := (r.planes.1, r.planes.2.2.2 - r.planes.1)

/-- Where tile t's resume slot lies (R277). -/
def RenderPass.slotOf (r : RenderPass) (t : Nat) : BitVec 64 :=
  r.resBase + BitVec.ofNat 64 (t * roundUp (r.edge * r.edge * (16 * r.recsz + 8 * r.samples)) 128)

/-- The planes are written. -/
def Block.putPlanes (b : Block) (r : RenderPass) (bs : List Byte) : Block :=
  let (off, n) := r.planeRun
  { b with tile := spliceBytes b.tile off bs, loose := cutLoose b.loose off bs.length
           tilePoison := b.tilePoison.filter fun u => u < off || off + n ≤ u }

/-- The planes before any primitive (R281). -/
def RenderPass.clearPlanes (r : RenderPass) : List Byte :=
  let n := r.samples * (r.edge * r.edge)
  List.replicate (r.planes.2.1 - r.planes.1) 0 ++ (List.replicate n (leBytes 4 r.clearz.toNat)).flatten ++ List.replicate (4 * n) 0xFF

/-- The primitive plane. -/
def RenderPass.primPlane (r : RenderPass) (b : Block) : List Word :=
  (List.range (r.samples * (r.edge * r.edge))).map fun i => BitVec.ofNat 32 (b.word (r.planes.2.2.1 + 4 * i))

/-- PASS_LOAD (R277, R281). -/
def execPassLoad (crew : Nat) (s : State) : Host.Outcome State Fault Refusal :=
  match s.tileAt crew .load with
  | none => .next s
  | some (c, t, r, b) =>
    let go (s : State) (bs : List Byte) (resumed : Bool) : State :=
      let b := (s.counted b).putPlanes r bs
      (s.putBlock b).putCrew (c.withTile { t with step := .visibility, cursor := 0, resumed := resumed, prims := r.primPlane b })
    if (r.tile t.tile).valid then
      match s.devRead r.context r.part (some (crew, 0)) (r.slotOf t.tile) r.planeRun.2 with
      | (.error e, s) => .next (s.failPass r.part t.tile e.passCode)
      | (.ok bs, s) => .next (go s bs true)
    else .next (go s r.clearPlanes false)

/-- The entries in the bytes of a chunk: each with the primitive it names; none where R387 is broken. -/
def chunkEntries : Nat → Nat → List Byte → Option (List Nat)
  | 0, _, _ => some []
  | _, _, [] => none
  | k + 1, prev, b :: r =>
    if b.toNat < 128 then
      if b.toNat = 0 then none else (chunkEntries k (prev + b.toNat) r).map fun l => (prev + b.toNat - 1) :: l
    else match r with
    | x :: y :: r =>
      let n := b.toNat % 128 * 65536 + y.toNat * 256 + x.toNat
      if n + 1 ≤ prev then none else (chunkEntries k (n + 1) r).map fun l => n :: l
    | _ => none

/-- The primitives of a list from a unit on, within so many chunks; `prev` is the one before it plus 1. -/
def State.readList (s : State) (r : RenderPass) (blk : Nat × Nat) (tail : Nat) : Nat → Nat → Nat → Except Nat (List Nat) × State
  | 0, _, _ => (.error 0x20, s)
  | fuel + 1, u, prev =>
    match s.devRead r.context r.part (some blk) (r.unit u) 64 with
    | (.error e, s) => (.error e.passCode, s)
    | (.ok bs, s) =>
      let next := leNat (bs.take 3)
      let count := (bs.getD 3 0).toNat
      if count = 0 || 60 < count || r.poolUnits ≤ next || (next = 0 && u != tail) then (.error 0x20, s)
      else match chunkEntries count prev (bs.drop 4) with
      | none => (.error 0x20, s)
      | some ns =>
        if ns.any fun n => r.glanes ≤ n then (.error 0x20, s)
        else if next = 0 then (.ok ns, s)
        else match s.readList r blk tail fuel next (ns.getLastD 0 + 1) with
        | (.error e, s) => (.error e, s)
        | (.ok l, s) => (.ok (ns ++ l), s)

/-- A two's-complement word of a byte list. -/
def intAt (bs : List Byte) (off : Nat) : Int := (BitVec.ofNat 32 (leNat ((bs.drop off).take 4))).toInt

/-- The vertices and depths of a setup record, and its signed area. -/
def setupOf (bs : List Byte) : List (Int × Int) × List FVal × Int :=
  let v := (List.range 3).map fun k => (intAt bs (8 * k), intAt bs (8 * k + 4))
  let z := (List.range 3).map fun k => f32.decode (leNat ((bs.drop (0x18 + 4 * k)).take 4))
  let p (k : Nat) : Int × Int := v.getD k (0, 0)
  (v, z, ((p 1).1 - (p 0).1) * ((p 2).2 - (p 0).2) - ((p 2).1 - (p 0).1) * ((p 1).2 - (p 0).2))

/-- Coverage and depth of one sample (R282): none where it is not covered. -/
def sampleDepth (v : List (Int × Int)) (z : List FVal) (area px py : Int) : Option Nat :=
  let p (k : Nat) : Int × Int := v.getD k (0, 0)
  let edges := [(0, 1), (1, 2), (2, 0)].map fun (i, j) =>
    let dx := (p j).1 - (p i).1
    let dy := (p j).2 - (p i).2
    (dx * (py - (p i).2) - dy * (px - (p i).1), decide (dy < 0) || (dy = 0 && decide (0 < dx)))
  if edges.all fun x => 0 < x.1 || (x.1 = 0 && x.2) then
    let e (k : Nat) : FVal := .fin false (mkRat (edges.getD k (0, false)).1 1)
    let zz (k : Nat) : FVal := z.getD k (.fin false 0)
    let sum := sumVals [(mulVal (e 1) (zz 0)).1, (mulVal (e 2) (zz 1)).1, (mulVal (e 0) (zz 2)).1]
    some (f32.roundVal (sum.times (mkRat 1 area.toNat)))
  else none

/-- The depth test (R282). -/
def depthPasses (depthf : Nat) (z d : Nat) : Bool :=
  let a := f32.decode z
  let b := f32.decode d
  depthf = 2 || (!a.isNan && !b.isNan && (belowVal a b || (depthf = 1 && eqVal a b)))

/-- One primitive applied to every sample of a tile. -/
def RenderPass.applyPrim (r : RenderPass) (t : TilePass) (b : Block) (n : Nat) (setup : List Byte) : Block :=
  let (v, z, area) := setupOf setup
  (List.range (r.edge * r.edge)).foldl (fun b k =>
    let (x, y) := pixelOf r.edge k
    (List.range r.samples).foldl (fun b i =>
      let (sx, sy) := samplePos r.samples i
      let px : Int := (256 * (t.tile % r.cols * r.edge + x) + sx : Nat)
      let py : Int := (256 * (t.tile / r.cols * r.edge + y) + sy : Nat)
      match sampleDepth v z area px py with
      | none => b
      | some d =>
        if depthPasses r.depthf d (r.depthAt b k i) then
          (b.putWord (r.planes.2.1 + 4 * (r.samples * k + i)) d).putWord (r.planes.2.2.1 + 4 * (r.samples * k + i)) n
        else b) b) b

/-- Primitives of a list applied in order, each with the check of its setup record (R387). -/
def State.applyPrims (s : State) (r : RenderPass) (t : TilePass) (crew : Nat) : Block → List Nat → Except Nat Block × State
  | b, [] => (.ok b, s)
  | b, n :: rest =>
    match r.setups.find? fun x => x.1 == n with
    | none => (.error 0x21, s)
    | some (_, u) =>
      match s.devRead r.context r.part (some (crew, 0)) (r.unit u) 64 with
      | (.error e, s) => (.error e.passCode, s)
      | (.ok bs, s) =>
        if leNat ((bs.drop 0x38).take 4) % 2 ^ 23 != n || (setupOf bs).2.2 ≤ 0 then (.error 0x21, s)
        else s.applyPrims r t crew (r.applyPrim t b n bs) rest

/-- The records of a group that have a sample whose primitive changed (R283). -/
def RenderPass.enabled (r : RenderPass) (t : TilePass) (b : Block) (w : Nat) : LaneMask :=
  maskOf fun l =>
    let k := 96 * w + l
    k < r.edge * r.edge && (List.range r.samples).any fun i =>
      BitVec.ofNat 32 (r.primAt b k i) != t.prims.getD (r.samples * k + i) 0

/-- The number of groups of 96 records. -/
def RenderPass.groupCount (r : RenderPass) : Nat := (r.edge * r.edge + 95) / 96

/-- The start of a program step: the control area from the kernel's image, the rest as it stands (R281); the block runs
the kernel's code, and reads what the step before it stored (R284). -/
def State.startStep (s : State) (c : Crew) (t : TilePass) (b : Block) (k : Image) : State :=
  let b := { b with tile := spliceBytes b.tile 0 (cleanImage k.cimage), tilePoison := b.tilePoison.filter fun u => 0xA00 ≤ u
                    barCrew := none, code := k.code }
  let s := (s.dropL1 (c.coreOf 0)).putBlock b
  { s.putCrew { c.withTile t with image := k } with
    waves := s.waves.filter fun w => w.ref.crew != c.id
    blocks := s.blocks.filter fun b => b.crew != c.id || b.rank < 8 }

/-- PASS_VISIBILITY (R282): the rest of the list is applied, or as many primitives as the unit has applied when a
pre-emption finds it (R280). -/
def execPassVisibility (crew : Nat) (s : State) : Host.Outcome State Fault Refusal :=
  match s.tileAt crew .visibility with
  | none => .next s
  | some (c, t, r, b) =>
    let x := r.tile t.tile
    let (ns, s) := if x.head = 0 then (Except.ok [], s) else s.readList r (crew, 0) x.tail (r.poolUnits - 1) x.head 0
    match ns with
    | .error e => .next (s.failPass r.part t.tile e)
    | .ok ns =>
      let left := ns.drop t.cursor
      let (k, s) := s.choose left.length
      let now := if k = 0 then left else left.take k
      match s.applyPrims r t crew b now with
      | (.error e, s) => .next (s.failPass r.part t.tile e)
      | (.ok b, s) =>
        if k = 0 then
          let groups := (List.range r.groupCount).filter fun w => r.enabled t b w != 0
          .next (s.startStep c { t with step := .gbuffer, cursor := ns.length, groups := groups } (s.counted b) r.gbuf)
        else .next ((s.putBlock (s.counted b)).putCrew (c.withTile { t with cursor := t.cursor + k }))

/-! ## Program steps (R281, R283) -/

/-- A wave of a tile pass. -/
def tileWave (c : Crew) (t : TilePass) (r : RenderPass) (b : Block) (k : Image) (i waves role : Nat) (mask : LaneMask) : Wave :=
  launchWave { crew := c.id, rank := 0, wave := i } k.kernel.regs (roleOf k.kernel.roles role) t.tile waves r.karg c.ctx
    (segsOf c.ctx b.tileSize (t.tile * waves + i)) mask (k.start 0)

/-- What a G-buffer wave has for itself, as a block of its own: barrier state and accumulator banks (R283, log entry 75). -/
def gbufferBlock (c : Crew) (t : TilePass) (r : RenderPass) (w : Nat) : Block :=
  { newBlock c.id (8 + w) t.tile r.gbuf with tileSize := 0, tile := [], loose := [], setAside := 0 }

/-- The blocks of G-buffer waves that are done end. -/
def State.endGbufferBlocks (s : State) (c : Crew) : State :=
  { s with blocks := s.blocks.filter fun b => b.crew != c.id || b.rank < 8 ||
      s.waves.any fun w => w.ref.crew == c.id && w.ref.wave + 8 == b.rank && !s.waveQuiet w }

/-- PASS_GBUFFER (R283): waves of groups that hold an enabled record start as slots and registers allow. -/
def execPassGbuffer (crew : Nat) (s : State) : Host.Outcome State Fault Refusal :=
  match s.tileAt crew .gbuffer with
  | none => .next s
  | some (c, t, r, b) =>
    let one : Room := { slots := 1, regs := r.gbuf.kernel.regs + 1, tile := 0, banks := 0 }
    let (t, s) := t.groups.foldl (fun (acc : TilePass × State) w =>
      let (t, s) := acc
      if s.hasRoom (c.coreOf 0) one then
        ({ t with groups := t.groups.erase w },
         { s with blocks := s.blocks ++ [gbufferBlock c t r w] }.addWaves c
           [tileWave c t r b r.gbuf w r.groupCount 0 (r.enabled t b w)])
      else (t, s)) (t, s.endGbufferBlocks c)
    .next (s.putCrew (c.withTile t))

/-- Every wave of a tile crew's step has exited, and what it issued is done. -/
def State.stepDone (s : State) (crew : Nat) : Bool := s.waves.all fun w => w.ref.crew != crew || s.waveQuiet w

/-- A program step of a final pass starts: one block of the kernel's waves. -/
def State.programStep (s : State) (c : Crew) (t : TilePass) (r : RenderPass) (b : Block) (k : Image) (step : PassStep) : State :=
  let need : Room := { slots := k.kernel.waves, regs := k.kernel.waves * (k.kernel.regs + 1), tile := 0, banks := 0 }
  if !s.stepDone c.id || !s.hasRoom (c.coreOf 0) need then s
  else
    let s := s.startStep c { t with step := step } b k
    s.addWaves { c with image := k } ((List.range k.kernel.waves).map fun i => tileWave c t r b k i k.kernel.waves i (BitVec.allOnes 96))

/-- PASS_SHADING (R281). -/
def execPassShading (crew : Nat) (s : State) : Host.Outcome State Fault Refusal :=
  match s.tileAt crew .gbuffer with
  | none => .next s
  | some (c, t, r, b) => .next (if t.flush || !t.groups.isEmpty then s else s.programStep c t r b r.shade .shading)

/-- PASS_RESOLVE (R281). -/
def execPassResolve (crew : Nat) (s : State) : Host.Outcome State Fault Refusal :=
  match s.tileAt crew .shading with
  | none => .next s
  | some (c, t, r, b) => .next (s.programStep c t r b r.res .resolve)

/-- RESUME_STORE (R277): the planes of a flush pass go to the tile's slot, which becomes valid, and the block ends. -/
def execResumeStore (crew : Nat) (s : State) : Host.Outcome State Fault Refusal :=
  match s.tileAt crew .gbuffer with
  | none => .next s
  | some (_, t, r, b) =>
    if !t.flush || !t.groups.isEmpty || !s.stepDone crew || !b.commands.isEmpty then .next s
    else match s.devWrite r.context r.part (some (crew, 0)) (r.slotOf t.tile) (b.bytes r.planeRun.1 r.planeRun.2) with
    | .error e => .next (s.failPass r.part t.tile e.passCode)
    | .ok s =>
      let r := r.updTile t.tile fun x => { x with valid := true, owned := false }
      .next ((s.putPass r).dropCrews fun c => c.id == crew)

/-! ## Spills (R280, R389) -/

/-- A spill that could not be made (R389): the block goes on where it is, and a record of SUB 3 is written. -/
def State.spillFailed (s : State) (c : Crew) (t : TilePass) : State :=
  let s := { s with
    waves := updWhere (fun w => w.ref.crew == c.id) (fun w => w.resumed (s.fetchHeld w.ref)) s.waves
    held := s.held.filter fun (h : Held) => h.kind != HeldKind.spill c.id }
  (s.putCrew { c with preempt := none }).postEvent c.part 3 c.queue t.tile c.ctx.ctag 0x23

/-- TILE_SPILL (R280): the context of a tile block that has stopped goes to the save area; what the spill misses waits
in the fault buffer. -/
def execTileSpill (crew : Nat) (s : State) : Host.Outcome State Fault Refusal :=
  match s.crew? crew with
  | none => .next s
  | some c =>
    match c.tile?, s.passOf c, s.block? crew 0 with
    | some t, some r, some b =>
      if !s.maySave c || s.spillHeld crew then .next s
      else
        let k := s.freeImage c.part
        match s.devReach c.ctx c.part (s.imageAt r k) r.imageSize { r := true, w := true } with
        | (.ok l, s) => .next ((s.writeImage c b l).saveCrew (c.withTile { t with slot := some k }))
        | (.error (.missing a sub), s) => .next (s.holdSpill c c.clusterNo a sub)
        | (.error _, s) => .next (s.spillFailed c t)
    | _, _, _ => .next s

/-- PASS_RESTART (R389, R390): the image of a spilled block is found poisoned. -/
def execPassRestart (crew : Nat) (s : State) : Host.Outcome State Fault Refusal :=
  match s.crew? crew with
  | none => .next s
  | some c =>
    match c.tile?.bind fun t => t.slot, s.passOf c, s.block? crew 0 with
    | some k, some r, some b =>
      if c.resident then .next s
      else match s.devReach c.ctx c.part (s.imageAt r k) r.imageSize { r := true } with
      | (.ok l, s) => if (s.readImage c b l).1.isNone then .next (s.restartOrFail c 9) else .next s
      | (.error .poison, s) => .next (s.restartOrFail c 9)
      | (.error _, _) => .next s
    | _, _, _ => .next s

end Sys2Proof.Machine

end
end

