-- ==== Sys2Proof/Machine/Errors.lean ====
section
/-! DEFINITION. Errors in arrays and in memory (R393 to R400, R405), module errors (R404), links that go down (R403), and
accesses that arrive through the ports (R305). -/

noncomputable section

namespace Sys2Proof.Machine

/-! ## Records and counts (R395, R399) -/

/-- The word at 0x04 of an error record (R399). -/
def errorPlace (array span cluster core : Nat) : Nat := 8 * cluster + 2 ^ 8 * span + 2 ^ 11 * array + 2 ^ 16 * core

/-- The place of a crew's core of a rank. -/
def Crew.errorPlace (c : Crew) (array rank : Nat) : Nat := Machine.errorPlace array c.span c.cluster (c.core + rank)

/-- One corrected error of a partition: CECNT counts it, and a record of SUB 1 is written each time the count becomes a
nonzero multiple of CETHR (R395). -/
def State.countCorrected (s : State) (p : Nat) : State :=
  let x := s.part p
  let n := x.cecnt + 1
  let s := s.putPart { x with cecnt := n }
  if n != 0 && x.cethr != 0 && n.toNat % x.cethr.toNat = 0 then s.postError p 1 0 0 0 0xFFFF 0 0 else s

/-- The partition that owns a memory address: of its span, or of its LPDDR channel. -/
def State.memPart (s : State) (mt pa : Nat) : Option Nat :=
  if mt < 8 then (s.parts.find? fun x => x.spans.getLsbD mt).map fun x => x.num
  else if mt = 8 then (s.parts.find? fun x => x.lpch.getLsbD (pa / 2 ^ 35)).map fun x => x.num
  else none

/-- n bytes from pa on, whole units, are poisoned; an input of a Woad partition (R408, TYPE 7). -/
def State.createPoison (s : State) (p mt pa n : Nat) : State :=
  let s := s.logEntry p 7 [memKey mt pa, n / 16]
  (List.range (n / 16)).foldl (fun s k => s.addPoison mt (pa + 16 * k)) s

/-! ## Memory and L2 (R393, R394, R400) -/

/-- A key of 32-byte codewords as memory type and address. -/
def codewordPlace (codeword : Nat) : Nat × Nat := (32 * codeword / 2 ^ 52, 32 * codeword % 2 ^ 52)

/-- ARRAY and span of a memory type. -/
def memoryPlace (mt : Nat) : Nat := if mt < 8 then errorPlace 0 mt 0 0 else errorPlace 1 0 0 0

/-- An uncorrectable codeword that a read made for a context meets: both units are poisoned, with a record of SUB 3. Memory
that no partition owns has no log and no ring: its units are poisoned alone (R393, R399). -/
def State.memoryError (s : State) (codeword ctag kind : Nat) : State :=
  let (mt, pa) := codewordPlace codeword
  match s.memPart mt pa with
  | some p => (s.createPoison p mt pa 32).postError p 3 kind (memoryPlace mt) (memKey mt pa) ctag 0 2
  | none => (s.addPoison mt pa).addPoison mt (pa + 16)

/-- PATROL_READ (R394): a corrected codeword is counted; an uncorrectable one is recorded for no context, and poisons
nothing. -/
def execPatrolRead (codeword : Nat) (err : ReadError) (s : State) : Host.Outcome State Fault Refusal :=
  let (mt, pa) := codewordPlace codeword
  match err, s.memPart mt pa with
  | .corrected, some p => .next (s.countCorrected p)
  | .uncorrectable, some p => .next (s.postError p 3 0 (memoryPlace mt) (memKey mt pa) 0xFFFF 0 0)
  | _, _ => .next s

/-- The line of a number, as L2 holds it. -/
def State.l2Line (s : State) (line : Nat) : Option L2Line :=
  s.l2.find? fun x => memKey x.mt (x.line * 128) = 128 * line

/-- The sectors of a line that errors in some of them poison: all of a compressed line (R393). -/
def L2Line.poisoned (x : L2Line) (bad : BitVec 4) : List Nat :=
  (List.range 4).filter fun k => bad.getLsbD k || (x.comp && bad != 0)

/-- The units of those sectors are poisoned, with a record that names the context charged: the line's owner on a write-back,
else the reader (R400). -/
def State.sectorError (s : State) (x : L2Line) (bad : BitVec 4) (sub kind ctag : Nat) : State :=
  let ks := x.poisoned bad
  let first := x.line * 128 + 32 * ks.headD 0
  let home := s.homeOf x.part x.mt first
  let s := ks.foldl (fun s k => s.createPoison x.part x.mt (x.line * 128 + 32 * k) 32) s
  s.postError x.part sub kind (errorPlace 2 (home / 12) (home % 12) 0) (memKey x.mt first) ctag 0 (2 * ks.length)

/-- An error in the data of a dirty line as it is written back (R400). -/
def State.writebackError (s : State) (line : Nat) (bad : BitVec 4) : State :=
  match s.l2Line line with
  | some x => s.sectorError x bad 2 0 x.owner
  | none => s

/-- L2_WRITEBACK (R400): the line becomes clean, and its bytes count for the blocks that dirtied it (R150);
the units of bad sectors are poisoned in memory. -/
def execL2Writeback (line : Nat) (badSectors : BitVec 4) (s : State) : Host.Outcome State Fault Refusal :=
  match s.l2Line line with
  | none => .next s
  | some x =>
    if !x.dirty then .next s
    else
      let s := { s with l2 := updWhere (fun y => y.at_ x.home x.mt x.line) (fun y => { y with dirty := false, blocks := [] }) s.l2 }
      let s := x.blocks.foldl (fun s b => s.charge (some b) 128) s
      if badSectors = 0 then .next s
      else s.asInput x.part (.l2Writeback line badSectors) fun s => s.writebackError line badSectors

/-! ## Arrays of cores and clusters (R393, R405) -/

/-- The state of a block is lost: a tile block's pass restarts, unless RECOV refuses it; any other block's context
fails. -/
def State.blockError (s : State) (crew rank array : Nat) : State :=
  match s.crew? crew with
  | none => s
  | some c =>
    if c.isTile then s.restartOrFail c array else s.failContext c.part c.ctx.ctag 0x83 (c.errorPlace array rank)

/-- A unit of a block's tile memory is poisoned; an input of a Woad partition, whose entry names the unit's offset and the
block by its index and its work (R408, TYPE 7; log entry 45). -/
def State.poisonTile (s : State) (c : Crew) (b : Block) (u : Nat) : State :=
  let s := s.logEntry c.part 7 [memKey 15 (u + 2 ^ 20 * b.index), 1 + 2 ^ 32 * c.work]
  s.putBlock { b with tilePoison := u :: b.tilePoison.filter fun x => x != u }

/-- The block that a TYPE 7 entry of tile memory names, with its crew. -/
def State.blockOfWork (s : State) (p index work : Nat) : Option (Crew × Block) :=
  s.blocks.findSome? fun b =>
    match s.crew? b.crew with
    | some c => if c.part == p && b.index == index && c.work == work then some (c, b) else none
    | none => none

/-- A unit of the program range of a block that is no tile block is poisoned, with a record of SUB 3. -/
def State.tileError (s : State) (crew rank off kind : Nat) : State :=
  match s.crew? crew, s.block? crew rank with
  | some c, some b =>
    let u := off / 16 * 16
    (s.poisonTile c b u).postError c.part 3 kind (c.errorPlace 9 rank) u c.ctx.ctag 0 1
  | _, _ => s

/-- Work that the device replays (R405): a record of SUB 5, or with RECOV = 1 the context fails. -/
def State.replayWork (s : State) (p ctag place : Nat) (redo : State → State) : State :=
  if s.recov p then s.failContext p ctag 0x83 place else (redo s).postError p 5 0 place 0 ctag 0 0

/-- The staging buffer of an engine command: the command goes on from DONE (R234, R371). -/
def State.engineError (s : State) (crew rank rec : Nat) : State :=
  match s.crew? crew, s.block? crew rank with
  | some c, some b =>
    (match b.command? rec with
     | none => s
     | some m => s.replayWork c.part c.ctx.ctag (c.errorPlace 11 rank) fun s => s.putBlock (b.putCommand { m with written := [] }))
  | _, _ => s

/-- The batch buffer of an object's running batch: the batch is discarded and requeued (R377). -/
def State.batchError (s : State) (id : Nat) : State :=
  match s.object? id with
  | none => s
  | some o =>
    if o.running.isNone then s
    else
      let h := s.homeCore o
      s.replayWork o.part o.ctag (errorPlace 10 (h.1 / 12) (h.1 % 12) 0) fun s => s.requeueBatch id false none

/-- A fault-buffer entry: it becomes FREE, and what it held is presented again, unattached (R340). -/
def State.entryError (s : State) (cluster index : Nat) : State :=
  match (s.buffer cluster).entries.find? fun e => e.index == index with
  | none => s
  | some e =>
    s.replayWork e.part e.ctag (errorPlace 14 (cluster / 12) (cluster % 12) 0) fun s =>
      let hs := (s.heldOn cluster index).map fun (h : Held) => { h with entry := none }
      let s := hs.foldl (fun (s : State) h => { s with held := updWhere (fun x => x.stamp == h.stamp) (fun _ => h) s.held })
        (s.freeEntry cluster index)
      ((hs.foldl (fun s h => s.performOrPresent h) s).afterReplay hs).entryFreed cluster

/-- The dirty lines of one superblock whose tags cannot be read are discarded, and their memory units poisoned, before
the partition fails (R393, R402); in a replay nothing but TYPE 7 entries poisons (R410). -/
def State.tagError (s : State) (p : Nat) : State :=
  let dirty := s.l2.filter fun x => x.part == p && x.dirty
  let (k, s) := s.choose dirty.length
  match dirty[k]? with
  | none => s.failPartition p (errorPlace 3 0 0 0)
  | some y =>
    let home := s.homeOf p y.mt (y.line * 128)
    let lost := if (s.part p).replays then [] else dirty.filter fun (x : L2Line) => x.mt == y.mt && x.line / 4 == y.line / 4
    (lost.foldl (fun (s : State) (x : L2Line) => s.createPoison p x.mt (x.line * 128) 128) s).failPartition p
      (errorPlace 3 (home / 12) (home % 12) 0)

/-- An error in the shared state of a partition fails it, once it has left OFF (R308, R405). -/
def State.sharedError (s : State) (p : Nat) (fail : State → State) : State := if (s.part p).state = 0 then s else fail s

/-! ## Module errors (R404) -/

/-- The contexts that run: those of crews, and of taken work; each with its partition. -/
def State.runningContexts (s : State) : List (Nat × Nat) :=
  ((s.crews.map fun c => (c.part, c.ctx.ctag)) ++ (s.works.map fun w => (w.part, (s.queueContext w.queue).ctag))).dedup

/-- Every running context fails, and every partition is reset. -/
def State.moduleError (s : State) (therm : Bool) : State :=
  let s := s.runningContexts.foldl (fun s x => s.failContext x.1 x.2 0x85) s
  let s := ((s.parts.filter fun x => x.state != 0).map fun x => x.num).foldl (fun s p => s.resetPartition p) s
  { s with module := { s.module with merr := true, therm := therm, ctrl := !therm } }

/-- MODULE_ERROR. -/
def execModuleError (therm : Bool) (s : State) : Host.Outcome State Fault Refusal := .next (s.moduleError therm)

/-! ## ARRAY_ERROR -/

/-- A clean line is discarded and filled again (R393). -/
def State.refillLine (s : State) (x : L2Line) : State := (s.evict x).fillL2 x.part x.owner none x.mt x.line false x.comp

/-- A core's L1, its instruction cache and its cluster's TLBs are read again from memory and the tables (R393). -/
def State.refetchCore (s : State) (core : Nat) : State :=
  let s := s.dropL1 core
  { s with tlb := s.tlb.filter fun t => t.cluster != core / 8 }

/-- What creates poison is an input of a Woad partition; anything else happens at once (R408, R410). -/
def State.arrayError (s : State) : ArrayErr → State
  | .corrected p => s.countCorrected p.val
  | .memory codeword ctag kind => s.memoryError codeword ctag.toNat kind.val
  | .l2Clean line =>
    (match s.l2Line line with
     | some x => if x.dirty then s else s.refillLine x
     | none => s)
  | .l2Dirty line sector ctag kind =>
    (match s.l2Line line with
     | some x => if x.dirty then s.sectorError x (1#4 <<< sector.val) 3 kind.val ctag.toNat else s
     | none => s)
  | .l2Tag p => s.sharedError p.val fun s => s.tagError p.val
  | .refetch at_ => s.refetchCore (CoreAt.number at_)
  | .registers w => s.blockError w.crew w.rank 7
  | .accumulators crew rank => s.blockError crew rank 8
  | .tileControl crew rank => s.blockError crew rank 9
  | .tileProgram crew rank off kind =>
    (match s.crew? crew with
     | some c => if c.isTile || off < 0x1000 then s.blockError crew rank 9 else s.tileError crew rank off kind.val
     | none => s)
  | .batchBuffer line => s.batchError line
  | .engineBuffer crew rank rec => s.engineError crew rank rec.val
  | .listEngine p =>
    (match s.pass? p.val with
     | some r => s.replayWork p.val r.context.ctag (errorPlace 12 0 0 0) id
     | none => s)
  | .faultEntry cluster entry => s.entryError cluster.val entry.val
  | .flit _ => s
  | .frontEnd p => s.sharedError p.val fun s => s.failPartition p.val (errorPlace 13 0 0 0)
  | .controller => s.moduleError false

/-- The partition in which an array error poisons data, if it does. -/
def State.poisonedPart (s : State) : ArrayErr → Option Nat
  | .memory codeword _ _ => s.memPart (codewordPlace codeword).1 (codewordPlace codeword).2
  | .l2Dirty line _ _ _ => (s.l2Line line).map fun x => x.part
  | .tileProgram crew _ off _ => (s.crew? crew).bind fun c => if c.isTile || off < 0x1000 then none else some c.part
  | _ => none

/-- ARRAY_ERROR (R393). -/
def execArrayError (e : ArrayErr) (s : State) : Host.Outcome State Fault Refusal :=
  match s.poisonedPart e with
  | some p => s.asInput p (.arrayError e) fun s => s.arrayError e
  | none => .next (s.arrayError e)

/-! ## The ports (R305, R403) -/

/-- A partition has traffic on the link of a port: lines and translations of that memory, queues whose context record lies
there, and through the control port its records and its Woad log (R403). -/
def State.usesLink (s : State) (port p : Nat) : Bool :=
  let mt := 9 + port
  let x := s.part p
  (s.l2.any fun l => l.part == p && l.mt == mt) || (s.l1.any fun l => x.spans.getLsbD (l.core / 96) && l.mt == mt) ||
    (s.tlb.any fun t => t.part == p && (t.mt == mt || entryMt t.value == mt)) ||
    (s.queues.any fun (q : Queue) => q.part == p && q.en && q.ctxPlace.1 == mt) ||
    (s.controlPort == some port && (!x.records.isEmpty || x.woad))

/-- PORT_LINK_DOWN (R403): every partition with traffic on the link is told, and PORTROLE of the link reads 0. What goes
through the link from now on meets `linkDown`: reads and atomics consume poison, stores fail their context. -/
def execPortLinkDown (port : Fin 4) (s : State) : Host.Outcome State Fault Refusal :=
  let users := (s.parts.filter fun x => s.usesLink port.val x.num).map fun x => x.num
  let s := users.foldl (fun s p => s.postError p 3 0 (errorPlace 15 0 0 0) 0 0xFFFF 0 0) s
  .next { s with module := { s.module with
    portRole := s.module.portRole &&& ~~~(3#8 <<< (2 * port.val)), down := s.module.down ||| (1#4 <<< port.val) } }

/-- The bytes of memory that an incoming access names: memory type, address, size and the partition that it belongs to. -/
structure PortSpan where
  mt : Nat
  pa : Nat
  size : Nat
  part : Option Nat
  /-- The context it was translated in, and the leaf, with where that lies; 0xFFFF and none for physical memory. -/
  ctag : Nat
  leaf : Option (BitVec 64 × Nat × Nat)
  deriving DecidableEq, Repr

/-- The bytes that an access moves. -/
def portSize : PortOp → Nat
  | .read n => n
  | .write data _ => data.length
  | .atomic op _ => op.size

/-- What the access needs of a leaf. -/
def portNeed : PortOp → Perm
  | .read _ => { r := true }
  | .write _ _ => { w := true }
  | .atomic _ _ => { r := true, w := true }

/-- Where an incoming access lies: a host's in physical memory, a peer's translated in its port's context; none where it
cannot be reached. -/
def State.portReach (s : State) (a : PortAccess) : Option (List PortSpan) × State :=
  let n := portSize a.op
  match a.target with
  | .phys mt pa =>
    let top := if mt.val < 8 then 2 ^ 36 else if mt.val = 8 then 2 ^ 40 else 2 ^ 52
    (if pa + n ≤ top then some [{ mt := mt.val, pa := pa, size := n, part := s.memPart mt.val pa, ctag := 0xFFFF, leaf := none }] else none, s)
  | .global p mt record a' =>
    let c := s.readContext mt.val record
    match s.devReach c p.val a' n (portNeed a.op) with
    | (.ok l, s) =>
      (some (l.map fun x => { mt := x.mt, pa := x.pa, size := x.size, part := some p.val, ctag := c.ctag, leaf := some (x.leaf, x.leafMt, x.leafPa) }), s)
    | (.error _, s) => (none, s)

/-- Pieces of one span inside flits of 256 bytes (R304, R408): address and size. -/
def flitParts (pa : Nat) : Nat → Nat → List (Nat × Nat)
  | 0, _ => []
  | fuel + 1, n =>
    if n = 0 then []
    else
      let k := min n (256 - pa % 256)
      (pa, k) :: flitParts (pa + k) fuel (n - k)

/-- The bytes of an incoming access are used: A, and D for a write, of the leaf that it went through (R75), and the lines,
whose owner is the port's context (R400). -/
def State.portTouch (s : State) (x : PortSpan) (write : Bool) : State :=
  let s := match x.leaf with
    | some (e, mt, pa) => s.touchLeaf 96 e mt pa write
    | none => s
  (List.range ((x.pa + x.size + 127) / 128 - x.pa / 128)).foldl (fun s k =>
    s.touchL2 (x.part.getD 8) x.ctag none x.mt ((x.pa / 128 + k) * 128) 0 write false) s

/-- Bytes arriving through a port are stored; a poisoned write poisons the units it touches (R396). -/
def State.portStore (s : State) (x : PortSpan) (bs : List Byte) (poisoned : Bool) : State :=
  let s := (flitParts x.pa bs.length bs.length).foldl (fun s f =>
    match x.part with
    | some p => s.logEntry p 2 ([memKey x.mt f.1, f.2] ++ wordsOf ((bs.drop (f.1 - x.pa)).take f.2))
    | none => s) s
  let s := (s.putMem (memKey x.mt x.pa) bs).portTouch x true
  let s := s.clearTag 3 0 (memKey x.mt x.pa) (max 1 bs.length)
  if !poisoned then s
  else
    let first := x.pa / 16 * 16
    let n := (x.pa + bs.length - first + 15) / 16 * 16
    match x.part with
    | some p => s.createPoison p x.mt first n
    | none => (List.range (n / 16)).foldl (fun s k => s.addPoison x.mt (first + 16 * k)) s

/-- The access is performed on the bytes that it reaches; an atomic at the line's home, none on a poisoned unit. -/
def State.portPerform (s : State) (op : PortOp) (xs : List PortSpan) : State :=
  match op with
  | .read _ => xs.foldl (fun s x => s.portTouch x false) s
  | .write data poisoned =>
    (xs.foldl (fun (acc : List Byte × State) x => (acc.1.drop x.size, acc.2.portStore x (acc.1.take x.size) poisoned)) (data, s)).2
  | .atomic op v =>
    match xs with
    | [x] => if s.memPoisoned x.mt x.pa x.size then s else s.portStore x (op.bytes v (s.rawBytes x.mt x.pa x.size)) false
    | _ => s

/-- PORT_INCOMING_ACCESS through a port that has a role; an access to a line that a batch holds waits (R105); one that
changes a Woad partition is an input of it. -/
def execPortIncomingAccess (port : Fin 4) (a : PortAccess) (s : State) : Host.Outcome State Fault Refusal :=
  let role := bits s.module.portRole.toNat (2 * port.val + 1) (2 * port.val)
  match s.portReach a with
  | (none, _) => .next s
  | (some xs, s') =>
    let aligned := match a.op with
      | .atomic op _ => xs.all fun x => x.pa % op.size = 0
      | _ => true
    let held := xs.any fun x => (List.range (x.size + 1)).any fun k => s.objects.any fun o =>
      o.crew.isSome && o.mt == x.mt && o.pa == (x.pa + k) / 128 * 128
    let kind := match a.target with | .phys _ _ => 1 | .global _ _ _ _ => 2
    if role != kind || !aligned || held then .next s
    else match a.op, xs.findSome? fun x => x.part with
    | .read _, _ => .next (s'.portPerform a.op xs)
    | _, some p => s'.asInput p (.portIncomingAccess port a) fun s => s.portPerform a.op xs
    | _, none => .next (s'.portPerform a.op xs)

end Sys2Proof.Machine

end
end

