-- ==== Sys2Proof/Machine/Graphs.lean ====
section
/-! DEFINITION. The records of work graphs: RECALLOC and RECSEND (R264, R298, R381) and the batches that they form
(R297, R299). -/

noncomputable section

namespace Sys2Proof.Machine

/-! ## Slots (R298) -/

/-- The graph and node of a wave's crew, where the root counts as node 0. -/
def State.graphNode (s : State) (c : Crew) : Option (Graph × Nat) :=
  match c.kind with
  | .root => (s.graph? c.work).map fun g => (g, 0)
  | .batch n _ => (s.graph? c.work).map fun g => (g, n)
  | _ => none

/-- Slots in use for a node. -/
def Graph.count (g : Graph) (n : Nat) : Nat := (g.used.filter fun u => u.2 == n).length

/-- RES of a node; the root has none. -/
def Graph.reserve (g : Graph) (n : Nat) : Nat := if n = 0 then 0 else (g.nodes[n]?.map fun x => x.res).getD 0

/-- A node may take a reserved slot. -/
def Graph.reserved (g : Graph) (n : Nat) : Bool := g.count n < g.reserve n

/-- Σ max(u, RES). -/
def Graph.total (g : Graph) : Nat := ((List.range g.nodes.length).map fun n => max (g.count n) (g.reserve n)).sum

/-- A lane for this node may take a slot. -/
def Graph.mayTake (g : Graph) (n : Nat) : Bool := g.reserved n || g.total < g.slots

/-- The lowest free slot. -/
def Graph.freeSlot (g : Graph) : Option Nat := (List.range (g.used.length + 1)).find? fun j => j < g.slots && g.used.all fun u => u.1 != j

/-- Slots for lanes of a node, ascending: the lanes served with their addresses, and the graph. -/
def Graph.takeSlots (g : Graph) (n : Nat) : List Nat → List (Nat × Nat) × Graph
  | [] => ([], g)
  | l :: r =>
    match (if g.mayTake n then g.freeSlot else none) with
    | none => ([], g)
    | some j =>
      let (out, g) := ({ g with used := (j, n) :: g.used }).takeSlots n r
      ((l, g.pool + j * g.slotSize) :: out, g)

/-- Stamps and nodes of the RECALLOCs that wait in a graph; one whose gang a handler has suspended is passed over until RTE
(log entry 68). -/
def State.recWaiters (s : State) (seq : Nat) : List (Nat × Nat) :=
  s.waves.flatMap fun w =>
    match s.crew? w.ref.crew with
    | some c =>
      if c.work == seq then w.gangs.filterMap fun g => match g.wait with | .recalloc n _ _ _ st => some (st, n) | _ => none else []
    | none => []

/-- It is this request's turn: no earlier one waits, but one that may take a reserved slot passes those that may not. -/
def State.recTurn (s : State) (g : Graph) (n stamp : Nat) : Bool :=
  (s.recWaiters g.seq).all fun x => stamp ≤ x.1 || (g.reserved n && !g.reserved x.2)

/-! ## RECALLOC (R264) -/

/-- The bytes of a slot are undefined until a lane writes them (R264), wherever its pages lie now. -/
def State.blankSlot (s : State) (c : Crew) (a n : Nat) : State :=
  (pageParts (BitVec.ofNat 64 a) n 2).foldl (fun s p =>
    match (s.walk c.ctx c.part c.clusterNo p.1).1 with
    | .leaf e frame _ _ => s.loosen (memKey (entryMt e) (frame * 2 ^ 17 + bits p.1.toNat 16 0)) p.2
    | _ => s) s

/-- Lanes of a mask are served; the cohort goes on when every one has a slot, else it waits for the rest. -/
def State.serveRecords (s : State) (w : Wave) (gang : Gang) (g : Graph) (n d : Nat) (left : LaneMask) (got : List (Nat × Nat)) (stamp : Nat) :
    State :=
  let (new, g') := if s.recTurn g n stamp then g.takeSlots n left.lanes else ([], g)
  let got := got ++ new
  let left := left &&& ~~~(laneSet (new.map fun x => x.1))
  let s := s.putGraph g'
  let s := match s.crew? w.ref.crew with | some c => new.foldl (fun (s : State) (x : Nat × Nat) => s.blankSlot c x.2 g.slotSize) s | none => s
  let w := { w with slots := w.slots ++ new.map fun (x : Nat × Nat) => ({ addr := x.2, node := n, lane := x.1, sent := false } : Slot) }
  if left = 0 then
    let a (l : Nat) : Nat := ((got.find? fun x => x.1 == l).map fun x => x.2).getD 0
    let m := laneSet (got.map fun x => x.1)
    s.putWave ((w.writeV2 d m fun l => BitVec.ofNat 64 (a l)).advance gang (gang.pc + 8))
  else s.putWave (w.park gang (.recalloc n d left got stamp))

/-- ROLE 4: outside a wave of a graph (R362). -/
def recordNeeds (notInHandler : Bool) (c : Issue) : Needs :=
  { notInHandler := notInHandler, place := match c.crew.kind with | .root => none | .batch _ _ => none | _ => some 4 }

/-- RECALLOC (R264, R381): RECORD_BAD_NODE where the node is 0, does not exist or is not above the issuing one. -/
def execRecalloc (o : Opnd) (s : State) : Host.Outcome State Fault Refusal :=
  let n := o.ext.imm.toNat % 64
  issue (.recalloc o) (recordNeeds true) s fun c =>
    match s.graphNode c.crew with
    | none => s
    | some (g, own) =>
      let lanes := c.active o.ext
      if lanes = 0 then s.retire c (.recalloc o) c.wave
      else if n = 0 || g.nodes.length ≤ n || n ≤ own then s.takeTrap c.wave (c.trap 0x13 1 (BitVec.ofNat 64 n) lanes)
      else
        let (st, s) := s.takeStamp
        s.serveRecords c.wave c.gang g n o.d.toNat lanes [] st

/-- RECALLOC_GRANT (R298): a waiting RECALLOC takes what slots it may. -/
def execRecallocGrant (w : WaveRef) (gang : Nat) (s : State) : Host.Outcome State Fault Refusal :=
  if s.roundHolds w then .next s else
  match s.wave? w, s.crew? w.crew with
  | some x, some c =>
    match x.gang? gang, s.graph? c.work with
    | some gg, some g =>
      match gg.wait with
      | .recalloc n d left got st =>
        if c.resident && c.preempt.isNone then .next (s.serveRecords x gg g n d left got st) else .next s
      | _ => .next s
    | _, _ => .next s
  | _, _ => .next s

/-! ## RECSEND (R264, R381) -/

/-- Why a lane's address cannot be sent: SUB 2 where no RECALLOC of the wave returned it, SUB 3 where it is sent. -/
def Wave.sendFault (w : Wave) (a : Nat) : Option Nat :=
  let mine := w.slots.filter fun x => x.addr == a
  if mine.isEmpty then some 2 else if mine.all fun x => x.sent then some 3 else none

/-- Records commit in lane order (R298). -/
def State.sendRecords (s : State) (g : Graph) (w : Wave) (addrs : List Nat) : State × Wave :=
  let (g, w) := addrs.foldl (fun (acc : Graph × Wave) a =>
    let (g, w) := acc
    match w.slots.find? fun x => x.addr == a && !x.sent with
    | some x => ({ g with pending := g.pending ++ [(x.node, a, s.tick)] },
                 { w with slots := updWhere (fun y => y.addr == a && !y.sent) (fun y => { y with sent := true }) w.slots })
    | none => (g, w)) (g, w)
  (s.putGraph g, w)

/-- RECSEND: a release at device scope for each lane (R264); the checks of R381. -/
def execRecsend (o : Opnd) (s : State) : Host.Outcome State Fault Refusal :=
  issue (.recsend o) (recordNeeds false) s fun c =>
    match s.graphNode c.crew with
    | none => s
    | some (g, _) =>
      let w := c.wave
      let lanes := (c.active o.ext).lanes
      let addr (l : Nat) : BitVec 64 := w.readV2 o.a.toNat l
      let twice (l : Nat) : Bool := lanes.any fun k => k < l && addr k = addr l
      let bad := lanes.filterMap fun l =>
        match w.sendFault (addr l).toNat with
        | some k => some (l, k)
        | none => if twice l then some (l, 3) else none
      let sub := if bad.any fun x => x.2 = 2 then 2 else 3
      match bad.filter fun x => x.2 = sub with
      | (l, _) :: r => s.takeTrap w (c.trap 0x13 sub (addr l) (laneSet (l :: r.map fun x => x.1)))
      | [] =>
        if !w.sup && s.mustWait w.ref true true then s.putWave (w.park c.gang .held)
        else
          let (s, w) := s.sendRecords g w (lanes.map fun l => (addr l).toNat)
          s.retire c (.recsend o) w

/-! ## Batches (R297, R299) -/

/-- The records of a node's next batch: the first min(pending, BATCH) in commit order, of those that were committed by the
moment at which TMO ticks had passed for the oldest (R299). -/
def Node.nextBatch (n : Node) (rs : List (Nat × Nat × Nat)) : List (Nat × Nat × Nat) :=
  let due := (rs.headD (0, 0, 0)).2.2 + n.tmo
  (rs.take n.batch).filter fun x => decide (x.2.2 ≤ due)

/-- A batch of a node launches with its records; it waits to be placed. -/
def State.launchRecords (s : State) (seq node : Nat) (due : Node → List (Nat × Nat × Nat) → Bool) : State :=
  match s.graph? seq with
  | none => s
  | some g =>
    match g.nodes[node]? with
    | none => s
    | some n =>
      let mine := g.pending.filter fun x => x.1 == node
      if node = 0 || mine.isEmpty || !due n mine then s
      else
        let now := (n.nextBatch mine).map fun x => x.2.1
        s.putGraph { g with
          pending := g.pending.filter fun x => !(x.1 == node && now.contains x.2.1)
          ready := g.ready ++ [(node, now, s.tick)] }

/-- GRAPH_BATCH_LAUNCH: BATCH records are pending, or TMO is 0 (R296, R299). -/
def execGraphBatchLaunch (seq node : Nat) (s : State) : Host.Outcome State Fault Refusal :=
  .next (s.launchRecords seq node fun n rs => n.batch ≤ rs.length || n.tmo = 0)

/-- GRAPH_BATCH_TIMEOUT: TMO ticks have passed since the oldest pending record was committed (R299). -/
def execGraphBatchTimeout (seq node : Nat) (s : State) : Host.Outcome State Fault Refusal :=
  .next (s.launchRecords seq node fun n rs => rs.any fun x => decide (x.2.2 + n.tmo ≤ s.tick))

end Sys2Proof.Machine

end
end

