-- ==== Sys2Proof/Machine/GroupAlu.lean ====
section
/-! DEFINITION. Group arithmetic, comparison, selection and V2G (R184 to R191). -/

noncomputable section

namespace Sys2Proof.Machine

/-- The frame of R184 with one 32-bit result of two group registers. -/
def group2 (i : Instr) (o : Opnd) (f : Word → Word → Word) (s : State) : Host.Outcome State Fault Refusal :=
  issue i plain s fun c =>
    let w := c.wave
    s.retire c i (w.writeG c.gang.slices o.d.toNat (f (w.readG o.a.toNat) (w.readG o.b.toNat)))

/-- The frame of R184 with one 64-bit result of two pairs. -/
def group64 (i : Instr) (o : Opnd) (f : BitVec 64 → BitVec 64 → BitVec 64) (s : State) :
    Host.Outcome State Fault Refusal :=
  issue i plain s fun c =>
    let w := c.wave
    s.retire c i (w.writeG2 c.gang.slices o.d.toNat (f (w.readG2 o.a.toNat) (w.readG2 o.b.toNat)))

/-- The frame of R187: one register and a sign-extended immediate. -/
def groupImm (i : Instr) (o : OpndI) (f : Word → Word → Word) (s : State) : Host.Outcome State Fault Refusal :=
  issue i plain s fun c =>
    let w := c.wave
    s.retire c i (w.writeG c.gang.slices o.d.toNat (f (w.readG o.a.toNat) (o.imm.signExtend 32)))

/-- Bits 63:32 of a signed product. -/
def mulHighS (a b : Word) : Word := BitVec.ofInt 32 (a.toInt * b.toInt / 2 ^ 32)

/-- Bits 63:32 of an unsigned product. -/
def mulHighN (a b : Word) : Word := BitVec.ofNat 32 (a.toNat * b.toNat / 2 ^ 32)

def minS (a b : Word) : Word := if a.slt b then a else b
def maxS (a b : Word) : Word := if a.slt b then b else a
def minN (a b : Word) : Word := if a < b then a else b
def maxN (a b : Word) : Word := if a < b then b else a

/-- A << k with k unsigned; 0 from 32 on (R161, R186). -/
def shl32 (a k : Word) : Word := if 32 ≤ k.toNat then 0 else a <<< k.toNat

/-- A >> k with zeros shifted in; 0 from 32 on. -/
def shr32 (a k : Word) : Word := if 32 ≤ k.toNat then 0 else a >>> k.toNat

/-- A >> k with the sign shifted in; all sign bits from 32 on. -/
def sar32 (a k : Word) : Word := a.sshiftRight (min k.toNat 31)

/-- Number of 1 bits. -/
def popcount (a : Word) : Word := BitVec.ofNat 32 ((List.range 32).countP fun k => a.getLsbD k)

/-- Leading zeros; 32 for 0. -/
def clz32 (a : Word) : Word := BitVec.ofNat 32 (((List.range 32).find? fun k => a.getLsbD (31 - k)).getD 32)

/-- Trailing zeros; 32 for 0. -/
def ctz32 (a : Word) : Word := BitVec.ofNat 32 (((List.range 32).find? fun k => a.getLsbD k).getD 32)

/-- 1 or 0. -/
def flag (b : Bool) : Word := if b then 1 else 0

def leS (a b : Word) : Bool := a.sle b
def ltS (a b : Word) : Bool := a.slt b

/-- A + B (R186). -/
def execGadd (o : Opnd) (s : State) : Host.Outcome State Fault Refusal :=
  group2 (.gadd o) o (fun a b => a + b) s

/-- A - B (R186). -/
def execGsub (o : Opnd) (s : State) : Host.Outcome State Fault Refusal :=
  group2 (.gsub o) o (fun a b => a - b) s

/-- The low 32 bits of A × B (R186). -/
def execGmul (o : Opnd) (s : State) : Host.Outcome State Fault Refusal :=
  group2 (.gmul o) o (fun a b => a * b) s

/-- The high 32 bits of the signed product (R186). -/
def execGmulhS32 (o : Opnd) (s : State) : Host.Outcome State Fault Refusal :=
  group2 (.gmulhS32 o) o mulHighS s

/-- The high 32 bits of the unsigned product (R186). -/
def execGmulhN32 (o : Opnd) (s : State) : Host.Outcome State Fault Refusal :=
  group2 (.gmulhN32 o) o mulHighN s

/-- The lesser, signed (R186). -/
def execGminS32 (o : Opnd) (s : State) : Host.Outcome State Fault Refusal :=
  group2 (.gminS32 o) o minS s

/-- The lesser, unsigned (R186). -/
def execGminN32 (o : Opnd) (s : State) : Host.Outcome State Fault Refusal :=
  group2 (.gminN32 o) o minN s

/-- The greater, signed (R186). -/
def execGmaxS32 (o : Opnd) (s : State) : Host.Outcome State Fault Refusal :=
  group2 (.gmaxS32 o) o maxS s

/-- The greater, unsigned (R186). -/
def execGmaxN32 (o : Opnd) (s : State) : Host.Outcome State Fault Refusal :=
  group2 (.gmaxN32 o) o maxN s

/-- A AND B (R186). -/
def execGand (o : Opnd) (s : State) : Host.Outcome State Fault Refusal :=
  group2 (.gand o) o (fun a b => a &&& b) s

/-- A OR B (R186). -/
def execGor (o : Opnd) (s : State) : Host.Outcome State Fault Refusal :=
  group2 (.gor o) o (fun a b => a ||| b) s

/-- A XOR B (R186). -/
def execGxor (o : Opnd) (s : State) : Host.Outcome State Fault Refusal :=
  group2 (.gxor o) o (fun a b => a ^^^ b) s

/-- NOT A (R186). -/
def execGnot (o : Opnd) (s : State) : Host.Outcome State Fault Refusal :=
  group2 (.gnot o) o (fun a _ => ~~~a) s

/-- Shift left (R186). -/
def execGshl (o : Opnd) (s : State) : Host.Outcome State Fault Refusal :=
  group2 (.gshl o) o shl32 s

/-- Shift right (R186). -/
def execGshr (o : Opnd) (s : State) : Host.Outcome State Fault Refusal :=
  group2 (.gshr o) o shr32 s

/-- Arithmetic shift right (R186). -/
def execGsar (o : Opnd) (s : State) : Host.Outcome State Fault Refusal :=
  group2 (.gsar o) o sar32 s

/-- Number of 1 bits (R186). -/
def execGpopc (o : Opnd) (s : State) : Host.Outcome State Fault Refusal :=
  group2 (.gpopc o) o (fun a _ => popcount a) s

/-- Leading zero count (R186). -/
def execGclz (o : Opnd) (s : State) : Host.Outcome State Fault Refusal :=
  group2 (.gclz o) o (fun a _ => clz32 a) s

/-- A + B modulo 2^64 (R186). -/
def execGadd64 (o : Opnd) (s : State) : Host.Outcome State Fault Refusal :=
  group64 (.gadd64 o) o (fun a b => a + b) s

/-- A - B modulo 2^64 (R186). -/
def execGsub64 (o : Opnd) (s : State) : Host.Outcome State Fault Refusal :=
  group64 (.gsub64 o) o (fun a b => a - b) s

/-- D := A op sext(IMM12) (R187). -/
def execGaddi (o : OpndI) (s : State) : Host.Outcome State Fault Refusal :=
  groupImm (.gaddi o) o (fun a b => a + b) s

/-- D := A op sext(IMM12) (R187). -/
def execGandi (o : OpndI) (s : State) : Host.Outcome State Fault Refusal :=
  groupImm (.gandi o) o (fun a b => a &&& b) s

/-- D := A op sext(IMM12) (R187). -/
def execGori (o : OpndI) (s : State) : Host.Outcome State Fault Refusal :=
  groupImm (.gori o) o (fun a b => a ||| b) s

/-- D := LIT (R188). -/
def execGmovl (o : OpndLit) (s : State) : Host.Outcome State Fault Refusal :=
  issue (.gmovl o) plain s fun c => s.retire c (.gmovl o) (c.wave.writeG c.gang.slices o.d.toNat o.lit)

/-- D := A + LIT, low 32 bits (R188). -/
def execGaddl (o : OpndLit) (s : State) : Host.Outcome State Fault Refusal :=
  issue (.gaddl o) plain s fun c =>
    s.retire c (.gaddl o) (c.wave.writeG c.gang.slices o.d.toNat (c.wave.readG o.a.toNat + o.lit))

/-- 1 when the relation holds, else 0 (R189). -/
def execGcmpEq (o : Opnd) (s : State) : Host.Outcome State Fault Refusal :=
  group2 (.gcmpEq o) o (fun a b => flag (a == b)) s

/-- 1 when the relation holds, else 0 (R189). -/
def execGcmpNe (o : Opnd) (s : State) : Host.Outcome State Fault Refusal :=
  group2 (.gcmpNe o) o (fun a b => flag (a != b)) s

/-- 1 when the relation holds, else 0 (R189). -/
def execGcmpLtS32 (o : Opnd) (s : State) : Host.Outcome State Fault Refusal :=
  group2 (.gcmpLtS32 o) o (fun a b => flag (ltS a b)) s

/-- 1 when the relation holds, else 0 (R189). -/
def execGcmpLeS32 (o : Opnd) (s : State) : Host.Outcome State Fault Refusal :=
  group2 (.gcmpLeS32 o) o (fun a b => flag (leS a b)) s

/-- 1 when the relation holds, else 0 (R189). -/
def execGcmpLtN32 (o : Opnd) (s : State) : Host.Outcome State Fault Refusal :=
  group2 (.gcmpLtN32 o) o (fun a b => flag (a < b)) s

/-- 1 when the relation holds, else 0 (R189). -/
def execGcmpLeN32 (o : Opnd) (s : State) : Host.Outcome State Fault Refusal :=
  group2 (.gcmpLeN32 o) o (fun a b => flag (a ≤ b)) s

/-- D := A when C is not 0, else B (R190). -/
def execGsel (o : Opnd) (s : State) : Host.Outcome State Fault Refusal :=
  issue (.gsel o) plain s fun c =>
    let w := c.wave
    let x := if w.readG o.ext.c.toNat != 0 then w.readG o.a.toNat else w.readG o.b.toNat
    s.retire c (.gsel o) (w.writeG c.gang.slices o.d.toNat x)

/-- V2G writes its value: at once when its cohort is the wave's only gang, else as a long-latency producer (R191).
While a handler runs, its own gang is the only one (log entry 67). -/
def v2gWrite (i : Instr) (o : Opnd) (c : Issue) (x : Word) (s : State) : State :=
  let w := c.wave
  if w.gangs.length = 1 then s.retire c i (w.writeG c.gang.slices o.d.toNat x)
  else
    let (id, s) := s.takeStamp
    let ld : Landing :=
      { id := id, file := true, reg := o.d.toNat, lanes := c.cohort, data := [Lanes.build fun _ => x], pending := 0 }
    s.retire c i (w.produce ld)

/-- The lowest active lane's value, or 0 (R191). -/
def execV2g (o : Opnd) (s : State) : Host.Outcome State Fault Refusal :=
  issue (.v2g o) plain s fun c =>
    let x := match LaneMask.lanes c.activeGroup with
      | l :: _ => (c.wave.readV o.a.toNat).at_ l
      | [] => 0
    v2gWrite (.v2g o) o c x s

/-- Lane k's value, whatever its activity (R191). -/
def execV2gLane (o : Opnd) (s : State) : Host.Outcome State Fault Refusal :=
  issue (.v2gLane o) plain s fun c =>
    v2gWrite (.v2gLane o) o c ((c.wave.readV o.a.toNat).at_ (o.ext.imm.toNat % 128)) s

end Sys2Proof.Machine

end
end

