-- ==== Sys2Proof/Machine/LaneInt.lean ====
section
/-! DEFINITION. Integer lane instructions: IALU, the immediates, IMAD, BITS, ICMP and SEL (R155 to R164). -/

noncomputable section

namespace Sys2Proof.Machine

/-- The frame of R155 with one register written: f gives the word of each active lane from the wave before it. -/
def lane (i : Instr) (o : Opnd) (f : Wave → Nat → Word) (s : State) : Host.Outcome State Fault Refusal :=
  issue i plain s fun c => s.retire c i (c.wave.writeV o.d.toNat (c.active o.ext) (f c.wave))

/-- The same with a pair written. -/
def lanePair (i : Instr) (o : Opnd) (f : Wave → Nat → BitVec 64) (s : State) : Host.Outcome State Fault Refusal :=
  issue i plain s fun c => s.retire c i (c.wave.writeV2 o.d.toNat (c.active o.ext) (f c.wave))

/-- The same with a predicate written; D[2:0] names it (R163). -/
def lanePred (i : Instr) (o : Opnd) (f : Wave → Nat → Bool) (s : State) : Host.Outcome State Fault Refusal :=
  issue i plain s fun c =>
    s.retire c i (c.wave.writeP (o.d.toNat % 8) (c.active o.ext) (maskOf (f c.wave)))

/-- One result of the two source registers. -/
def lane2 (i : Instr) (o : Opnd) (f : Word → Word → Word) (s : State) : Host.Outcome State Fault Refusal :=
  lane i o (fun w l => f ((w.readV o.a.toNat).at_ l) ((w.readV o.b.toNat).at_ l)) s

/-- One result of the three source registers. -/
def lane3 (i : Instr) (o : Opnd) (f : Word → Word → Word → Word) (s : State) : Host.Outcome State Fault Refusal :=
  lane i o (fun w l => f ((w.readV o.a.toNat).at_ l) ((w.readV o.b.toNat).at_ l) ((w.readV o.ext.c.toNat).at_ l)) s

/-- A pair of two source registers. -/
def laneWide (i : Instr) (o : Opnd) (f : Word → Word → BitVec 64) (s : State) : Host.Outcome State Fault Refusal :=
  lanePair i o (fun w l => f ((w.readV o.a.toNat).at_ l) ((w.readV o.b.toNat).at_ l)) s

/-- A pair of two source pairs. -/
def lane64 (i : Instr) (o : Opnd) (f : BitVec 64 → BitVec 64 → BitVec 64) (s : State) :
    Host.Outcome State Fault Refusal :=
  lanePair i o (fun w l => f (w.readV2 o.a.toNat l) (w.readV2 o.b.toNat l)) s

/-- A pair of two source registers and the pair in C (R160). -/
def laneMadWide (i : Instr) (o : Opnd) (f : Word → Word → BitVec 64) (s : State) : Host.Outcome State Fault Refusal :=
  lanePair i o (fun w l => f ((w.readV o.a.toNat).at_ l) ((w.readV o.b.toNat).at_ l) + w.readV2 o.ext.c.toNat l) s

/-- A relation of the two source registers (R163). -/
def laneCmp (i : Instr) (o : Opnd) (f : Word → Word → Bool) (s : State) : Host.Outcome State Fault Refusal :=
  lanePred i o (fun w l => f ((w.readV o.a.toNat).at_ l) ((w.readV o.b.toNat).at_ l)) s

/-- The frame of R159: the sign-extended immediate. -/
def laneImm (i : Instr) (o : OpndI) (f : Word → Word → Word) (s : State) : Host.Outcome State Fault Refusal :=
  issue i plain s fun c =>
    s.retire c i (c.wave.writeV o.d.toNat (c.cohort &&& c.wave.act) fun l =>
      f ((c.wave.readV o.a.toNat).at_ l) (o.imm.signExtend 32))

/-- The full signed and unsigned products (R158). -/
def mulWideS (a b : Word) : BitVec 64 := BitVec.ofInt 64 (a.toInt * b.toInt)
def mulWideN (a b : Word) : BitVec 64 := BitVec.ofNat 64 (a.toNat * b.toNat)

/-- Rotations by the amount modulo 32 (R161). -/
def rotl32 (a k : Word) : Word := a.rotateLeft (k.toNat % 32)
def rotr32 (a k : Word) : Word := a.rotateRight (k.toNat % 32)

/-- Bit i of the result is bit 31 - i (R161). -/
def brev32 (a : Word) : Word :=
  (List.range 32).foldl (fun r k => if a.getLsbD (31 - k) then r ||| (1#32 <<< k) else r) 0

/-- Position and width of a field in IMM16 (R162). -/
def fieldPos (x : Ext) : Nat := x.imm.toNat % 32
def fieldWidth (x : Ext) : Nat := min (x.imm.toNat / 32 % 32 + 1) (32 - fieldPos x)

/-- Field extract (R162). -/
def bfxN (x : Ext) (a : Word) : Word := BitVec.ofNat 32 (bits a.toNat (fieldPos x + fieldWidth x - 1) (fieldPos x))
def bfxS (x : Ext) (a : Word) : Word :=
  let v := (bfxN x a).toNat
  let n := fieldWidth x
  if 2 ^ (n - 1) ≤ v then BitVec.ofInt 32 ((v : Int) - 2 ^ n) else BitVec.ofNat 32 v

/-- Field insert (R162). -/
def bfi (x : Ext) (a b : Word) : Word :=
  BitVec.ofNat 32 (setBits b.toNat (fieldPos x + fieldWidth x - 1) (fieldPos x) a.toNat)

/-- Byte k of a word. -/
def byteOf (a : Word) (k : Nat) : Nat := bits a.toNat (8 * k + 7) (8 * k)

/-- The byte that a selector picks (R162). -/
def permByte (a b : Word) (sel : Nat) : Nat :=
  if sel < 4 then byteOf a sel
  else if sel < 8 then byteOf b (sel - 4)
  else if sel < 12 then (if 128 ≤ byteOf a (sel - 8) then 255 else 0)
  else 0

/-- Byte permute (R162). -/
def permb (x : Ext) (a b : Word) : Word :=
  let sel (k : Nat) : Nat := bits x.imm.toNat (4 * k + 3) (4 * k)
  BitVec.ofNat 32 (permByte a b (sel 0) + 2 ^ 8 * permByte a b (sel 1) + 2 ^ 16 * permByte a b (sel 2) +
    2 ^ 24 * permByte a b (sel 3))

/-- The immediate amount of SHLI, SHRI and SARI (R161). -/
def shiftImm (o : Opnd) : Word := o.b.setWidth 32

/-- A + B (R158). -/
def execIadd (o : Opnd) (s : State) : Host.Outcome State Fault Refusal :=
  lane2 (.iadd o) o (fun a b => a + b) s

/-- A - B (R158). -/
def execIsub (o : Opnd) (s : State) : Host.Outcome State Fault Refusal :=
  lane2 (.isub o) o (fun a b => a - b) s

/-- The low 32 bits of A × B (R158). -/
def execImul (o : Opnd) (s : State) : Host.Outcome State Fault Refusal :=
  lane2 (.imul o) o (fun a b => a * b) s

/-- The high 32 bits of the signed product (R158). -/
def execImulhS32 (o : Opnd) (s : State) : Host.Outcome State Fault Refusal :=
  lane2 (.imulhS32 o) o mulHighS s

/-- The high 32 bits of the unsigned product (R158). -/
def execImulhN32 (o : Opnd) (s : State) : Host.Outcome State Fault Refusal :=
  lane2 (.imulhN32 o) o mulHighN s

/-- The lesser, signed (R158). -/
def execIminS32 (o : Opnd) (s : State) : Host.Outcome State Fault Refusal :=
  lane2 (.iminS32 o) o minS s

/-- The lesser, unsigned (R158). -/
def execIminN32 (o : Opnd) (s : State) : Host.Outcome State Fault Refusal :=
  lane2 (.iminN32 o) o minN s

/-- The greater, signed (R158). -/
def execImaxS32 (o : Opnd) (s : State) : Host.Outcome State Fault Refusal :=
  lane2 (.imaxS32 o) o maxS s

/-- The greater, unsigned (R158). -/
def execImaxN32 (o : Opnd) (s : State) : Host.Outcome State Fault Refusal :=
  lane2 (.imaxN32 o) o maxN s

/-- The absolute value; 0x80000000 stays (R158). -/
def execIabs (o : Opnd) (s : State) : Host.Outcome State Fault Refusal :=
  lane2 (.iabs o) o (fun a _ => if a.slt 0 then 0 - a else a) s

/-- 0 - A (R158). -/
def execIneg (o : Opnd) (s : State) : Host.Outcome State Fault Refusal :=
  lane2 (.ineg o) o (fun a _ => 0 - a) s

/-- A + B modulo 2^64 (R158). -/
def execIadd64 (o : Opnd) (s : State) : Host.Outcome State Fault Refusal :=
  lane64 (.iadd64 o) o (fun a b => a + b) s

/-- A - B modulo 2^64 (R158). -/
def execIsub64 (o : Opnd) (s : State) : Host.Outcome State Fault Refusal :=
  lane64 (.isub64 o) o (fun a b => a - b) s

/-- The full signed product (R158). -/
def execImulwS32 (o : Opnd) (s : State) : Host.Outcome State Fault Refusal :=
  laneWide (.imulwS32 o) o mulWideS s

/-- The full unsigned product (R158). -/
def execImulwN32 (o : Opnd) (s : State) : Host.Outcome State Fault Refusal :=
  laneWide (.imulwN32 o) o mulWideN s

/-- D := A + sext(IMM12) (R159). -/
def execIaddi (o : OpndI) (s : State) : Host.Outcome State Fault Refusal :=
  laneImm (.iaddi o) o (fun a b => a + b) s

/-- D := A AND sext(IMM12) (R159). -/
def execAndi (o : OpndI) (s : State) : Host.Outcome State Fault Refusal :=
  laneImm (.andi o) o (fun a b => a &&& b) s

/-- D := A OR sext(IMM12) (R159). -/
def execOri (o : OpndI) (s : State) : Host.Outcome State Fault Refusal :=
  laneImm (.ori o) o (fun a b => a ||| b) s

/-- D := A XOR sext(IMM12) (R159). -/
def execXori (o : OpndI) (s : State) : Host.Outcome State Fault Refusal :=
  laneImm (.xori o) o (fun a b => a ^^^ b) s

/-- A & B (R161). -/
def execAnd (o : Opnd) (s : State) : Host.Outcome State Fault Refusal :=
  lane2 (.and o) o (fun a b => a &&& b) s

/-- A | B (R161). -/
def execOr (o : Opnd) (s : State) : Host.Outcome State Fault Refusal :=
  lane2 (.or o) o (fun a b => a ||| b) s

/-- A ^ B (R161). -/
def execXor (o : Opnd) (s : State) : Host.Outcome State Fault Refusal :=
  lane2 (.xor o) o (fun a b => a ^^^ b) s

/-- A & ~B (R161). -/
def execAndn (o : Opnd) (s : State) : Host.Outcome State Fault Refusal :=
  lane2 (.andn o) o (fun a b => a &&& ~~~b) s

/-- A | ~B (R161). -/
def execOrn (o : Opnd) (s : State) : Host.Outcome State Fault Refusal :=
  lane2 (.orn o) o (fun a b => a ||| ~~~b) s

/-- ~(A ^ B) (R161). -/
def execXnor (o : Opnd) (s : State) : Host.Outcome State Fault Refusal :=
  lane2 (.xnor o) o (fun a b => ~~~(a ^^^ b)) s

/-- ~A (R161). -/
def execNot (o : Opnd) (s : State) : Host.Outcome State Fault Refusal :=
  lane2 (.not o) o (fun a _ => ~~~a) s

/-- A << k (R161). -/
def execShl (o : Opnd) (s : State) : Host.Outcome State Fault Refusal :=
  lane2 (.shl o) o shl32 s

/-- A >> k, zeros shifted in (R161). -/
def execShr (o : Opnd) (s : State) : Host.Outcome State Fault Refusal :=
  lane2 (.shr o) o shr32 s

/-- A >> k, the sign shifted in (R161). -/
def execSar (o : Opnd) (s : State) : Host.Outcome State Fault Refusal :=
  lane2 (.sar o) o sar32 s

/-- Rotate left by k mod 32 (R161). -/
def execRotl (o : Opnd) (s : State) : Host.Outcome State Fault Refusal :=
  lane2 (.rotl o) o rotl32 s

/-- Rotate right by k mod 32 (R161). -/
def execRotr (o : Opnd) (s : State) : Host.Outcome State Fault Refusal :=
  lane2 (.rotr o) o rotr32 s

/-- A << the B field (R161). -/
def execShli (o : Opnd) (s : State) : Host.Outcome State Fault Refusal :=
  lane2 (.shli o) o (fun a _ => shl32 a (shiftImm o)) s

/-- A >> the B field (R161). -/
def execShri (o : Opnd) (s : State) : Host.Outcome State Fault Refusal :=
  lane2 (.shri o) o (fun a _ => shr32 a (shiftImm o)) s

/-- A >> the B field, arithmetic (R161). -/
def execSari (o : Opnd) (s : State) : Host.Outcome State Fault Refusal :=
  lane2 (.sari o) o (fun a _ => sar32 a (shiftImm o)) s

/-- Signed field extract (R162). -/
def execBfxS32 (o : Opnd) (s : State) : Host.Outcome State Fault Refusal :=
  lane2 (.bfxS32 o) o (fun a _ => bfxS o.ext a) s

/-- Unsigned field extract (R162). -/
def execBfxN32 (o : Opnd) (s : State) : Host.Outcome State Fault Refusal :=
  lane2 (.bfxN32 o) o (fun a _ => bfxN o.ext a) s

/-- Field insert (R162). -/
def execBfi (o : Opnd) (s : State) : Host.Outcome State Fault Refusal :=
  lane2 (.bfi o) o (fun a b => bfi o.ext a b) s

/-- Number of 1 bits (R161). -/
def execPopc (o : Opnd) (s : State) : Host.Outcome State Fault Refusal :=
  lane2 (.popc o) o (fun a _ => popcount a) s

/-- Leading zeros (R161). -/
def execClz (o : Opnd) (s : State) : Host.Outcome State Fault Refusal :=
  lane2 (.clz o) o (fun a _ => clz32 a) s

/-- Trailing zeros (R161). -/
def execCtz (o : Opnd) (s : State) : Host.Outcome State Fault Refusal :=
  lane2 (.ctz o) o (fun a _ => ctz32 a) s

/-- Bit reversal (R161). -/
def execBrev (o : Opnd) (s : State) : Host.Outcome State Fault Refusal :=
  lane2 (.brev o) o (fun a _ => brev32 a) s

/-- Byte permute (R162). -/
def execPermb (o : Opnd) (s : State) : Host.Outcome State Fault Refusal :=
  lane2 (.permb o) o (fun a b => permb o.ext a b) s

/-- A × B + C, low 32 bits (R160). -/
def execImad (o : Opnd) (s : State) : Host.Outcome State Fault Refusal :=
  lane3 (.imad o) o (fun a b k => a * b + k) s

/-- High signed product plus C (R160). -/
def execImadhS32 (o : Opnd) (s : State) : Host.Outcome State Fault Refusal :=
  lane3 (.imadhS32 o) o (fun a b k => mulHighS a b + k) s

/-- High unsigned product plus C (R160). -/
def execImadhN32 (o : Opnd) (s : State) : Host.Outcome State Fault Refusal :=
  lane3 (.imadhN32 o) o (fun a b k => mulHighN a b + k) s

/-- Signed A × B + C modulo 2^64 (R160). -/
def execImadwS32 (o : Opnd) (s : State) : Host.Outcome State Fault Refusal :=
  laneMadWide (.imadwS32 o) o mulWideS s

/-- Unsigned A × B + C modulo 2^64 (R160). -/
def execImadwN32 (o : Opnd) (s : State) : Host.Outcome State Fault Refusal :=
  laneMadWide (.imadwN32 o) o mulWideN s

/-- The predicate is 1 where the relation holds (R163). -/
def execIcmpEq (o : Opnd) (s : State) : Host.Outcome State Fault Refusal :=
  laneCmp (.icmpEq o) o (fun a b => a == b) s

/-- The predicate is 1 where the relation holds (R163). -/
def execIcmpNe (o : Opnd) (s : State) : Host.Outcome State Fault Refusal :=
  laneCmp (.icmpNe o) o (fun a b => a != b) s

/-- The predicate is 1 where the relation holds (R163). -/
def execIcmpLtS32 (o : Opnd) (s : State) : Host.Outcome State Fault Refusal :=
  laneCmp (.icmpLtS32 o) o (fun a b => a.slt b) s

/-- The predicate is 1 where the relation holds (R163). -/
def execIcmpLeS32 (o : Opnd) (s : State) : Host.Outcome State Fault Refusal :=
  laneCmp (.icmpLeS32 o) o (fun a b => a.sle b) s

/-- The predicate is 1 where the relation holds (R163). -/
def execIcmpGtS32 (o : Opnd) (s : State) : Host.Outcome State Fault Refusal :=
  laneCmp (.icmpGtS32 o) o (fun a b => b.slt a) s

/-- The predicate is 1 where the relation holds (R163). -/
def execIcmpGeS32 (o : Opnd) (s : State) : Host.Outcome State Fault Refusal :=
  laneCmp (.icmpGeS32 o) o (fun a b => b.sle a) s

/-- The predicate is 1 where the relation holds (R163). -/
def execIcmpLtN32 (o : Opnd) (s : State) : Host.Outcome State Fault Refusal :=
  laneCmp (.icmpLtN32 o) o (fun a b => decide (a < b)) s

/-- The predicate is 1 where the relation holds (R163). -/
def execIcmpLeN32 (o : Opnd) (s : State) : Host.Outcome State Fault Refusal :=
  laneCmp (.icmpLeN32 o) o (fun a b => decide (a ≤ b)) s

/-- The predicate is 1 where the relation holds (R163). -/
def execIcmpGtN32 (o : Opnd) (s : State) : Host.Outcome State Fault Refusal :=
  laneCmp (.icmpGtN32 o) o (fun a b => decide (b < a)) s

/-- The predicate is 1 where the relation holds (R163). -/
def execIcmpGeN32 (o : Opnd) (s : State) : Host.Outcome State Fault Refusal :=
  laneCmp (.icmpGeN32 o) o (fun a b => decide (b ≤ a)) s

/-- D := A where the predicate in C[2:0] is 1, else B (R164). -/
def execSel (o : Opnd) (s : State) : Host.Outcome State Fault Refusal :=
  lane (.sel o) o (fun w l =>
    if (w.readP (o.ext.c.toNat % 8)).getLsbD l then (w.readV o.a.toNat).at_ l else (w.readV o.b.toNat).at_ l) s

end Sys2Proof.Machine

end
end

