-- ==== Sys2Proof/Machine/LaneFloat.lean ====
section
/-! DEFINITION. Floating-point lane instructions: FALU, FFMA, FCMP, FSFU, HALU, HFMA and CVT (R155 to R157, R165 to
R173). -/

noncomputable section

namespace Sys2Proof.Machine

/-- What FP_CTRL sets for an instruction at its issue position (R113, R114). -/
structure FpEnv where
  mode : RMode
  ftz : Bool
  e5sat : Bool
  deriving DecidableEq, Repr

/-- The mode of FP_CTRL, or the one MOD names (R156). -/
def fpEnv (w : Wave) (x : Ext) : FpEnv :=
  { mode := if x.mod.toNat < 4 then w.fp.toNat % 4 else x.mod.toNat - 4
    ftz := w.fp.getLsbD 2, e5sat := w.fp.getLsbD 3 }

/-- The results of the lanes written, each computed once. -/
def lookup (rs : List (Nat × FRes)) (l : Nat) : FRes :=
  match rs.find? fun x => x.1 == l with
  | some x => x.2
  | none => { code := 0 }

/-- A wave with the results of active lanes written and their flags raised (R155). -/
def Wave.writeF (w : Wave) (d : Nat) (active : LaneMask) (f : Nat → FRes) : Wave :=
  let rs := active.lanes.map fun l => (l, f l)
  let w' := w.writeV d active fun l => BitVec.ofNat 32 (lookup rs l).code
  { w' with fp := w'.fp ||| rs.foldl (fun m x => m ||| x.2.flags) 0 }

/-- The frame of R155 for a floating-point result. -/
def laneF (i : Instr) (o : Opnd) (f : FpEnv → Wave → Nat → FRes) (s : State) : Host.Outcome State Fault Refusal :=
  issue i plain s fun c =>
    s.retire c i (c.wave.writeF o.d.toNat (c.active o.ext) (f (fpEnv c.wave o.ext) c.wave))

/-- An f32 result of two f32 sources. -/
def laneF2 (i : Instr) (o : Opnd) (f : FpEnv → Nat → Nat → FRes) (s : State) : Host.Outcome State Fault Refusal :=
  laneF i o (fun e w l => f e ((w.readV o.a.toNat).at_ l).toNat ((w.readV o.b.toNat).at_ l).toNat) s

/-- An f32 result of three f32 sources. -/
def laneF3 (i : Instr) (o : Opnd) (f : FpEnv → Nat → Nat → Nat → FRes) (s : State) : Host.Outcome State Fault Refusal :=
  laneF i o (fun e w l => f e ((w.readV o.a.toNat).at_ l).toNat ((w.readV o.b.toNat).at_ l).toNat
    ((w.readV o.ext.c.toNat).at_ l).toNat) s

/-- An f32 operand after any flush. -/
def fOp (e : FpEnv) (x : Nat) : FVal := f32.decodeFtz e.ftz x

/-- FADD and the like (R165). -/
def addF (e : FpEnv) (a b : Nat) : FRes := f32.addVal e.mode e.ftz (fOp e a) (fOp e b)
def subF (e : FpEnv) (a b : Nat) : FRes := f32.addVal e.mode e.ftz (fOp e a) (fOp e b).negate
def mulF (e : FpEnv) (a b : Nat) : FRes := f32.mulRound e.mode e.ftz (fOp e a) (fOp e b)

/-- Round to an integral value in a mode, with no NX (R167). -/
def frnd (mode : RMode) (e : FpEnv) (a : Nat) : FRes :=
  match fOp e a with
  | .nan s => f32.nanRes s
  | .inf neg => { code := f32.encodeInf neg }
  | .fin neg m => { code := f32.encodeFin neg (if (8388608 : Rat) ≤ m then m else (roundQuanta mode neg m : Rat)) }

/-- A - floor(A) rounded down (R167); the zero of any integral A is +0 (log entry 86). -/
def ffract (e : FpEnv) (a : Nat) : FRes :=
  match fOp e a with
  | .nan s => f32.nanRes s
  | .inf _ => f32.nanRes true
  | .fin neg m =>
    let q := signedRat neg m
    f32.roundRat 2 e.ftz false (q - (q.floor : Rat))

/-- The class mask (R167). -/
def fclass (a : Nat) : Nat :=
  match f32.decode a with
  | .nan s => if s then 2 ^ 8 else 2 ^ 9
  | .inf neg => if neg then 2 ^ 0 else 2 ^ 7
  | .fin neg m =>
    if m = 0 then (if neg then 2 ^ 3 else 2 ^ 4)
    else if m < pow2 (-126) then (if neg then 2 ^ 2 else 2 ^ 5)
    else (if neg then 2 ^ 1 else 2 ^ 6)

/-- A × B ± C with the signs of R168. -/
def fmaF (negProd negC : Bool) (e : FpEnv) (a b k : Nat) : FRes :=
  let z := fOp e k
  f32.fmaRound e.mode e.ftz negProd (fOp e a) (fOp e b) (if negC then z.negate else z)

/-- The frame of FCMP (R169): a predicate and flags. -/
def laneFCmp (i : Instr) (o : Opnd) (quietNv : Bool) (onNan : Bool) (f : FVal → FVal → Bool) (s : State) :
    Host.Outcome State Fault Refusal :=
  issue i plain s fun c =>
    let w := c.wave
    let e := fpEnv w o.ext
    let x (l : Nat) : FVal := fOp e ((w.readV o.a.toNat).at_ l).toNat
    let y (l : Nat) : FVal := fOp e ((w.readV o.b.toNat).at_ l).toNat
    let nan (l : Nat) : Bool := (x l).isNan || (y l).isNan
    let act := c.active o.ext
    let raised := act.lanes.any fun l => if quietNv then nan l else (x l).isSignalling || (y l).isSignalling
    let w := w.writeP (o.d.toNat % 8) act (maskOf fun l => if nan l then onNan else f (x l) (y l))
    s.retire c i { w with fp := if raised then w.fp ||| NV else w.fp }

/-- The frame of FSFU (R170): the source after any flush, and its bits for the implementation's choice. -/
def laneSfu (i : Instr) (o : Opnd) (f : FpEnv → Word → FVal → FRes) (s : State) : Host.Outcome State Fault Refusal :=
  laneF i o (fun e w l =>
    let a := ((w.readV o.a.toNat).at_ l).toNat
    f e (BitVec.ofNat 32 (f32.flushed e.ftz a)) (fOp e a)) s

/-- Both halves of a packed operation, the flags of either (R171). -/
def halves (f : Nat → Nat → FRes) (a b : Nat) : FRes :=
  let lo := f (a % 65536) (b % 65536)
  let hi := f (a / 65536) (b / 65536)
  { code := lo.code + 65536 * hi.code, flags := lo.flags ||| hi.flags }

def hadd (f : FloatFmt) (e : FpEnv) : Nat → Nat → FRes :=
  halves fun a b => f.addVal e.mode e.ftz (f.decodeFtz e.ftz a) (f.decodeFtz e.ftz b)
def hmul (f : FloatFmt) (e : FpEnv) : Nat → Nat → FRes :=
  halves fun a b => f.mulRound e.mode e.ftz (f.decodeFtz e.ftz a) (f.decodeFtz e.ftz b)
def hpick (f : FloatFmt) (wantMax : Bool) (e : FpEnv) : Nat → Nat → FRes :=
  halves fun a b => f.pick e.ftz false wantMax a b

/-- HFMA2 (R172). -/
def hfma (f : FloatFmt) (e : FpEnv) (a b k : Nat) : FRes :=
  let one (x y z : Nat) : FRes :=
    f.fmaRound e.mode e.ftz false (f.decodeFtz e.ftz x) (f.decodeFtz e.ftz y) (f.decodeFtz e.ftz z)
  let lo := one (a % 65536) (b % 65536) (k % 65536)
  let hi := one (a / 65536) (b / 65536) (k / 65536)
  { code := lo.code + 65536 * hi.code, flags := lo.flags ||| hi.flags }

/-- HDOT2 (R172). -/
def hdot (f : FloatFmt) (e : FpEnv) (a b k : Nat) : FRes :=
  let h (x : Nat) : FVal := f.decodeFtz e.ftz x
  dotRound e.mode e.ftz (h (a % 65536)) (h (b % 65536)) (h (a / 65536)) (h (b / 65536)) (fOp e k)

/-- One conversion (R173): SAT of IMM16. -/
def cvtSat (x : Ext) (dflt : Bool) : Bool :=
  match x.imm.toNat % 4 with | 1 => true | 2 => false | _ => dflt

def cvtNarrow (f : FloatFmt) (sat : Bool) (e : FpEnv) (a : Nat) : FRes := f.narrow e.mode e.ftz sat (fOp e a)

def cvtWiden (f : FloatFmt) (e : FpEnv) (a : Nat) : FRes :=
  f.widen e.ftz (f.decodeFtz e.ftz (a % 2 ^ (f.signBit + 1)))

def cvtInt (lo hi : Int) (e : FpEnv) (a : Nat) : FRes :=
  let (v, fl) := toInteger e.mode lo hi (fOp e a)
  { code := (v % 2 ^ 32).toNat, flags := fl }

/-- The frame of CVT. -/
def laneCvt (i : Instr) (o : Opnd) (f : FpEnv → Nat → FRes) (s : State) : Host.Outcome State Fault Refusal :=
  laneF i o (fun e w l => f e ((w.readV o.a.toNat).at_ l).toNat) s

/-- A + B, rounded (R165). -/
def execFadd (o : Opnd) (s : State) : Host.Outcome State Fault Refusal :=
  laneF2 (.fadd o) o addF s

/-- A - B, rounded (R165). -/
def execFsub (o : Opnd) (s : State) : Host.Outcome State Fault Refusal :=
  laneF2 (.fsub o) o subF s

/-- A × B, rounded (R165). -/
def execFmul (o : Opnd) (s : State) : Host.Outcome State Fault Refusal :=
  laneF2 (.fmul o) o mulF s

/-- minimumNumber (R166). -/
def execFmin (o : Opnd) (s : State) : Host.Outcome State Fault Refusal :=
  laneF2 (.fmin o) o (fun e a b => f32.pick e.ftz false false a b) s

/-- maximumNumber (R166). -/
def execFmax (o : Opnd) (s : State) : Host.Outcome State Fault Refusal :=
  laneF2 (.fmax o) o (fun e a b => f32.pick e.ftz false true a b) s

/-- minimum (R166). -/
def execFminm (o : Opnd) (s : State) : Host.Outcome State Fault Refusal :=
  laneF2 (.fminm o) o (fun e a b => f32.pick e.ftz true false a b) s

/-- maximum (R166). -/
def execFmaxm (o : Opnd) (s : State) : Host.Outcome State Fault Refusal :=
  laneF2 (.fmaxm o) o (fun e a b => f32.pick e.ftz true true a b) s

/-- A with bit 31 cleared (R165). -/
def execFabs (o : Opnd) (s : State) : Host.Outcome State Fault Refusal :=
  lane2 (.fabs o) o (fun a _ => a &&& 0x7FFFFFFF) s

/-- A with bit 31 inverted (R165). -/
def execFneg (o : Opnd) (s : State) : Host.Outcome State Fault Refusal :=
  lane2 (.fneg o) o (fun a _ => a ^^^ 0x80000000) s

/-- A with the sign of B (R165). -/
def execFcopysign (o : Opnd) (s : State) : Host.Outcome State Fault Refusal :=
  lane2 (.fcopysign o) o (fun a b => (a &&& 0x7FFFFFFF) ||| (b &&& 0x80000000)) s

/-- Round to an integral value (R167). -/
def execFrndRn (o : Opnd) (s : State) : Host.Outcome State Fault Refusal :=
  laneCvt (.frndRn o) o (frnd 0) s

/-- Round to an integral value (R167). -/
def execFrndRz (o : Opnd) (s : State) : Host.Outcome State Fault Refusal :=
  laneCvt (.frndRz o) o (frnd 1) s

/-- Round to an integral value (R167). -/
def execFrndRd (o : Opnd) (s : State) : Host.Outcome State Fault Refusal :=
  laneCvt (.frndRd o) o (frnd 2) s

/-- Round to an integral value (R167). -/
def execFrndRu (o : Opnd) (s : State) : Host.Outcome State Fault Refusal :=
  laneCvt (.frndRu o) o (frnd 3) s

/-- The fraction (R167). -/
def execFfract (o : Opnd) (s : State) : Host.Outcome State Fault Refusal :=
  laneCvt (.ffract o) o ffract s

/-- The class mask; works on bits alone (R157, R167). -/
def execFclass (o : Opnd) (s : State) : Host.Outcome State Fault Refusal :=
  lane2 (.fclass o) o (fun a _ => BitVec.ofNat 32 (fclass a.toNat)) s

/-- A × B + C, rounded once (R168). -/
def execFfma (o : Opnd) (s : State) : Host.Outcome State Fault Refusal :=
  laneF3 (.ffma o) o (fmaF false false) s

/-- A × B - C, rounded once (R168). -/
def execFfms (o : Opnd) (s : State) : Host.Outcome State Fault Refusal :=
  laneF3 (.ffms o) o (fmaF false true) s

/-- -(A × B) + C, rounded once (R168). -/
def execFfnma (o : Opnd) (s : State) : Host.Outcome State Fault Refusal :=
  laneF3 (.ffnma o) o (fmaF true false) s

/-- -(A × B) - C, rounded once (R168). -/
def execFfnms (o : Opnd) (s : State) : Host.Outcome State Fault Refusal :=
  laneF3 (.ffnms o) o (fmaF true true) s

/-- The predicate is 1 where the relation holds (R169). -/
def execFcmpEq (o : Opnd) (s : State) : Host.Outcome State Fault Refusal :=
  laneFCmp (.fcmpEq o) o false false eqVal s

/-- The predicate is 1 where the relation holds (R169). -/
def execFcmpNe (o : Opnd) (s : State) : Host.Outcome State Fault Refusal :=
  laneFCmp (.fcmpNe o) o false true (fun x y => !eqVal x y) s

/-- The predicate is 1 where the relation holds (R169). -/
def execFcmpLt (o : Opnd) (s : State) : Host.Outcome State Fault Refusal :=
  laneFCmp (.fcmpLt o) o true false belowVal s

/-- The predicate is 1 where the relation holds (R169). -/
def execFcmpLe (o : Opnd) (s : State) : Host.Outcome State Fault Refusal :=
  laneFCmp (.fcmpLe o) o true false (fun x y => !belowVal y x) s

/-- The predicate is 1 where the relation holds (R169). -/
def execFcmpGt (o : Opnd) (s : State) : Host.Outcome State Fault Refusal :=
  laneFCmp (.fcmpGt o) o true false (fun x y => belowVal y x) s

/-- The predicate is 1 where the relation holds (R169). -/
def execFcmpGe (o : Opnd) (s : State) : Host.Outcome State Fault Refusal :=
  laneFCmp (.fcmpGe o) o true false (fun x y => !belowVal x y) s

/-- The predicate is 1 where the relation holds (R169). -/
def execFcmpOrd (o : Opnd) (s : State) : Host.Outcome State Fault Refusal :=
  laneFCmp (.fcmpOrd o) o false false (fun _ _ => true) s

/-- The predicate is 1 where the relation holds (R169). -/
def execFcmpUnord (o : Opnd) (s : State) : Host.Outcome State Fault Refusal :=
  laneFCmp (.fcmpUnord o) o false true (fun _ _ => false) s

/-- 1/A (R170). -/
def execFrcp (o : Opnd) (s : State) : Host.Outcome State Fault Refusal :=
  laneSfu (.frcp o) o (fun e _ x => frcp e.mode e.ftz x) s

/-- 1/√A within 1 ulp (R170). -/
def execFrsq (o : Opnd) (s : State) : Host.Outcome State Fault Refusal :=
  laneSfu (.frsq o) o (fun e w x => frsq e.ftz w x) s

/-- √A (R170). -/
def execFsqrt (o : Opnd) (s : State) : Host.Outcome State Fault Refusal :=
  laneSfu (.fsqrt o) o (fun e _ x => fsqrt e.mode e.ftz x) s

/-- The function of R170 within its bound. -/
def execFexp2 (o : Opnd) (s : State) : Host.Outcome State Fault Refusal :=
  laneSfu (.fexp2 o) o (fun e w x => fexp2 e.ftz w x) s

/-- The function of R170 within its bound. -/
def execFlog2 (o : Opnd) (s : State) : Host.Outcome State Fault Refusal :=
  laneSfu (.flog2 o) o (fun e w x => flog2 e.ftz w x) s

/-- The function of R170 within its bound. -/
def execFsin (o : Opnd) (s : State) : Host.Outcome State Fault Refusal :=
  laneSfu (.fsin o) o (fun e w x => fsin e.ftz w x) s

/-- The function of R170 within its bound. -/
def execFcos (o : Opnd) (s : State) : Host.Outcome State Fault Refusal :=
  laneSfu (.fcos o) o (fun e w x => fcos e.ftz w x) s

/-- The function of R170 within its bound. -/
def execFtanh (o : Opnd) (s : State) : Host.Outcome State Fault Refusal :=
  laneSfu (.ftanh o) o (fun e w x => ftanh e.ftz w x) s

/-- The function of R170 within its bound. -/
def execFsigm (o : Opnd) (s : State) : Host.Outcome State Fault Refusal :=
  laneSfu (.fsigm o) o (fun e w x => fsigm e.ftz w x) s

/-- Sums of the halves (R171). -/
def execHadd2F16 (o : Opnd) (s : State) : Host.Outcome State Fault Refusal :=
  laneF2 (.hadd2F16 o) o (hadd f16) s

/-- Products of the halves (R171). -/
def execHmul2F16 (o : Opnd) (s : State) : Host.Outcome State Fault Refusal :=
  laneF2 (.hmul2F16 o) o (hmul f16) s

/-- Minima of the halves (R171). -/
def execHmin2F16 (o : Opnd) (s : State) : Host.Outcome State Fault Refusal :=
  laneF2 (.hmin2F16 o) o (hpick f16 false) s

/-- Maxima of the halves (R171). -/
def execHmax2F16 (o : Opnd) (s : State) : Host.Outcome State Fault Refusal :=
  laneF2 (.hmax2F16 o) o (hpick f16 true) s

/-- A × B + C in each half (R172). -/
def execHfma2F16 (o : Opnd) (s : State) : Host.Outcome State Fault Refusal :=
  laneF3 (.hfma2F16 o) o (hfma f16) s

/-- The dot product of the halves plus C (R172). -/
def execHdot2F16 (o : Opnd) (s : State) : Host.Outcome State Fault Refusal :=
  laneF3 (.hdot2F16 o) o (hdot f16) s

/-- Sums of the halves (R171). -/
def execHadd2Bf16 (o : Opnd) (s : State) : Host.Outcome State Fault Refusal :=
  laneF2 (.hadd2Bf16 o) o (hadd bf16) s

/-- Products of the halves (R171). -/
def execHmul2Bf16 (o : Opnd) (s : State) : Host.Outcome State Fault Refusal :=
  laneF2 (.hmul2Bf16 o) o (hmul bf16) s

/-- Minima of the halves (R171). -/
def execHmin2Bf16 (o : Opnd) (s : State) : Host.Outcome State Fault Refusal :=
  laneF2 (.hmin2Bf16 o) o (hpick bf16 false) s

/-- Maxima of the halves (R171). -/
def execHmax2Bf16 (o : Opnd) (s : State) : Host.Outcome State Fault Refusal :=
  laneF2 (.hmax2Bf16 o) o (hpick bf16 true) s

/-- A × B + C in each half (R172). -/
def execHfma2Bf16 (o : Opnd) (s : State) : Host.Outcome State Fault Refusal :=
  laneF3 (.hfma2Bf16 o) o (hfma bf16) s

/-- The dot product of the halves plus C (R172). -/
def execHdot2Bf16 (o : Opnd) (s : State) : Host.Outcome State Fault Refusal :=
  laneF3 (.hdot2Bf16 o) o (hdot bf16) s

/-- f32 of a signed integer (R173). -/
def execCvtF32S32 (o : Opnd) (s : State) : Host.Outcome State Fault Refusal :=
  laneCvt (.cvtF32S32 o) o (fun e a => f32.roundRat e.mode e.ftz false ((BitVec.ofNat 32 a).toInt : Rat)) s

/-- f32 of an unsigned integer (R173). -/
def execCvtF32N32 (o : Opnd) (s : State) : Host.Outcome State Fault Refusal :=
  laneCvt (.cvtF32N32 o) o (fun e a => f32.roundRat e.mode e.ftz false (a : Rat)) s

/-- A signed integer of f32 (R173). -/
def execCvtS32F32 (o : Opnd) (s : State) : Host.Outcome State Fault Refusal :=
  laneCvt (.cvtS32F32 o) o (cvtInt (-2147483648) 2147483647) s

/-- An unsigned integer of f32 (R173). -/
def execCvtN32F32 (o : Opnd) (s : State) : Host.Outcome State Fault Refusal :=
  laneCvt (.cvtN32F32 o) o (cvtInt 0 4294967295) s

/-- f16 of f32 (R173). -/
def execCvtF16F32 (o : Opnd) (s : State) : Host.Outcome State Fault Refusal :=
  laneCvt (.cvtF16F32 o) o (cvtNarrow f16 false) s

/-- bf16 of f32 (R173). -/
def execCvtBf16F32 (o : Opnd) (s : State) : Host.Outcome State Fault Refusal :=
  laneCvt (.cvtBf16F32 o) o (cvtNarrow bf16 false) s

/-- f32 of f16 (R173). -/
def execCvtF32F16 (o : Opnd) (s : State) : Host.Outcome State Fault Refusal :=
  laneCvt (.cvtF32F16 o) o (cvtWiden f16) s

/-- f32 of bf16 (R173). -/
def execCvtF32Bf16 (o : Opnd) (s : State) : Host.Outcome State Fault Refusal :=
  laneCvt (.cvtF32Bf16 o) o (cvtWiden bf16) s

/-- e4m3 of f32; saturates by default (R119, R173). -/
def execCvtE4m3F32 (o : Opnd) (s : State) : Host.Outcome State Fault Refusal :=
  laneCvt (.cvtE4m3F32 o) o (cvtNarrow e4m3 (cvtSat o.ext true)) s

/-- e5m2 of f32; E5SAT by default (R119, R173). -/
def execCvtE5m2F32 (o : Opnd) (s : State) : Host.Outcome State Fault Refusal :=
  laneCvt (.cvtE5m2F32 o) o (fun e => cvtNarrow e5m2 (cvtSat o.ext e.e5sat) e) s

/-- f32 of e4m3 (R173). -/
def execCvtF32E4m3 (o : Opnd) (s : State) : Host.Outcome State Fault Refusal :=
  laneCvt (.cvtF32E4m3 o) o (cvtWiden e4m3) s

/-- f32 of e5m2 (R173). -/
def execCvtF32E5m2 (o : Opnd) (s : State) : Host.Outcome State Fault Refusal :=
  laneCvt (.cvtF32E5m2 o) o (cvtWiden e5m2) s

/-- e2m1 of f32; always saturates (R119, R173). -/
def execCvtE2m1F32 (o : Opnd) (s : State) : Host.Outcome State Fault Refusal :=
  laneCvt (.cvtE2m1F32 o) o (cvtNarrow e2m1 true) s

/-- f32 of e2m1 (R173). -/
def execCvtF32E2m1 (o : Opnd) (s : State) : Host.Outcome State Fault Refusal :=
  laneCvt (.cvtF32E2m1 o) o (cvtWiden e2m1) s

end Sys2Proof.Machine

end
end

