-- ==== Sys2Proof/Machine/LaneCross.lean ====
section
/-! DEFINITION. Cross-lane instructions (R176 to R180). -/

noncomputable section

namespace Sys2Proof.Machine

/-- The segment size that MOD gives (R176). -/
def spanOf (x : Ext) : Nat :=
  match x.mod.toNat with
  | 0 => 4
  | 1 => 8
  | 2 => 32
  | _ => 96

/-- The frame of a shuffle: the lane that lane l reads, as an integer (R177). -/
def shuffle (i : Instr) (o : Opnd) (src : Wave → Nat → Nat → Nat → Int) (s : State) :
    Host.Outcome State Fault Refusal :=
  lane i o (fun w l =>
    let n := spanOf o.ext
    let base := l - l % n
    let j := src w l n base
    let from_ := if (base : Int) ≤ j && j < (base + n : Nat) then j.toNat else l
    (w.readV o.a.toNat).at_ from_) s

/-- The immediate lane distance (R177). -/
def shflK (o : Opnd) : Nat := o.ext.imm.toNat % 128

/-- SHFL.idx (R177). -/
def execShflIdx (o : Opnd) (s : State) : Host.Outcome State Fault Refusal :=
  shuffle (.shflIdx o) o (fun w l n base => (base + ((w.readV o.b.toNat).at_ l).toNat % n : Nat)) s

/-- SHFL.up (R177). -/
def execShflUp (o : Opnd) (s : State) : Host.Outcome State Fault Refusal :=
  shuffle (.shflUp o) o (fun _ l _ _ => (l : Int) - (shflK o : Int)) s

/-- SHFL.down (R177). -/
def execShflDown (o : Opnd) (s : State) : Host.Outcome State Fault Refusal :=
  shuffle (.shflDown o) o (fun _ l _ _ => (l + shflK o : Nat)) s

/-- SHFL.xor (R177). -/
def execShflXor (o : Opnd) (s : State) : Host.Outcome State Fault Refusal :=
  shuffle (.shflXor o) o (fun _ l _ base => (base + ((l - base) ^^^ shflK o) : Nat)) s

/-- The lane that lane l's PUSHL names (R178). -/
def pushTarget (w : Wave) (o : Opnd) (l : Nat) : Nat :=
  let n := spanOf o.ext
  l - l % n + ((w.readV o.b.toNat).at_ l).toNat % n

/-- PUSHL (R178): the highest-numbered source lane wins. -/
def execPushl (o : Opnd) (s : State) : Host.Outcome State Fault Refusal :=
  issue (.pushl o) plain s fun c =>
    let w := c.wave
    let act := c.active o.ext
    let able := c.cohort &&& w.act
    let pairs := (act.lanes.map fun l => (pushTarget w o l, l)).filter fun x => able.getLsbD x.1
    let m := laneSet (pairs.map fun x => x.1)
    s.retire c (.pushl o) (w.writeV o.d.toNat m fun t =>
      match pairs.reverse.find? fun x => x.1 == t with
      | some x => (w.readV o.a.toNat).at_ x.2
      | none => (w.readV o.d.toNat).at_ t)

/-- One step of a fold: the accumulated code and the next. -/
abbrev FoldStep := Nat → Nat → FRes

/-- The contributors of a segment: a cohort lane when active, any other lane always (R176). -/
def Issue.contributes (c : Issue) (x : Ext) : LaneMask := c.active x ||| ~~~c.cohort

/-- Fold the contributors of lanes lo to hi - 1, ascending, from the lowest one's value (R179); a single contributor's
value is the result as it stands, also where it is a NaN (log entry 65). -/
def foldLanes (m : LaneMask) (val : Nat → Nat) (step : FoldStep) (empty lo hi : Nat) : FRes :=
  match ((List.range hi).drop lo).filter fun l => m.getLsbD l with
  | [] => { code := empty }
  | l :: r => r.foldl (fun acc j =>
      let x := step acc.code (val j)
      { code := x.code, flags := acc.flags ||| x.flags }) { code := val l }

/-- LRED: the fold of the lane's segment (R179). -/
def reduceLanes (i : Instr) (o : Opnd) (val : FpEnv → Nat → Nat) (step : FpEnv → FoldStep) (s : State) :
    Host.Outcome State Fault Refusal :=
  issue i plain s fun c =>
    let w := c.wave
    let e := fpEnv w Ext.default
    let n := spanOf o.ext
    let m := c.contributes o.ext
    let act := c.active o.ext
    let segs := ((List.range (96 / n)).filter fun k => (List.range n).any fun j => act.getLsbD (n * k + j)).map fun k =>
      (k, foldLanes m (fun l => val e ((w.readV o.a.toNat).at_ l).toNat) (step e) 0 (n * k) (n * k + n))
    s.retire c i (w.writeF o.d.toNat act fun l =>
      match segs.find? fun x => x.1 == l / n with
      | some x => x.2
      | none => { code := 0 })

/-- SCAN: the fold of the contributors at or below the lane, or below it with EXCL (R179). -/
def scanLanes (i : Instr) (o : Opnd) (val : FpEnv → Nat → Nat) (step : FpEnv → FoldStep) (s : State) :
    Host.Outcome State Fault Refusal :=
  issue i plain s fun c =>
    let w := c.wave
    let e := fpEnv w Ext.default
    let n := spanOf o.ext
    let m := c.contributes o.ext
    s.retire c i (w.writeF o.d.toNat (c.active o.ext) fun l =>
      foldLanes m (fun l => val e ((w.readV o.a.toNat).at_ l).toNat) (step e) 0 (l - l % n)
        (if o.ext.imm.getLsbD 0 then l else l + 1))

/-- The steps of the folds (R135, R166, R179). -/
def stepAddS (_ : FpEnv) : FoldStep := fun a b => { code := (a + b) % 2 ^ 32 }
def stepAddF (e : FpEnv) : FoldStep := fun a b => addF e a b
def stepMinS (_ : FpEnv) : FoldStep := fun a b => { code := (minS (BitVec.ofNat 32 a) (BitVec.ofNat 32 b)).toNat }
def stepMaxS (_ : FpEnv) : FoldStep := fun a b => { code := (maxS (BitVec.ofNat 32 a) (BitVec.ofNat 32 b)).toNat }
def stepMinF (e : FpEnv) : FoldStep := fun a b => f32.pick e.ftz false false a b
def stepMaxF (e : FpEnv) : FoldStep := fun a b => f32.pick e.ftz false true a b

/-- A source of an integer fold, and of a floating-point one after any flush (R117). -/
def valInt (_ : FpEnv) (x : Nat) : Nat := x
def valF (e : FpEnv) (x : Nat) : Nat := f32.flushed e.ftz x

def execLredAddS32 (o : Opnd) (s : State) : Host.Outcome State Fault Refusal := reduceLanes (.lredAddS32 o) o valInt stepAddS s
def execLredAddF32 (o : Opnd) (s : State) : Host.Outcome State Fault Refusal := reduceLanes (.lredAddF32 o) o valF stepAddF s
def execLredMinS32 (o : Opnd) (s : State) : Host.Outcome State Fault Refusal := reduceLanes (.lredMinS32 o) o valInt stepMinS s
def execLredMaxS32 (o : Opnd) (s : State) : Host.Outcome State Fault Refusal := reduceLanes (.lredMaxS32 o) o valInt stepMaxS s
def execLredMinF32 (o : Opnd) (s : State) : Host.Outcome State Fault Refusal := reduceLanes (.lredMinF32 o) o valF stepMinF s
def execLredMaxF32 (o : Opnd) (s : State) : Host.Outcome State Fault Refusal := reduceLanes (.lredMaxF32 o) o valF stepMaxF s
def execScanAddS32 (o : Opnd) (s : State) : Host.Outcome State Fault Refusal := scanLanes (.scanAddS32 o) o valInt stepAddS s
def execScanAddF32 (o : Opnd) (s : State) : Host.Outcome State Fault Refusal := scanLanes (.scanAddF32 o) o valF stepAddF s

/-- The lanes that BALLOT reports (R180). -/
def ballotBits (c : Issue) (o : Opnd) : LaneMask :=
  let n := spanOf o.ext
  let p := c.wave.readP (o.a.toNat % 8)
  let act := c.active o.ext
  maskOf fun j => p.getLsbD j && (!c.cohort.getLsbD j || act.getLsbD j) &&
    ((List.range n).any fun k => c.cohort.getLsbD (j - j % n + k))

/-- BALLOT (R180): three whole group registers. -/
def execBallot (o : Opnd) (s : State) : Host.Outcome State Fault Refusal :=
  issue (.ballot o) plain s fun c =>
    let b := ballotBits c o
    let w := c.wave.writeG c.gang.slices o.d.toNat (b.extractLsb' 0 32)
    let w := w.writeG c.gang.slices (o.d.toNat + 1) (b.extractLsb' 32 32)
    s.retire c (.ballot o) (w.writeG c.gang.slices (o.d.toNat + 2) (b.extractLsb' 64 32))

end Sys2Proof.Machine

end
end

