-- ==== Sys2Proof/Machine/LaneMove.lean ====
section
/-! DEFINITION. Register moves and predicates (R181 to R183). -/

noncomputable section

namespace Sys2Proof.Machine

/-- D := A (R181). -/
def execMov (o : Opnd) (s : State) : Host.Outcome State Fault Refusal := lane2 (.mov o) o (fun a _ => a) s

/-- D := zext(IMM16) (R181). -/
def execMovil (o : Opnd) (s : State) : Host.Outcome State Fault Refusal :=
  lane (.movil o) o (fun _ _ => o.ext.imm.setWidth 32) s

/-- D := (IMM16 << 16) | D[15:0] (R181). -/
def execMovih (o : Opnd) (s : State) : Host.Outcome State Fault Refusal :=
  lane (.movih o) o (fun w l => o.ext.imm ++ ((w.readV o.d.toNat).at_ l).extractLsb' 0 16) s

/-- The register that an indirect move names in lane l (R181). -/
def indirectIndex (w : Wave) (o : Opnd) (base : BitVec 6) (l : Nat) : Int :=
  (base.toNat : Int) + (((w.readV o.b.toNat).at_ l).toNat : Int) + o.ext.imm.toInt

/-- The index lies inside the wave's registers. -/
def inRegs (w : Wave) (n : Int) : Bool := decide (0 ≤ n) && decide (n < (w.regs : Int))

/-- The lowest empty register that the active lanes name inside the wave's registers. -/
def emptyIndirect (c : Issue) (o : Opnd) (base : BitVec 6) : Option Nat :=
  let ns := ((c.active o.ext).lanes.map fun l => indirectIndex c.wave o base l).filterMap fun n =>
    if inRegs c.wave n && !c.wave.isFull .v n.toNat then some n.toNat else none
  ns.foldl (fun best n => match best with | none => some n | some m => some (min m n)) none

/-- The frame of MOVIN and MOVOUT: indices out of range trap ILLEGAL SUB 8 (R351, R358); an empty indirect register
makes the cohort wait (R143). -/
def indirect (c : Issue) (o : Opnd) (base : BitVec 6) (s : State) (k : State) : State :=
  let bad := (c.active o.ext).lanes.filter fun l => !inRegs c.wave (indirectIndex c.wave o base l)
  match bad with
  | l :: _ => s.takeTrap c.wave (c.trap 0x01 8 (BitVec.ofInt 64 (indirectIndex c.wave o base l)) (laneSet bad))
  | [] =>
    match emptyIndirect c o base with
    | some _ => s.putWave (c.wave.park c.gang .registers)
    | none => k

/-- What EA of a MOVIN asks (R143, R359): decided while the index register is full. -/
def movinNeeds (o : Opnd) (c : Issue) : Needs :=
  { indirect := if o.ext.ea && c.wave.isFull .v o.b.toNat then emptyIndirect c o o.a else none }

/-- MOVIN (R181). -/
def execMovin (o : Opnd) (s : State) : Host.Outcome State Fault Refusal :=
  issue (.movin o) (movinNeeds o) s fun c =>
    match (movinNeeds o c).indirect with
    | some r => s.takeTrap c.wave (c.trap 0x04 5 (regId .v r) (c.active o.ext))
    | none =>
      indirect c o o.a s (s.retire c (.movin o) (c.wave.writeV o.d.toNat (c.active o.ext) fun l =>
        (c.wave.readV (indirectIndex c.wave o o.a l).toNat).at_ l))

/-- MOVOUT (R181): each lane writes its own element. -/
def execMovout (o : Opnd) (s : State) : Host.Outcome State Fault Refusal :=
  issue (.movout o) plain s fun c =>
    indirect c o o.d s (s.retire c (.movout o) ((List.range c.wave.regs).foldl (fun w n =>
      w.writeV n (maskOf fun l => (c.active o.ext).getLsbD l && indirectIndex c.wave o o.d l == (n : Int))
        fun l => (c.wave.readV o.a.toNat).at_ l) c.wave))

/-- D := G[A] (R181). -/
def execGbc (o : Opnd) (s : State) : Host.Outcome State Fault Refusal :=
  lane (.gbc o) o (fun w _ => w.readG o.a.toNat) s

/-- D := the lane's index (R181). -/
def execLaneid (o : Opnd) (s : State) : Host.Outcome State Fault Refusal :=
  lane (.laneid o) o (fun _ l => BitVec.ofNat 32 l) s

/-- The frame of a predicate operation: active lanes of D (R182). -/
def predOp (i : Instr) (o : Opnd) (f : LaneMask → LaneMask → LaneMask) (s : State) : Host.Outcome State Fault Refusal :=
  issue i plain s fun c =>
    s.retire c i (c.wave.writeP (o.d.toNat % 8) (c.active o.ext)
      (f (c.wave.readP (o.a.toNat % 8)) (c.wave.readP (o.b.toNat % 8))))

/-- P[A] AND P[B] (R182). -/
def execPand (o : Opnd) (s : State) : Host.Outcome State Fault Refusal := predOp (.pand o) o (fun a b => a &&& b) s

/-- P[A] OR P[B] (R182). -/
def execPor (o : Opnd) (s : State) : Host.Outcome State Fault Refusal := predOp (.por o) o (fun a b => a ||| b) s

/-- P[A] XOR P[B] (R182). -/
def execPxor (o : Opnd) (s : State) : Host.Outcome State Fault Refusal := predOp (.pxor o) o (fun a b => a ^^^ b) s

/-- NOT P[A] (R182). -/
def execPnot (o : Opnd) (s : State) : Host.Outcome State Fault Refusal := predOp (.pnot o) o (fun a _ => ~~~a) s

/-- P[A] (R182). -/
def execPmov (o : Opnd) (s : State) : Host.Outcome State Fault Refusal := predOp (.pmov o) o (fun a _ => a) s

/-- MASK clears the activity of active lanes whose predicate is 0 (R183). -/
def execMask (o : Opnd) (s : State) : Host.Outcome State Fault Refusal :=
  issue (.mask o) plain s fun c =>
    let w := c.wave
    s.retire c (.mask o) { w with act := w.act &&& ~~~(c.active o.ext &&& ~~~w.readP (o.a.toNat % 8)) }

/-- PACT copies the activity of every lane of the cohort to P[D] (R182). -/
def execPact (o : Opnd) (s : State) : Host.Outcome State Fault Refusal :=
  issue (.pact o) plain s fun c => s.retire c (.pact o) (c.wave.writeP (o.d.toNat % 8) c.cohort c.wave.act)

end Sys2Proof.Machine

end
end

