-- ==== Sys2Proof/Machine/Lattice.lean ====
section
/-! DEFINITION. The LAT family: lattice quantisation, decoding and error (R174, R175, R28). -/

noncomputable section

namespace Sys2Proof.Machine

/-- The octets that act (R28): both slices in the cohort, the leader active. -/
def Issue.octets (c : Issue) (x : Ext) : List Nat :=
  (List.range 12).filter fun o =>
    c.gang.slices.getLsbD (2 * o) && c.gang.slices.getLsbD (2 * o + 1) && (c.active x).getLsbD (8 * o)

/-- The lanes of a list of octets' leaders, as a set. -/
def leaders (os : List Nat) : LaneMask := laneSet (os.map fun o => 8 * o)

/-- The eight elements of an octet, whatever their lanes' activity. -/
def octetVals (w : Wave) (e : FpEnv) (a o : Nat) : List FVal :=
  (List.range 8).map fun k => fOp e ((w.readV a).at_ (8 * o + k)).toNat

/-- The exact coordinates of elements under a scale (R129): a NaN is 0, an infinity ±2^128. -/
def coords (xs : List FVal) (s : Rat) : List Rat :=
  xs.map fun x => match x with
    | .nan _ => 0
    | .inf neg => signedRat neg (pow2 128)
    | .fin n m => signedRat n m / s

/-- The flags of a quantisation (R175). -/
def latFlags (xs : List FVal) (y : List Rat) (p : Point) : Word :=
  (if xs.any FVal.isNan then NV else 0) ||| (if p.c != y then NX else 0) ||| (if p.overflow then LOVF else 0)

/-- QLAT.x2 of one octet (R175). -/
def qlatX2 (xs : List FVal) (e : Nat) : FRes :=
  match scaleOf e with
  | none => { code := zeroX2 }
  | some s =>
    let y := coords xs s
    let p := quantise boxX2 y
    { code := encodeX2 p, flags := latFlags xs y p }

/-- QLAT.x4 of one octet (R175). -/
def qlatX4 (xs : List FVal) (g : Nat) : FRes :=
  match e4m3.decode g with
  | .fin _ m =>
    if m = 0 then { code := g * 2 ^ 24 + zeroX4 }
    else
      let y := coords xs m
      let p := quantise boxX4 y
      { code := g * 2 ^ 24 + encodeX4 p, flags := latFlags xs y p }
  | _ => { code := g * 2 ^ 24 + zeroX4, flags := NV }

/-- One decoded element as f32 (R175). -/
def dlatOne (e : FpEnv) (v : Option Rat) : FRes :=
  match v with
  | none => f32.nanRes false
  | some q => f32.roundRat 0 e.ftz false q

/-- LATERR of one octet (R132, R175): the substitutions of R129 are made on x over the scale and scaled back. Any NaN
element raises NV, with whatever scale and gain (log entry 66). -/
def laterrOne (e : FpEnv) (xs : List FVal) (scale : Option Rat) (vs : List (Option Rat)) : FRes :=
  let fl := if xs.any FVal.isNan then NV else 0
  match scale with
  | none => { f32.nanRes false with flags := fl }
  | some s =>
    let x := xs.map fun v => match v with
      | .nan _ => 0
      | .inf neg => signedRat neg (pow2 128) * s
      | .fin n m => signedRat n m
    let r := f32.roundRat 0 e.ftz false (dist2 x (vs.map fun v => v.getD 0))
    { r with flags := r.flags ||| fl }

/-- The frame of QLAT and LATERR: the leaders of the acting octets are written. -/
def latLeader (i : Instr) (o : Opnd) (f : FpEnv → Wave → Nat → FRes) (s : State) : Host.Outcome State Fault Refusal :=
  issue i plain s fun c =>
    s.retire c i (c.wave.writeF o.d.toNat (leaders (c.octets o.ext)) fun l => f (fpEnv c.wave o.ext) c.wave (l / 8))

/-- The frame of DLAT: every active lane of the acting octets is written. -/
def latAll (i : Instr) (o : Opnd) (f : FpEnv → Wave → Nat → FRes) (s : State) : Host.Outcome State Fault Refusal :=
  issue i plain s fun c =>
    let os := c.octets o.ext
    let m := c.active o.ext &&& laneSet (os.flatMap fun k => (List.range 8).map fun j => 8 * k + j)
    s.retire c i (c.wave.writeF o.d.toNat m (f (fpEnv c.wave o.ext) c.wave))

/-- The leader's word of a register. -/
def leaderWord (w : Wave) (r o : Nat) : Nat := ((w.readV r).at_ (8 * o)).toNat

/-- QLAT.x2 (R175). -/
def execQlatX2 (o : Opnd) (s : State) : Host.Outcome State Fault Refusal :=
  latLeader (.qlatX2 o) o (fun e w k => qlatX2 (octetVals w e o.a.toNat k) (leaderWord w o.b.toNat k % 256)) s

/-- QLAT.x4 (R175). -/
def execQlatX4 (o : Opnd) (s : State) : Host.Outcome State Fault Refusal :=
  latLeader (.qlatX4 o) o (fun e w k => qlatX4 (octetVals w e o.a.toNat k) (leaderWord w o.b.toNat k % 128)) s

/-- DLAT.x2 (R175). -/
def execDlatX2 (o : Opnd) (s : State) : Host.Outcome State Fault Refusal :=
  latAll (.dlatX2 o) o (fun e w l =>
    dlatOne e ((valuesX2 (leaderWord w o.a.toNat (l / 8) % 65536) (leaderWord w o.b.toNat (l / 8) % 256)).getD (l % 8) none)) s

/-- DLAT.x4 (R175). -/
def execDlatX4 (o : Opnd) (s : State) : Host.Outcome State Fault Refusal :=
  latAll (.dlatX4 o) o (fun e w l => dlatOne e ((valuesX4 (leaderWord w o.a.toNat (l / 8))).getD (l % 8) none)) s

/-- LATERR (R132, R175). -/
def execLaterr (o : Opnd) (s : State) : Host.Outcome State Fault Refusal :=
  latLeader (.laterr o) o (fun e w k =>
    let xs := octetVals w e o.a.toNat k
    let code := leaderWord w o.b.toNat k
    if o.ext.mod.getLsbD 0 then laterrOne e xs (gainX4 code) (valuesX4 code)
    else
      let sc := leaderWord w o.ext.c.toNat k % 256
      laterrOne e xs (scaleOf sc) (valuesX2 (code % 65536) sc)) s

end Sys2Proof.Machine

end
end

