-- ==== Sys2Proof/Machine/Matrix.lean ====
section
/-! DEFINITION. Accumulator banks (R245, R246), MXM (R247 to R250, R133, R134), DRAIN and ACCZ (R251 to R254). The
matrix engine's work takes effect at its issue position, one of the orders that R104 allows. -/

noncomputable section

namespace Sys2Proof.Machine

/-! ## Banks -/

/-- The block whose accumulators a wave has: its own block; each G-buffer wave has one of its own (R283, log entry 75). -/
def State.accBlock? (s : State) (c : Crew) (w : Wave) : Option Block :=
  s.block? c.id (if c.isGbuffer then 8 + w.ref.wave else w.ref.rank)

/-- The rank of the crew that a block lies on. -/
def Block.seatRank (b : Block) : Nat := if 8 ≤ b.rank then 0 else b.rank

/-- Set-aside banks of a block's allocation that are free. -/
def State.freeAside (s : State) (b : Block) : Nat :=
  let bs := s.blocksOf b.crew b.seatRank
  (bs.map Block.setAside).sum - (bs.map fun (x : Block) => count32 x.fromAside).sum

/-- The lowest n of a set of banks. -/
def lowestBanks (m : BitVec 32) (n : Nat) : BitVec 32 :=
  (((List.range 32).filter fun k => m.getLsbD k).take n).foldl (fun x k => x ||| (1#32 <<< k)) 0

/-- The accumulator elements of a set of banks. -/
def inBanks (m : BitVec 32) (key : Nat) : Bool := m.getLsbD (key / 2048)

/-- Bind banks, the free set-aside banks first; they hold zeros (R245, R246). -/
def Block.bind (b : Block) (want : BitVec 32) (aside : Nat) : Block :=
  { b with held := b.held ||| want, fromAside := b.fromAside ||| lowestBanks want aside
           acc := b.acc.filter fun x => !inBanks want x.1 }

/-- Unbind banks: their contents are lost (R245, R246). -/
def Block.unbind (b : Block) (banks : BitVec 32) : Block :=
  { b with held := b.held &&& ~~~banks, fromAside := b.fromAside &&& ~~~banks
           acc := b.acc.filter fun x => !inBanks banks x.1 }

/-- The stamps of the ACQACCs that wait on a core; one whose gang a handler has suspended is passed over until RTE (log
entry 68). -/
def State.acqWaiters (s : State) (core : Nat) : List Nat :=
  s.waves.flatMap fun w =>
    match s.crew? w.ref.crew with
    | none => []
    | some c =>
      if c.resident && c.coreOf w.ref.rank == core then
        w.gangs.filterMap fun g => match g.wait with | .acqacc _ st => some st | _ => none
      else []

/-- The banks of a request may be bound now: within the free set-aside, or first in the core's order with room
(R246). -/
def State.mayBind (s : State) (c : Crew) (b : Block) (want : BitVec 32) (stamp : Nat) : Bool :=
  let n := count32 want
  let core := c.coreOf b.seatRank
  n ≤ s.freeAside b ||
    ((s.acqWaiters core).all (fun x => stamp ≤ x) && n ≤ s.freeAside b + (32 - (s.used core).banks))

/-- ACQACC (R246). -/
def execAcqacc (o : Opnd) (s : State) : Host.Outcome State Fault Refusal :=
  issue (.acqacc o) (fun _ => { notInHandler := true }) s fun c =>
    match s.accBlock? c.crew c.wave with
    | none => s
    | some b =>
      let (banks, stamp, s) := match c.gang.wait with
        | .acqacc banks st => (banks, st, s)
        | _ => (c.wave.readG o.a.toNat, s.takeStamp.1, s.takeStamp.2)
      let want := banks &&& ~~~b.held
      if s.mayBind c.crew b want stamp then (s.putBlock (b.bind want (s.freeAside b))).retire c (.acqacc o) c.wave
      else s.putWave (c.wave.park c.gang (.acqacc banks stamp))

/-- RELACC (R246). -/
def execRelacc (o : Opnd) (s : State) : Host.Outcome State Fault Refusal :=
  issue (.relacc o) plain s fun c =>
    match s.accBlock? c.crew c.wave with
    | none => s
    | some b => (s.putBlock (b.unbind (c.wave.readG o.a.toNat))).retire c (.relacc o) c.wave

/-- A waiting ACQACC is served when its turn comes and the core has the banks (R246). -/
def execAcqaccGrant (w : WaveRef) (gang : Nat) (s : State) : Host.Outcome State Fault Refusal :=
  if s.roundHolds w then .next s else
  match s.wave? w, s.crew? w.crew with
  | some x, some c =>
    match x.gang? gang, s.accBlock? c x with
    | some g, some b =>
      match g.wait with
      | .acqacc banks st =>
        let want := banks &&& ~~~b.held
        if c.resident && c.preempt.isNone && s.mayBind c b want st then
          .next ((s.putBlock (b.bind want (s.freeAside b))).putWave (x.advance g (g.pc + 8)))
        else .next s
      | _ => .next s
    | _, _ => .next s
  | _, _ => .next s

/-! ## Tiles -/

/-- The accumulator tile of an octet (R142, R250). -/
def tileIndex (x : Ext) (o : Nat) : Nat := x.imm.toNat % 256 + o

/-- The acting octets whose tile is above 255 or lies in a bank that is not held. -/
def badTiles (b : Block) (x : Ext) (os : List Nat) : List Nat :=
  os.filter fun o => 255 < tileIndex x o || !b.held.getLsbD (tileIndex x o / 8)

/-- ACC_NOT_HELD (R351, R363). -/
def Issue.accTrap (c : Issue) (x : Ext) (bad : List Nat) : Trap :=
  c.trap 0x0D 0 (BitVec.ofNat 64 (tileIndex x (bad.headD 0) % 512)) (leaders bad)

/-- The word of element (i, j) of a tile. -/
def Block.accAt (b : Block) (t i j : Nat) : Word := cellGet 0 b.acc (256 * t + 32 * i + j)

/-- Replace a whole tile. -/
def Block.putTileAcc (b : Block) (t : Nat) (f : Nat → Nat → Word) : Block :=
  { b with acc := (List.range 256).foldl (fun a k => cellSet 0 a (256 * t + k) (f (k / 32) (k % 32))) b.acc }

/-- The frame of the octet-wide matrix instructions: the octets that act, with ACC_NOT_HELD (rank 7). -/
def tiled (i : Instr) (o : Opnd) (s : State) (k : Issue → Block → List Nat → State) : Host.Outcome State Fault Refusal :=
  issue i plain s fun c =>
    match s.accBlock? c.crew c.wave with
    | none => s
    | some b =>
      let os := c.octets o.ext
      match badTiles b o.ext os with
      | x :: r => s.takeTrap c.wave (c.accTrap o.ext (x :: r))
      | [] => k c b os

/-- ACCZ (R254). -/
def execAccz (o : Opnd) (s : State) : Host.Outcome State Fault Refusal :=
  tiled (.accz o) o s fun c b os =>
    let ts := os.map (tileIndex o.ext)
    (s.putBlock { b with acc := b.acc.filter fun x => !ts.contains (x.1 / 256) }).retire c (.accz o) c.wave

/-! ## Operands of MXM -/

/-- A panel or scale panel that an MXM reads: its locator, the count and pitch of its rows and the bytes of one. -/
structure Panel where
  loc : Word
  rows : Nat
  pitch : Nat
  bytes : Nat
  deriving DecidableEq, Repr

/-- Side bytes of a row per 32 pitch bytes (R248). -/
def mxmSide (f : Nat) : Nat := if f = 2 || f = 3 then 1 else if f = 4 || f = 6 then 4 else 0

/-- The pitch of an operand (R249). -/
def mxmPitchA (fmts : BitVec 6) (x : Ext) : Nat :=
  if x.c = 0 then roundUp (mxmRowBytes (mxmA fmts) (mxmDepth fmts x)) 32 else 16 * x.c.toNat
def mxmPitchB (fmts : BitVec 6) (x : Ext) : Nat := roundUp (mxmRowBytes (mxmB fmts) (mxmDepth fmts x)) 32

/-- The scale panel of an operand: SBR bytes a row (R249). -/
def scalePanel (loc : Word) (rows pitch f : Nat) : Panel :=
  let sbr := (pitch + 31) / 32 * mxmSide f
  { loc := loc, rows := rows, pitch := sbr, bytes := sbr }

/-- The panels that a leader names, in the order A, B, scales of A, scales of B (R247, R249). -/
def mxmPanels (w : Wave) (fmts : BitVec 6) (o : Opnd) (l : Nat) : List Panel :=
  let k := mxmDepth fmts o.ext
  let v (n : Nat) : Word := (w.readV n).at_ l
  [{ loc := v o.a.toNat, rows := 8, pitch := mxmPitchA fmts o.ext, bytes := mxmRowBytes (mxmA fmts) k },
   { loc := v o.b.toNat, rows := 32, pitch := mxmPitchB fmts o.ext, bytes := mxmRowBytes (mxmB fmts) k }] ++
  (if mxmScaleA fmts o.ext then [scalePanel (v o.d.toNat) 8 (mxmPitchA fmts o.ext) (mxmA fmts)] else []) ++
  (if mxmScaleB fmts o.ext then [scalePanel (v (o.d.toNat + 1)) 32 (mxmPitchB fmts o.ext) (mxmB fmts)] else [])

/-- The offset of a row. -/
def Panel.row (p : Panel) (i : Nat) : Nat := bits p.loc.toNat 19 0 + i * p.pitch

/-- The block that a panel lies in. -/
def State.panelBlock (s : State) (c : Issue) (p : Panel) : Option Block :=
  (c.crew.rankOf c.wave.ref.rank (bits p.loc.toNat 23 20)).bind fun r => s.block? c.crew.id r

/-- The check that a panel fails, by step and cause (R363, R329). -/
def State.panelFault (s : State) (c : Issue) (p : Panel) : Option (Nat × Nat) :=
  if bits p.loc.toNat 3 0 != 0 then some (1, 0x05)
  else if bits p.loc.toNat 31 24 != 0 then some (3, 0x06)
  else match s.panelBlock c p with
  | none => some (3, 0x06)
  | some b =>
    let limit := c.wave.segs.tileLimit.toNat
    if (List.range p.rows).all fun i => s.tileRunOk c.crew b limit (p.row i) p.bytes true then none else some (3, 0x06)

/-- The trap of an MXM some of whose panels fail: the earliest step, its leaders, the lowest's locator. -/
def Issue.panelTrap (c : Issue) (bad : List (Nat × Panel × Nat × Nat)) : Trap :=
  let step := bad.foldl (fun m x => min m x.2.2.1) 9
  let at_ := bad.filter fun x => x.2.2.1 == step
  match at_ with
  | [] => c.trap 0 0 0 0
  | (_, p, _, cause) :: _ => c.trap cause 0 (p.loc.setWidth 64) (leaders (at_.map fun x => x.1))

/-- The bytes of a row as programs see them (R57). -/
def State.panelRow (s : State) (c : Issue) (p : Panel) (i : Nat) : List Byte :=
  match s.panelBlock c p with
  | some b => b.readVisible (p.row i) p.bytes
  | none => []

/-- A row of the panel holds poison: its address. -/
def State.panelPoison (s : State) (c : Issue) (p : Panel) : Option (BitVec 64) :=
  match s.panelBlock c p with
  | none => none
  | some b => ((List.range p.rows).find? fun i => b.poisoned (p.row i) p.bytes).map fun i =>
      c.wave.segs.tileBase + BitVec.ofNat 64 (bits p.loc.toNat 23 20 * 2 ^ 20 + p.row i)

/-! ## Decoding (R121, R123, R126, R127, R248) -/

/-- A value times a scale byte's factor; NaN for a NaN block. -/
def underScale (v : FVal) (e : Nat) : FVal :=
  match scaleOf e, v with
  | none, _ => .nan false
  | some s, .fin n m => .fin n (m * s)
  | some _, v => v

/-- A lattice value: exact, and its zero is +0. -/
def latticeVal (q : Option Rat) : FVal :=
  match q with
  | none => .nan false
  | some q => .fin (q < 0) (ratAbs q)

/-- Element x of a row from its bytes and its side bytes, for the float formats. In e2m1x the code 0b1000 gives the spare byte as
it decodes, so a spare of 0x80 gives −0 (R123, log entry 81). -/
def mxmElement (f : Nat) (scaled : Bool) (d side : List Byte) (x : Nat) : FVal :=
  let byte (n : Nat) : Nat := (d.getD n 0).toNat
  let sb (n : Nat) : Nat := (side.getD n 0).toNat
  match f with
  | 0 => f16.decode (byte (2 * x) + 256 * byte (2 * x + 1))
  | 1 => bf16.decode (byte (2 * x) + 256 * byte (2 * x + 1))
  | 2 => if scaled then underScale (e4m3.decode (byte x)) (sb (x / 32)) else e4m3.decode (byte x)
  | 3 => if scaled then underScale (e5m2.decode (byte x)) (sb (x / 32)) else e5m2.decode (byte x)
  | 4 =>
    let g := x / 32
    let code := nibbleAt ((d.drop (16 * g)).take 16) (x % 32)
    underScale (if code = 8 then e4m3.decode (sb (2 * g + 1)) else e2m1.decode code) (sb (2 * g))
  | 6 =>
    let code := byte (2 * (x / 8)) + 256 * byte (2 * (x / 8) + 1)
    latticeVal ((valuesX2 code (sb (x / 32))).getD (x % 8) none)
  | _ =>
    let code := leNat ((d.drop (4 * (x / 8))).take 4)
    latticeVal ((valuesX4 code).getD (x % 8) none)

/-- The exact sum of one group, rounded to f32 (R133). -/
def groupSum (a b : List FVal) : Nat :=
  let ps := (a.zip b).map fun x => mulVal x.1 x.2
  if a.any FVal.isNan || b.any FVal.isNan || ps.any (fun p => p.1.isNan) then f32.canonicalNan
  else
    let infs := ps.filterMap fun p => match p.1 with | .inf n => some n | _ => none
    match infs with
    | n :: r => if r.all (fun m => m == n) then f32.encodeInf n else f32.canonicalNan
    | [] =>
      let neg := ps.all fun p => match p.1 with | .fin n m => n && m == 0 | _ => false
      f32.plain neg (ratSum (ps.map fun p => p.1.real))

/-- One accumulator element after the groups of a row and a column (R133). -/
def accumulate (acc : Word) (a b : List FVal) : Word :=
  (List.range ((a.length + 31) / 32)).foldl (fun x g =>
    addF32Plain x (BitVec.ofNat 32 (groupSum ((a.drop (32 * g)).take 32) ((b.drop (32 * g)).take 32)))) acc

/-- One accumulator element of an s8 MXM (R134). -/
def accumulateS8 (acc : Word) (a b : List Byte) : Word :=
  acc + BitVec.ofInt 32 (((a.zip b).map fun x => x.1.toInt * x.2.toInt).sum)

/-- The tile of one octet after its MXM. -/
def State.mxmTile (s : State) (c : Issue) (fmts : BitVec 6) (o : Opnd) (b : Block) (oc : Nat) (ps : List Panel) : Block :=
  let k := mxmDepth fmts o.ext
  let p (n : Nat) : Panel := ps.getD n { loc := 0, rows := 0, pitch := 0, bytes := 0 }
  let t := tileIndex o.ext oc
  let old (i j : Nat) : Word := if o.ext.mod.getLsbD 0 then 0 else b.accAt t i j
  if mxmA fmts = 5 then
    let a := (List.range 8).map fun i => s.panelRow c (p 0) i
    let bb := (List.range 32).map fun j => s.panelRow c (p 1) j
    b.putTileAcc t fun i j => accumulateS8 (old i j) (a.getD i []) (bb.getD j [])
  else
    let sa := mxmScaleA fmts o.ext
    let sb := mxmScaleB fmts o.ext
    let row (f : Nat) (sc : Bool) (d : Panel) (side : Panel) (i : Nat) : List FVal :=
      let bs := s.panelRow c d i
      let ss := if sc then s.panelRow c side i else []
      (List.range k).map (mxmElement f sc bs ss)
    let a := (List.range 8).map (row (mxmA fmts) sa (p 0) (p 2))
    let bb := (List.range 32).map (row (mxmB fmts) sb (p 1) (p (if sa then 3 else 2)))
    b.putTileAcc t fun i j => accumulate (old i j) (a.getD i []) (bb.getD j [])

/-- MXM (R247 to R250): its panel reads wait for an earlier acquire of the wave that is held (R104, R344). -/
def execMxm (fmts : BitVec 6) (o : Opnd) (s : State) : Host.Outcome State Fault Refusal :=
  tiled (.mxm fmts o) o s fun c _ os =>
    let work := os.map fun oc => (oc, mxmPanels c.wave fmts o (8 * oc))
    let bad := work.flatMap fun x => x.2.filterMap fun p => (s.panelFault c p).map fun f => (x.1, p, f)
    if !bad.isEmpty then s.takeTrap c.wave (c.panelTrap bad)
    else if !c.wave.sup && s.mustWait c.wave.ref false false then s.putWave (c.wave.park c.gang .held)
    else
      let lost := work.filterMap fun x => (x.2.filterMap (s.panelPoison c)).head?.map fun a => (x.1, a)
      let s := work.foldl (fun s x =>
        if lost.any fun y => y.1 == x.1 then s
        else match s.accBlock? c.crew c.wave with
          | none => s
          | some b => s.putBlock (s.mxmTile c fmts o b x.1 x.2)) s
      let s := s.retire c (.mxm fmts o) c.wave
      s.raiseLanes c 0x0E 3 0 (lost.map fun x => 8 * x.1) fun l => ((lost.find? fun x => 8 * x.1 == l).map fun x => x.2).getD 0

/-! ## DRAIN -/

/-- The index of the greatest of a row's values (R253). -/
def argmaxF (xs : List Word) : Nat :=
  (xs.zipIdx.foldl (fun (best : FVal × Nat) x =>
    let v := f32.decode x.1.toNat
    if v.isNan then best else if best.1.isNan || ltVal best.1 v then (v, x.2) else best) (.nan false, 0)).2

/-- The same as s32. -/
def argmaxS (xs : List Word) : Nat :=
  (xs.zipIdx.foldl (fun (best : Word × Nat) x => if best.1.slt x.1 then x else best) (xs.headD 0, 0)).2

/-- One row as DRAIN converts it: the row's bytes, its side bytes, and whether a box overflowed (R252). -/
def drainRow (fn : Nat) (int : Bool) (xs : List Word) : List Byte × List Byte × Bool :=
  let vs := xs.map fun x => f32.decode x.toNat
  let half (f : FloatFmt) : List Byte := vs.flatMap fun v => leBytes 2 (f.narrow 0 false false v).code
  match fn with
  | 0 => (xs.flatMap fun x => leBytes 4 x.toNat, [], false)
  | 1 => (half f16, [], false)
  | 2 => (half bf16, [], false)
  | 3 => let (sc, cs) := mxEncode e4m3 vs; (cs.map (BitVec.ofNat 8), leBytes 1 sc, false)
  | 4 => let (sc, sp, cs) := e2m1xEncode vs; (packNibbles cs, leBytes 1 sc ++ leBytes 1 sp, false)
  | 5 => let (sc, cs, ov) := l8x2Encode vs; (cs.flatMap (leBytes 2), leBytes 1 sc, ov)
  | _ => (leBytes 4 (if int then argmaxS xs else argmaxF xs), [], false)

/-- Side bytes of a row (R252). -/
def drainSide (fn : Nat) : Nat := if fn = 3 || fn = 5 then 1 else if fn = 4 then 2 else 0

/-- Bytes of a row in memory (R252). -/
def drainBytes (fn n : Nat) : Nat :=
  match fn with
  | 0 => 4 * n | 1 => 2 * n | 2 => 2 * n | 3 => 32 | 4 => 16 | 5 => 8 | _ => 4

/-- Cut bytes at an address into aligned units of a size (R252). -/
def cutUnits (size : Nat) (a : BitVec 64) (bs : List Byte) : Nat → List (BitVec 64 × List Byte)
  | 0 => []
  | fuel + 1 =>
    if bs.isEmpty then []
    else
      let n := size - a.toNat % size
      (a, bs.take n) :: cutUnits size (a + BitVec.ofNat 64 n) (bs.drop n) fuel

/-- The units that a DRAIN writes for a run of bytes: of 16 bytes, or of a word in the STACK window (R61). -/
def drainUnits (g : Segs) (a : BitVec 64) (bs : List Byte) : List (BitVec 64 × List Byte) :=
  match steer g a with
  | .stack _ => cutUnits 4 a bs (bs.length + 1)
  | _ => cutUnits 16 a bs (bs.length + 1)

/-- One unit of a DRAIN: its octet, address, bytes and pieces. -/
structure DrainUnit where
  octet : Nat
  addr : BitVec 64
  bytes : List Byte
  pieces : List Piece
  deriving DecidableEq, Repr

/-- The values of the drained columns of a row. -/
def drainRowOf (b : Block) (x : Ext) (o i : Nat) : List Word := (List.range (drainCols x)).map fun j => b.accAt (tileIndex x o) i j

/-- Where one octet's rows go, with their bytes (R252). -/
def drainRuns (w : Wave) (b : Block) (fn : Nat) (o : Opnd) (oc : Nat) : List (BitVec 64 × List Byte) :=
  let e := w.readV2 o.a.toNat (8 * oc)
  let q := w.readV2 o.b.toNat (8 * oc)
  let pitch := if o.ext.c = 0 then drainBytes fn (drainCols o.ext) else 16 * o.ext.c.toNat
  (List.range 8).flatMap fun i =>
    let r := drainRow fn (o.ext.mod.getLsbD 2) (drainRowOf b o.ext oc i)
    (drainUnits w.segs (e + BitVec.ofNat 64 (i * pitch)) r.1) ++
      (if drainSide fn = 0 then [] else drainUnits w.segs (q + BitVec.ofNat 64 (i * drainSide fn)) r.2.1)

/-- A box overflowed in some drained row (R252). -/
def drainOverflow (b : Block) (fn : Nat) (x : Ext) (os : List Nat) : Bool :=
  fn == 5 && os.any fun oc => (List.range 8).any fun i => (drainRow fn false (drainRowOf b x oc i)).2.2

/-- The checks of a memory DRAIN: its units, or what failed by octet, address and check (R328, R363). -/
def State.drainReach (s : State) (c : Issue) (b : Block) (fn : Nat) (o : Opnd) (os : List Nat) :
    List DrainUnit × List (Nat × BitVec 64 × Failure) × State :=
  os.foldl (fun (acc : List DrainUnit × List (Nat × BitVec 64 × Failure) × State) oc =>
    let e := c.wave.readV2 o.a.toNat (8 * oc)
    if e.toNat % drainAlign fn != 0 then (acc.1, acc.2.1 ++ [(oc, e, { step := 1, cause := 0x05, sub := 0 })], acc.2.2)
    else (drainRuns c.wave b fn o oc).foldl (fun (acc : List DrainUnit × List (Nat × BitVec 64 × Failure) × State) u =>
      let f : AccessForm := { size := u.2.length, align := 1, need := { w := true }, write := true, kind := 1 }
      match acc.2.2.reachLane c.wave c.crew f (8 * oc) u.1 with
      | (.ok ps, s) => (acc.1 ++ [{ octet := oc, addr := u.1, bytes := u.2, pieces := ps }], acc.2.1, s)
      | (.error x, s) => (acc.1, acc.2.1 ++ [(oc, u.1, x)], s)) acc) ([], [], s)

/-- The trap of a DRAIN: the earliest step that fails, its leaders, the lowest's address. -/
def Issue.drainTrap (c : Issue) (bad : List (Nat × BitVec 64 × Failure)) : Trap :=
  let step := bad.foldl (fun m x => min m x.2.2.step) 9
  let at_ := bad.filter fun x => x.2.2.step == step
  match at_ with
  | [] => c.trap 0 0 0 0
  | (_, a, x) :: _ => c.trap x.cause x.sub a (leaders (at_.map fun y => y.1)) 1

/-- Write one unit, or hold it in the fault buffer; false when a table entry was poisoned. A unit in GLOBAL memory goes
through the core's L1 as a store does (log entry 72). -/
def State.drainUnit (s : State) (c : Issue) (u : DrainUnit) : Bool × State :=
  u.pieces.foldl (fun (acc : Bool × State) p =>
    match acc.2.storePiece c.wave c.crew none p u.bytes with
    | (.held sub, s) =>
      (acc.1, s.holdPiece c .store 0 (BitVec.ofNat 128 (leNat ((u.bytes.drop p.off).take p.size))) 0 none false (8 * u.octet) p sub)
    | (.lost, s) => (false, s)
    | (_, s) => (acc.1, s)) (true, s)

/-- DRAIN to memory (R252). -/
def State.drainMemory (s : State) (c : Issue) (b : Block) (fn : Nat) (i : Instr) (o : Opnd) (os : List Nat) : State :=
  let (us, bad, s') := s.drainReach c b fn o os
  let ps := us.map fun u => (8 * u.octet, u.pieces)
  if !bad.isEmpty then s.takeTrap c.wave (c.drainTrap bad)
  else if !c.wave.sup && (s.mustWait c.wave.ref true false || s.samePageHeld c.wave.ref ps) then
    s.putWave (c.wave.park c.gang .held)
  else if s.piecesHeld c.crew.id ps then s.putWave (c.wave.park c.gang .held)
  else
    let (lost, s) := us.foldl (fun (acc : List (Nat × BitVec 64) × State) u =>
      let (ok, s) := acc.2.drainUnit c u
      (if ok then acc.1 else acc.1 ++ [(8 * u.octet, u.addr)], s)) ([], s')
    let w := s.nowWave c
    let s := s.retire c i (if drainOverflow b fn o.ext os then { w with fp := w.fp ||| LOVF } else w)
    s.raiseLanes c 0x0E 5 1 (lost.map fun x => x.1).dedup fun l => ((lost.find? fun x => x.1 == l).map fun x => x.2).getD 0

/-- The words that row i of an octet gives its lane's registers (R252). -/
def drainWords (b : Block) (fn : Nat) (x : Ext) (oc i : Nat) : List Word :=
  let bs := (drainRow fn (x.mod.getLsbD 2) (drainRowOf b x oc i)).1
  (List.range (bs.length / 4)).map fun k => BitVec.ofNat 32 (leNat ((bs.drop (4 * k)).take 4))

/-- DRAIN to registers (R252). -/
def State.drainRegisters (s : State) (c : Issue) (b : Block) (fn : Nat) (i : Instr) (o : Opnd) (os : List Nat) : State :=
  let active := c.active o.ext
  let lanes := laneSet ((os.flatMap fun oc => (List.range 8).map fun k => 8 * oc + k).filter fun l => active.getLsbD l)
  let rows := (List.range 96).map fun l => if lanes.getLsbD l then drainWords b fn o.ext (l / 8) (l % 8) else []
  let (id, s) := s.takeStamp
  let data := (List.range (drainRegs fn o.ext)).map fun k => Lanes.build fun l => (rows.getD l []).getD k 0
  s.retire c i (c.wave.produce { id := id, file := false, reg := o.d.toNat, lanes := lanes, data := data, pending := 0 })

/-- The frame of the DRAIN forms. -/
def drain (fn : Nat) (i : Instr) (o : Opnd) (s : State) : Host.Outcome State Fault Refusal :=
  tiled i o s fun c b os =>
    if drainReg o.ext then s.drainRegisters c b fn i o os else s.drainMemory c b fn i o os

def execDrainF32 (o : Opnd) (s : State) : Host.Outcome State Fault Refusal := drain 0 (.drainF32 o) o s
def execDrainF16 (o : Opnd) (s : State) : Host.Outcome State Fault Refusal := drain 1 (.drainF16 o) o s
def execDrainBf16 (o : Opnd) (s : State) : Host.Outcome State Fault Refusal := drain 2 (.drainBf16 o) o s
def execDrainE4m3mx (o : Opnd) (s : State) : Host.Outcome State Fault Refusal := drain 3 (.drainE4m3mx o) o s
def execDrainE2m1x (o : Opnd) (s : State) : Host.Outcome State Fault Refusal := drain 4 (.drainE2m1x o) o s
def execDrainL8x2 (o : Opnd) (s : State) : Host.Outcome State Fault Refusal := drain 5 (.drainL8x2 o) o s
def execDrainArgmax (o : Opnd) (s : State) : Host.Outcome State Fault Refusal := drain 6 (.drainArgmax o) o s

end Sys2Proof.Machine

end
end

