-- ==== Sys2Proof/Machine/Rounds.lean ====
section
/-! DEFINITION. Woad rounds (R107 to R109, R407 to R410): when a round is over, its commit pass, the inputs that take
effect at its end, and its log. The pass moves wave by wave: each WOAD_ROUND_COMMIT makes its next move, and a pending
synchronising instruction is issued by the step that the pass puts before everything else. -/

noncomputable section

namespace Sys2Proof.Machine

/-! ## Stopped waves -/

/-- A gang waits for registers that are not full, and nothing of its wave can land. -/
def State.lacksRegisters (s : State) (w : Wave) (c : Crew) (g : Gang) : Bool :=
  (w.landings.all fun x => x.pending != 0) &&
    (match s.fetchWords { wave := w, gang := g, crew := c } with
     | .ok (w0, w1, _) =>
       (match decodeWords w0 w1 with
        | .ok i => !operandsFull w i
        | .error _ => false)
     | .error _ => false)

/-- A gang can do nothing more before the round's commit pass. -/
def State.gangIdle (s : State) (w : Wave) (c : Crew) (g : Gang) : Bool :=
  match g.wait with
  | .stopped _ => false
  | .registers => s.lacksRegisters w c g
  | .held => !(s.heldOf w.ref).isEmpty
  | x => !x.mayIssue

/-- A wave has stopped for the round's end (R107), or has nothing to do before it. -/
def State.waveStopped (s : State) (w : Wave) (c : Crew) : Bool :=
  w.hasExited || w.reached.isSome || w.roundStop.isSome ||
    (c.resident && (w.sup || (w.traps.isEmpty && (s.ownedEntry w c).isNone)) && w.gangs.all fun g => s.gangIdle w c g)

/-- The waves of a partition that its rounds bind, each with its crew. -/
def State.roundWaves (s : State) (p : Nat) : List (Wave × Crew) :=
  s.waves.filterMap fun w =>
    match s.crew? w.ref.crew with
    | some c => if c.part == p && s.inRounds c then some (w, c) else none
    | none => none

/-- Key order (R108): launch sequence number, g0, g1. -/
def keyBefore (x y : Wave × Crew) : Bool :=
  x.2.work < y.2.work || (x.2.work == y.2.work &&
    (x.1.blockId.toNat < y.1.blockId.toNat || (x.1.blockId == y.1.blockId && x.1.ref.wave ≤ y.1.ref.wave)))

/-- Insert into a list in key order. -/
def insertKey (x : Wave × Crew) : List (Wave × Crew) → List (Wave × Crew)
  | [] => [x]
  | y :: r => if keyBefore x y then x :: y :: r else y :: insertKey x r

/-- The waves of a pass, in its order. -/
def State.passOrder (s : State) (p : Nat) : List WaveRef := ((s.roundWaves p).foldr insertKey []).map fun x => x.1.ref

/-! ## Visiting a wave -/

/-- Copies in L1 that the commit pass overtakes are dropped: a plain load returns what the last pass left (R107). -/
def State.dropPartL1 (s : State) (p : Nat) : State :=
  let spans := (s.part p).spans
  { s with l1 := s.l1.filter fun x => !spans.getLsbD (x.core / 96) }

/-- Buffered bytes of tile memory are stored in their block, oldest first. -/
def State.commitTile (s : State) (crew : Nat) (bs : List HeldByte) : State :=
  bs.reverse.foldl (fun s x =>
    match s.block? crew (x.mt - 16) with
    | none => s
    | some b =>
      let b := b.store x.pa [x.byte]
      let b := if x.whole then { b with tilePoison := b.tilePoison.filter fun u => u != x.pa / 16 * 16 } else b
      (s.putBlock b).clearTag 0 (8 * crew + (x.mt - 16)) x.pa 1) s

/-- A wave's buffered stores are committed, in issue order (R108). -/
def State.commitWave (s : State) (w : Wave) (c : Crew) : State :=
  let s := s.commitTile c.id (w.buffer.filter fun x => 16 ≤ x.mt)
  s.commitBytes (c.coreOf w.ref.rank) c.part c.ctx.ctag (some (c.id, w.ref.rank)) (w.buffer.filter fun x => x.mt < 16)

/-- What an event leaves. -/
def afterEvent (s : State) : Host.Outcome State Fault Refusal → State
  | .next t => t
  | _ => s

/-- The time-out of a waiting gang, where it is an input of this round: of the recording, or of the log (R108, R203). -/
def State.roundExpiry (s : State) (p : Nat) (r : WaveRef) (slice : Nat) : State :=
  match s.waiter r slice with
  | none => s
  | some (w, c, g, x) =>
    let pt := s.part p
    let key := waveKey w c
    let due :=
      if pt.replays then ((s.replayEntries pt).getD []).any fun e => e.type = 5 && e.words == key
      else x.expired s.tick && pt.inputs.contains (.waitTimeout r slice)
    if due then (s.logEntry p 5 key).putWave (w.endWait g x true) else s

/-- The pass makes one gang's waiting instruction try again. -/
def State.retryWait (s : State) (p : Nat) (r : WaveRef) (slice : Nat) : State :=
  match (s.wave? r).bind fun w => w.gang? slice with
  | none => s
  | some g =>
    match g.wait with
    | .cond _ => (afterEvent s (execWaitConditionMet r slice s)).roundExpiry p r slice
    | .qpush _ _ => afterEvent s (execQueueWaitPerformed r slice s)
    | .qpop _ _ _ => afterEvent s (execQueueWaitPerformed r slice s)
    | .acqacc _ _ => afterEvent s (execAcqaccGrant r slice s)
    | .recalloc _ _ _ _ _ => afterEvent s (execRecallocGrant r slice s)
    | .regang => afterEvent s (execRegangBandReady r s)
    | _ => s

/-- The lowest slice of each gang of a wave. -/
def Wave.gangSlices (w : Wave) : List Nat := w.gangs.map fun g => (SliceMask.slices g.slices).headD 0

/-- Change a partition's commit pass. -/
def State.updPass (s : State) (p : Nat) (f : CommitPass → CommitPass) : State :=
  let x := s.part p
  s.putPart { x with pass := x.pass.map f }

/-- The gang that holds a slice is no longer at an address. -/
def State.movedOn (s : State) (r : WaveRef) (slice : Nat) (pc : Addr) : Bool :=
  match (s.wave? r).bind fun w => w.gang? slice with
  | some g => g.pc != pc
  | none => true

/-- The gang is within an instruction whose descriptor the fault buffer held and has now given. -/
def Gang.hasGot (g : Gang) : Bool := match g.wait with | .descriptor _ (some _) => true | _ => false

/-- The visit of one wave: its stores, its waiting instructions, and what it asks to be issued (R108). -/
def State.visitWave (s : State) (p : Nat) (r : WaveRef) : State :=
  match s.wave? r, s.crew? r.crew with
  | some w, some c =>
    let s := (s.commitWave w c).dropPartL1 p
    let s := s.putWave { w with buffer := [], roundStores := 0, roundStop := none }
    let s := s.updPass p fun x =>
      { x with stores := x.stores + w.roundStores, granted := some { wave := r, slice := 24, pc := 0, used := true } }
    let s := w.gangs.foldl (fun (s : State) g =>
      let sl := (SliceMask.slices g.slices).headD 0
      let s := s.retryWait p r sl
      if s.movedOn r sl g.pc then s.updPass p fun x => { x with syncs := x.syncs + 1 } else s) s
    let stopped := match w.roundStop.bind fun sl => (w.gang? sl).map fun g => (sl, g.pc) with
      | some (sl, pc) => if w.roundIssued < 1024 && !s.movedOn r sl pc then [(r, sl)] else []
      | none => []
    let want := stopped ++ (w.gangs.filter Gang.hasGot).map fun g => (r, (SliceMask.slices g.slices).headD 0)
    s.updPass p fun x => { x with wanted := want, granted := none }
  | _, _ => s

/-! ## The instruction that the pass performs -/

/-- The granted instruction has been performed as far as it can be in this pass. -/
def State.grantOver (s : State) (g : Grant) : Bool :=
  match s.wave? g.wave with
  | none => true
  | some w =>
    match w.gang? g.slice with
    | none => true
    | some x => x.pc != g.pc || (g.used && !(x.wait == .registers && w.landings.any fun l => l.pending == 0))

/-- The engine commands, requests and batches of a partition that can still move: the pass waits for them (R108). -/
def State.passBusy (s : State) (p : Nat) : Bool :=
  let mine (crew : Nat) : Bool := match s.crew? crew with | some c => c.part == p | none => false
  (s.blocks.any fun b => mine b.crew && b.commands.any fun m => m.held.isEmpty) ||
    (s.inflight.any fun q => q.part == p) || s.objects.any fun o => o.part == p && !o.blocked && (o.running.isSome || !o.pending.isEmpty)

/-- The instruction at a gang's address is granted, and moves next. -/
def State.grantIssue (s : State) (p : Nat) (r : WaveRef) (slice : Nat) : State :=
  match (s.wave? r).bind fun w => w.gang? slice with
  | none => s
  | some g =>
    let s := s.updPass p fun x => { x with granted := some { wave := r, slice := slice, pc := g.pc, used := false } }
    { s with agenda := { ticks := 0, cycles := 0, action := .issue r slice } :: s.agenda }

/-! ## Inputs at the round's end (R408, R409) -/

/-- A recorded control-window write (TYPE 6): 32-bit writes, but an event counter's whole value. -/
def State.loggedWrite (s : State) (p off : Nat) (wide : Bool) (v : BitVec 64) : State :=
  match windowPlace off with
  | .event q e h =>
    let old := s.eventCount q e
    let new := if wide then v else if h = 0 then hi32 old ++ lo32 v else lo32 v ++ lo32 old
    (s.logEntry p 6 [off / 8 * 8, new.toNat]).writeWindow (off / 8 * 8) true new
  | _ =>
    let s := s.logEntry p 6 [off, (lo32 v).toNat]
    let s := if wide then s.logEntry p 6 [off + 4, (hi32 v).toNat] else s
    s.writeWindow off wide v

/-- One input of a recording takes effect, with its entry. -/
def State.applyInput (s : State) (p : Nat) (i : Instr) : State :=
  let fresOff := 0x200054 + 0x10000 * p
  match i with
  | .takeLaunch q => s.takeHead q.val 1
  | .takeRenderpass q => s.takeHead q.val 2
  | .takeGraph q => s.takeHead q.val 3
  | .takeWaitevent q => s.takeHead q.val 4
  | .takeSignal q => s.takeHead q.val 5
  | .takeBarrier q => s.takeHead q.val 6
  | .controlRegisterWrite _ off wide v => s.loggedWrite p off.toNat wide v
  | .fresRetry _ _ v => s.loggedWrite p fresOff false (v.setWidth 64)
  | .fresFail _ _ v => s.loggedWrite p fresOff false (v.setWidth 64)
  | .portIncomingAccess _ a =>
    (match s.portReach a with
     | (some xs, s) => s.portPerform a.op xs
     | (none, s) => s)
  | .arrayError e => s.arrayError e
  | .l2Writeback line bad => s.writebackError line bad
  | .faultEntryWalk cl e =>
    (match (s.buffer cl.val).entries.find? fun x => x.index == e.val && x.state == .walk with
     | some x => s.walkEntry cl.val x
     | none => s)
  | _ => s

/-- The fault-buffer entry in WALK of a context and page of a partition, with its cluster. -/
def State.walkingEntry (s : State) (p ctag page : Nat) : Option (Nat × Entry) :=
  (s.buffers.filterMap fun b =>
    (b.entries.find? fun e => e.part == p && e.ctag == ctag && e.page * 2 ^ 17 == page && e.state == .walk).map fun e => (b.cluster, e)).head?

/-- One entry of a replay's log takes effect; one that cannot apply sets DIV (R410). -/
def State.applyEntry (s : State) (p : Nat) (e : LogEntry) : State :=
  let w (k : Nat) : Nat := e.words.getD k 0
  let bytes (k n : Nat) : List Byte := ((e.words.drop k).flatMap fun x => leBytes 8 x).take n
  match e.type with
  | 1 => s.takeLogged (bits (w 0) 10 0) (bits (w 0) 63 32) (leNat (bytes 1 64))
  | 2 =>
    let n := bits (w 1) 8 0
    let mt := bits (w 0) 55 52
    let pa := bits (w 0) 51 0
    s.portStore { mt := mt, pa := pa, size := n, part := s.memPart mt pa, ctag := 0xFFFF, leaf := none } (bytes 2 n) false
  | 6 => (match windowPlace (w 0) with
    | .event _ _ _ => s.writeWindow (w 0) true (BitVec.ofNat 64 (w 1))
    | _ => s.writeWindow (w 0) false (BitVec.ofNat 64 (w 1)))
  | 7 => if bits (w 0) 55 52 = 15 then
      (match s.blockOfWork p (bits (w 0) 51 20) (bits (w 1) 63 32) with
       | some (c, b) => s.poisonTile c b (bits (w 0) 19 0)
       | none => s)
    else s.createPoison p (bits (w 0) 55 52) (bits (w 0) 51 0) (16 * w 1)
  | 8 => (match s.walkingEntry p (w 0) (w 1) with
    | some (cl, x) => s.walkEntry cl x (some (BitVec.ofNat 64 (w 2)))
    | none => s.diverge p)
  | 9 => (match (s.part p).pass with
    | some x => if w 0 = x.stores && w 1 = x.syncs then s else s.diverge p
    | none => s)
  | _ => if (s.part p).entries.contains e then s else s.diverge p

/-! ## The end of the round -/

/-- The next round begins. -/
def State.nextRound (s : State) (p : Nat) : State :=
  let refs := (s.roundWaves p).map fun x => x.1.ref
  let clean (w : Wave) : Wave := { w with roundStop := none, roundIssued := 0, roundStores := 0 }
  let s := { s with waves := updWhere (fun w => refs.contains w.ref) clean s.waves }
  let x := s.part p
  ((s.putPart { x with log := [], inputs := [], round := x.round + 1, pass := none }).dropPartL1 p).waitForLog p

/-- Bytes are written to the log ring from a byte count on (R407). -/
def State.writeRing (s : State) (x : Partition) (port : Nat) (bs : List Byte) : State :=
  bs.zipIdx.foldl (fun s (b, k) =>
    s.putMem (memKey (9 + port) ((x.wring.toNat + (x.wwr.toNat + k) % 2 ^ x.wsz) % 2 ^ 52)) [b]) s

/-- The round's entries are written, and the next round begins, once the ring has room for them; until then STALL is 1
(R407). -/
def State.flushLog (s : State) (p : Nat) : State :=
  let x := s.part p
  match s.controlPort with
  | none => s.putPart { x with stall := true }
  | some port =>
    if 2 ^ x.wsz < (x.wwr - x.wrd).toNat + x.log.length then s.putPart { x with stall := true }
    else
      let s := s.writeRing x port x.log
      (s.putPart { x with wwr := x.wwr + BitVec.ofNat 32 x.log.length, stall := false }).nextRound p

/-- A wave of the partition runs a handler, or is to run one, and has not stopped for the pass. -/
def State.handlersRun (s : State) (p : Nat) : Bool :=
  s.passWaits p && (s.roundWaves p).any fun x => (x.1.sup || (s.ownedEntry x.1 x.2).isSome) && !s.waveStopped x.1 x.2

/-- Handlers have left something that the pass is still to do: stores, a synchronising instruction, or one that a held
descriptor let go on. -/
def State.sweepAgain (s : State) (p : Nat) : Bool :=
  (s.roundWaves p).any fun x => !x.1.buffer.isEmpty || x.1.roundStop.isSome || x.1.gangs.any Gang.hasGot

/-- Of a replay's entries to come, the first that concerns an entry in WALK is its replay: the walk waits for it. Otherwise
the recorded walk ended at no leaf, of which the log has no entry: the entry went to HOST, or its accesses were discarded
(R335, R408). -/
def Entry.replayComes (e : Entry) (cl p : Nat) (es : List LogEntry) : Bool :=
  let names (v : Nat) : Bool := bits v 2 0 = e.index && 12 * bits v 10 8 + bits v 6 3 = cl
  match es.find? fun x => (x.type == 8 && x.words.take 2 == [e.ctag, e.page * 2 ^ 17]) ||
      (x.type == 6 && x.words.headD 0 == 0x200054 + 0x10000 * p && names (x.words.getD 1 0)) with
  | some x => x.type == 8
  | none => false

/-- In a replay, an entry in WALK whose replay is not to come, and whose page has no leaf, walks now (R409). -/
def State.walkUnlogged (s : State) (p : Nat) (es : List LogEntry) : Option State :=
  (s.buffers.flatMap fun b => b.entries.map fun e => (b.cluster, e)).findSome? fun (cl, e) =>
    if e.part != p || e.state != .walk || e.replayComes cl p es || (s.heldOn cl e.index).any s.heldBusy then none
    else match (s.walk e.context e.part cl (BitVec.ofNat 64 (e.page * 2 ^ 17))).1 with
    | .leaf _ _ _ _ => none
    | _ => some (s.walkEntry cl e)

/-- A replay takes the next entry of its round; the last, TYPE 9, compares the counts and ends it (R409, R410). -/
def State.replayNext (s : State) (p : Nat) (ps : CommitPass) : State :=
  let x := s.part p
  match s.replayEntries x with
  | none => s.putPart { x with stall := true }
  | some es =>
    match s.walkUnlogged p (es.drop ps.taken), es[ps.taken]? with
    | some s, _ => s
    | none, some e => (s.updPass p fun y => { y with taken := y.taken + 1 }).applyEntry p e
    | none, none =>
      if x.div then s
      else (s.putPart { x with wrd := x.wrd + BitVec.ofNat 32 (es.map fun e => 8 * (e.words.length + 1)).sum }).nextRound p

/-- A recording takes its next input; the round ends, with a TYPE 9 entry, when there is none and no access of the round is
held (R346, R408). -/
def State.recordNext (s : State) (p : Nat) (ps : CommitPass) : State :=
  let x := s.part p
  match x.inputs with
  | i :: rest => (s.putPart { x with inputs := rest }).applyInput p i
  | [] =>
    if s.passWaits p then s
    else ((s.logEntry p 9 [ps.stores, ps.syncs]).updPass p fun y => { y with ended := true }).flushLog p

/-- All waves are visited: the round's handlers run while accesses are held (R346), then what they left is done, then the
inputs take effect. -/
def State.closePass (s : State) (p : Nat) (ps : CommitPass) : State :=
  if ps.ended then s.flushLog p
  else if s.handlersRun p then s
  else if s.sweepAgain p then s.updPass p fun x => { x with left := s.passOrder p }
  else if (s.part p).wctl.getLsbD 1 then s.replayNext p ps
  else s.recordNext p ps

/-- The next move of a partition's commit pass. -/
def State.movePass (s : State) (p : Nat) (ps : CommitPass) : State :=
  match ps.granted, ps.wanted, ps.left with
  | some g, _, _ =>
    if s.grantOver g then
      s.updPass p fun x =>
        { x with granted := none, syncs := x.syncs + (if s.movedOn g.wave g.slice g.pc then 1 else 0) }
    else s
  | none, (r, sl) :: rest, _ =>
    if s.passBusy p then s else (s.updPass p fun x => { x with wanted := rest }).grantIssue p r sl
  | none, [], r :: rest => if s.passBusy p then s else (s.updPass p fun x => { x with left := rest }).visitWave p r
  | none, [], [] => if s.passBusy p then s else s.closePass p ps

/-- WOAD_ROUND_COMMIT (R108): the pass begins when every wave of the partition has stopped, and makes its next move. -/
def execWoadRoundCommit (p : Fin 8) (s : State) : Host.Outcome State Fault Refusal :=
  let x := s.part p.val
  if !x.woad || x.div || x.state = 4 then .next s
  else match x.pass with
  | some ps => .next (s.movePass p.val ps)
  | none =>
    if x.stall || !(s.roundWaves p.val).all fun y => s.waveStopped y.1 y.2 then .next s
    else
      let ps : CommitPass := { left := s.passOrder p.val, wanted := [], granted := none, stores := 0, syncs := 0, ended := false, taken := 0 }
      .next (s.putPart { x with pass := some ps })

end Sys2Proof.Machine

end
end

