-- ==== Sys2Proof/Machine/Sched.lean ====
section
/-! DEFINITION. The issue arbiter (R44, R45), and what happens next where the agenda names nothing (log entry 6): by turns a gang
that the arbiter chooses and an event that the device itself may make, one a cycle (log entry 76). What the outside does to the
device is never made up. -/

noncomputable section

namespace Sys2Proof.Machine

/-- What bring-up finds where no agenda says otherwise. -/
def defaultBringup : BringupInput := { stepping := 0, defsig := 0, portRole := 1, admin := 0x11111111 }

/-! ## What may move -/

/-- The gang issues by the slice it holds first. -/
def Gang.issueOf (g : Gang) (w : Wave) : Action := .issue w.ref ((SliceMask.slices g.slices).headD 0)

/-- A gang that waits for something which its instruction itself tries again, or whose wave has a trap to take. -/
def retryMoves (w : Wave) : List Action :=
  w.gangs.filterMap fun g => if g.wait != .ready && (g.wait.mayIssue || !w.traps.isEmpty) then some (g.issueOf w) else none

/-- A ready gang may issue now: its crew holds its cores, and neither pre-emption nor a round bars it. -/
def State.issuable (s : State) (w : Wave) (c : Crew) (g : Gang) : Bool :=
  g.wait == .ready && c.resident && !(c.preempt.isSome && g.isHalted) && !s.roundBars { wave := w, gang := g, crew := c }

/-- A gang that is ready, with the pipe that its next instruction issues to and its block's class (R44). -/
structure Ready where
  wave : WaveRef
  slice : Nat
  pipe : Nat
  prio : Nat
  deriving DecidableEq, Repr

/-- The pipe of a gang's next instruction: of each core, the group-uniform pipe, then the vector pipes (R25, R136). -/
def State.pipeOf (s : State) (w : Wave) (c : Crew) (g : Gang) : Nat :=
  2 * c.coreOf w.ref.rank + (match (s.fetchWord w c g.pc).1 with | .word x => if x.msb then 0 else 1 | _ => 0)

/-- The lowest slice of a gang. -/
def Gang.first (g : Gang) : Nat := (SliceMask.slices g.slices).headD 0

/-- The ready gangs, oldest first: the order in which their waves came. -/
def State.ready (s : State) : List Ready :=
  let ps := s.priorities
  s.waves.flatMap fun w =>
    match s.crew? w.ref.crew with
    | none => []
    | some c =>
      let prio := ((ps.find? fun x => x.1 == c.work).map fun x => x.2).getD 0
      (w.gangs.filter (s.issuable w c)).map fun g => { wave := w.ref, slice := g.first, pipe := s.pipeOf w c g, prio := prio }

/-- For how many issues of its pipe a ready gang has been passed over. -/
def State.timesPassed (s : State) (x : Ready) : Nat :=
  ((s.passed.find? fun e => e.1 == x.wave && e.2.1 == x.slice).map fun e => e.2.2).getD 0

/-- Of the ready gangs of one pipe, the one that must issue now if none is to be passed over for more than 64 of its issues: some
gang and all that have waited as long would together need the 64 (R44). -/
def State.pressing (s : State) (xs : List Ready) : Option Ready :=
  if s.passed.isEmpty || !xs.any fun x => 64 < s.timesPassed x + (xs.filter fun y => s.timesPassed x ≤ s.timesPassed y).length then none
  else xs.foldl (fun (best : Option Ready) y =>
    match best with
    | none => some y
    | some x => if s.timesPassed x < s.timesPassed y then some y else some x) none

/-- The ready gang of a pipe that issues: one that must, else of the highest class the oldest (R44). -/
def State.arbitrate (s : State) (xs : List Ready) : Option Ready :=
  (s.pressing xs).or (xs.foldl (fun (best : Option Ready) y =>
    match best with
    | none => some y
    | some x => if x.prio < y.prio then some y else some x) none)

/-- A ready gang issues: the others that are ready for its pipe are passed over once more, and what is no longer ready is counted
no more. -/
def State.passOver (s : State) (rs : List Ready) (x : Ready) : State :=
  { s with passed := rs.filterMap fun y =>
      let n := s.timesPassed y
      if y.pipe == x.pipe then (if y == x then none else some (y.wave, y.slice, n + 1))
      else if n = 0 then none else some (y.wave, y.slice, n) }

/-- The ready gang that an issue names, by any slice it holds. -/
def State.readyAt (s : State) (rs : List Ready) (r : WaveRef) (slice : Nat) : Option Ready :=
  match (s.wave? r).bind fun w => w.gang? slice with
  | some g => rs.find? fun x => x.wave == r && x.slice == g.first
  | none => none

/-- What an action comes to. -/
def State.nextAction (s : State) : Action → Next
  | .issue r sl =>
    let rs := s.ready
    (match s.readyAt rs r sl with
     | some x => s.passOver rs x
     | none => s).nextOf r sl
  | .event i => .run i s

/-- A gang that must issue before the one that an action names, which is ready for the same pipe. -/
def State.issuesFirst (s : State) : Action → Option Ready
  | .issue r sl =>
    if s.passed.isEmpty then none
    else
      let rs := s.ready
      (match s.readyAt rs r sl with
       | some x => (s.pressing (rs.filter fun y => y.pipe == x.pipe)).filter fun y => y != x
       | none => none)
  | .event _ => none

/-- The event that may complete a gang's wait. -/
def waitMoves (w : Wave) : List Instr :=
  w.gangs.flatMap fun g =>
    let sl := (SliceMask.slices g.slices).headD 0
    match g.wait with
    | .regang => [.regangBandReady w.ref]
    | .qpush _ _ => [.queueWaitPerformed w.ref sl]
    | .qpop _ _ _ => [.queueWaitPerformed w.ref sl]
    | .cond _ => [.waitConditionMet w.ref sl, .waitTimeout w.ref sl]
    | .acqacc _ _ => [.acqaccGrant w.ref sl]
    | .recalloc _ _ _ _ _ => [.recallocGrant w.ref sl]
    | _ => []

/-- The events of a wave beside its issues. -/
def State.waveMoves (s : State) (w : Wave) : List Instr :=
  (match w.landings.findIdx? fun x => x.pending == 0 with | some n => [.producerLanding w.ref n] | none => []) ++
    waitMoves w ++ (if s.held.any fun h => h.wave == w.ref then [.translationVector w.ref] else [])

/-- The take of a queue's head. -/
def State.takeMoves (s : State) (x : Queue) : List Instr :=
  if !s.queueReady x then []
  else
    let q : Fin 2048 := Fin.ofNat 2048 x.num
    match (s.peekPacket x x.rd.toNat).map fun d => dfield d 0 7 0 with
    | some 2 => [.takeRenderpass q]
    | some 3 => [.takeGraph q]
    | some 4 => [.takeWaitevent q]
    | some 5 => [.takeSignal q]
    | some 6 => [.takeBarrier q]
    | _ => [.takeLaunch q]

/-- A core by its cluster, 0 to 95, and its number there. -/
def coreAt (cluster core : Nat) : CoreAt :=
  { span := Fin.ofNat 8 (cluster / 12), cluster := Fin.ofNat 12 (cluster % 12), core := Fin.ofNat 8 core }

/-- The first place of a span where a list of needs fits. -/
def State.firstRoom (s : State) (span : Nat) (rs : List Room) : Option CoreAt :=
  (((List.range 12).flatMap fun cl => (List.range 8).map fun j => (12 * span + cl, j)).find? fun x => s.fits x.1 x.2 rs).map
    fun x => coreAt x.1 x.2

/-- What the dispatcher of a span may do. -/
def State.spanMoves (s : State) (span : Nat) : List Instr :=
  match s.topWaiting span with
  | none => []
  | some x =>
    match s.firstRoom span (s.needs x.cand), x.cand with
    | some p, .saved id => [.crewResume id p]
    | some p, _ => [.crewPlacement p]
    | none, _ => [.placementWaitTimeout (Fin.ofNat 8 span)]

/-- Taken work: its dependence, its completion, its age, and the batches of its graph. -/
def State.workMoves (s : State) (w : Work) : List Instr :=
  (if w.dep && !w.placeable then [.dependenceSatisfied w.seq] else []) ++ [.workCompletion w.seq, .priorityAging (.work w.seq)] ++
    (match s.graph? w.seq with
     | some g => (List.range g.nodes.length).flatMap fun n => [.graphBatchLaunch w.seq n, .graphBatchTimeout w.seq n]
     | none => [])

/-- A crew: its phases, its pre-emption and its pass. -/
def crewMoves (c : Crew) : List Instr :=
  (List.range c.size).map (fun r => .phaseStart c.id r) ++
    (if c.preempt.isSome then [.safePointTimeout c.id, if c.isTile then .tileSpill c.id else .crewSave c.id] else []) ++
    (match c.tile? with
     | some t =>
       (match t.step with
        | .load => [.passLoad c.id]
        | .visibility => [.passVisibility c.id]
        | .gbuffer => [.passGbuffer c.id, if t.flush then .resumeStore c.id else .passShading c.id]
        | .shading => [.passResolve c.id]
        | _ => [])
     | none => [])

/-- The units of a block's engine commands. -/
def blockMoves (b : Block) : List Instr :=
  b.commands.filterMap fun m =>
    if m.kind = kindXfm && m.table.isEmpty then some (.engineUnitTransfer b.crew b.rank (Fin.ofNat 16 m.recNo) m.total)
    else
      ((List.range (m.total - m.done)).find? fun k => !m.written.contains (m.done + k) && !m.held.contains (m.done + k)).map fun k =>
        .engineUnitTransfer b.crew b.rank (Fin.ofNat 16 m.recNo) (m.done + k)

/-- The render pass of a partition. -/
def State.passMoves (s : State) (r : RenderPass) : List Instr :=
  let p := Fin.ofNat 8 r.part
  let room := match s.savedTile r with
    | some c => s.needs (.saved c.id)
    | none => [r.tileRoom]
  let place := ((List.range 8).filter fun i => (s.part r.part).spans.getLsbD i).findSome? fun i => s.firstRoom i room
  [.primitiveCommit p, .poolReset p, .finalRoundStart p] ++ (match place with | some at_ => [.brokerIssuePass p at_] | none => [])

/-- An object with requests. -/
def objectMoves (o : Object) : List Instr := [.madderBatchLaunch o.id, .madderWindowExpiry o.id, .combinerWaveStart o.id]

/-- A cluster's fault buffer. -/
def bufferMoves (b : Buffer) : List Instr :=
  let cl := Fin.ofNat 96 b.cluster
  (b.entries.filter fun e => e.state == .walk).map (fun e => .faultEntryWalk cl (Fin.ofNat 8 e.index)) ++
    (if b.dropped || b.replayAll then [.faultRepresent cl] else [])

/-- A partition: its records, its rounds and its next render pass. -/
def partMoves (x : Partition) : List Instr :=
  let p := Fin.ofNat 8 x.num
  (if x.records.isEmpty then [] else [.faultRecordPost p]) ++ (if x.woad then [.woadRoundCommit p] else []) ++
    (if x.state = 3 then [.renderPassStart p] else [])

/-- Everything that the device may do next beside the issue of a ready gang. -/
def State.moves (s : State) : List Action :=
  s.waves.flatMap retryMoves ++
    (s.waves.flatMap s.waveMoves ++ s.queues.flatMap s.takeMoves ++ (List.range 8).flatMap s.spanMoves ++ s.works.flatMap s.workMoves ++
      s.crews.flatMap crewMoves ++ s.blocks.flatMap blockMoves ++ s.passes.flatMap s.passMoves ++ s.objects.flatMap objectMoves ++
      (List.range s.inflight.length).map (fun n => Instr.madderRequestArrival n) ++ s.buffers.flatMap bufferMoves ++
      s.parts.flatMap partMoves).map Action.event

/-! ## Turns -/

/-- What may move again and again in another form counts as one: placement in a span, the issue of tiles in a partition, the
units of a command. -/
def Action.turn : Action → Action
  | .event (.crewPlacement p) => .event (.placementWaitTimeout p.span)
  | .event (.crewResume _ p) => .event (.placementWaitTimeout p.span)
  | .event (.brokerIssuePass p _) => .event (.brokerIssuePass p { span := 0, cluster := 0, core := 0 })
  | .event (.engineUnitTransfer crew rank rec _) => .event (.engineUnitTransfer crew rank rec 0)
  | a => a

/-- Of everything else that may move, what has waited longest for its turn. -/
def State.otherTurn (s : State) : Option (Action × State) :=
  let ms := s.moves
  let ts := (ms.map Action.turn).dedup
  match (s.due.filter fun a => ts.contains a) ++ ts.filter fun a => !s.due.contains a with
  | [] => none
  | t :: rest => (ms.find? fun a => a.turn == t).map fun a => (a, { s with due := rest, lastPipe := s.lastPipe / 2 * 2 })

/-- The next pipe that has a ready gang, after the one that issued last, issues what its arbiter chooses. -/
def State.readyTurn (s : State) : Option (Action × State) :=
  let rs := s.ready
  let lowest (xs : List Ready) : Option Nat := xs.foldl (fun (m : Option Nat) x => match m with | none => some x.pipe | some p => some (min p x.pipe)) none
  match (lowest (rs.filter fun x => s.lastPipe / 2 < x.pipe)).or (lowest rs) with
  | none => none
  | some p => (s.arbitrate (rs.filter fun x => x.pipe == p)).map fun x => (.issue x.wave x.slice, { s with lastPipe := 2 * p + 1 })

/-- What moves next where the agenda is empty: bring-up; then by turns a ready gang, and one of what else may move. -/
def State.defaultAction (s : State) : Option (Action × State) :=
  if !s.module.ready then some (.event (.powerOnBringup defaultBringup), s)
  else if s.lastPipe % 2 = 1 then s.otherTurn.or s.readyTurn
  else s.readyTurn.or s.otherTurn

/-- A cycle passes; 25 of them are a tick (R13). -/
def State.passCycle (s : State) : State := s.passTime (if (s.cycle + 1) % 25 = 0 then 1 else 0) 1

/-- Take the next item. What it names issues once no gang of its pipe must go before it. -/
def State.takeNext (s : State) : Next :=
  match s.agenda with
  | a :: r =>
    match s.issuesFirst a.action with
    | some x => s.passCycle.nextAction (.issue x.wave x.slice)
    | none => ({ s with agenda := r }.passTime a.ticks a.cycles).nextAction a.action
  | [] =>
    let s := s.passCycle
    match s.defaultAction with
    | some (a, s) => s.nextAction a
    | none => .done s

end Sys2Proof.Machine

end
end

