-- ==== Sys2Proof/Machine/Dispatch.lean ====
section
/-! DEFINITION. One arm per constructor of Instr: one direct call of its meaning. -/

namespace Sys2Proof.Machine

open Host in noncomputable def exec (i : Instr) (s : State) : Host.Outcome State Fault Refusal :=
  match i with
  | .powerOnBringup b => Sys2Proof.Machine.execPowerOnBringup b s
  | .controlRegisterWrite port off wide value => Sys2Proof.Machine.execControlRegisterWrite port off wide value s
  | .partitionReset port p => Sys2Proof.Machine.execPartitionReset port p s
  | .partitionResize port p newSpans => Sys2Proof.Machine.execPartitionResize port p newSpans s
  | .partitionStart port p => Sys2Proof.Machine.execPartitionStart port p s
  | .queueEnable port q ctl => Sys2Proof.Machine.execQueueEnable port q ctl s
  | .doorbell port q wr => Sys2Proof.Machine.execDoorbell port q wr s
  | .takeLaunch q => Sys2Proof.Machine.execTakeLaunch q s
  | .takeRenderpass q => Sys2Proof.Machine.execTakeRenderpass q s
  | .takeGraph q => Sys2Proof.Machine.execTakeGraph q s
  | .takeWaitevent q => Sys2Proof.Machine.execTakeWaitevent q s
  | .takeSignal q => Sys2Proof.Machine.execTakeSignal q s
  | .takeBarrier q => Sys2Proof.Machine.execTakeBarrier q s
  | .dependenceSatisfied seq => Sys2Proof.Machine.execDependenceSatisfied seq s
  | .eventCounterWrite port p e value => Sys2Proof.Machine.execEventCounterWrite port p e value s
  | .workCompletion seq => Sys2Proof.Machine.execWorkCompletion seq s
  | .crewPlacement at_ => Sys2Proof.Machine.execCrewPlacement at_ s
  | .priorityAging target => Sys2Proof.Machine.execPriorityAging target s
  | .placementWaitTimeout span => Sys2Proof.Machine.execPlacementWaitTimeout span s
  | .preemptionRequest crew => Sys2Proof.Machine.execPreemptionRequest crew s
  | .safePointTimeout crew => Sys2Proof.Machine.execSafePointTimeout crew s
  | .crewSave crew => Sys2Proof.Machine.execCrewSave crew s
  | .crewResume crew at_ => Sys2Proof.Machine.execCrewResume crew at_ s
  | .phaseStart crew rank => Sys2Proof.Machine.execPhaseStart crew rank s
  | .producerLanding w n => Sys2Proof.Machine.execProducerLanding w n s
  | .regangBandReady w => Sys2Proof.Machine.execRegangBandReady w s
  | .queueWaitPerformed w gang => Sys2Proof.Machine.execQueueWaitPerformed w gang s
  | .waitConditionMet w gang => Sys2Proof.Machine.execWaitConditionMet w gang s
  | .waitTimeout w gang => Sys2Proof.Machine.execWaitTimeout w gang s
  | .acqaccGrant w gang => Sys2Proof.Machine.execAcqaccGrant w gang s
  | .recallocGrant w gang => Sys2Proof.Machine.execRecallocGrant w gang s
  | .asyncTrapDelivery w => Sys2Proof.Machine.execAsyncTrapDelivery w s
  | .translationVector w => Sys2Proof.Machine.execTranslationVector w s
  | .faultEntryWalk cluster entry => Sys2Proof.Machine.execFaultEntryWalk cluster entry s
  | .faultRepresent cluster => Sys2Proof.Machine.execFaultRepresent cluster s
  | .faultRecordPost p => Sys2Proof.Machine.execFaultRecordPost p s
  | .fresRetry port p value => Sys2Proof.Machine.execFresRetry port p value s
  | .fresFail port p value => Sys2Proof.Machine.execFresFail port p value s
  | .loaderCheck port => Sys2Proof.Machine.execLoaderCheck port s
  | .merrClear port => Sys2Proof.Machine.execMerrClear port s
  | .portIncomingAccess port a => Sys2Proof.Machine.execPortIncomingAccess port a s
  | .portLinkDown port => Sys2Proof.Machine.execPortLinkDown port s
  | .moduleError therm => Sys2Proof.Machine.execModuleError therm s
  | .patrolRead codeword err => Sys2Proof.Machine.execPatrolRead codeword err s
  | .l2Writeback line badSectors => Sys2Proof.Machine.execL2Writeback line badSectors s
  | .engineUnitTransfer crew rank rec unit => Sys2Proof.Machine.execEngineUnitTransfer crew rank rec unit s
  | .madderRequestArrival n => Sys2Proof.Machine.execMadderRequestArrival n s
  | .madderBatchLaunch line => Sys2Proof.Machine.execMadderBatchLaunch line s
  | .madderWindowExpiry line => Sys2Proof.Machine.execMadderWindowExpiry line s
  | .combinerWaveStart line => Sys2Proof.Machine.execCombinerWaveStart line s
  | .graphBatchLaunch seq node => Sys2Proof.Machine.execGraphBatchLaunch seq node s
  | .graphBatchTimeout seq node => Sys2Proof.Machine.execGraphBatchTimeout seq node s
  | .renderPassStart p => Sys2Proof.Machine.execRenderPassStart p s
  | .primitiveCommit p => Sys2Proof.Machine.execPrimitiveCommit p s
  | .poolReset p => Sys2Proof.Machine.execPoolReset p s
  | .brokerIssuePass p at_ => Sys2Proof.Machine.execBrokerIssuePass p at_ s
  | .finalRoundStart p => Sys2Proof.Machine.execFinalRoundStart p s
  | .passLoad crew => Sys2Proof.Machine.execPassLoad crew s
  | .passVisibility crew => Sys2Proof.Machine.execPassVisibility crew s
  | .passGbuffer crew => Sys2Proof.Machine.execPassGbuffer crew s
  | .passShading crew => Sys2Proof.Machine.execPassShading crew s
  | .passResolve crew => Sys2Proof.Machine.execPassResolve crew s
  | .resumeStore crew => Sys2Proof.Machine.execResumeStore crew s
  | .tileSpill crew => Sys2Proof.Machine.execTileSpill crew s
  | .passRestart crew => Sys2Proof.Machine.execPassRestart crew s
  | .woadRoundCommit p => Sys2Proof.Machine.execWoadRoundCommit p s
  | .iadd o => Sys2Proof.Machine.execIadd o s
  | .isub o => Sys2Proof.Machine.execIsub o s
  | .imul o => Sys2Proof.Machine.execImul o s
  | .imulhS32 o => Sys2Proof.Machine.execImulhS32 o s
  | .imulhN32 o => Sys2Proof.Machine.execImulhN32 o s
  | .iminS32 o => Sys2Proof.Machine.execIminS32 o s
  | .iminN32 o => Sys2Proof.Machine.execIminN32 o s
  | .imaxS32 o => Sys2Proof.Machine.execImaxS32 o s
  | .imaxN32 o => Sys2Proof.Machine.execImaxN32 o s
  | .iabs o => Sys2Proof.Machine.execIabs o s
  | .ineg o => Sys2Proof.Machine.execIneg o s
  | .iadd64 o => Sys2Proof.Machine.execIadd64 o s
  | .isub64 o => Sys2Proof.Machine.execIsub64 o s
  | .imulwS32 o => Sys2Proof.Machine.execImulwS32 o s
  | .imulwN32 o => Sys2Proof.Machine.execImulwN32 o s
  | .iaddi o => Sys2Proof.Machine.execIaddi o s
  | .andi o => Sys2Proof.Machine.execAndi o s
  | .ori o => Sys2Proof.Machine.execOri o s
  | .xori o => Sys2Proof.Machine.execXori o s
  | .and o => Sys2Proof.Machine.execAnd o s
  | .or o => Sys2Proof.Machine.execOr o s
  | .xor o => Sys2Proof.Machine.execXor o s
  | .andn o => Sys2Proof.Machine.execAndn o s
  | .orn o => Sys2Proof.Machine.execOrn o s
  | .xnor o => Sys2Proof.Machine.execXnor o s
  | .not o => Sys2Proof.Machine.execNot o s
  | .shl o => Sys2Proof.Machine.execShl o s
  | .shr o => Sys2Proof.Machine.execShr o s
  | .sar o => Sys2Proof.Machine.execSar o s
  | .rotl o => Sys2Proof.Machine.execRotl o s
  | .rotr o => Sys2Proof.Machine.execRotr o s
  | .shli o => Sys2Proof.Machine.execShli o s
  | .shri o => Sys2Proof.Machine.execShri o s
  | .sari o => Sys2Proof.Machine.execSari o s
  | .bfxS32 o => Sys2Proof.Machine.execBfxS32 o s
  | .bfxN32 o => Sys2Proof.Machine.execBfxN32 o s
  | .bfi o => Sys2Proof.Machine.execBfi o s
  | .popc o => Sys2Proof.Machine.execPopc o s
  | .clz o => Sys2Proof.Machine.execClz o s
  | .ctz o => Sys2Proof.Machine.execCtz o s
  | .brev o => Sys2Proof.Machine.execBrev o s
  | .permb o => Sys2Proof.Machine.execPermb o s
  | .imad o => Sys2Proof.Machine.execImad o s
  | .imadhS32 o => Sys2Proof.Machine.execImadhS32 o s
  | .imadhN32 o => Sys2Proof.Machine.execImadhN32 o s
  | .imadwS32 o => Sys2Proof.Machine.execImadwS32 o s
  | .imadwN32 o => Sys2Proof.Machine.execImadwN32 o s
  | .icmpEq o => Sys2Proof.Machine.execIcmpEq o s
  | .icmpNe o => Sys2Proof.Machine.execIcmpNe o s
  | .icmpLtS32 o => Sys2Proof.Machine.execIcmpLtS32 o s
  | .icmpLeS32 o => Sys2Proof.Machine.execIcmpLeS32 o s
  | .icmpGtS32 o => Sys2Proof.Machine.execIcmpGtS32 o s
  | .icmpGeS32 o => Sys2Proof.Machine.execIcmpGeS32 o s
  | .icmpLtN32 o => Sys2Proof.Machine.execIcmpLtN32 o s
  | .icmpLeN32 o => Sys2Proof.Machine.execIcmpLeN32 o s
  | .icmpGtN32 o => Sys2Proof.Machine.execIcmpGtN32 o s
  | .icmpGeN32 o => Sys2Proof.Machine.execIcmpGeN32 o s
  | .sel o => Sys2Proof.Machine.execSel o s
  | .fadd o => Sys2Proof.Machine.execFadd o s
  | .fsub o => Sys2Proof.Machine.execFsub o s
  | .fmul o => Sys2Proof.Machine.execFmul o s
  | .fmin o => Sys2Proof.Machine.execFmin o s
  | .fmax o => Sys2Proof.Machine.execFmax o s
  | .fminm o => Sys2Proof.Machine.execFminm o s
  | .fmaxm o => Sys2Proof.Machine.execFmaxm o s
  | .fabs o => Sys2Proof.Machine.execFabs o s
  | .fneg o => Sys2Proof.Machine.execFneg o s
  | .fcopysign o => Sys2Proof.Machine.execFcopysign o s
  | .frndRn o => Sys2Proof.Machine.execFrndRn o s
  | .frndRz o => Sys2Proof.Machine.execFrndRz o s
  | .frndRd o => Sys2Proof.Machine.execFrndRd o s
  | .frndRu o => Sys2Proof.Machine.execFrndRu o s
  | .ffract o => Sys2Proof.Machine.execFfract o s
  | .fclass o => Sys2Proof.Machine.execFclass o s
  | .ffma o => Sys2Proof.Machine.execFfma o s
  | .ffms o => Sys2Proof.Machine.execFfms o s
  | .ffnma o => Sys2Proof.Machine.execFfnma o s
  | .ffnms o => Sys2Proof.Machine.execFfnms o s
  | .fcmpEq o => Sys2Proof.Machine.execFcmpEq o s
  | .fcmpNe o => Sys2Proof.Machine.execFcmpNe o s
  | .fcmpLt o => Sys2Proof.Machine.execFcmpLt o s
  | .fcmpLe o => Sys2Proof.Machine.execFcmpLe o s
  | .fcmpGt o => Sys2Proof.Machine.execFcmpGt o s
  | .fcmpGe o => Sys2Proof.Machine.execFcmpGe o s
  | .fcmpOrd o => Sys2Proof.Machine.execFcmpOrd o s
  | .fcmpUnord o => Sys2Proof.Machine.execFcmpUnord o s
  | .frcp o => Sys2Proof.Machine.execFrcp o s
  | .frsq o => Sys2Proof.Machine.execFrsq o s
  | .fsqrt o => Sys2Proof.Machine.execFsqrt o s
  | .fexp2 o => Sys2Proof.Machine.execFexp2 o s
  | .flog2 o => Sys2Proof.Machine.execFlog2 o s
  | .fsin o => Sys2Proof.Machine.execFsin o s
  | .fcos o => Sys2Proof.Machine.execFcos o s
  | .ftanh o => Sys2Proof.Machine.execFtanh o s
  | .fsigm o => Sys2Proof.Machine.execFsigm o s
  | .hadd2F16 o => Sys2Proof.Machine.execHadd2F16 o s
  | .hmul2F16 o => Sys2Proof.Machine.execHmul2F16 o s
  | .hmin2F16 o => Sys2Proof.Machine.execHmin2F16 o s
  | .hmax2F16 o => Sys2Proof.Machine.execHmax2F16 o s
  | .hadd2Bf16 o => Sys2Proof.Machine.execHadd2Bf16 o s
  | .hmul2Bf16 o => Sys2Proof.Machine.execHmul2Bf16 o s
  | .hmin2Bf16 o => Sys2Proof.Machine.execHmin2Bf16 o s
  | .hmax2Bf16 o => Sys2Proof.Machine.execHmax2Bf16 o s
  | .hfma2F16 o => Sys2Proof.Machine.execHfma2F16 o s
  | .hfma2Bf16 o => Sys2Proof.Machine.execHfma2Bf16 o s
  | .hdot2F16 o => Sys2Proof.Machine.execHdot2F16 o s
  | .hdot2Bf16 o => Sys2Proof.Machine.execHdot2Bf16 o s
  | .cvtF32S32 o => Sys2Proof.Machine.execCvtF32S32 o s
  | .cvtF32N32 o => Sys2Proof.Machine.execCvtF32N32 o s
  | .cvtS32F32 o => Sys2Proof.Machine.execCvtS32F32 o s
  | .cvtN32F32 o => Sys2Proof.Machine.execCvtN32F32 o s
  | .cvtF16F32 o => Sys2Proof.Machine.execCvtF16F32 o s
  | .cvtBf16F32 o => Sys2Proof.Machine.execCvtBf16F32 o s
  | .cvtF32F16 o => Sys2Proof.Machine.execCvtF32F16 o s
  | .cvtF32Bf16 o => Sys2Proof.Machine.execCvtF32Bf16 o s
  | .cvtE4m3F32 o => Sys2Proof.Machine.execCvtE4m3F32 o s
  | .cvtE5m2F32 o => Sys2Proof.Machine.execCvtE5m2F32 o s
  | .cvtF32E4m3 o => Sys2Proof.Machine.execCvtF32E4m3 o s
  | .cvtF32E5m2 o => Sys2Proof.Machine.execCvtF32E5m2 o s
  | .cvtE2m1F32 o => Sys2Proof.Machine.execCvtE2m1F32 o s
  | .cvtF32E2m1 o => Sys2Proof.Machine.execCvtF32E2m1 o s
  | .qlatX2 o => Sys2Proof.Machine.execQlatX2 o s
  | .qlatX4 o => Sys2Proof.Machine.execQlatX4 o s
  | .dlatX2 o => Sys2Proof.Machine.execDlatX2 o s
  | .dlatX4 o => Sys2Proof.Machine.execDlatX4 o s
  | .laterr o => Sys2Proof.Machine.execLaterr o s
  | .shflIdx o => Sys2Proof.Machine.execShflIdx o s
  | .shflUp o => Sys2Proof.Machine.execShflUp o s
  | .shflDown o => Sys2Proof.Machine.execShflDown o s
  | .shflXor o => Sys2Proof.Machine.execShflXor o s
  | .pushl o => Sys2Proof.Machine.execPushl o s
  | .lredAddS32 o => Sys2Proof.Machine.execLredAddS32 o s
  | .lredAddF32 o => Sys2Proof.Machine.execLredAddF32 o s
  | .lredMinS32 o => Sys2Proof.Machine.execLredMinS32 o s
  | .lredMaxS32 o => Sys2Proof.Machine.execLredMaxS32 o s
  | .lredMinF32 o => Sys2Proof.Machine.execLredMinF32 o s
  | .lredMaxF32 o => Sys2Proof.Machine.execLredMaxF32 o s
  | .scanAddS32 o => Sys2Proof.Machine.execScanAddS32 o s
  | .scanAddF32 o => Sys2Proof.Machine.execScanAddF32 o s
  | .ballot o => Sys2Proof.Machine.execBallot o s
  | .mov o => Sys2Proof.Machine.execMov o s
  | .movil o => Sys2Proof.Machine.execMovil o s
  | .movih o => Sys2Proof.Machine.execMovih o s
  | .movin o => Sys2Proof.Machine.execMovin o s
  | .movout o => Sys2Proof.Machine.execMovout o s
  | .gbc o => Sys2Proof.Machine.execGbc o s
  | .laneid o => Sys2Proof.Machine.execLaneid o s
  | .pand o => Sys2Proof.Machine.execPand o s
  | .por o => Sys2Proof.Machine.execPor o s
  | .pxor o => Sys2Proof.Machine.execPxor o s
  | .pnot o => Sys2Proof.Machine.execPnot o s
  | .pmov o => Sys2Proof.Machine.execPmov o s
  | .mask o => Sys2Proof.Machine.execMask o s
  | .pact o => Sys2Proof.Machine.execPact o s
  | .ld fmt o => Sys2Proof.Machine.execLd fmt o s
  | .st fmt o => Sys2Proof.Machine.execSt fmt o s
  | .ldt size o => Sys2Proof.Machine.execLdt size o s
  | .stt size o => Sys2Proof.Machine.execStt size o s
  | .prefL1 o => Sys2Proof.Machine.execPrefL1 o s
  | .prefL2 o => Sys2Proof.Machine.execPrefL2 o s
  | .atomAddS32 order o => Sys2Proof.Machine.execAtomAddS32 order o s
  | .atomAddS64 order o => Sys2Proof.Machine.execAtomAddS64 order o s
  | .atomAddF32 order o => Sys2Proof.Machine.execAtomAddF32 order o s
  | .atomMinS32 order o => Sys2Proof.Machine.execAtomMinS32 order o s
  | .atomMaxS32 order o => Sys2Proof.Machine.execAtomMaxS32 order o s
  | .atomMinN32 order o => Sys2Proof.Machine.execAtomMinN32 order o s
  | .atomMaxN32 order o => Sys2Proof.Machine.execAtomMaxN32 order o s
  | .atomAnd order o => Sys2Proof.Machine.execAtomAnd order o s
  | .atomOr order o => Sys2Proof.Machine.execAtomOr order o s
  | .atomXor order o => Sys2Proof.Machine.execAtomXor order o s
  | .atomExch order o => Sys2Proof.Machine.execAtomExch order o s
  | .atomInc order o => Sys2Proof.Machine.execAtomInc order o s
  | .casB32 o => Sys2Proof.Machine.execCasB32 o s
  | .casB64 o => Sys2Proof.Machine.execCasB64 o s
  | .hcall o => Sys2Proof.Machine.execHcall o s
  | .hreply o => Sys2Proof.Machine.execHreply o s
  | .harg o => Sys2Proof.Machine.execHarg o s
  | .mxm fmts o => Sys2Proof.Machine.execMxm fmts o s
  | .drainF32 o => Sys2Proof.Machine.execDrainF32 o s
  | .drainF16 o => Sys2Proof.Machine.execDrainF16 o s
  | .drainBf16 o => Sys2Proof.Machine.execDrainBf16 o s
  | .drainE4m3mx o => Sys2Proof.Machine.execDrainE4m3mx o s
  | .drainE2m1x o => Sys2Proof.Machine.execDrainE2m1x o s
  | .drainL8x2 o => Sys2Proof.Machine.execDrainL8x2 o s
  | .drainArgmax o => Sys2Proof.Machine.execDrainArgmax o s
  | .accz o => Sys2Proof.Machine.execAccz o s
  | .ipa o => Sys2Proof.Machine.execIpa o s
  | .ipaPersp o => Sys2Proof.Machine.execIpaPersp o s
  | .pixinfo o => Sys2Proof.Machine.execPixinfo o s
  | .sample o => Sys2Proof.Machine.execSample o s
  | .samplel o => Sys2Proof.Machine.execSamplel o s
  | .blend o => Sys2Proof.Machine.execBlend o s
  | .bin o => Sys2Proof.Machine.execBin o s
  | .recalloc o => Sys2Proof.Machine.execRecalloc o s
  | .recsend o => Sys2Proof.Machine.execRecsend o s
  | .gadd o => Sys2Proof.Machine.execGadd o s
  | .gsub o => Sys2Proof.Machine.execGsub o s
  | .gmul o => Sys2Proof.Machine.execGmul o s
  | .gmulhS32 o => Sys2Proof.Machine.execGmulhS32 o s
  | .gmulhN32 o => Sys2Proof.Machine.execGmulhN32 o s
  | .gminS32 o => Sys2Proof.Machine.execGminS32 o s
  | .gminN32 o => Sys2Proof.Machine.execGminN32 o s
  | .gmaxS32 o => Sys2Proof.Machine.execGmaxS32 o s
  | .gmaxN32 o => Sys2Proof.Machine.execGmaxN32 o s
  | .gand o => Sys2Proof.Machine.execGand o s
  | .gor o => Sys2Proof.Machine.execGor o s
  | .gxor o => Sys2Proof.Machine.execGxor o s
  | .gnot o => Sys2Proof.Machine.execGnot o s
  | .gshl o => Sys2Proof.Machine.execGshl o s
  | .gshr o => Sys2Proof.Machine.execGshr o s
  | .gsar o => Sys2Proof.Machine.execGsar o s
  | .gpopc o => Sys2Proof.Machine.execGpopc o s
  | .gclz o => Sys2Proof.Machine.execGclz o s
  | .gadd64 o => Sys2Proof.Machine.execGadd64 o s
  | .gsub64 o => Sys2Proof.Machine.execGsub64 o s
  | .gaddi o => Sys2Proof.Machine.execGaddi o s
  | .gandi o => Sys2Proof.Machine.execGandi o s
  | .gori o => Sys2Proof.Machine.execGori o s
  | .gmovl o => Sys2Proof.Machine.execGmovl o s
  | .gaddl o => Sys2Proof.Machine.execGaddl o s
  | .gcmpEq o => Sys2Proof.Machine.execGcmpEq o s
  | .gcmpNe o => Sys2Proof.Machine.execGcmpNe o s
  | .gcmpLtS32 o => Sys2Proof.Machine.execGcmpLtS32 o s
  | .gcmpLeS32 o => Sys2Proof.Machine.execGcmpLeS32 o s
  | .gcmpLtN32 o => Sys2Proof.Machine.execGcmpLtN32 o s
  | .gcmpLeN32 o => Sys2Proof.Machine.execGcmpLeN32 o s
  | .gsel o => Sys2Proof.Machine.execGsel o s
  | .v2g o => Sys2Proof.Machine.execV2g o s
  | .v2gLane o => Sys2Proof.Machine.execV2gLane o s
  | .bra off => Sys2Proof.Machine.execBra off s
  | .call off => Sys2Proof.Machine.execCall off s
  | .jmpg o => Sys2Proof.Machine.execJmpg o s
  | .callg o => Sys2Proof.Machine.execCallg o s
  | .ret o => Sys2Proof.Machine.execRet o s
  | .brcEq o => Sys2Proof.Machine.execBrcEq o s
  | .brcNe o => Sys2Proof.Machine.execBrcNe o s
  | .brcLtS32 o => Sys2Proof.Machine.execBrcLtS32 o s
  | .brcLeS32 o => Sys2Proof.Machine.execBrcLeS32 o s
  | .brcLtN32 o => Sys2Proof.Machine.execBrcLtN32 o s
  | .brcLeN32 o => Sys2Proof.Machine.execBrcLeN32 o s
  | .brpAny o => Sys2Proof.Machine.execBrpAny o s
  | .brpAll o => Sys2Proof.Machine.execBrpAll o s
  | .brpNone o => Sys2Proof.Machine.execBrpNone o s
  | .regang o => Sys2Proof.Machine.execRegang o s
  | .exit o => Sys2Proof.Machine.execExit o s
  | .waitAny o => Sys2Proof.Machine.execWaitAny o s
  | .waitAll o => Sys2Proof.Machine.execWaitAll o s
  | .barSync o => Sys2Proof.Machine.execBarSync o s
  | .barArrive o => Sys2Proof.Machine.execBarArrive o s
  | .barCrew o => Sys2Proof.Machine.execBarCrew o s
  | .phase o => Sys2Proof.Machine.execPhase o s
  | .safe o => Sys2Proof.Machine.execSafe o s
  | .qpush o => Sys2Proof.Machine.execQpush o s
  | .qpop o => Sys2Proof.Machine.execQpop o s
  | .qoffer o => Sys2Proof.Machine.execQoffer o s
  | .qpoll o => Sys2Proof.Machine.execQpoll o s
  | .copy o => Sys2Proof.Machine.execCopy o s
  | .copyw o => Sys2Proof.Machine.execCopyw o s
  | .copys o => Sys2Proof.Machine.execCopys o s
  | .gateinit o => Sys2Proof.Machine.execGateinit o s
  | .gatearm o => Sys2Proof.Machine.execGatearm o s
  | .publish o => Sys2Proof.Machine.execPublish o s
  | .xfm o => Sys2Proof.Machine.execXfm o s
  | .acqacc o => Sys2Proof.Machine.execAcqacc o s
  | .relacc o => Sys2Proof.Machine.execRelacc o s
  | .hdone o => Sys2Proof.Machine.execHdone o s
  | .hinfo o => Sys2Proof.Machine.execHinfo o s
  | .tdone o => Sys2Proof.Machine.execTdone o s
  | .tileinfo o => Sys2Proof.Machine.execTileinfo o s
  | .fenceAcq o => Sys2Proof.Machine.execFenceAcq o s
  | .fenceRel o => Sys2Proof.Machine.execFenceRel o s
  | .fenceAcqrel o => Sys2Proof.Machine.execFenceAcqrel o s
  | .gsys o => Sys2Proof.Machine.execGsys o s
  | .ssys o => Sys2Proof.Machine.execSsys o s
  | .trap o => Sys2Proof.Machine.execTrap o s
  | .rte o => Sys2Proof.Machine.execRte o s
  | .bkpt o => Sys2Proof.Machine.execBkpt o s
  | .nop o => Sys2Proof.Machine.execNop o s
  | .replayall o => Sys2Proof.Machine.execReplayall o s
  | .tlbinv o => Sys2Proof.Machine.execTlbinv o s
  | .setseg o => Sys2Proof.Machine.execSetseg o s
  | .arrayError e => Sys2Proof.Machine.execArrayError e s
  | .controlNodePoolGrowth port p units => Sys2Proof.Machine.execControlNodePoolGrowth port p units s
  | .controlNodeTileAssignment port p tile at_ => Sys2Proof.Machine.execControlNodeTileAssignment port p tile at_ s
  | .controlNodeQueueHeadOrder port p queues => Sys2Proof.Machine.execControlNodeQueueHeadOrder port p queues s

end Sys2Proof.Machine
end

