-- ==== Sys2Proof/Machine/Step.lean ====
section
/-! DEFINITION. One step, and the state whose next step runs a given instruction. -/

noncomputable section

namespace Sys2Proof.Machine

/-- One step: what moves next, and its effect. -/
def step (s : State) : Host.Outcome State Fault Refusal :=
  match s.takeNext with
  | .run i s => exec i s
  | .done s => .next s

/-- The state with the instruction of bits w placed where the next step fetches (log entry 7). -/
def State.withFetchWord (s : State) (nbits w : Nat) : State :=
  let v := w % 2 ^ nbits
  s.withCode [BitVec.ofNat 32 v, BitVec.ofNat 32 (v / 2 ^ 32), 0, 0]

end Sys2Proof.Machine

end
end

