-- ==== Sys2Proof/WellFormed.lean ====
section
/-! DEFINITION. Well-formed instructions: those whose words are instructions (R140, R358). -/

noncomputable section

namespace Sys2Proof

/-- The minor opcode is one that its major lists (R144, R145, R358 SUB 1 and 2). -/
def minorListed (i : Instr) : Bool :=
  match fields i with
  | some (.register s maj fn o) => (if s then groupRegister maj fn o else laneRegister maj fn o).isSome
  | some (.immediate s maj o) => (shortInstr s maj o 0).isSome
  | some (.branch s maj off) => (shortInstr s maj { d := 0, a := 0, imm := 0 } off).isSome
  | some (.literal _ _ fn o) => (groupMinor04 fn o).isSome
  | none => true

/-- A wave instruction is well formed when its words are none that R358 calls ILLEGAL from the words alone; a
device event has no words and is well formed as it stands. -/
def wellFormed (i : Instr) : Bool := minorListed i && (illegalSub i).isNone

/-- The instruction has an encoding: it is a wave instruction. -/
def encodable (i : Instr) : Bool := (fields i).isSome

end Sys2Proof

end
end

