-- ==== Sys2Proof/Safety.lean ====
section
/-! DEFINITION. What counts as a safe step and a well-formed state, and when an instruction may issue, in the terms the
statements use. -/

noncomputable section

namespace Sys2Proof.Safety

open Sys2Proof.Machine

/-- Memory has its canonical form. -/
abbrev Memory.wf (s : State) : Prop := cellsWf (0 : Byte) s.mem = true

/-- Memory stands as it was. -/
def SameMemory (s t : State) : Prop := t.mem = s.mem ∧ t.loose = s.loose

/-- The instruction issues: State names c as its issuer, and it passes every check of ranks 2 to 6 of R350 that the
operands decide: its registers lie below .regs, the role allows its class, a combiner wave may issue it, every source
and destination is full, and no source is reported as uninitialised. -/
structure Ready (s : State) (c : Issue) (i : Instr) : Prop where
  issuer : s.issuer = some c
  full : operandsFull c.wave i = true
  inside : outside i c.wave.regs = none
  role : roleAllows c.wave.role (classOf i) = true
  combiner : c.crew.isCombiner = false ∨ combinerAllows i = true
  written : c.wave.dbgCtl.getLsbD 0 = false ∨ uninitSource c.wave i = none

/-- The state in which the head of the agenda, an issue, finds its gang: its ticks and cycles have passed, the other ready
gangs of its pipe are passed over once more (R44), and it is named as issuer. -/
def issuing (s : State) (a : Agenda) (r : WaveRef) (sl : Nat) (rest : List Agenda) : State :=
  let t := { s with agenda := rest }.passTime a.ticks a.cycles
  { (match t.readyAt t.ready r sl with | some x => t.passOver t.ready x | none => t) with cur := some (r, sl) }

/-- The instruction is at its first issue: its gang has neither waited for registers nor is it within it. -/
abbrev FirstIssue (c : Issue) : Prop := c.gang.wait ≠ .registers ∧ c.gang.within = false

/-! ## What the arithmetic instructions give -/

/-- A lane instruction with one 32-bit result of the words of A and B in the lane, and that result. -/
abbrev LaneWord := (Opnd → Instr) × (Opnd → Word → Word → Word)

/-- IALU (R158). -/
def laneIalu : List LaneWord :=
  [(.iadd, fun _ a b => BitVec.ofNat 32 (a.toNat + b.toNat)),
   (.isub, fun _ a b => BitVec.ofInt 32 ((a.toNat : Int) - b.toNat)),
   (.imul, fun _ a b => BitVec.ofNat 32 (a.toNat * b.toNat)),
   (.imulhS32, fun _ a b => (BitVec.ofInt 64 (a.toInt * b.toInt)).extractLsb' 32 32),
   (.imulhN32, fun _ a b => (BitVec.ofNat 64 (a.toNat * b.toNat)).extractLsb' 32 32),
   (.iminS32, fun _ a b => if a.toInt ≤ b.toInt then a else b),
   (.iminN32, fun _ a b => if a.toNat ≤ b.toNat then a else b),
   (.imaxS32, fun _ a b => if a.toInt ≤ b.toInt then b else a),
   (.imaxN32, fun _ a b => if a.toNat ≤ b.toNat then b else a),
   (.iabs, fun _ a _ => BitVec.ofNat 32 a.toInt.natAbs),
   (.ineg, fun _ a _ => BitVec.ofInt 32 (-a.toInt))]

/-- Position and width of a bit field of IMM16 (R162). -/
def bitField (o : Opnd) : Nat × Nat :=
  let p := o.ext.imm.toNat % 32
  (p, min (o.ext.imm.toNat / 32 % 32 + 1) (32 - p))

/-- The byte that a selector of PERMB picks (R162). -/
def pickByte (a b : Word) (sel : Nat) : Byte :=
  if sel < 4 then a.extractLsb' (8 * sel) 8
  else if sel < 8 then b.extractLsb' (8 * (sel - 4)) 8
  else if sel < 12 then (if (a.extractLsb' (8 * (sel - 8)) 8).msb then 0xFF else 0)
  else 0

/-- BITS (R161, R162). -/
def laneBitsA : List LaneWord :=
  [(.and, fun _ a b => a &&& b), (.or, fun _ a b => a ||| b), (.xor, fun _ a b => a ^^^ b), (.andn, fun _ a b => a &&& ~~~b),
   (.orn, fun _ a b => a ||| ~~~b), (.xnor, fun _ a b => ~~~(a ^^^ b)), (.not, fun _ a _ => ~~~a),
   (.shl, fun _ a b => BitVec.ofNat 32 (a.toNat * 2 ^ b.toNat)),
   (.shr, fun _ a b => BitVec.ofNat 32 (a.toNat / 2 ^ b.toNat)),
   (.sar, fun _ a b => BitVec.ofInt 32 (a.toInt / 2 ^ b.toNat)),
   (.rotl, fun _ a b => a.rotateLeft (b.toNat % 32)),
   (.rotr, fun _ a b => a.rotateRight (b.toNat % 32)),
   (.shli, fun o a _ => BitVec.ofNat 32 (a.toNat * 2 ^ o.b.toNat)),
   (.shri, fun o a _ => BitVec.ofNat 32 (a.toNat / 2 ^ o.b.toNat)),
   (.sari, fun o a _ => BitVec.ofInt 32 (a.toInt / 2 ^ o.b.toNat))]

/-- BITS (R161, R162). -/
def laneBitsB : List LaneWord :=
  [(.bfxN32, fun o a _ => BitVec.ofNat 32 (a.toNat / 2 ^ (bitField o).1 % 2 ^ (bitField o).2)),
   (.bfxS32, fun o a _ =>
     let v := a.toNat / 2 ^ (bitField o).1 % 2 ^ (bitField o).2
     if v < 2 ^ ((bitField o).2 - 1) then BitVec.ofNat 32 v else BitVec.ofInt 32 ((v : Int) - 2 ^ (bitField o).2)),
   (.bfi, fun o a b =>
     let p := (bitField o).1
     let n := (bitField o).2
     BitVec.ofNat 32 (b.toNat / 2 ^ (p + n) * 2 ^ (p + n) + a.toNat % 2 ^ n * 2 ^ p + b.toNat % 2 ^ p)),
   (.popc, fun _ a _ => BitVec.ofNat 32 ((List.range 32).filter fun k => a.getLsbD k).length),
   (.clz, fun _ a _ => if a = 0 then 32 else BitVec.ofNat 32 (31 - a.toNat.log2)),
   (.ctz, fun _ a _ => BitVec.ofNat 32 (((List.range 32).find? fun k => a.getLsbD k).getD 32)),
   (.brev, fun _ a _ => a.reverse),
   (.permb, fun o a b =>
     pickByte a b (o.ext.imm.extractLsb' 12 4).toNat ++ pickByte a b (o.ext.imm.extractLsb' 8 4).toNat ++
       pickByte a b (o.ext.imm.extractLsb' 4 4).toNat ++ pickByte a b (o.ext.imm.extractLsb' 0 4).toNat)]

/-- BITS (R161, R162). -/
def laneBits : List LaneWord := laneBitsA ++ laneBitsB

/-- The lane instructions of the FALU and MOV rows that work on bits alone (R165, R167, R181). -/
def laneBitwise : List LaneWord :=
  [(.fabs, fun _ a _ => (0 : BitVec 1) ++ a.extractLsb' 0 31),
   (.fneg, fun _ a _ => BitVec.ofBool (!a.msb) ++ a.extractLsb' 0 31),
   (.fcopysign, fun _ a b => BitVec.ofBool b.msb ++ a.extractLsb' 0 31),
   (.fclass, fun _ a _ =>
     match f32.decode a.toNat with
     | .inf true => 1
     | .fin true m => if m = 0 then 8 else if m < pow2 (-126) then 4 else 2
     | .fin false m => if m = 0 then 16 else if m < pow2 (-126) then 32 else 64
     | .inf false => 128
     | .nan true => 256
     | .nan false => 512),
   (.mov, fun _ a _ => a)]

/-- The lane instructions with an immediate (R159). -/
def laneImms : List ((OpndI → Instr) × (Word → Word → Word)) :=
  [(.iaddi, fun a b => BitVec.ofNat 32 (a.toNat + b.toNat)), (.andi, fun a b => a &&& b), (.ori, fun a b => a ||| b),
   (.xori, fun a b => a ^^^ b)]

/-- IMAD (R160): the words of A, B and C. -/
def laneMads : List ((Opnd → Instr) × (Word → Word → Word → Word)) :=
  [(.imad, fun a b c => BitVec.ofNat 32 (a.toNat * b.toNat + c.toNat)),
   (.imadhS32, fun a b c => (BitVec.ofInt 64 (a.toInt * b.toInt)).extractLsb' 32 32 + c),
   (.imadhN32, fun a b c => (BitVec.ofNat 64 (a.toNat * b.toNat)).extractLsb' 32 32 + c)]

/-- The lane instructions with a 64-bit result (R158, R160), from the wave before them, in a lane. -/
def lanePairs : List ((Opnd → Instr) × (Wave → Opnd → Nat → BitVec 64)) :=
  [(.iadd64, fun w o l => BitVec.ofNat 64 ((w.readV2 o.a.toNat l).toNat + (w.readV2 o.b.toNat l).toNat)),
   (.isub64, fun w o l => BitVec.ofInt 64 ((w.readV2 o.a.toNat l).toInt - (w.readV2 o.b.toNat l).toInt)),
   (.imulwS32, fun w o l => BitVec.ofInt 64 (((w.readV o.a.toNat).at_ l).toInt * ((w.readV o.b.toNat).at_ l).toInt)),
   (.imulwN32, fun w o l => BitVec.ofNat 64 (((w.readV o.a.toNat).at_ l).toNat * ((w.readV o.b.toNat).at_ l).toNat)),
   (.imadwS32, fun w o l => BitVec.ofInt 64 (((w.readV o.a.toNat).at_ l).toInt * ((w.readV o.b.toNat).at_ l).toInt +
     (w.readV2 o.ext.c.toNat l).toInt)),
   (.imadwN32, fun w o l => BitVec.ofNat 64 (((w.readV o.a.toNat).at_ l).toNat * ((w.readV o.b.toNat).at_ l).toNat +
     (w.readV2 o.ext.c.toNat l).toNat))]

/-- ICMP (R163). -/
def laneCompares : List ((Opnd → Instr) × (Word → Word → Bool)) :=
  [(.icmpEq, fun a b => a == b), (.icmpNe, fun a b => a != b),
   (.icmpLtS32, fun a b => decide (a.toInt < b.toInt)), (.icmpLeS32, fun a b => decide (a.toInt ≤ b.toInt)),
   (.icmpGtS32, fun a b => decide (b.toInt < a.toInt)), (.icmpGeS32, fun a b => decide (b.toInt ≤ a.toInt)),
   (.icmpLtN32, fun a b => decide (a.toNat < b.toNat)), (.icmpLeN32, fun a b => decide (a.toNat ≤ b.toNat)),
   (.icmpGtN32, fun a b => decide (b.toNat < a.toNat)), (.icmpGeN32, fun a b => decide (b.toNat ≤ a.toNat))]

/-- Group arithmetic with one 32-bit result of A and B (R186, R189). -/
def groupWordsA : List ((Opnd → Instr) × (Word → Word → Word)) :=
  [(.gadd, fun a b => BitVec.ofNat 32 (a.toNat + b.toNat)),
   (.gsub, fun a b => BitVec.ofInt 32 ((a.toNat : Int) - b.toNat)),
   (.gmul, fun a b => BitVec.ofNat 32 (a.toNat * b.toNat)),
   (.gmulhS32, fun a b => (BitVec.ofInt 64 (a.toInt * b.toInt)).extractLsb' 32 32),
   (.gmulhN32, fun a b => (BitVec.ofNat 64 (a.toNat * b.toNat)).extractLsb' 32 32),
   (.gminS32, fun a b => if a.toInt ≤ b.toInt then a else b),
   (.gminN32, fun a b => if a.toNat ≤ b.toNat then a else b),
   (.gmaxS32, fun a b => if a.toInt ≤ b.toInt then b else a),
   (.gmaxN32, fun a b => if a.toNat ≤ b.toNat then b else a),
   (.gand, fun a b => a &&& b), (.gor, fun a b => a ||| b), (.gxor, fun a b => a ^^^ b), (.gnot, fun a _ => ~~~a),
   (.gshl, fun a b => BitVec.ofNat 32 (a.toNat * 2 ^ b.toNat)),
   (.gshr, fun a b => BitVec.ofNat 32 (a.toNat / 2 ^ b.toNat)),
   (.gsar, fun a b => BitVec.ofInt 32 (a.toInt / 2 ^ b.toNat))]

/-- Group arithmetic with one 32-bit result of A and B (R186, R189). -/
def groupWordsB : List ((Opnd → Instr) × (Word → Word → Word)) :=
  [(.gpopc, fun a _ => BitVec.ofNat 32 ((List.range 32).filter fun k => a.getLsbD k).length),
   (.gclz, fun a _ => if a = 0 then 32 else BitVec.ofNat 32 (31 - a.toNat.log2)),
   (.gcmpEq, fun a b => if a = b then 1 else 0), (.gcmpNe, fun a b => if a = b then 0 else 1),
   (.gcmpLtS32, fun a b => if a.toInt < b.toInt then 1 else 0), (.gcmpLeS32, fun a b => if a.toInt ≤ b.toInt then 1 else 0),
   (.gcmpLtN32, fun a b => if a.toNat < b.toNat then 1 else 0), (.gcmpLeN32, fun a b => if a.toNat ≤ b.toNat then 1 else 0)]

/-- Group arithmetic with one 32-bit result of A and B (R186, R189). -/
def groupWords : List ((Opnd → Instr) × (Word → Word → Word)) := groupWordsA ++ groupWordsB

/-- Group arithmetic with an immediate (R187). -/
def groupImms : List ((OpndI → Instr) × (Word → Word → Word)) :=
  [(.gaddi, fun a b => BitVec.ofNat 32 (a.toNat + b.toNat)), (.gandi, fun a b => a &&& b), (.gori, fun a b => a ||| b)]

/-- Floating-point lane instructions of one result of the words of A and B (R165, R166, R171), under FP_CTRL and MOD. -/
def fpPairs : List ((Opnd → Instr) × (FpEnv → Nat → Nat → FRes)) :=
  let x (e : FpEnv) (v : Nat) : FVal := f32.decodeFtz e.ftz v
  [(.fadd, fun e a b => f32.addVal e.mode e.ftz (x e a) (x e b)),
   (.fsub, fun e a b => f32.addVal e.mode e.ftz (x e a) (x e b).negate),
   (.fmul, fun e a b => f32.mulRound e.mode e.ftz (x e a) (x e b)),
   (.fmin, fun e a b => f32.pick e.ftz false false a b), (.fmax, fun e a b => f32.pick e.ftz false true a b),
   (.fminm, fun e a b => f32.pick e.ftz true false a b), (.fmaxm, fun e a b => f32.pick e.ftz true true a b),
   (.hadd2F16, hadd f16), (.hmul2F16, hmul f16), (.hmin2F16, hpick f16 false), (.hmax2F16, hpick f16 true),
   (.hadd2Bf16, hadd bf16), (.hmul2Bf16, hmul bf16), (.hmin2Bf16, hpick bf16 false), (.hmax2Bf16, hpick bf16 true)]

/-- Those of A, B and C (R168, R172): one rounding of the exact A × B + C, with the signs of R168; each half; the dot
product. -/
def fpTriples : List ((Opnd → Instr) × (FpEnv → Nat → Nat → Nat → FRes)) :=
  let x (e : FpEnv) (v : Nat) : FVal := f32.decodeFtz e.ftz v
  [(.ffma, fun e a b c => f32.fmaRound e.mode e.ftz false (x e a) (x e b) (x e c)),
   (.ffms, fun e a b c => f32.fmaRound e.mode e.ftz false (x e a) (x e b) (x e c).negate),
   (.ffnma, fun e a b c => f32.fmaRound e.mode e.ftz true (x e a) (x e b) (x e c)),
   (.ffnms, fun e a b c => f32.fmaRound e.mode e.ftz true (x e a) (x e b) (x e c).negate),
   (.hfma2F16, hfma f16), (.hfma2Bf16, hfma bf16), (.hdot2F16, hdot f16), (.hdot2Bf16, hdot bf16)]

/-- Those of A alone (R167, R173): the rounding to an integral value in the form's own mode, the fraction, and the
conversions. -/
def fpSinglesA : List ((Opnd → Instr) × (Opnd → FpEnv → Nat → FRes)) :=
  let x (e : FpEnv) (v : Nat) : FVal := f32.decodeFtz e.ftz v
  [(.frndRn, fun _ => frnd 0), (.frndRz, fun _ => frnd 1), (.frndRd, fun _ => frnd 2), (.frndRu, fun _ => frnd 3),
   (.ffract, fun _ => ffract),
   (.cvtF32S32, fun _ e a => f32.roundRat e.mode e.ftz false ((BitVec.ofNat 32 a).toInt : Rat)),
   (.cvtF32N32, fun _ e a => f32.roundRat e.mode e.ftz false (a : Rat)),
   (.cvtS32F32, fun _ => cvtInt (-2147483648) 2147483647), (.cvtN32F32, fun _ => cvtInt 0 4294967295),
   (.cvtF16F32, fun _ e a => f16.narrow e.mode e.ftz false (x e a)),
   (.cvtBf16F32, fun _ e a => bf16.narrow e.mode e.ftz false (x e a)),
   (.cvtF32F16, fun _ e a => f16.widen e.ftz (f16.decodeFtz e.ftz (a % 65536))),
   (.cvtF32Bf16, fun _ e a => bf16.widen e.ftz (bf16.decodeFtz e.ftz (a % 65536)))]

/-- Those of A alone (R167, R173): the rounding to an integral value in the form's own mode, the fraction, and the
conversions. -/
def fpSinglesB : List ((Opnd → Instr) × (Opnd → FpEnv → Nat → FRes)) :=
  let x (e : FpEnv) (v : Nat) : FVal := f32.decodeFtz e.ftz v
  [(.cvtE4m3F32, fun o e a => e4m3.narrow e.mode e.ftz (cvtSat o.ext true) (x e a)),
   (.cvtE5m2F32, fun o e a => e5m2.narrow e.mode e.ftz (cvtSat o.ext e.e5sat) (x e a)),
   (.cvtF32E4m3, fun _ e a => e4m3.widen e.ftz (e4m3.decodeFtz e.ftz (a % 256))),
   (.cvtF32E5m2, fun _ e a => e5m2.widen e.ftz (e5m2.decodeFtz e.ftz (a % 256))),
   (.cvtE2m1F32, fun _ e a => e2m1.narrow e.mode e.ftz true (x e a)),
   (.cvtF32E2m1, fun _ e a => e2m1.widen e.ftz (e2m1.decodeFtz e.ftz (a % 16)))]

/-- Those of A alone (R167, R173): the rounding to an integral value in the form's own mode, the fraction, and the
conversions. -/
def fpSingles : List ((Opnd → Instr) × (Opnd → FpEnv → Nat → FRes)) := fpSinglesA ++ fpSinglesB

/-- FSFU (R170): what each gives from the value of A after any flush; the two exact ones round the exact result, the
others answer within the bound of R170. -/
def fpSpecials : List ((Opnd → Instr) × (FpEnv → Word → FVal → FRes)) :=
  [(.frcp, fun e _ v => frcp e.mode e.ftz v), (.fsqrt, fun e _ v => fsqrt e.mode e.ftz v),
   (.frsq, fun e w v => frsq e.ftz w v), (.fexp2, fun e w v => fexp2 e.ftz w v), (.flog2, fun e w v => flog2 e.ftz w v),
   (.fsin, fun e w v => fsin e.ftz w v), (.fcos, fun e w v => fcos e.ftz w v), (.ftanh, fun e w v => ftanh e.ftz w v),
   (.fsigm, fun e w v => fsigm e.ftz w v)]

/-- The inputs of FSFU for which R170 names the result: the function's place in `fpSpecials`, the value of A, and the
code and the flags of the result. -/
def specialCases : List (Nat × FVal × Nat × Word) :=
  [(0, .fin false 0, 0x7F800000, DZ), (0, .fin true 0, 0xFF800000, DZ), (0, .inf false, 0, 0), (0, .inf true, 0x80000000, 0),
   (1, .fin true 0, 0x80000000, 0), (1, .inf false, 0x7F800000, 0), (1, .inf true, 0x7FC00000, NV),
   (2, .fin false 0, 0x7F800000, DZ), (2, .fin true 0, 0xFF800000, DZ), (2, .inf false, 0, 0), (2, .inf true, 0x7FC00000, NV),
   (3, .fin false 0, 0x3F800000, 0), (3, .fin true 0, 0x3F800000, 0), (3, .inf true, 0, 0), (3, .inf false, 0x7F800000, 0),
   (3, .fin false 128, 0x7F800000, OF ||| NX),
   (4, .fin false 1, 0, 0), (4, .fin false 0, 0xFF800000, DZ), (4, .fin true 0, 0xFF800000, DZ), (4, .inf true, 0x7FC00000, NV),
   (5, .fin false 0, 0, 0), (5, .fin true 0, 0x80000000, 0), (5, .inf false, 0x7FC00000, NV), (5, .inf true, 0x7FC00000, NV),
   (6, .fin false 0, 0x3F800000, 0), (6, .fin true 0, 0x3F800000, 0), (6, .inf false, 0x7FC00000, NV), (6, .inf true, 0x7FC00000, NV),
   (7, .fin false 0, 0, 0), (7, .fin true 0, 0x80000000, 0), (7, .inf false, 0x3F800000, 0), (7, .inf true, 0xBF800000, 0),
   (8, .fin false 0, 0x3F000000, 0), (8, .fin true 0, 0x3F000000, 0), (8, .inf false, 0x3F800000, 0), (8, .inf true, 0, 0)]

/-- The rational is the value of a code of the format (R111). -/
def IsValue (f : FloatFmt) (x : Rat) : Prop :=
  ∃ code neg m, code < 2 ^ (f.signBit + 1) ∧ f.decode code = .fin neg m ∧ x = signedRat neg m

/-- The neighbour of q among the values of a format that a rounding mode names (R116); `even` says whether its least
significant fraction bit is 0. -/
structure Rounded (f : FloatFmt) (mode : Nat) (q x : Rat) (even : Bool) : Prop where
  value : IsValue f x
  nearest : mode = 0 → ∀ y, IsValue f y → ratAbs (x - q) ≤ ratAbs (y - q) ∧ (y ≠ x → ratAbs (x - q) = ratAbs (y - q) → even = true)
  toZero : mode = 1 → ratAbs x ≤ ratAbs q ∧ 0 ≤ x * q ∧ ∀ y, IsValue f y → ratAbs y ≤ ratAbs q → ratAbs y ≤ ratAbs x
  down : mode = 2 → x ≤ q ∧ ∀ y, IsValue f y → y ≤ q → y ≤ x
  up : mode = 3 → q ≤ x ∧ ∀ y, IsValue f y → q ≤ y → x ≤ y

/-- Rounded with the exponent range unbounded above, q exceeds the largest finite value of the format (R115, R116). -/
def Beyond (f : FloatFmt) (mode : Nat) (q : Rat) : Prop :=
  let h := pow2 (f.emax - f.fracBits - 1)
  let a := ratAbs q
  f.largest + 2 * h ≤ a ∨ (mode = 0 ∧ (f.largest + h < a ∨ (f.largest + h = a ∧ f ≠ e4m3))) ∨
    (mode = 2 ∧ q < 0 ∧ f.largest < a) ∨ (mode = 3 ∧ 0 < q ∧ f.largest < a)

/-- FCMP (R169): the relation of two values that are no NaN, what it gives for a NaN, and whether a quiet NaN raises
NV. -/
def fpCompares : List ((Opnd → Instr) × Bool × Bool × (FVal → FVal → Bool)) :=
  [(.fcmpEq, false, false, eqVal), (.fcmpNe, true, false, fun x y => !eqVal x y),
   (.fcmpLt, false, true, belowVal), (.fcmpLe, false, true, fun x y => !belowVal y x),
   (.fcmpGt, false, true, fun x y => belowVal y x), (.fcmpGe, false, true, fun x y => !belowVal x y),
   (.fcmpOrd, false, false, fun _ _ => true), (.fcmpUnord, true, false, fun _ _ => false)]

/-- The predicate operations of two predicates (R182). -/
def lanePredicates : List ((Opnd → Instr) × (LaneMask → LaneMask → LaneMask)) :=
  [(.pand, fun a b => a &&& b), (.por, fun a b => a ||| b), (.pxor, fun a b => a ^^^ b), (.pnot, fun a _ => ~~~a),
   (.pmov, fun a _ => a)]

/-- The lanes of a segment that MOD gives (R176). -/
def segmentSize (x : Ext) : Nat := [4, 8, 32].getD x.mod.toNat 96

/-- SHFL (R177): the lane named by lane l of a segment of n lanes from base, from the word of B. -/
def laneShuffles : List ((Opnd → Instr) × (Opnd → Word → Nat → Nat → Nat → Int)) :=
  [(.shflIdx, fun _ b _ n base => (base : Int) + (b.toNat % n : Nat)),
   (.shflUp, fun o _ l _ _ => (l : Int) - (o.ext.imm.extractLsb' 0 7).toNat),
   (.shflDown, fun o _ l _ _ => (l : Int) + (o.ext.imm.extractLsb' 0 7).toNat),
   (.shflXor, fun o _ l _ base => (base : Int) + ((l - base) ^^^ (o.ext.imm.extractLsb' 0 7).toNat : Nat))]

/-- LRED (R179): the source as the fold takes it, and one step of the fold. -/
def laneFolds : List ((Opnd → Instr) × (FpEnv → Nat → Nat) × (FpEnv → Nat → Nat → FRes)) :=
  [(.lredAddS32, fun _ x => x, fun _ a b => { code := (a + b) % 2 ^ 32 }),
   (.lredAddF32, fun e x => f32.flushed e.ftz x, addF),
   (.lredMinS32, fun _ x => x, fun _ a b => { code := (minS (BitVec.ofNat 32 a) (BitVec.ofNat 32 b)).toNat }),
   (.lredMaxS32, fun _ x => x, fun _ a b => { code := (maxS (BitVec.ofNat 32 a) (BitVec.ofNat 32 b)).toNat }),
   (.lredMinF32, fun e x => f32.flushed e.ftz x, fun e a b => f32.pick e.ftz false false a b),
   (.lredMaxF32, fun e x => f32.flushed e.ftz x, fun e a b => f32.pick e.ftz false true a b)]

/-- SCAN (R179). -/
def laneScans : List ((Opnd → Instr) × (FpEnv → Nat → Nat) × (FpEnv → Nat → Nat → FRes)) :=
  [(.scanAddS32, fun _ x => x, fun _ a b => { code := (a + b) % 2 ^ 32 }),
   (.scanAddF32, fun e x => f32.flushed e.ftz x, addF)]

/-- QLAT and LATERR (R175): what an acting octet's leader receives. -/
def latticeLeaders : List ((Opnd → Instr) × (Opnd → FpEnv → Wave → Nat → FRes)) :=
  [(.qlatX2, fun o e w k => qlatX2 (octetVals w e o.a.toNat k) (leaderWord w o.b.toNat k % 256)),
   (.qlatX4, fun o e w k => qlatX4 (octetVals w e o.a.toNat k) (leaderWord w o.b.toNat k % 128)),
   (.laterr, fun o e w k =>
     let code := leaderWord w o.b.toNat k
     let scale := leaderWord w o.ext.c.toNat k % 256
     if o.ext.mod.getLsbD 0 then laterrOne e (octetVals w e o.a.toNat k) (gainX4 code) (valuesX4 code)
     else laterrOne e (octetVals w e o.a.toNat k) (scaleOf scale) (valuesX2 (code % 65536) scale))]

/-- DLAT (R175): the eight values that the leader's words of A and B encode. -/
def latticeDecodes : List ((Opnd → Instr) × (Nat → Nat → List (Option Rat))) :=
  [(.dlatX2, fun a b => valuesX2 (a % 65536) (b % 256)), (.dlatX4, fun a _ => valuesX4 a)]

/-- Group arithmetic on pairs (R186). -/
def groupPairs : List ((Opnd → Instr) × (BitVec 64 → BitVec 64 → BitVec 64)) :=
  [(.gadd64, fun a b => BitVec.ofNat 64 (a.toNat + b.toNat)), (.gsub64, fun a b => BitVec.ofInt 64 (a.toInt - b.toInt))]

/-- The jumps through a register pair, and whether they link (R193). -/
def registerJumps : List ((Opnd → Instr) × Bool) := [(.jmpg, false), (.callg, true), (.ret, false)]

/-- BRC (R194). -/
def groupBranches : List ((Opnd → Instr) × (Word → Word → Bool)) :=
  [(.brcEq, fun a b => a == b), (.brcNe, fun a b => a != b), (.brcLtS32, fun a b => decide (a.toInt < b.toInt)),
   (.brcLeS32, fun a b => decide (a.toInt ≤ b.toInt)), (.brcLtN32, fun a b => decide (a.toNat < b.toNat)),
   (.brcLeN32, fun a b => decide (a.toNat ≤ b.toNat))]

/-- BRP (R195): what a slice of k active lanes, n of them with the predicate set, does. -/
def partingBranches : List ((Opnd → Instr) × (Nat → Nat → Bool)) :=
  [(.brpAny, fun _ n => decide (0 < n)), (.brpAll, fun k n => n == k), (.brpNone, fun _ n => n == 0)]

/-- BAR (R204): whether it is a crew barrier, and whether the gang waits. -/
def barriers : List ((Opnd → Instr) × Bool × Bool) := [(.barSync, false, true), (.barArrive, false, false), (.barCrew, true, true)]

/-- FENCE (R210): whether it acquires. -/
def fences : List ((Opnd → Instr) × Bool) := [(.fenceAcq, true), (.fenceRel, false), (.fenceAcqrel, true)]

/-- A condition of a WAIT holds (R200), of a wave w whose D is empty: kind 1 compares the tile word, kind 2 looks at the
gate's PHASE and POISON, kinds 3 and 4 at the queue's COUNT and the wave's allowance, 5 at the register, 6 at CLOCK_REF
and 7 at the event counter. -/
def Holds (s : State) (w : Wave) (c : Crew) (k : Condition) : Prop :=
  let off := k.loc % 2 ^ 20
  let word (b : Block) (at_ : Nat) : Word := BitVec.ofNat 32 (leNat (b.bytes at_ 4))
  match k.kind with
  | 1 => ∃ b, s.condBlock w c k = some b ∧
      let x := word b (b.visible off)
      match k.op with
      | 0 => x = k.opnd
      | 1 => x ≠ k.opnd
      | 2 => x.toInt < k.opnd.toInt
      | 3 => k.opnd.toInt ≤ x.toInt
      | 4 => x.toNat < k.opnd.toNat
      | _ => k.opnd.toNat ≤ x.toNat
  | 2 => ∃ b, s.condBlock w c k = some b ∧
      ((word b (b.visible off + 8)).getLsbD 0 ≠ k.opnd.getLsbD 0 ∨ (word b (b.visible off + 8)).getLsbD 1 = true)
  | 3 => ∃ b, s.block? c.id w.ref.rank = some b ∧ 0 < b.queueCount k.loc
  | 4 => ∃ b, s.block? c.id w.ref.rank = some b ∧ 0 < b.allowance k.loc w.ref.wave
  | 5 => w.isFull (if 64 ≤ k.loc then .g else .v) (k.loc % 64) = true
  | 6 => 0 ≤ (BitVec.ofNat 32 s.tick - k.opnd).toInt
  | 7 => 0 ≤ ((s.eventCount c.part k.loc).setWidth 32 - k.opnd).toInt
  | _ => False

/-- A condition of kind 2 whose gate is poisoned (R202). -/
def GatePoisoned (s : State) (w : Wave) (c : Crew) (k : Condition) : Prop :=
  k.kind = 2 ∧ ∃ b, s.condBlock w c k = some b ∧ (BitVec.ofNat 32 (leNat (b.bytes (b.visible (k.loc % 2 ^ 20) + 8) 4))).getLsbD 1 = true

/-! ## System registers -/

/-- The 32-bit registers of R148, and what each reads. -/
def systemWords : List (Nat × (State → Wave → Crew → Word)) :=
  [(0x000, fun _ w c => w.blockId * BitVec.ofNat 32 w.waves + BitVec.ofNat 32 (w.launchG1 c)),
   (0x001, fun _ w _ => w.blockId),
   (0x002, fun _ w c => BitVec.ofNat 32 (w.ref.rank + 2 ^ 4 * (c.size - 1))),
   (0x003, fun _ w c => BitVec.ofNat 32 (c.coreOf w.ref.rank)),
   (0x004, fun _ w _ => BitVec.ofNat 32 w.role),
   (0x005, fun _ _ c => BitVec.ofNat 32 c.part),
   (0x010, fun _ w _ => w.fp),
   (0x011, fun s w c => (0 : BitVec 30) ++ BitVec.ofBool (s.part c.part).woad ++ BitVec.ofBool w.sup),
   (0x01C, fun _ w _ => w.dbgCtl),
   (0x020, fun s w c => w.trapCause.extractLsb' 30 2 ++ BitVec.ofBool (s.buffer c.clusterNo).dropped ++ w.trapCause.extractLsb' 0 29),
   (0x026, fun _ w _ => w.trapLanes.extractLsb' 0 32),
   (0x027, fun _ w _ => w.trapLanes.extractLsb' 32 32),
   (0x028, fun _ w _ => w.trapLanes.extractLsb' 64 32)]

/-- Its 64-bit registers without a latch, by their low word's number. -/
def systemPairs : List (Nat × (Wave → Crew → BitVec 64)) :=
  [(0x00C, fun _ c => c.image.codeBase), (0x018, fun w _ => w.handlerBase), (0x01A, fun w _ => w.poolBase),
   (0x022, fun w _ => w.trapPc), (0x024, fun w _ => w.trapAddr),
   (0x030, fun w _ => w.segs.tileBase), (0x032, fun w _ => w.segs.tileLimit), (0x034, fun w _ => w.segs.stackBase),
   (0x036, fun w _ => w.segs.stackLimit), (0x038, fun w _ => w.segs.stackBack), (0x03A, fun w _ => w.segs.globalBase),
   (0x03C, fun w _ => w.segs.globalLimit)]

/-- Its registers marked L, by their low word's number, with the place of the latch. -/
def latchedPairs : List (Nat × Nat × (State → Wave → Crew → BitVec 64)) :=
  [(0x006, 0, fun _ _ c => BitVec.ofNat 64 c.work), (0x008, 1, fun s _ _ => BitVec.ofNat 64 s.tick),
   (0x00A, 2, fun s w c => BitVec.ofNat 64 (Config.cycleOrigin (c.coreOf w.ref.rank) + s.cycle)),
   (0x040, 3, fun s w c => BitVec.ofNat 64 (((s.block? c.id w.ref.rank).map fun b => b.dramBytes).getD 0)),
   (0x042, 4, fun s _ c => BitVec.ofNat 64 (cellGet 0 s.fills c.clusterNo)),
   (0x044, 5, fun s _ c => BitVec.ofNat 64 (((s.l2.filter fun x => x.home == c.clusterNo).map L2Line.sectors).sum)),
   (0x046, 6, fun s _ c => BitVec.ofNat 64 (((s.l2.filter fun x => x.home == c.clusterNo).filter fun x => x.sectors != 4).length))]

/-- What an SSYS of each number writes (R113, R148, R333): of FP_CTRL its fields, of DEBUG_CTRL its two controls, of
TRAP_CAUSE only ACT. -/
def systemWrites : List (Nat × (Wave → Word → Wave)) :=
  [(0x010, fun w v => { w with fp := v &&& 0x3F8F }),
   (0x018, fun w v => { w with handlerBase := w.handlerBase.extractLsb' 32 32 ++ v }),
   (0x019, fun w v => { w with handlerBase := v ++ w.handlerBase.extractLsb' 0 32 }),
   (0x01A, fun w v => { w with poolBase := w.poolBase.extractLsb' 32 32 ++ v }),
   (0x01B, fun w v => { w with poolBase := v ++ w.poolBase.extractLsb' 0 32 }),
   (0x01C, fun w v => { w with dbgCtl := v &&& 3 }),
   (0x020, fun w v => { w with trapCause := v.extractLsb' 30 2 ++ w.trapCause.extractLsb' 0 30 }),
   (0x022, fun w v => { w with trapPc := w.trapPc.extractLsb' 32 32 ++ v }),
   (0x023, fun w v => { w with trapPc := v ++ w.trapPc.extractLsb' 0 32 }),
   (0x024, fun w v => { w with trapAddr := w.trapAddr.extractLsb' 32 32 ++ v }),
   (0x025, fun w v => { w with trapAddr := v ++ w.trapAddr.extractLsb' 0 32 }),
   (0x026, fun w v => { w with trapLanes := w.trapLanes.extractLsb' 32 64 ++ v }),
   (0x027, fun w v => { w with trapLanes := w.trapLanes.extractLsb' 64 32 ++ v ++ w.trapLanes.extractLsb' 0 32 }),
   (0x028, fun w v => { w with trapLanes := v ++ w.trapLanes.extractLsb' 0 64 })]

/-! ## Translation -/

/-- A 64-bit word of a table in memory. -/
def tableWord (s : State) (mt pa : Nat) : BitVec 64 := BitVec.ofNat 64 (leNat (s.memBytes (memKey mt pa) 8))

/-- FRAME and MT of a translation entry (R69). -/
def frameOf (e : BitVec 64) : Nat := (e.extractLsb' 17 35).toNat
def mtOf (e : BitVec 64) : Nat := (e.extractLsb' 12 4).toNat

/-- The frame lies where its partition may reach (R69, R330 SUB 7). -/
def FrameAllowed (s : State) (part mt frame : Nat) : Prop :=
  (mt < 8 → (s.part part).spans.getLsbD mt = true ∧ frame < 2 ^ 19) ∧
  (mt = 8 → frame < 2 ^ 23 ∧ (s.part part).lpch.getLsbD (frame / 2 ^ 18) = true)

open Classical in
/-- A leaf that maps a frame (R69, R330 SUB 6 and 7). -/
def leafOf (s : State) (part : Nat) (e : BitVec 64) (frame mt pa : Nat) : Walk :=
  if e.extractLsb' 52 4 ≠ 0 ∨ e.getLsbD 16 = true ∨ e.extractLsb' 10 2 ≠ 0 ∨ 13 ≤ mtOf e then .malformed 6
  else if FrameAllowed s part (mtOf e) frame then .leaf e frame mt pa
  else .malformed 7

/-- A level-3 entry at its place (R70, R73, R330 SUB 0 to 2). -/
def levelThree (s : State) (part mt pa : Nat) : Walk :=
  let e := tableWord s mt pa
  if e.getLsbD 0 = false then .missing (if e.getLsbD 8 then 1 else 0) e mt pa
  else if e.getLsbD 1 = false then .malformed 2
  else leafOf s part e (frameOf e) mt pa

/-- The RADIX walk of an address from memory (R70, R330), where no cached entry and no contiguity hint is used. -/
def radixOf (s : State) (part : Nat) (a : BitVec 64) (rmt root : Nat) : Walk :=
  let index (lo n : Nat) : Nat := (a.extractLsb' lo n).toNat
  let pa1 := root + 8 * index 45 12
  let e1 := tableWord s rmt pa1
  let pa2 := frameOf e1 * 2 ^ 17 + 8 * index 31 14
  let e2 := tableWord s (mtOf e1) pa2
  if e1.getLsbD 0 = false then .missing 0 e1 rmt pa1
  else if e1.getLsbD 1 = true then .malformed 1
  else if 13 ≤ mtOf e1 then .malformed 6
  else if e2.getLsbD 0 = false then .missing 0 e2 (mtOf e1) pa2
  else if 13 ≤ mtOf e2 then .malformed 6
  else if e2.getLsbD 1 = false then levelThree s part (mtOf e2) (frameOf e2 * 2 ^ 17 + 8 * index 17 14)
  else if frameOf e2 % 2 ^ 14 ≠ 0 then .malformed 3
  else leafOf s part e2 (frameOf e2 + index 17 14) (mtOf e1) pa2

/-- The RANGE walk of an address from memory (R72, R73, R330), from a node on with the depths that are left; a nonzero
reserved field and a leaf with L = 0 end it as the model chooses (assumption log 71, 78). -/
def rangeOf (s : State) (part : Nat) (a : BitVec 64) : Nat → Nat → Nat → Walk
  | 0, _, _ => .malformed 5
  | depths + 1, mt, node =>
    let word (slot i : Nat) : BitVec 64 := tableWord s mt (node + 32 * slot + 8 * i)
    let page (w : BitVec 64) : Nat := (w.extractLsb' 17 40).toNat
    let kind (slot : Nat) : Nat := ((word slot 3).extractLsb' 0 2).toNat
    let unread (w : BitVec 64) : Bool := w.extractLsb' 57 7 != 0 || w.extractLsb' 0 17 != 0
    let count := ((word 0 0).extractLsb' 0 3).toNat
    let slots := (List.range count).map fun k => k + 1
    let sorted := slots.all fun k => page (word k 0) ≤ page (word k 1) && (k == count || page (word k 1) < page (word (k + 1) 0))
    let clean := (word 0 0).extractLsb' 3 61 == 0 && ([1, 2, 3].all fun i => word 0 i == 0) && slots.all fun k =>
      !unread (word k 0) && !unread (word k 1) && (if kind k = 1 then (word k 3).extractLsb' 8 44 == 0 else word k 2 == 0)
    let v := (a.extractLsb' 17 40).toNat
    if count = 0 then .malformed 4
    else if !(sorted && clean) then .malformed 6
    else match slots.find? fun k => page (word k 0) ≤ v && v ≤ page (word k 1) with
    | none => .missing 2 0 mt node
    | some k =>
      let e := word k 2
      let v0 := page (word k 0)
      let cmt := ((word k 3).extractLsb' 4 4).toNat
      let child := ((word k 3).extractLsb' 8 44).toNat * 2 ^ 8
      match kind k with
      | 1 =>
        if e.getLsbD 0 = false then .missing 0 e mt (node + 32 * k + 16)
        else if e.getLsbD 1 = false then .malformed 2
        else leafOf s part e ((frameOf e + (v - v0)) % 2 ^ 35) mt (node + 32 * k + 16)
      | 2 => if 13 ≤ cmt then .malformed 6 else rangeOf s part a depths cmt child
      | 3 =>
        if 13 ≤ cmt then .malformed 6
        else if 2 ^ 14 ≤ page (word k 1) - v0 then .malformed 4
        else levelThree s part cmt (child + 8 * (v - v0))
      | _ => .malformed 4

/-! ## Accesses to tile memory -/

/-- Every active lane of an instruction reaches its own bytes of tile memory with one whole access: its checks pass,
it lies at an aligned place of a block of the crew, no poisoned unit is touched, and no access of the wave is held. -/
structure TileAccess (s : State) (c : Issue) (f : AccessForm) (active : LaneMask) (addr : Nat → BitVec 64)
    (place : Nat → Nat × Nat) : Prop where
  reach : ∀ l ∈ LaneMask.lanes active, s.reachLane c.wave c.crew f l (addr l) =
    (.ok [{ off := 0, size := f.size, addr := addr l, place := .tile (place l).1 (place l).2 }], s)
  sound : ∀ l ∈ LaneMask.lanes active, ∃ b, s.block? c.crew.id (place l).1 = some b ∧
    b.tilePoison.contains ((place l).2 / 16 * 16) = false
  free : s.heldOf c.wave.ref = []
  alone : c.crew.isCombiner = false
  rounds : (s.part c.crew.part).woad = false
  direct : c.wave.buffer = []

/-- The bytes of tile memory at a place. -/
def tileBytes (s : State) (crew : Nat) (p : Nat × Nat) (n : Nat) : List Byte :=
  match s.block? crew p.1 with
  | some b => b.bytes p.2 n
  | none => []

/-- Tile memory after a plain write of n bytes at a place, which f gives from those that stood there. -/
def tileWrite (s : State) (crew : Nat) (p : Nat × Nat) (n : Nat) (f : List Byte → List Byte) : State :=
  let s1 := s.clearTag 0 (8 * crew + p.1) p.2 n
  match s1.block? crew p.1 with
  | some b =>
    let b1 := b.store p.2 (f (b.bytes p.2 n))
    s1.putBlock (if n = 16 then { b1 with tilePoison := b1.tilePoison.filter fun u => u != p.2 } else b1)
  | none => s1

/-- Every active lane of an instruction reaches mapped GLOBAL or STACK memory (R61, R62): its checks pass, and s1 is the
state after its walks. Each of its pieces lies in memory, through a leaf whose bits `ad` are set already, writable for a
write, with no poison and no link that is down. Nothing holds the access back, and no promotion is to be made. -/
structure MemoryAccess (s s1 : State) (c : Issue) (f : AccessForm) (ad : BitVec 64) (active : LaneMask) (addr : Nat → BitVec 64)
    (ok : List (Nat × List Piece)) : Prop where
  reach : s.reachLanes c.wave c.crew f addr (LaneMask.lanes active) = (ok, [], s1)
  sound : ∀ x ∈ ok, ∀ p ∈ x.2, ∃ mt pa comp e lmt lpa, p.place = .mem mt pa comp e lmt lpa ∧ e &&& ad = ad ∧
    (f.write = true → entryW e = true) ∧ s.memPoisoned mt pa p.size = false ∧ s.linkDown mt = false
  free : s.heldOf c.wave.ref = []
  unheld : s.piecesHeld c.crew.id ok = false
  calm : s.promotes (fun _ => true) = false
  alone : c.crew.isCombiner = false
  rounds : (s.part c.crew.part).woad = false
  direct : c.wave.buffer = []

/-- The key of a piece's first byte in memory. -/
def pieceKey (p : Piece) : Nat :=
  match p.place with
  | .mem mt pa _ _ _ _ => memKey mt pa
  | _ => 0

/-- The bytes of memory at the pieces of a lane, in order. -/
def laneBytes (s : State) (ok : List (Nat × List Piece)) (l : Nat) : List Byte :=
  match ok.find? fun x => x.1 == l with
  | some x => x.2.flatMap fun p => s.memBytes (pieceKey p) p.size
  | none => []

/-- Memory after each lane's bytes are stored at its pieces, lanes ascending; `bytes` gives them from the memory then. -/
def storedAt (s : State) (ok : List (Nat × List Piece)) (bytes : State → Nat → List Byte) : State :=
  ok.foldl (fun s x => x.2.foldl (fun t p => t.putMem (pieceKey p) (((bytes s x.1).drop p.off).take p.size)) s) s

/-- Every byte of tile memory reads as before. -/
abbrev SameTiles (s t : State) : Prop := ∀ crew q n, tileBytes t crew q n = tileBytes s crew q n

/-- The byte of memory lies in no piece. -/
def Outside (ok : List (Nat × List Piece)) (k : Nat) : Prop := ∀ x ∈ ok, ∀ p ∈ x.2, k < pieceKey p ∨ pieceKey p + p.size ≤ k

/-- No strong access to tile memory is remembered (R97, R391). -/
abbrev NoStrongInTiles (s : State) : Prop := (∀ t ∈ s.mixTags, t.point ≠ 0) ∧ ∀ f ∈ s.strongs, f.place = 0

/-- Tile memory after a strong access of n bytes at a place by a read-modify-write, which writes what f gives, if any. -/
def tileAtomic (s : State) (crew : Nat) (p : Nat × Nat) (n : Nat) (f : List Byte → Option (List Byte)) : State :=
  let writes := (f (tileBytes s crew p n)).isSome
  let s1 := s.noteStrong 0 (8 * crew + p.1) p.2 n writes
  match s1.block? crew p.1, f (tileBytes s crew p n) with
  | some b, some new => s1.putBlock (b.store p.2 new)
  | _, _ => s1

/-- The loads other than that of an e2m1 array (R217, R220): bytes of an element, its format, its address. -/
def loadForms (fmt size : BitVec 6) : List ((Opnd → Instr) × Nat × (Wave → Opnd → Nat → BitVec 64)) :=
  [(.ld fmt, fmt.toNat, fun w o l => w.readV2 o.a.toNat l + o.ext.imm.signExtend 64),
   (.ldt size, 4 + size.toNat, fun w o l => w.readG2 o.a.toNat + ((w.readV o.b.toNat).at_ l).setWidth 64 + o.ext.imm.signExtend 64)]

/-- The stores other than that to an e2m1 array: the bytes of an element, its address, and what it writes. -/
def storeForms (fmt size : BitVec 6) :
    List ((Opnd → Instr) × Nat × (Wave → Opnd → Nat → BitVec 64) × (Wave → Opnd → Nat → List Byte)) :=
  [(.st fmt, fmtBytes fmt.toNat, fun w o l => w.readV2 o.a.toNat l + o.ext.imm.signExtend 64, fun w o l =>
      leBytes (fmtBytes fmt.toNat) (stValue fmt.toNat ((List.range (max 1 (fmtBytes fmt.toNat / 4))).map fun j =>
        (w.readV (o.b.toNat + j)).at_ l))),
   (.stt size, fmtBytes (4 + size.toNat),
    fun w o l => w.readG2 o.a.toNat + ((w.readV o.b.toNat).at_ l).setWidth 64 + o.ext.imm.signExtend 64,
    fun w o l => (List.range (fmtBytes (4 + size.toNat) / 4)).flatMap fun j => leBytes 4 ((w.readV (o.d.toNat + j)).at_ l).toNat)]

/-- ATOM (R222): the bytes, and the new value from the old one and the operand, as 64-bit numbers. -/
def atomForms (order : BitVec 2) : List ((Opnd → Instr) × Nat × (BitVec 64 → BitVec 64 → Nat)) :=
  let w (x : BitVec 64) : Word := x.extractLsb' 0 32
  [(.atomAddS32 order, 4, fun x y => ((w x).toNat + (w y).toNat) % 2 ^ 32),
   (.atomAddS64 order, 8, fun x y => (x.toNat + y.toNat) % 2 ^ 64),
   (.atomAddF32 order, 4, fun x y => (addF32Plain (w x) (w y)).toNat),
   (.atomMinS32 order, 4, fun x y => if (w x).toInt ≤ (w y).toInt then (w x).toNat else (w y).toNat),
   (.atomMaxS32 order, 4, fun x y => if (w x).toInt ≤ (w y).toInt then (w y).toNat else (w x).toNat),
   (.atomMinN32 order, 4, fun x y => min (w x).toNat (w y).toNat),
   (.atomMaxN32 order, 4, fun x y => max (w x).toNat (w y).toNat),
   (.atomAnd order, 4, fun x y => (w x &&& w y).toNat), (.atomOr order, 4, fun x y => (w x ||| w y).toNat),
   (.atomXor order, 4, fun x y => (w x ^^^ w y).toNat), (.atomExch order, 4, fun _ y => (w y).toNat),
   (.atomInc order, 4, fun x y => if (w y).toNat ≤ (w x).toNat then 0 else (w x).toNat + 1)]

/-- CAS (R224): the bytes. -/
def casForms : List ((Opnd → Instr) × Nat) := [(.casB32, 4), (.casB64, 8)]

/-- The operand of a read-modify-write of n bytes in a lane. -/
def laneOperand (w : Wave) (n r l : Nat) : BitVec 64 :=
  if n = 8 then (w.readV (r + 1)).at_ l ++ (w.readV r).at_ l else ((w.readV r).at_ l).setWidth 64

/-- The accesses to an e2m1 array (R218): KIND of R333, and the index register. -/
def nibbleForms : List ((Opnd → Instr) × Nat × (Opnd → Nat)) := [(.ld 13, 0, fun o => o.b.toNat), (.st 13, 2, fun o => o.d.toNat)]

/-- The lane accesses that must be aligned (R216): bytes, KIND of R333, and the address. -/
def alignedForms (fmt size : BitVec 6) (order : BitVec 2) :
    List ((Opnd → Instr) × Nat × Nat × (Wave → Opnd → Nat → BitVec 64)) :=
  (loadForms fmt size).map (fun p => (p.1, fmtBytes p.2.1, 0, p.2.2)) ++
    (storeForms fmt size).map (fun p => (p.1, p.2.1, 1, p.2.2.1)) ++
    (atomForms order).map (fun p => (p.1, p.2.1, 2, fun w o l => w.readV2 o.a.toNat l + o.ext.imm.signExtend 64)) ++
    casForms.map (fun p => (p.1, p.2, 3, fun w o l => w.readV2 o.a.toNat l))

/-! ## Engines, the matrix unit and the pipeline -/

/-- The engine commands and their kinds (R55, R233). -/
def engineForms : List ((Opnd → Instr) × Nat) := [(.copy, 1), (.copyw, 2), (.copys, 3), (.xfm, 4)]

/-- DRAIN (R252): its minor. -/
def drainForms : List ((Opnd → Instr) × Nat) :=
  [(.drainF32, 0), (.drainF16, 1), (.drainBf16, 2), (.drainE4m3mx, 3), (.drainE2m1x, 4), (.drainL8x2, 5), (.drainArgmax, 6)]

/-- The instructions that give a value for each pixel (R256, R257), from the wave, the pass, the tile, its block, the
record and the lane. -/
def pixelForms : List ((Opnd → Instr) × (Opnd → Wave → RenderPass → TilePass → Block → Nat → Nat → Word)) :=
  [(.pixinfo, fun o _ r t b k _ => pixinfo r t b (o.ext.imm.toNat % 16) (o.ext.imm.toNat / 16 % 4 % r.samples) k),
   (.ipa, fun o w r t _ k l => BitVec.ofNat 32 (f32.roundVal (planeAt w o.a.toNat l (pointAt r t o.ext.imm.toNat k)))),
   (.ipaPersp, fun o w r t _ k l =>
     let p := pointAt r t o.ext.imm.toNat k
     BitVec.ofNat 32 (f32.roundVal (quotVal (planeAt w o.a.toNat l p) (planeAt w o.b.toNat l p))))]

/-- The checks of an HCALL's lanes, in lane order (R226): the place of each, when every one passes. -/
def callPlaces (w : Wave) (c : Crew) (f : AccessForm) (addr : Nat → BitVec 64) : List Nat → State → Option (List (Nat × Piece) × State)
  | [], s => some ([], s)
  | l :: ls, s =>
    match s.reachCall w c f l (addr l) with
    | (.ok p, s1) => (callPlaces w c f addr ls s1).map fun x => ((l, p) :: x.1, x.2)
    | (.error _, _) => none

/-- SAMPLE and SAMPLEL: the level of detail of a lane (R259). -/
def sampleForms : List ((Opnd → Instr) × (Opnd → Wave → Texture → Nat → Word)) :=
  [(.sample, fun o w t l => quadLod false t w o.a.toNat l), (.samplel, fun o w _ l => (w.readV o.ext.c.toNat).at_ l)]

/-- A primitive is appended to the lists of the tiles that it touches, in order (R273). -/
def appendAll (blk : Option (Nat × Nat)) (n : Nat) : List Nat → RenderPass → State → Except DevError (RenderPass × State)
  | [], r, s => .ok (r, s)
  | t :: ts, r, s =>
    match s.appendEntry r blk n t with
    | .ok x => appendAll blk n ts x.1 x.2
    | .error e => .error e

/-! ## Device events -/

/-- The TAKE events and the KIND that each takes (R288). -/
def takeForms : List ((Fin 2048 → Instr) × Nat) :=
  [(.takeLaunch, 1), (.takeRenderpass, 2), (.takeGraph, 3), (.takeWaitevent, 4), (.takeSignal, 5), (.takeBarrier, 6)]

/-- Each partition stands at its own number. -/
abbrev PartsNumbered (s : State) : Prop := ∀ k, k < s.parts.length → (s.part k).num = k

/-- A port through which the control window answers, and whose node may write the partition's registers. -/
abbrev Administers (s : State) (port p : Nat) : Prop := s.windowOn port = true ∧ s.administers port p = true

/-- The wait that a gang of a wave is in, with the wave and its gang. -/
structure WaitsIn (s : State) (r : WaveRef) (slice : Nat) (x : Wave) (g : Gang) : Prop where
  wave : s.wave? r = some x
  gang : x.gang? slice = some g
  round : s.roundHolds r = false

/-! ## Frames -/

/-- Lane instructions that write one register D, or a pair, in their active lanes, without a flag; with its width. -/
def laneForms : List ((Opnd → Instr) × Nat) :=
  ((laneIalu ++ laneBits ++ laneBitwise).map fun p => (p.1, 1)) ++ (laneMads.map fun p => (p.1, 1)) ++
    (laneShuffles.map fun p => (p.1, 1)) ++ [(.movil, 1), (.movih, 1), (.gbc, 1), (.laneid, 1), (.sel, 1)] ++
    lanePairs.map fun p => (p.1, 2)

/-- Lane instructions that write D in active lanes and set flags. -/
def flagForms : List (Opnd → Instr) :=
  (fpPairs.map Prod.fst) ++ (fpTriples.map Prod.fst) ++ (fpSingles.map Prod.fst) ++ (fpSpecials.map Prod.fst) ++
    (laneFolds.map Prod.fst) ++ (laneScans.map Prod.fst) ++ latticeLeaders.map Prod.fst

/-- Lane instructions that write a predicate in their active lanes, and set no flag. -/
def predForms : List (Opnd → Instr) := (laneCompares.map Prod.fst) ++ lanePredicates.map Prod.fst

/-- Group instructions that write D, with its width. -/
def groupForms : List ((Opnd → Instr) × Nat) :=
  (groupWords.map fun p => (p.1, 1)) ++ [(.gsel, 1)] ++ groupPairs.map fun p => (p.1, 2)

/-- The exception flags of FP_CTRL (R113). -/
def fpFlags : Word := 0x3F80

/-- The wave's other gangs stand as they were. -/
abbrev OtherGangs (c : Issue) (w : Wave) : Prop := ∀ g : Gang, g.slices ≠ c.gang.slices → (g ∈ w.gangs ↔ g ∈ c.wave.gangs)

/-- Every byte of memory and of tile memory reads as before. -/
abbrev MemoryUnchanged (s t : State) : Prop :=
  (∀ a, t.memBytes a 1 = s.memBytes a 1) ∧ ∀ crew p, tileBytes t crew p 1 = tileBytes s crew p 1

/-- The other waves stand as they were. -/
abbrev OtherWaves (s t : State) (r : WaveRef) : Prop := ∀ x, x ≠ r → t.wave? x = s.wave? x

end Sys2Proof.Safety

end
end

