-- ==== Sys2Proof/Certificates/Slice0/Obligations.lean ====
section
/-! DEFINITION. The statements of this slice. Each docstring names the rules of the spec it follows. -/

open Sys2Proof Sys2Proof.Machine Sys2Proof.Safety

noncomputable section

/-- One word or pair of words per form, written out bit by bit from the field layouts and the opcode maps (IADD, IADDI,
FFMA with a predicate, LD.b32, GADD, GADDI, GMOVL, BRA, BRC, V2G of a fixed lane, RTE, NOP), decodes to the
instruction it stands for. (R136, R137, R138, R144, R145, R147) -/
def Obligations.EncodingsOfTheSpecDecode : Prop :=
  decodeWords (0#1 ++ 0#1 ++ 0x00#6 ++ 1#6 ++ 2#6 ++ 3#6 ++ 0#6 : BitVec 32) 0 = .ok (.iadd { d := 1, a := 2, b := 3, x := none }) ∧
  decodeWords (0#1 ++ 0#1 ++ 0x01#6 ++ 4#6 ++ 5#6 ++ 0xFFF#12 : BitVec 32) 0 = .ok (.iaddi { d := 4, a := 5, imm := 0xFFF }) ∧
  decodeWords (0#1 ++ 1#1 ++ 0x0B#6 ++ 8#6 ++ 4#6 ++ 5#6 ++ 0#6 : BitVec 32) (6#6 ++ 2#3 ++ 1#1 ++ 0#6 ++ 0#16 : BitVec 32) =
    .ok (.ffma { d := 8, a := 4, b := 5, x := some { c := 6, pr := 2, pn := true, ea := false, eb := false, ec := false, mod := 0, imm := 0 } }) ∧
  decodeWords (0#1 ++ 1#1 ++ 0x15#6 ++ 7#6 ++ 2#6 ++ 0#6 ++ 4#6 : BitVec 32) (0#6 ++ 7#3 ++ 0#7 ++ 0x0010#16 : BitVec 32) =
    .ok (.ld 4 { d := 7, a := 2, b := 0, x := some { c := 0, pr := 7, pn := false, ea := false, eb := false, ec := false, mod := 0, imm := 0x10 } }) ∧
  decodeWords (1#1 ++ 0#1 ++ 0x00#6 ++ 9#6 ++ 10#6 ++ 11#6 ++ 0#6 : BitVec 32) 0 = .ok (.gadd { d := 9, a := 10, b := 11, x := none }) ∧
  decodeWords (1#1 ++ 0#1 ++ 0x01#6 ++ 9#6 ++ 10#6 ++ 5#12 : BitVec 32) 0 = .ok (.gaddi { d := 9, a := 10, imm := 5 }) ∧
  decodeWords (1#1 ++ 1#1 ++ 0x04#6 ++ 9#6 ++ 0#6 ++ 0#6 ++ 0#6 : BitVec 32) 0xDEADBEEF = .ok (.gmovl { d := 9, a := 0, b := 0, lit := 0xDEADBEEF }) ∧
  decodeWords (1#1 ++ 0#1 ++ 0x08#6 ++ 0xFFFFFF#24 : BitVec 32) 0 = .ok (.bra 0xFFFFFF) ∧
  decodeWords (1#1 ++ 1#1 ++ 0x0A#6 ++ 0#6 ++ 10#6 ++ 11#6 ++ 2#6 : BitVec 32) 0x0380FFFE =
    .ok (.brcLtS32 { d := 0, a := 10, b := 11, x := some { c := 0, pr := 7, pn := false, ea := false, eb := false, ec := false, mod := 0, imm := 0xFFFE } }) ∧
  decodeWords 0xC7303000 0x038000A8 =
    .ok (.v2gLane { d := 12, a := 3, b := 0, x := some { c := 0, pr := 7, pn := false, ea := false, eb := false, ec := false, mod := 0, imm := 0xA8 } }) ∧
  decodeWords 0xD9000003 0x03800000 = .ok (.rte { d := 0, a := 0, b := 0, x := some Ext.default }) ∧
  decodeWords 0xD9000005 0x03800000 = .ok (.nop { d := 0, a := 0, b := 0, x := some Ext.default })

/-- For every well-formed wave instruction and any bytes after it, with every operand and extension field at every value
its encoding admits, decode of its bytes followed by the others is that instruction and the others. Whenever decode
reads an instruction from bytes, the instruction is well formed, and the bytes are its encoding followed by the bytes
left over: no word has two meanings, and no bit of a word is dropped. (R136, R137, R138, R139, R140, R144, R145, R358) -/
def Obligations.DecodingAndEncodingAgree : Prop :=
  (∀ (i : Instr) (rest : List Byte), wellFormed i = true → encodable i = true → decode (encodeBytes i ++ rest) = .ok (i, rest)) ∧
  (∀ (bytes : List Byte) (i : Instr) (rest : List Byte), decode bytes = .ok (i, rest) →
    wellFormed i = true ∧ encodable i = true ∧ bytes = encodeBytes i ++ rest)

/-- If the cells of memory stand in strictly rising order with no cell equal to what an unlisted byte reads as, and step
answers a next state, they do so in that state: whatever issues and whatever event happens, equal memories stay equal
lists. The form is the model's own (assumption log 2); ResetState gives a memory with nothing listed.
(03_memory_and_translation, 02_execution_model) -/
def Obligations.EveryStepKeepsMemoryCanonical : Prop :=
  ∀ (s t : State), Memory.wf s → step s = .next t → Memory.wf t

/-- For any next word: a lane word of an unassigned major, or a group word of one, gives SUB 1; an LI, GI or GB word with
X = 1 gives SUB 4; a GLIT word without its literal and with zero reserved fields gives SUB 5; a minor that IALU or
GALU does not list gives SUB 2; a group instruction whose extension word names a predicate other than 7 gives SUB 6.
(R140, R358) -/
def Obligations.IllegalWordsAreRefusedByName : Prop :=
  (∀ (w0 w1 : Word), w0.getLsbD 31 = false → (w0.extractLsb' 24 6 = 0x05 ∨ 0x20 < (w0.extractLsb' 24 6).toNat) → decodeWords w0 w1 = .error 1) ∧
  (∀ (w0 w1 : Word), w0.getLsbD 31 = true → 0x19 < (w0.extractLsb' 24 6).toNat → decodeWords w0 w1 = .error 1) ∧
  (∀ (w0 w1 : Word), w0.getLsbD 30 = true → shortForm (w0.getLsbD 31) (w0.extractLsb' 24 6) = true → decodeWords w0 w1 = .error 4) ∧
  (∀ (d : BitVec 6) (w1 : Word), decodeWords (1#1 ++ 0#1 ++ 0x04#6 ++ d ++ 0#6 ++ 0#6 ++ 0#6 : BitVec 32) w1 = .error 5) ∧
  (∀ (s : Bool) (x : BitVec 1) (d a b fn : BitVec 6) (w1 : Word), (if s then 19 else 14) < fn.toNat →
    decodeWords (BitVec.ofBool s ++ x ++ 0#6 ++ d ++ a ++ b ++ fn : BitVec 32) w1 = .error 2) ∧
  (∀ (d a b : BitVec 6) (pr : BitVec 3), pr ≠ 7 →
    decodeWords (1#1 ++ 1#1 ++ 0x00#6 ++ d ++ a ++ b ++ 0#6 : BitVec 32) (0#6 ++ pr ++ 0#1 ++ 0#3 ++ 0#3 ++ 0#16 : BitVec 32) = .error 6)

/-- At power-on nothing is placed and no memory byte is listed; READY is 0 and no stage has passed; POWERCAP is 1800;
every one of the eight partitions is OFF, holds no span and has QOUT 16 with its other registers 0; every queue is
disabled with RD = WR = 0; every event counter is 0. The memory contents and the partition registers whose reset value
the spec does not state are the model's choice (assumption log 1 and 2). (R285, R291, R303, R306, R307, R308) -/
def Obligations.ResetState : Prop :=
  State.reset.module.ready = false ∧ State.reset.module.stage = 0 ∧ State.reset.module.powerCap = 1800 ∧
  State.reset.waves = [] ∧ State.reset.crews = [] ∧ State.reset.works = [] ∧ State.reset.mem = [] ∧ State.reset.loose = [] ∧
  (∀ p, p < 8 → (State.reset.part p).state = 0 ∧ (State.reset.part p).spans = 0 ∧ (State.reset.part p).modes = 0 ∧
    (State.reset.part p).qout = 16 ∧ (State.reset.part p).evq = 0 ∧ (State.reset.part p).admin = 0) ∧
  (∀ q, (State.reset.queue q).en = false ∧ (State.reset.queue q).rd = 0 ∧ (State.reset.queue q).wr = 0) ∧
  (∀ p e, State.reset.eventCount p e = 0)

/-- When the head of the agenda names a gang of a resident crew whose partition neither diverges nor has failed nor runs
in rounds, no ready gang of its pipe must go before it (R44), the gang may issue, no pre-emption stops it, and its
wave is in its handler or has no trap and no fault-buffer entry to vector for, then step is exec of the instruction
that the words at the program counter decode to, at the state with the agenda advanced and that gang named as issuer;
words in the block's code range are read from it and change nothing. While no WAIT waits, beside the agenda, the clock
and the named issuer only the counts of how often ready gangs were passed over change. The agenda and those counts are
the model's own (assumption log 6). (R24, R44, R64, R136, R350, 12_scheduling_and_work_graphs) -/
def Obligations.StepRunsTheDecodedInstruction : Prop :=
  ∀ (s : State) (a : Agenda) (r : WaveRef) (sl : Nat) (rest : List Agenda) (c : Issue) (w0 w1 : Word) (i : Instr),
    s.agenda = a :: rest → a.action = .issue r sl → s.issuesFirst a.action = none →
    let s0 : State := issuing s a r sl rest
    (s.inWait = [] → s0 = { s with agenda := rest, tick := s.tick + a.ticks, cycle := s.cycle + a.cycles, passed := s0.passed, cur := some (r, sl) }) ∧
    (s0.issuer = some c → c.crew.resident = true → c.gang.wait.mayIssue = true →
      (s0.part c.crew.part).div = false → (s0.part c.crew.part).state ≠ 4 → (s0.part c.crew.part).woad = false →
      (c.crew.preempt = none ∨ c.gang.isHalted = false) →
      (c.wave.sup = true ∨ (c.wave.traps = [] ∧ s0.ownedEntry c.wave c.crew = none)) →
      (∀ s1, s0.fetchWords c = .ok (w0, w1, s1) → decodeWords w0 w1 = .ok i → step s = exec i s1) ∧
      (∀ b, s0.block? c.crew.id c.wave.ref.rank = some b → b.codeWord c.crew.image c.gang.pc = some w0 →
        (if w0.getLsbD 30 then b.codeWord c.crew.image (c.gang.pc + 4) = some w1 else w1 = 0) →
        decodeWords w0 w1 = .ok i → step s = exec i s0))

/-- Under the same conditions, when the words of the block's code range at the program counter do not decode, the step
takes the trap ILLEGAL (0x01) with the SUB of R358 at that address: TRAP_ADDR is the base word, with the extension
word above it when X = 1, and TRAP_LANES the active lanes of the cohort. (R140, R350, R351, R358) -/
def Obligations.StepTrapsOnIllegalWords : Prop :=
  ∀ (s : State) (a : Agenda) (r : WaveRef) (sl : Nat) (rest : List Agenda) (c : Issue) (b : Block) (w0 w1 : Word) (sub : Nat),
    s.agenda = a :: rest → a.action = .issue r sl → s.issuesFirst a.action = none →
    let s0 : State := issuing s a r sl rest
    s0.issuer = some c → c.crew.resident = true → c.gang.wait.mayIssue = true →
    (s0.part c.crew.part).div = false → (s0.part c.crew.part).state ≠ 4 → (s0.part c.crew.part).woad = false →
    (c.crew.preempt = none ∨ c.gang.isHalted = false) →
    (c.wave.sup = true ∨ (c.wave.traps = [] ∧ s0.ownedEntry c.wave c.crew = none)) →
    s0.block? c.crew.id c.wave.ref.rank = some b → b.codeWord c.crew.image c.gang.pc = some w0 →
    (if w0.getLsbD 30 then b.codeWord c.crew.image (c.gang.pc + 4) = some w1 else w1 = 0) →
    decodeWords w0 w1 = .error sub →
    step s = .next (s0.takeTrap c.wave { cause := 0x01, sub := sub, pc := c.gang.pc, addr := w1 ++ w0, lanes := c.gang.slices.lanes &&& c.wave.act,
                                         slices := c.gang.slices })

/-- For every wave instruction, when State names an issuer whose gang has not already waited for its registers, and a
field names a lane register at or above the wave's .regs, exec takes the trap ILLEGAL (0x01), SUB 8, with TRAP_ADDR
the register id: it comes before every other check of its own. For every wave instruction, issued outside the handler
by a gang that has not waited, whose registers lie below .regs: where the role of R33 does not allow its class, exec
takes the trap ROLE (0x11), SUB 1, TRAP_ADDR its words. (R141, R350, R351, R358, R32, R33, R362) -/
def Obligations.RegistersAndRolesAreChecked : Prop :=
  (∀ (i : Instr) (s : State) (c : Issue) (r : Nat), encodable i = true → s.issuer = some c → FirstIssue c →
    outside i c.wave.regs = some r →
    exec i s = .next (s.takeTrap c.wave (c.trap 0x01 8 (BitVec.ofNat 64 r) (c.lanesOf i)))) ∧
  (∀ (i : Instr) (s : State) (c : Issue), encodable i = true → s.issuer = some c → FirstIssue c →
    c.wave.sup = false → outside i c.wave.regs = none → roleAllows c.wave.role (classOf i) = false →
    exec i s = .next (s.takeTrap c.wave (c.trap 0x11 1 (wordsAddr (encode i)) (c.lanesOf i))))

/-- For every wave instruction whose gang has waited for registers and of which some source or destination is still empty,
and none that has landed is reported as uninitialised, exec leaves the gang waiting and changes nothing else. For a
lane instruction of the majors 0x00 to 0x12, which no place check of R362 concerns, that passes the checks before: it
waits so at its first issue too when a register is empty and no empty source has its trap bit set; and where an empty
source has its trap bit set, EMPTY_SOURCE (0x04) is taken with the field as SUB and the register id as TRAP_ADDR.
(R143, R349, R359) -/
def Obligations.EmptyRegistersWaitOrTrap : Prop :=
  (∀ (i : Instr) (s : State) (c : Issue), encodable i = true → s.issuer = some c → c.gang.wait = .registers →
    c.wave.dbgCtl.getLsbD 0 = false ∨ uninitSource c.wave i = none → operandsFull c.wave i = false → exec i s = .next (s.putWave (c.wave.park c.gang .registers))) ∧
  (∀ (i : Instr) (s : State) (c : Issue), classOf i = .laneArith → (((encode i).headD 0).extractLsb' 24 6).toNat ≤ 0x12 →
    encodable i = true → s.issuer = some c → FirstIssue c → c.wave.sup = false → c.crew.isCombiner = false → outside i c.wave.regs = none →
    roleAllows c.wave.role .laneArith = true → c.wave.dbgCtl.getLsbD 0 = false →
    (emptySource c.wave i = none → operandsFull c.wave i = false →
      exec i s = .next (s.putWave (c.wave.park c.gang .registers))) ∧
    (∀ k f r, emptySource c.wave i = some (k, f, r) →
      exec i s = .next (s.takeTrap c.wave (c.trap 0x04 k (regId f r) (c.lanesOf i)))))

/-- Outside supervisor mode, RTE, REPLAYALL, TLBINV and SETSEG trap PRIVILEGED (0x02) with SUB 1; a GSYS of a register
marked S, and an SSYS of a register that is neither FP_CTRL nor, in supervisor mode, one marked S or R/Ws, traps it
with SUB 2. In supervisor mode a SETSEG that would break R213, or that differs from the crew's tile window, raises
APERTURE_LIMIT (0x06) with the refused value and leaves the segment registers as they were; raised in the handler, it
fails the context with that CODE (assumption log 46). (R213, R356, R361) -/
def Obligations.PrivilegedInstructionsTrapOutsideTheHandler : Prop :=
  (∀ (mk : Opnd → Instr) (o : Opnd) (s : State) (c : Issue), mk ∈ [Instr.rte, .replayall, .tlbinv, .setseg] →
    s.issuer = some c → FirstIssue c → c.wave.sup = false →
    exec (mk o) s = .next (s.takeTrap c.wave (c.trap 0x02 1 (wordsAddr (encode (mk o))) c.activeGroup))) ∧
  (∀ (o : Opnd) (s : State) (c : Issue), s.issuer = some c → FirstIssue c → c.wave.sup = false →
    (let n := o.ext.imm.toNat % 4096; n = 0x01C ∨ n = 0x020 ∨ (0x022 ≤ n ∧ n ≤ 0x028)) →
    exec (.gsys o) s = .next (s.takeTrap c.wave (c.trap 0x02 2 (wordsAddr (encode (.gsys o))) c.activeGroup))) ∧
  (∀ (o : Opnd) (s : State) (c : Issue), s.issuer = some c → FirstIssue c →
    (let n := o.ext.imm.toNat % 4096
     n ≠ 0x010 ∧ (c.wave.sup = true → ¬(0x018 ≤ n ∧ n ≤ 0x01C) ∧ n ≠ 0x020 ∧ ¬(0x022 ≤ n ∧ n ≤ 0x028))) →
    exec (.ssys o) s = .next (s.takeTrap c.wave (c.trap 0x02 2 (wordsAddr (encode (.ssys o))) c.activeGroup))) ∧
  (∀ (o : Opnd) (s : State) (c : Issue), Ready s c (.setseg o) → c.wave.sup = true →
    (let n := o.ext.imm.toNat % 4096
     let raw := c.wave.readG2 o.a.toNat
     let v := segValue n raw
     (n = 0x030 ∧ v ≠ c.wave.segs.tileBase) ∨ (n = 0x032 ∧ v ≠ c.wave.segs.tileLimit) ∨
       (n = 0x034 ∧ (v = c.wave.segs.tileBase ∨ canonical v = false)) ∨ (n = 0x03A ∧ c.wave.segs.globalLimit < v) ∨
       (n = 0x03C ∧ v < c.wave.segs.globalBase)) →
    exec (.setseg o) s = .next (s.takeTrap c.wave (c.trap 0x06 0 (c.wave.readG2 o.a.toNat) c.activeGroup)) ∧
    (s.crew? c.wave.ref.crew = some c.crew → c.crew.isCombiner = false →
      exec (.setseg o) s = .next (s.failContext c.crew.part c.crew.ctx.ctag 0x06)))

/-- Taking a trap on a wave outside its handler whose crew is no combiner and whose HANDLER_BASE is nonzero and
word-aligned: a frame keeps every gang and g61 to g63; TRAP_CAUSE, TRAP_PC, TRAP_ADDR and TRAP_LANES take the trap's
values; SUP is set; g61 to g63 become TRAP_LANES; one gang, of the trapping slices that are live, starts at
HANDLER_BASE; registers, FP_CTRL and every other wave stay. A trap in the handler fails the context with its cause,
one without a usable HANDLER_BASE with CODE 0x81, and one of a combiner wave ends its batch. (R351, R354, R356, R378) -/
def Obligations.TakingATrapEntersTheHandler : Prop :=
  ∀ (s : State) (w : Wave) (t : Trap) (c : Crew), s.crew? w.ref.crew = some c →
    (c.isCombiner = false → w.sup = false → t.fromHandler = false → w.handlerBase ≠ 0 → w.handlerBase.extractLsb' 0 2 = 0 →
      ∃ w' : Wave, s.takeTrap w t = s.putWave w' ∧ w'.sup = true ∧ w'.act = t.lanes ∧
        w'.trapCause = BitVec.ofNat 32 (t.cause + 2 ^ 12 * t.kind + 2 ^ 16 * t.sub + 2 ^ 25 * t.fbi + (if t.async then 2 ^ 28 else 0)) ∧
        w'.trapPc = t.pc ∧ w'.trapAddr = t.addr ∧ w'.trapLanes = t.lanes ∧
        (t.slices &&& w.live ≠ 0 → w'.gangs = [{ slices := t.slices &&& w.live, pc := w.handlerBase, wait := .ready }]) ∧
        (∃ f, w'.frame = some f ∧ f.gangs = w.gangs ∧ f.act = w.act ∧ f.slices = t.slices) ∧
        w'.ref = w.ref ∧ w'.v = w.v ∧ w'.g = w.g ∧ w'.p = w.p ∧ w'.vFull = w.vFull ∧ w'.gFull = w.gFull ∧ w'.fp = w.fp ∧
        w'.exited = w.exited ∧ w'.segs = w.segs ∧ w'.landings = w.landings) ∧
    (c.isCombiner = false → w.sup = true ∨ t.fromHandler = true → s.takeTrap w t = s.failContext c.part c.ctx.ctag t.cause) ∧
    (c.isCombiner = false → w.sup = false → t.fromHandler = false → w.handlerBase = 0 ∨ w.handlerBase.extractLsb' 0 2 ≠ 0 →
      s.takeTrap w t = s.failContext c.part c.ctx.ctag 0x81) ∧
    (∀ id, c.kind = .combiner id → s.takeTrap w t = s.combinerTrap id t.cause)

/-- TRAP #k takes SOFTWARE (0x10) with k in TRAP_ADDR and TRAP_PC the address after it; BKPT #k takes BREAKPOINT (0x0F)
with k in TRAP_ADDR and TRAP_PC its own address; each reports the active lanes of its cohort and takes its position in
the issue order. In supervisor mode, of a wave of a crew that no pre-emption stops, whose frame holds neither a
translation entry nor a gang at a barrier, and not only gangs at a PHASE: RTE restores the gangs and g61 to g63 of the
frame, with the trapping gang of a synchronous trap ready at TRAP_PC (with the deadline that its WAIT keeps, if that
is still its instruction), clears SUP and the frame, and keeps every other register as the handler left it. (R364,
R354, R355, R337, R211) -/
def Obligations.SoftwareTrapsAndReturns : Prop :=
  (∀ (o : Opnd) (s : State) (c : Issue),
    (Ready s c (.trap o) →
      exec (.trap o) s = .next (s.takeTrap { c.wave with issued := c.wave.issued + 1, roundIssued := c.wave.roundIssued + 1 }
        { cause := 0x10, pc := c.nextPc (.trap o), addr := o.ext.imm.setWidth 64, lanes := c.gang.slices.lanes &&& c.wave.act,
          slices := c.gang.slices })) ∧
    (Ready s c (.bkpt o) →
      exec (.bkpt o) s = .next (s.takeTrap { c.wave with issued := c.wave.issued + 1, roundIssued := c.wave.roundIssued + 1 }
        { cause := 0x0F, pc := c.gang.pc, addr := o.ext.imm.setWidth 64, lanes := c.gang.slices.lanes &&& c.wave.act,
          slices := c.gang.slices }))) ∧
  (∀ (o : Opnd) (s : State) (c : Issue) (f : Frame), Ready s c (.rte o) → c.wave.sup = true → c.wave.frame = some f → f.entry = none →
    c.crew.preempt = none → (f.gangs.all fun g => match g.wait with | .barrier _ _ => false | _ => true) = true →
    (f.gangs.any fun g => match g.wait with | .phase _ => false | _ => true) = true →
    (∀ w ∈ s.waves, w.ref.crew = c.wave.ref.crew → w.ref ≠ c.wave.ref → w.leaveBarrier true = w ∧ w.leaveBarrier false = w) →
    exec (.rte o) s = .next (s.putWave { c.wave with
      sup := false, frame := none, act := f.act, issued := c.wave.issued + 1, roundIssued := c.wave.roundIssued + 1
      gangs := if f.sync then f.gangs.map fun g => if g.slices == f.slices then
          { g with pc := c.wave.trapPc, wait := .ready, kept := if c.wave.trapPc = g.pc then g.kept else none } else g
               else f.gangs }))

/-- For every IALU instruction with a 32-bit result, every BITS instruction, FABS, FNEG, FCOPYSIGN, FCLASS and MOV: an
instruction that is ready writes, in each active lane, the result of the tables of R158, R161, R162, R165 and R167 to
register D, and goes on to the next instruction. (R155, R158, R161, R162, R165, R167, R181) -/
def Obligations.LaneWordResults : Prop :=
  ∀ p ∈ laneIalu ++ laneBits ++ laneBitwise, ∀ (o : Opnd) (s : State) (c : Issue), Ready s c (p.1 o) →
    exec (p.1 o) s = .next (s.retire c (p.1 o) (c.wave.writeV o.d.toNat (c.active o.ext) fun l =>
      p.2 o ((c.wave.readV o.a.toNat).at_ l) ((c.wave.readV o.b.toNat).at_ l)))

/-- IADDI, ANDI, ORI and XORI write A op sext(IMM12) in every active lane of the cohort; IMAD and IMADH the low or high
product plus C; IADD64, ISUB64, IMULW and IMADW the 64-bit result to the pair D, low word first. (R158, R159, R160) -/
def Obligations.ImmediateAndMultiplyAddResults : Prop :=
  (∀ p ∈ laneImms, ∀ (o : OpndI) (s : State) (c : Issue), Ready s c (p.1 o) →
    exec (p.1 o) s = .next (s.retire c (p.1 o) (c.wave.writeV o.d.toNat (c.gang.slices.lanes &&& c.wave.act) fun l =>
      p.2 ((c.wave.readV o.a.toNat).at_ l) (o.imm.signExtend 32)))) ∧
  (∀ p ∈ laneMads, ∀ (o : Opnd) (s : State) (c : Issue), Ready s c (p.1 o) →
    exec (p.1 o) s = .next (s.retire c (p.1 o) (c.wave.writeV o.d.toNat (c.active o.ext) fun l =>
      p.2 ((c.wave.readV o.a.toNat).at_ l) ((c.wave.readV o.b.toNat).at_ l) ((c.wave.readV o.ext.c.toNat).at_ l)))) ∧
  (∀ p ∈ lanePairs, ∀ (o : Opnd) (s : State) (c : Issue), Ready s c (p.1 o) →
    exec (p.1 o) s = .next (s.retire c (p.1 o) ((c.wave.writeV o.d.toNat (c.active o.ext) fun l =>
      (p.2 c.wave o l).extractLsb' 0 32).writeV (o.d.toNat + 1) (c.active o.ext) fun l => (p.2 c.wave o l).extractLsb' 32 32)))

/-- ICMP writes the predicate D[2:0] in each active lane with 1 where the relation holds; SEL writes A where P[C] is 1 and
B elsewhere; PAND, POR, PXOR, PNOT and PMOV write P[D] in the active lanes; PACT copies the activity bits of every
lane of the cohort; MASK clears the activity of the active lanes whose P[A] is 0 and changes nothing else. A write to
p7 is discarded and p7 reads 1. (R163, R164, R182, R183, R8) -/
def Obligations.ComparisonsSelectionsAndPredicates : Prop :=
  (∀ p ∈ laneCompares, ∀ (o : Opnd) (s : State) (c : Issue), Ready s c (p.1 o) →
    exec (p.1 o) s = .next (s.retire c (p.1 o) (c.wave.writeP (o.d.toNat % 8) (c.active o.ext) (maskOf fun l =>
      p.2 ((c.wave.readV o.a.toNat).at_ l) ((c.wave.readV o.b.toNat).at_ l))))) ∧
  (∀ (o : Opnd) (s : State) (c : Issue), Ready s c (.sel o) →
    exec (.sel o) s = .next (s.retire c (.sel o) (c.wave.writeV o.d.toNat (c.active o.ext) fun l =>
      if (c.wave.readP (o.ext.c.toNat % 8)).getLsbD l then (c.wave.readV o.a.toNat).at_ l else (c.wave.readV o.b.toNat).at_ l))) ∧
  (∀ p ∈ lanePredicates, ∀ (o : Opnd) (s : State) (c : Issue), Ready s c (p.1 o) →
    exec (p.1 o) s = .next (s.retire c (p.1 o) (c.wave.writeP (o.d.toNat % 8) (c.active o.ext)
      (p.2 (c.wave.readP (o.a.toNat % 8)) (c.wave.readP (o.b.toNat % 8)))))) ∧
  (∀ (o : Opnd) (s : State) (c : Issue), Ready s c (.pact o) →
    exec (.pact o) s = .next (s.retire c (.pact o) (c.wave.writeP (o.d.toNat % 8) c.gang.slices.lanes c.wave.act))) ∧
  (∀ (o : Opnd) (s : State) (c : Issue), Ready s c (.mask o) →
    exec (.mask o) s = .next (s.retire c (.mask o) { c.wave with
      act := c.wave.act &&& ~~~(c.active o.ext &&& ~~~c.wave.readP (o.a.toNat % 8)) })) ∧
  (∀ (w : Wave) (m x : LaneMask), w.readP 7 = BitVec.allOnes 96 ∧ w.writeP 7 m x = w)

/-- Every floating-point lane instruction of two, three or one source writes in each active lane the rounded result of the
exact operation on its sources (flushed where FTZ is set), in the rounding mode of FP_CTRL or of MOD, and ORs the
flags of the active lanes into FP_CTRL. Rounding a nonzero number within a format's range gives its neighbour of R116:
the nearer one, on a tie the even one, or the one toward zero, -∞ or +∞, with NX where it is inexact and UF where it is
then tiny; with FTZ a tiny result is a zero of its sign, with UF and NX. One that exceeds the largest value gives an
infinity or that value, with OF and NX; a saturating conversion gives the largest value, with SATF and NX. Of two
finite values a sum is the rounding of the exact sum, a multiply-add of the exact A × B + C, and a NaN or an invalid
operation gives the canonical NaN. (R115, R116, R117, R118, R119, R155, R165, R166, R167, R168, R171, R173) -/
def Obligations.FloatingPointResults : Prop :=
  ((∀ p ∈ fpPairs, ∀ (o : Opnd) (s : State) (c : Issue), Ready s c (p.1 o) →
    exec (p.1 o) s = .next (s.retire c (p.1 o) (c.wave.writeF o.d.toNat (c.active o.ext) fun l =>
      p.2 (fpEnv c.wave o.ext) ((c.wave.readV o.a.toNat).at_ l).toNat ((c.wave.readV o.b.toNat).at_ l).toNat))) ∧
  (∀ p ∈ fpTriples, ∀ (o : Opnd) (s : State) (c : Issue), Ready s c (p.1 o) →
    exec (p.1 o) s = .next (s.retire c (p.1 o) (c.wave.writeF o.d.toNat (c.active o.ext) fun l =>
      p.2 (fpEnv c.wave o.ext) ((c.wave.readV o.a.toNat).at_ l).toNat ((c.wave.readV o.b.toNat).at_ l).toNat
        ((c.wave.readV o.ext.c.toNat).at_ l).toNat))) ∧
  (∀ p ∈ fpSingles, ∀ (o : Opnd) (s : State) (c : Issue), Ready s c (p.1 o) →
    exec (p.1 o) s = .next (s.retire c (p.1 o) (c.wave.writeF o.d.toNat (c.active o.ext) fun l =>
      p.2 o (fpEnv c.wave o.ext) ((c.wave.readV o.a.toNat).at_ l).toNat)))) ∧
  (∀ f ∈ [f32, f16, bf16, e5m2, e4m3, e2m1], ∀ (mode : Nat) (z : Bool) (q : Rat), mode < 4 → q ≠ 0 →
    let r := f.roundRat mode false z q
    (ratAbs q ≤ f.largest → ∃ m, f.decode r.code = .fin (q < 0) m ∧ Rounded f mode q (signedRat (q < 0) m) (r.code % 2 == 0) ∧
      (r.flags.getLsbD 11 = true ↔ signedRat (q < 0) m ≠ q) ∧ r.flags.getLsbD 9 = false ∧
      (signedRat (q < 0) m ≠ q → m < pow2 f.emin → r.flags.getLsbD 10 = true) ∧
      (pow2 f.emin ≤ ratAbs q → r.flags.getLsbD 10 = false)) ∧
    (f.flush = true → ratAbs q ≤ pow2 f.emin - pow2 (f.emin - 1 - f.fracBits) →
      f.decode (f.roundRat mode true z q).code = .fin (q < 0) 0 ∧ (f.roundRat mode true z q).flags = UF ||| NX) ∧
    (pow2 f.emin ≤ ratAbs q → f.roundRat mode true z q = r) ∧
    (f.largest < ratAbs q → ¬Beyond f mode q → f.decode r.code = .fin (q < 0) f.largest ∧ r.flags = NX) ∧
    (Beyond f mode q → f ∈ [f32, f16, bf16, e5m2] → r.flags = OF ||| NX ∧ f.decode r.code =
      (if mode = 0 ∨ (mode = 2 ∧ q < 0) ∨ (mode = 3 ∧ 0 < q) then .inf (q < 0) else .fin (q < 0) f.largest))) ∧
  (∀ x ∈ [(f16, 0x7E00), (bf16, 0x7FC0), (e5m2, 0x7E), (e4m3, 0x7F), (e2m1, 0)], ∀ (mode : Nat) (ftz sat neg : Bool) (m : Rat), mode < 4 →
    0 < m →
    let f := x.1
    let q := signedRat neg m
    let saturated (r : FRes) : Prop := f.decode r.code = .fin neg f.largest ∧ r.flags = SATF ||| NX
    (∀ s, f.narrow mode ftz sat (.nan s) = { code := x.2, flags := if s = true ∨ f = e2m1 then NV else 0 }) ∧
    (sat = true → saturated (f.narrow mode ftz sat (.inf neg)) ∧ (Beyond f mode q → saturated (f.narrow mode ftz sat (.fin neg m)))) ∧
    (¬Beyond f mode q → f.narrow mode ftz sat (.fin neg m) = f.roundRat mode ftz false q) ∧
    (sat = false → f ∈ [f16, bf16, e5m2] → f.decode (f.narrow mode ftz sat (.inf neg)).code = .inf neg ∧
      f.narrow mode ftz sat (.fin neg m) = f.roundRat mode ftz false q) ∧
    (sat = false → f = e4m3 → Beyond f mode q → (f.narrow mode ftz sat (.fin neg m)).flags = OF ||| NX ∧
      if mode = 0 ∨ (mode = 2 ∧ neg = true) ∨ (mode = 3 ∧ neg = false) then (f.narrow mode ftz sat (.fin neg m)).code = 0x7F
      else f.decode (f.narrow mode ftz sat (.fin neg m)).code = .fin neg f.largest)) ∧
  (∀ x ∈ [(f32, 0x7FC00000), (f16, 0x7E00), (bf16, 0x7FC0)], ∀ (mode : Nat) (ftz neg : Bool) (u v w : FVal),
    let f := x.1
    let quiet (r : FRes) (invalid : Bool) : Prop := r = { code := x.2, flags := if invalid then NV else 0 }
    ((u.isNan = true ∨ v.isNan = true) → quiet (f.addVal mode ftz u v) (u.isSignalling || v.isSignalling)) ∧
    quiet (f.addVal mode ftz (.inf neg) (.inf !neg)) true ∧
    (v.isNan = false → v ≠ .inf !neg → f.decode (f.addVal mode ftz (.inf neg) v).code = .inf neg ∧
      f.decode (f.addVal mode ftz v (.inf neg)).code = .inf neg) ∧
    (∀ a m b n, u = .fin a m → v = .fin b n →
      let q := signedRat a m + signedRat b n
      (q ≠ 0 → f.addVal mode ftz u v = f.roundRat mode ftz false q) ∧
      (q = 0 → f.decode (f.addVal mode ftz u v).code = .fin (if a = b then a else mode = 2) 0 ∧ (f.addVal mode ftz u v).flags = 0) ∧
      (∀ c k, w = .fin c k →
        let p := (if neg then -1 else 1) * (signedRat a m * signedRat b n) + signedRat c k
        p ≠ 0 → f.fmaRound mode ftz neg u v w = f.roundRat mode ftz false p) ∧
      (∀ c, w = .inf c → f.decode (f.fmaRound mode ftz neg u v w).code = .inf c)) ∧
    ((∃ a b, (u = .inf a ∧ v = .fin b 0) ∨ (u = .fin b 0 ∧ v = .inf a)) → quiet (f.fmaRound mode ftz neg u v w) true) ∧
    (w.isNan = true → u.isNan = false → v.isNan = false → (mulVal u v).2 = false →
      quiet (f.fmaRound mode ftz neg u v w) w.isSignalling))

/-- FCMP writes the predicate D[2:0] in each active lane: the relation of the two values after any flush, or what the
table gives where either is a NaN; NV is raised by a signalling NaN, and by LT, LE, GT and GE for any NaN, of an
active lane. An FSFU writes the answer of its function in each active lane. FRCP is the rounding of 1/A; FSQRT is the
neighbour of √A that the mode names, with NX where it is inexact. FEXP2 and FLOG2 are exact on powers of two. The inputs
that R170 names give the result it names. The other answers are the implementation's own (a free value, assumption
log 10): one of FSIN, FCOS or FTANH lies in [-1, 1], one of FSIGM in [0, 1]. (R118, R155, R163, R169) -/
def Obligations.FloatingPointComparisonsAndFunctions : Prop :=
  (∀ p ∈ fpCompares, ∀ (o : Opnd) (s : State) (c : Issue), Ready s c (p.1 o) →
    let e := fpEnv c.wave o.ext
    let x (l : Nat) : FVal := f32.decodeFtz e.ftz ((c.wave.readV o.a.toNat).at_ l).toNat
    let y (l : Nat) : FVal := f32.decodeFtz e.ftz ((c.wave.readV o.b.toNat).at_ l).toNat
    let raises (l : Nat) : Bool := if p.2.2.1 then (x l).isNan || (y l).isNan else (x l).isSignalling || (y l).isSignalling
    let w := c.wave.writeP (o.d.toNat % 8) (c.active o.ext) (maskOf fun l =>
      if (x l).isNan || (y l).isNan then p.2.1 else p.2.2.2 (x l) (y l))
    exec (p.1 o) s = .next (s.retire c (p.1 o) { w with
      fp := if (LaneMask.lanes (c.active o.ext)).any raises then w.fp ||| 0x80 else w.fp })) ∧
  (∀ p ∈ fpSpecials, ∀ (o : Opnd) (s : State) (c : Issue), Ready s c (p.1 o) →
    exec (p.1 o) s = .next (s.retire c (p.1 o) (c.wave.writeF o.d.toNat (c.active o.ext) fun l =>
      let e := fpEnv c.wave o.ext
      let a := ((c.wave.readV o.a.toNat).at_ l).toNat
      p.2 e (BitVec.ofNat 32 (f32.flushed e.ftz a)) (f32.decodeFtz e.ftz a)))) ∧
  (∀ (mode : Nat) (ftz neg : Bool) (m : Rat), 0 < m → frcp mode ftz (.fin neg m) = f32.roundRat mode ftz false (1 / signedRat neg m)) ∧
  (∀ (mode code : Nat) (ftz : Bool) (m : Rat), mode < 4 → code < 2 ^ 32 → f32.decode code = .fin false m → 0 < m →
    ∃ x, f32.decode (fsqrt mode ftz (.fin false m)).code = .fin false x ∧
      (fsqrt mode ftz (.fin false m)).flags = (if x * x = m then 0 else NX) ∧
      ∀ y, IsValue f32 y → 0 ≤ y →
        (mode = 0 → (x < y → 4 * m ≤ (x + y) * (x + y)) ∧ (y < x → (x + y) * (x + y) ≤ 4 * m)) ∧
        (mode = 1 ∨ mode = 2 → x * x ≤ m ∧ (y * y ≤ m → y ≤ x)) ∧
        (mode = 3 → m ≤ x * x ∧ (m ≤ y * y → x ≤ y))) ∧
  (∀ x ∈ specialCases, ∀ p, fpSpecials[x.1]? = some p → ∀ (e : FpEnv) (w : Word), p.2 e w x.2.1 = { code := x.2.2.1, flags := x.2.2.2 }) ∧
  (∀ p ∈ fpSpecials, ∀ (e : FpEnv) (w : Word) (signals : Bool), p.2 e w (.nan signals) = { code := 0x7FC00000, flags := if signals then NV else 0 }) ∧
  (∀ (e : FpEnv) (w : Word) (m : Rat), 0 < m → ∀ n ∈ [1, 2, 4], ∀ p, fpSpecials[n]? = some p →
    p.2 e w (.fin true m) = { code := 0x7FC00000, flags := NV }) ∧
  (∀ (k : Int) (ftz : Bool) (w : Word), -126 ≤ k → k < 128 →
    f32.decode (fexp2 ftz w (.fin (k < 0) (ratAbs k))).code = .fin false (pow2 k) ∧ (fexp2 ftz w (.fin (k < 0) (ratAbs k))).flags = 0 ∧
    f32.decode (flog2 ftz w (.fin false (pow2 k))).code = .fin (k < 0) (ratAbs k) ∧ (flog2 ftz w (.fin false (pow2 k))).flags = 0) ∧
  (∀ x ∈ [(5, (-1 : Rat)), (6, -1), (7, -1), (8, 0)], ∀ p, fpSpecials[x.1]? = some p →
    ∀ (e : FpEnv) (w : Word) (v : FVal) (neg : Bool) (m : Rat), f32.decode (p.2 e w v).code = .fin neg m →
      x.2 ≤ signedRat neg m ∧ signedRat neg m ≤ 1)

/-- Each active lane receives: MOVIL the zero-extended IMM16; MOVIH IMM16 above its own low half; GBC the group register;
LANEID its index. MOVIN reads, and MOVOUT writes, the register whose number is the base plus the lane's index plus the
signed IMM16, when every active lane's number lies below .regs and names a full register; a number outside traps
ILLEGAL (0x01) SUB 8 with the lanes that fail (where EA of a MOVIN asks for an empty register's trap, that
comes first). A shuffle writes in each active lane the A word of the lane it names
within its segment (4, 8, 32 or 96 lanes by MOD), or of the lane itself where it names one outside. PUSHL writes, in
every lane of the cohort that is active in g61 to g63 and that some active lane names, the A word of the highest lane
that names it. (R181, R143, R351, R358, R363, R176, R177, R178) -/
def Obligations.MovesShufflesAndPushes : Prop :=
  ((∀ (o : Opnd) (s : State) (c : Issue), Ready s c (.movil o) →
    exec (.movil o) s = .next (s.retire c (.movil o) (c.wave.writeV o.d.toNat (c.active o.ext) fun _ => o.ext.imm.setWidth 32))) ∧
  (∀ (o : Opnd) (s : State) (c : Issue), Ready s c (.movih o) →
    exec (.movih o) s = .next (s.retire c (.movih o) (c.wave.writeV o.d.toNat (c.active o.ext) fun l =>
      o.ext.imm ++ ((c.wave.readV o.d.toNat).at_ l).extractLsb' 0 16))) ∧
  (∀ (o : Opnd) (s : State) (c : Issue), Ready s c (.gbc o) →
    exec (.gbc o) s = .next (s.retire c (.gbc o) (c.wave.writeV o.d.toNat (c.active o.ext) fun _ => c.wave.readG o.a.toNat))) ∧
  (∀ (o : Opnd) (s : State) (c : Issue), Ready s c (.laneid o) →
    exec (.laneid o) s = .next (s.retire c (.laneid o) (c.wave.writeV o.d.toNat (c.active o.ext) fun l => BitVec.ofNat 32 l))) ∧
  (∀ (o : Opnd) (s : State) (c : Issue),
    let n (base : BitVec 6) (l : Nat) : Int := (base.toNat : Int) + ((c.wave.readV o.b.toNat).at_ l).toNat + o.ext.imm.toInt
    let fits (base : BitVec 6) : Prop := ∀ l ∈ LaneMask.lanes (c.active o.ext), 0 ≤ n base l ∧ n base l < c.wave.regs ∧
      c.wave.isFull .v (n base l).toNat = true
    (Ready s c (.movin o) → fits o.a →
      exec (.movin o) s = .next (s.retire c (.movin o) (c.wave.writeV o.d.toNat (c.active o.ext) fun l =>
        (c.wave.readV (n o.a l).toNat).at_ l))) ∧
    (Ready s c (.movout o) → fits o.d →
      exec (.movout o) s = .next (s.retire c (.movout o) ((List.range c.wave.regs).foldl (fun w r =>
        w.writeV r (maskOf fun l => (c.active o.ext).getLsbD l && n o.d l == (r : Int)) fun l => (c.wave.readV o.a.toNat).at_ l)
          c.wave))) ∧
    ∀ p ∈ [(Instr.movin o, o.a), (.movout o, o.d)], ∀ l rest, Ready s c p.1 →
      (p.1 = .movout o ∨ o.ext.ea = false ∨ ∀ k ∈ LaneMask.lanes (c.active o.ext), 0 ≤ n p.2 k → n p.2 k < c.wave.regs →
        c.wave.isFull .v (n p.2 k).toNat = true) →
      (LaneMask.lanes (c.active o.ext)).filter (fun l => !(decide (0 ≤ n p.2 l) && decide (n p.2 l < c.wave.regs))) = l :: rest →
      exec p.1 s = .next (s.takeTrap c.wave (c.trap 0x01 8 (BitVec.ofInt 64 (n p.2 l)) (laneSet (l :: rest)))))) ∧
  ((∀ p ∈ laneShuffles, ∀ (o : Opnd) (s : State) (c : Issue), Ready s c (p.1 o) →
    exec (p.1 o) s = .next (s.retire c (p.1 o) (c.wave.writeV o.d.toNat (c.active o.ext) fun l =>
      let n := segmentSize o.ext
      let base := l / n * n
      let j := p.2 o ((c.wave.readV o.b.toNat).at_ l) l n base
      (c.wave.readV o.a.toNat).at_ (if (base : Int) ≤ j ∧ j < (base + n : Nat) then j.toNat else l)))) ∧
  (∀ (o : Opnd) (s : State) (c : Issue), Ready s c (.pushl o) →
    ∃ (m : LaneMask) (f : Nat → Word),
      exec (.pushl o) s = .next (s.retire c (.pushl o) (c.wave.writeV o.d.toNat m f)) ∧
      ∀ t, t < 96 →
        let names (l : Nat) : Prop := (c.active o.ext).getLsbD l = true ∧
          l / segmentSize o.ext * segmentSize o.ext + ((c.wave.readV o.b.toNat).at_ l).toNat % segmentSize o.ext = t
        (m.getLsbD t = true ↔ (c.gang.slices.lanes &&& c.wave.act).getLsbD t = true ∧ ∃ l, names l) ∧
        ∀ l, m.getLsbD t = true → names l → (∀ k, names k → k ≤ l) → f t = (c.wave.readV o.a.toNat).at_ l))

/-- LRED writes in each active lane the fold, in ascending lane order, of its segment's contributors: the active lanes of
the cohort and every lane outside it. SCAN writes the fold of those at or below the lane, or below it with EXCL, 0
where there is none. BALLOT writes three whole group registers with the predicate bits of the segments that hold a
lane of the cohort, of active lanes alone within the cohort. That one contributor alone is returned as it stands rests on
log entry 65. (R176, R179, R180) -/
def Obligations.ReductionsScansAndBallots : Prop :=
  (∀ p ∈ laneFolds, ∀ (o : Opnd) (s : State) (c : Issue), Ready s c (p.1 o) →
    let n := segmentSize o.ext
    let e := fpEnv c.wave Ext.default
    exec (p.1 o) s = .next (s.retire c (p.1 o) (c.wave.writeF o.d.toNat (c.active o.ext) fun l =>
      foldLanes (c.active o.ext ||| ~~~c.gang.slices.lanes) (fun k => p.2.1 e ((c.wave.readV o.a.toNat).at_ k).toNat) (p.2.2 e) 0
        (l / n * n) (l / n * n + n)))) ∧
  (∀ p ∈ laneScans, ∀ (o : Opnd) (s : State) (c : Issue), Ready s c (p.1 o) →
    let n := segmentSize o.ext
    let e := fpEnv c.wave Ext.default
    exec (p.1 o) s = .next (s.retire c (p.1 o) (c.wave.writeF o.d.toNat (c.active o.ext) fun l =>
      foldLanes (c.active o.ext ||| ~~~c.gang.slices.lanes) (fun k => p.2.1 e ((c.wave.readV o.a.toNat).at_ k).toNat) (p.2.2 e) 0
        (l / n * n) (if o.ext.imm.getLsbD 0 then l else l + 1)))) ∧
  (∀ (o : Opnd) (s : State) (c : Issue), Ready s c (.ballot o) →
    ∃ b : LaneMask, exec (.ballot o) s = .next (s.retire c (.ballot o)
        (((c.wave.writeG c.gang.slices o.d.toNat (b.extractLsb' 0 32)).writeG c.gang.slices (o.d.toNat + 1)
          (b.extractLsb' 32 32)).writeG c.gang.slices (o.d.toNat + 2) (b.extractLsb' 64 32))) ∧
      ∀ j, j < 96 → (b.getLsbD j = true ↔ (c.wave.readP (o.a.toNat % 8)).getLsbD j = true ∧
        (c.gang.slices.lanes.getLsbD j = true → (c.active o.ext).getLsbD j = true) ∧
        ∃ k, k < segmentSize o.ext ∧
          c.gang.slices.lanes.getLsbD (j / segmentSize o.ext * segmentSize o.ext + k) = true))

/-- An octet acts when both its slices are in the cohort and its leader is active. QLAT and LATERR write the leader of
each acting octet with the code, or the error, of its eight elements; DLAT writes every active lane of an acting octet
with its decoded element; flags are those of the lanes written. (R28, R129, R132, R174, R175) -/
def Obligations.LatticeResults : Prop :=
  (∀ p ∈ latticeLeaders, ∀ (o : Opnd) (s : State) (c : Issue), Ready s c (p.1 o) →
    exec (p.1 o) s = .next (s.retire c (p.1 o) (c.wave.writeF o.d.toNat (laneSet (((List.range 12).filter fun k =>
        c.gang.slices.getLsbD (2 * k) && c.gang.slices.getLsbD (2 * k + 1) && (c.active o.ext).getLsbD (8 * k)).map fun k => 8 * k))
      fun l => p.2 o (fpEnv c.wave o.ext) c.wave (l / 8)))) ∧
  (∀ p ∈ latticeDecodes, ∀ (o : Opnd) (s : State) (c : Issue), Ready s c (p.1 o) →
    ∃ m : LaneMask, exec (p.1 o) s = .next (s.retire c (p.1 o) (c.wave.writeF o.d.toNat m
        fun l => dlatOne (fpEnv c.wave o.ext) ((p.2 (leaderWord c.wave o.a.toNat (l / 8)) (leaderWord c.wave o.b.toNat (l / 8))).getD (l % 8) none))) ∧
      ∀ l, l < 96 → (m.getLsbD l = true ↔ (c.active o.ext).getLsbD l = true ∧ (c.active o.ext).getLsbD (l / 8 * 8) = true ∧
        c.gang.slices.getLsbD (l / 8 * 2) = true ∧ c.gang.slices.getLsbD (l / 8 * 2 + 1) = true))

/-- A group instruction that is ready writes D once, whatever lanes are active: the results of R186 for two registers or
two pairs, A op sext(IMM12), LIT or A + LIT, 1 or 0 for a comparison, and A or B by whether C is zero. The whole of g0
to g60 is written; of g61 to g63 only the cohort's bits. V2G writes the A word of the lowest active lane of the
cohort, or 0 where none is active; the form with a lane writes that lane's word whatever its activity. It is written
at once when the cohort is the wave's only gang, those that a handler has suspended not counted (log entry 67);
otherwise D is empty until the value, which is that of the issue position, lands. (R30, R184, R186, R187, R188, R189, R190, R191, R143) -/
def Obligations.GroupResults : Prop :=
  ((∀ p ∈ groupWords, ∀ (o : Opnd) (s : State) (c : Issue), Ready s c (p.1 o) →
    exec (p.1 o) s = .next (s.retire c (p.1 o) (c.wave.writeG c.gang.slices o.d.toNat
      (p.2 (c.wave.readG o.a.toNat) (c.wave.readG o.b.toNat))))) ∧
  (∀ p ∈ groupImms, ∀ (o : OpndI) (s : State) (c : Issue), Ready s c (p.1 o) →
    exec (p.1 o) s = .next (s.retire c (p.1 o) (c.wave.writeG c.gang.slices o.d.toNat
      (p.2 (c.wave.readG o.a.toNat) (o.imm.signExtend 32))))) ∧
  (∀ p ∈ groupPairs, ∀ (o : Opnd) (s : State) (c : Issue), Ready s c (p.1 o) →
    let x := p.2 (c.wave.readG2 o.a.toNat) (c.wave.readG2 o.b.toNat)
    exec (p.1 o) s = .next (s.retire c (p.1 o) ((c.wave.writeG c.gang.slices o.d.toNat (x.extractLsb' 0 32)).writeG
      c.gang.slices (o.d.toNat + 1) (x.extractLsb' 32 32)))) ∧
  (∀ (o : OpndLit) (s : State) (c : Issue), Ready s c (.gmovl o) →
    exec (.gmovl o) s = .next (s.retire c (.gmovl o) (c.wave.writeG c.gang.slices o.d.toNat o.lit))) ∧
  (∀ (o : OpndLit) (s : State) (c : Issue), Ready s c (.gaddl o) →
    exec (.gaddl o) s = .next (s.retire c (.gaddl o) (c.wave.writeG c.gang.slices o.d.toNat (c.wave.readG o.a.toNat + o.lit)))) ∧
  (∀ (o : Opnd) (s : State) (c : Issue), Ready s c (.gsel o) →
    exec (.gsel o) s = .next (s.retire c (.gsel o) (c.wave.writeG c.gang.slices o.d.toNat
      (if c.wave.readG o.ext.c.toNat = 0 then c.wave.readG o.b.toNat else c.wave.readG o.a.toNat))))) ∧
  (∀ (o : Opnd) (s : State) (c : Issue) (mk : Opnd → Instr) (x : Word),
    (mk = .v2g ∧ (∀ l rest, LaneMask.lanes (c.gang.slices.lanes &&& c.wave.act) = l :: rest → x = (c.wave.readV o.a.toNat).at_ l) ∧
        (LaneMask.lanes (c.gang.slices.lanes &&& c.wave.act) = [] → x = 0)) ∨
      (mk = .v2gLane ∧ x = (c.wave.readV o.a.toNat).at_ (o.ext.imm.toNat % 128)) →
    Ready s c (mk o) →
    (c.wave.gangs.length = 1 → exec (mk o) s = .next (s.retire c (mk o) (c.wave.writeG c.gang.slices o.d.toNat x))) ∧
    (c.wave.gangs.length ≠ 1 →
      exec (mk o) s = .next ({ s with stamp := s.stamp + 1 }.retire c (mk o) (c.wave.produce
        { id := s.stamp, file := true, reg := o.d.toNat, lanes := c.gang.slices.lanes, data := [Lanes.build fun _ => x], pending := 0 }))))

/-- BRA moves the cohort to the base word plus 4 × sext(OFF24); CALL also writes the address after it to g58:g59; JMPG and
RET go to the address in A; CALLG reads A, writes the address after it to D and goes to A; BRC goes to the base word
plus 4 × sext(IMM16) when the relation holds and otherwise on. A target in a register with bits 1:0 not zero traps
MISALIGNED (0x05) KIND 4 with the target in TRAP_ADDR, and writes nothing. (R192, R193, R194, R363) -/
def Obligations.BranchesMoveTheCohort : Prop :=
  (∀ (off : BitVec 24) (s : State) (c : Issue), Ready s c (.bra off) →
    exec (.bra off) s = .next (s.putWave (c.wave.advance c.gang (c.gang.pc + 4 * off.signExtend 64)))) ∧
  (∀ (off : BitVec 24) (s : State) (c : Issue), Ready s c (.call off) → c.wave.isFull .g 58 = true → c.wave.isFull .g 59 = true →
    exec (.call off) s = .next (s.putWave ((c.wave.writeG2 c.gang.slices 58 (c.gang.pc + 4)).advance c.gang
      (c.gang.pc + 4 * off.signExtend 64)))) ∧
  (∀ p ∈ registerJumps, ∀ (o : Opnd) (s : State) (c : Issue), Ready s c (p.1 o) →
    let t := c.wave.readG2 o.a.toNat
    let w := if p.2 then c.wave.writeG2 c.gang.slices o.d.toNat (c.nextPc (p.1 o)) else c.wave
    (t.extractLsb' 0 2 = 0 → exec (p.1 o) s = .next (s.putWave (w.advance c.gang t))) ∧
    (t.extractLsb' 0 2 ≠ 0 → exec (p.1 o) s = .next (s.takeTrap c.wave
      { cause := 0x05, kind := 4, pc := c.gang.pc, addr := t, lanes := c.gang.slices.lanes &&& c.wave.act, slices := c.gang.slices }))) ∧
  (∀ p ∈ groupBranches, ∀ (o : Opnd) (s : State) (c : Issue), Ready s c (p.1 o) →
    exec (p.1 o) s = .next (s.putWave (c.wave.advance c.gang
      (if p.2 (c.wave.readG o.a.toNat) (c.wave.readG o.b.toNat) then c.gang.pc + 4 * o.ext.imm.signExtend 64 else c.nextPc (p.1 o)))))

/-- For each slice of the cohort, with k of its lanes active and n of them with P[A] 1, BRP.ANY takes the branch when n >
0, BRP.ALL when n = k and BRP.NONE when n = 0; a slice with no active lane takes ALL and NONE and falls through under
ANY. If every slice decides the same way, the gang stays whole; otherwise the slices that take form one gang at the
base word plus 4 × sext(IMM16), as for BRC, and the others one at the next instruction; every other gang stays.
Its words have the major 0x0B with X = 1, and A[5:3], D, B and MOD are reserved: a well-formed BRP has 0 there.
(R195) -/
def Obligations.PartingBranchesDivideTheCohort : Prop :=
  (∀ p ∈ partingBranches.zipIdx, ∀ o : Opnd, wellFormed (p.1.1 o) = true → encodable (p.1.1 o) = true →
    o.a.toNat < 8 ∧ o.d = 0 ∧ o.b = 0 ∧ o.ext.mod = 0 ∧
    (encode (p.1.1 o)).headD 0 = (1#1 ++ 1#1 ++ 0x0B#6 ++ 0#6 ++ o.a ++ 0#6 ++ BitVec.ofNat 6 p.2 : BitVec 32)) ∧
  (∀ p ∈ partingBranches, ∀ o : Opnd, p.2 0 0 = decide (p.1 o ≠ .brpAny o)) ∧
  ∀ p ∈ partingBranches, ∀ (o : Opnd) (s : State) (c : Issue), Ready s c (p.1 o) →
    let k (sl : Nat) : Nat := ((List.range 4).filter fun j => c.wave.act.getLsbD (4 * sl + j)).length
    let n (sl : Nat) : Nat := (((List.range 4).filter fun j => c.wave.act.getLsbD (4 * sl + j)).filter fun j =>
      (c.wave.readP (o.a.toNat % 8)).getLsbD (4 * sl + j)).length
    let take : SliceMask := sliceMaskOf fun sl => c.gang.slices.getLsbD sl && p.2 (k sl) (n sl)
    (c.gang.slices &&& ~~~take = 0 →
      exec (p.1 o) s = .next (s.putWave (c.wave.advance c.gang (c.gang.pc + 4 * o.ext.imm.signExtend 64)))) ∧
    (c.gang.slices &&& ~~~take ≠ 0 → take = 0 →
      exec (p.1 o) s = .next (s.putWave (c.wave.advance c.gang (c.nextPc (p.1 o))))) ∧
    (c.gang.slices &&& ~~~take ≠ 0 → take ≠ 0 →
      exec (p.1 o) s = .next (s.putWave { c.wave with
        issued := c.wave.issued + 1, roundIssued := c.wave.roundIssued + 1
        gangs := (c.wave.gangs.filter fun g => g.slices != c.gang.slices) ++
          [{ slices := take, pc := c.gang.pc + 4 * o.ext.imm.signExtend 64, wait := .ready },
           { slices := c.gang.slices &&& ~~~take, pc := c.nextPc (p.1 o), wait := .ready }] }))

/-- Outside the handler, of a wave of a crew launched by a LAUNCH: EXIT clears the activity of the cohort's lanes and
removes its slices. While another gang of the wave is not at a PHASE nothing else changes, but that bands which have
become ready thereby are noted to regroup. When the last live slice exits, with no barrier generation in progress in
the crew, the wave has exited and a crew that is quiet ends. (R23, R27, R198) -/
def Obligations.ExitEndsTheSlices : Prop :=
  ∀ (o : Opnd) (s : State) (c : Issue), Ready s c (.exit o) → c.wave.sup = false → c.crew.kind = .launch →
    let w : Wave := ({ c.wave with
      act := c.wave.act &&& ~~~c.gang.slices.lanes, exited := c.wave.exited ||| c.gang.slices
      gangs := c.wave.gangs.filter fun g => g.slices != c.gang.slices
      issued := c.wave.issued + 1, roundIssued := c.wave.roundIssued + 1 } : Wave).noteBands
    (w.hasExited = false → (w.gangs.any fun g => g.atPhase.isNone) = true → exec (.exit o) s = .next (s.putWave w)) ∧
    (w.hasExited = true → s.graph? c.crew.work = none →
      (∀ b ∈ s.blocks, b.crew = c.crew.id → bits (b.word 0x800) 5 0 = 0 ∧ bits (b.word 0x808) 3 0 = 0) →
      exec (.exit o) s = .next (s.putWave { w with slots := w.slots.filter fun x => x.sent }).settle)

/-- PHASE n outside the handler, with n from 1 to PHASEN: with no access of the wave held that it waits for, the gang
waits at it while another gang of the wave is not at a PHASE; when every other gang is at PHASE n and the carried
registers are full (those alone must be, assumption log 19), the carry set is written to the phase record and the wave has reached the PHASE with no gang left;
when all others are at PHASEs and one names another index, it traps QUEUE_MISUSE (0x12) SUB 5; while it must wait for a
held access it is not performed. An index outside 1 to PHASEN traps ILLEGAL SUB 9. SAFE n with n below SAFEN goes on
to the next instruction in the handler or while no pre-emption request stands; otherwise its gang stops after it, with
the index. An n of SAFEN or more traps ILLEGAL SUB 9. (R37, R60, R206, R344, R358, R40, R207, R356) -/
def Obligations.PhasesAndSafePoints : Prop :=
  (∀ (o : Opnd) (s : State) (c : Issue), Ready s c (.phase o) → c.wave.sup = false →
    let n := o.ext.imm.toNat
    let others := c.wave.gangs.filter fun g => g.slices != c.gang.slices
    let w : Wave := { (c.wave.park c.gang (.phase n)) with issued := c.wave.issued + 1, roundIssued := c.wave.roundIssued + 1 }
    (1 ≤ n → n ≤ c.crew.image.kernel.phaseN →
      ((others.any fun g => g.atPhase.isNone) = true → s.mustWait c.wave.ref true true = false → exec (.phase o) s = .next (s.putWave w)) ∧
      ((others.any fun g => g.atPhase.isNone) = true ∨ (others.all fun g => g.atPhase == some n) = true →
        s.mustWait c.wave.ref true true = true → exec (.phase o) s = .next (s.putWave (c.wave.park c.gang .held))) ∧
      ((others.all fun g => g.atPhase.isSome) = true → (others.any fun g => g.atPhase != some n) = true →
        exec (.phase o) s = .next (s.takeTrap c.wave { cause := 0x12, sub := 5, pc := c.gang.pc, addr := BitVec.ofNat 64 n,
                                                       lanes := c.gang.slices.lanes &&& c.wave.act, slices := c.gang.slices })) ∧
      (∀ b, (others.all fun g => g.atPhase == some n) = true → s.block? c.crew.id c.wave.ref.rank = some b →
        c.wave.reached = none → c.wave.carryFull (c.crew.image.phase n) = true → s.mustWait c.wave.ref true true = false →
        exec (.phase o) s = .next (((s.putWave w).putBlock (b.writePhase w (c.crew.waveNo w) n (c.crew.image.phase n))).putWave
          { w with reached := some n, gangs := [] }))) ∧
    (n = 0 ∨ c.crew.image.kernel.phaseN < n → FirstIssue c →
      exec (.phase o) s = .next (s.takeTrap c.wave (c.trap 0x01 9 (wordsAddr (encode (.phase o))) c.activeGroup)))) ∧
  (∀ (o : Opnd) (s : State) (c : Issue), Ready s c (.safe o) →
    (o.ext.imm.toNat < c.crew.image.kernel.safeN → c.wave.sup = true ∨ c.crew.preempt = none →
      exec (.safe o) s = .next (s.retire c (.safe o) c.wave)) ∧
    (o.ext.imm.toNat < c.crew.image.kernel.safeN → c.wave.sup = false → c.crew.preempt ≠ none →
      exec (.safe o) s = .next (s.putWave ((c.wave.advance c.gang (c.nextPc (.safe o))).park c.gang
        (.stopped (some o.ext.imm.toNat))))) ∧
    (c.crew.image.kernel.safeN ≤ o.ext.imm.toNat → FirstIssue c →
      exec (.safe o) s = .next (s.takeTrap c.wave (c.trap 0x01 9 (wordsAddr (encode (.safe o))) c.activeGroup))))

/-- WAIT with four well-formed conditions on readable locations, one of them a tile word, a gate or a queue, waits for an
earlier acquire of its wave that is held. Else it empties D and observes the conditions once: where no strong write is
remembered, it has seen those that R200 says hold, and POISON where one of their gates is poisoned. If any used one has
been seen (any) or all have (all), D receives the seen bits and the poison bit and the gang goes on; else, if the
deadline (now + T, or the one that pre-emption kept) is reached outside a Woad round, the same with the time-out bit;
else it waits with what it has seen. An observation of registers, events or, outside a Woad round, the clock changes
nothing else; where WAIT.all ends with a tile word, a gate or a queue among its conditions, it has acquired: no line is
left in the core's L1. All four unused with T = 0xFFFFFFFF traps BAD_DESCRIPTOR (0x0B) SUB 5. (R89, R98, R199, R200,
R201, R202, R203, R344) -/
def Obligations.WaitsTestTheirConditions : Prop :=
  ∀ (mk : Opnd → Instr) (all : Bool) (o : Opnd) (s : State) (c : Issue) (b : Block),
    (mk = .waitAny ∧ all = false) ∨ (mk = .waitAll ∧ all = true) →
    Ready s c (mk o) → s.block? c.crew.id c.wave.ref.rank = some b →
    let ks : List Condition := (List.range 4).map fun k =>
      { desc := c.wave.readG (o.a.toNat + 2 * k), opnd := c.wave.readG (o.a.toNat + 2 * k + 1) }
    let t := c.wave.readG o.b.toNat
    (∀ k ∈ ks, condBad c.wave b k = false) →
    (((∀ k ∈ ks, k.kind = 0) ∧ t = 0xFFFFFFFF) →
      exec (mk o) s = .next (s.takeTrap c.wave (c.trap 0x0B 5 0 c.activeGroup))) ∧
    let reads := ∃ k ∈ ks, 1 ≤ k.kind ∧ k.kind ≤ 4
    let free := c.wave.sup = true ∨ s.mustWait c.wave.ref false false = false ∨ ¬reads
    (¬((∀ k ∈ ks, k.kind = 0) ∧ t = 0xFFFFFFFF) → (∀ k ∈ ks, k.kind = 1 ∨ k.kind = 2 → s.condBlock c.wave c.crew k ≠ none) →
      (¬free → exec (mk o) s = .next (s.putWave (c.wave.park c.gang .held))) ∧
      (free →
      let w : Wave := { (c.wave.setEmpty .g o.d.toNat) with
        issued := c.wave.issued + 1, roundIssued := c.wave.roundIssued + 1
        gangs := c.wave.gangs.map fun g => if g.slices == c.gang.slices then { g with kept := none } else g }
      let x0 : WaitState := { all := all, conds := ks, seen := 0, pois := false, dst := o.d.toNat,
                              deadline := match c.gang.kept with
                                | some d => d
                                | none => if t = 0xFFFFFFFF then none else some (s.tick + t.toNat) }
      let x := (s.observe w c.crew x0).1
      let s1 := (s.observe w c.crew x0).2
      let late := x.expired s.tick = true ∧ (s.part c.crew.part).woad = false
      (x.met = true → exec (mk o) s = .next (s1.putWave (w.endWait c.gang x false))) ∧
      (x.met = false → late → exec (mk o) s = .next (s1.putWave (w.endWait c.gang x true))) ∧
      (x.met = false → ¬late → exec (mk o) s = .next (s1.putWave (w.park c.gang (.cond x)))) ∧
      ((s.part c.crew.part).woad = false → (∀ f ∈ s.strongs, f.wrote = false) →
        (∀ n k, ks[n]? = some k → (x.seen.getLsbD n = true ↔ k.kind ≠ 0 ∧ Holds s w c.crew k)) ∧
        (x.pois = true ↔ ∃ k ∈ ks, GatePoisoned s w c.crew k)) ∧
      (¬reads → (s.part c.crew.part).woad = false ∨ (∀ k ∈ ks, k.kind ≠ 6) → s1 = s) ∧
      (reads → all = true → x.met = true → ∀ y ∈ s1.l1, y.core ≠ c.crew.coreOf c.wave.ref.rank)))

/-- The word that a WAIT writes holds SEEN in bits 3:0, TIMEOUT in bit 4, POISON in bit 5 and zeros above; its register
becomes full and the gang goes on after the WAIT. (R202) -/
def Obligations.WaitResultWord : Prop :=
  ∀ (w : Wave) (g : Gang) (x : WaitState) (timeout : Bool), x.dst < 61 → x.dst < w.g.length →
    (let r := (w.endWait g x timeout).readG x.dst
     r.extractLsb' 0 4 = x.seen ∧ r.getLsbD 4 = timeout ∧ r.getLsbD 5 = x.pois ∧ r.extractLsb' 6 26 = 0) ∧
    (w.endWait g x timeout).isFull .g x.dst = true ∧
    (w.endWait g x timeout).gangs = w.gangs.map fun y => if y.slices == g.slices then { y with pc := y.pc + 8, wait := .ready } else y

/-- On a declared queue of its block, with no held access to wait for (a push is a release), a producer's QPUSH or QOFFER
with an allowance above 0 pushes the handle (QOFFER writes 1); with none QPUSH waits and QOFFER writes 0; with an
access held QPUSH waits for that first. QPOP and QPOLL pop the oldest handle when the queue holds more than the pops
that wait already (the order of assumption log 17; QPOLL writes 1 beside it); else QPOP waits and QPOLL writes 0. A
handler's QOFFER and QPOLL pass held accesses (assumption log 14). An undeclared queue traps QUEUE_MISUSE (0x12) SUB 1,
a wave that is no producer SUB 2. (R34, R35, R58, R98, R208, R209, R344, R363) -/
def Obligations.StageQueueOperations : Prop :=
  ∀ (o : Opnd) (s : State) (c : Issue) (b : Block), s.block? c.crew.id c.wave.ref.rank = some b →
    let q := o.ext.imm.toNat % 16
    let declared := bits (b.queueWord q 0) 31 31 = 1
    let producer := (BitVec.ofNat 32 (b.queueWord q 2)).getLsbD c.wave.ref.wave = true
    let some_ := (s.popStamps c.crew.id c.wave.ref.rank q).length < b.queueCount q
    let h := c.wave.readG o.a.toNat
    let pushed := s.putBlock (b.push q c.wave.ref.wave h)
    let popped := s.putBlock (b.pop q).2
    let slices := c.gang.slices
    let push := c.wave.sup = true ∨ s.mustWait c.wave.ref true true = false
    let pop := c.wave.sup = true ∨ s.mustWait c.wave.ref false false = false
    (Ready s c (.qpush o) → c.wave.sup = false →
      (declared → producer → push → b.allowance q c.wave.ref.wave ≠ 0 → exec (.qpush o) s = .next (pushed.retire c (.qpush o) c.wave)) ∧
      (declared → producer → push → b.allowance q c.wave.ref.wave = 0 →
        exec (.qpush o) s = .next (s.putWave (c.wave.park c.gang (.qpush q o.a.toNat)))) ∧
      (declared → producer → ¬push → exec (.qpush o) s = .next (s.putWave (c.wave.park c.gang .held)))) ∧
    (Ready s c (.qoffer o) →
      (declared → producer → push → b.allowance q c.wave.ref.wave ≠ 0 →
        exec (.qoffer o) s = .next (pushed.retire c (.qoffer o) (c.wave.writeG slices o.d.toNat 1))) ∧
      (declared → producer → push → b.allowance q c.wave.ref.wave = 0 →
        exec (.qoffer o) s = .next (s.retire c (.qoffer o) (c.wave.writeG slices o.d.toNat 0))) ∧
      (declared → ¬producer → exec (.qoffer o) s = .next (s.takeTrap c.wave (c.trap 0x12 2 (BitVec.ofNat 64 q) c.activeGroup)))) ∧
    (Ready s c (.qpop o) → c.wave.sup = false →
      (declared → pop → some_ → exec (.qpop o) s = .next (popped.retire c (.qpop o) (c.wave.writeG slices o.d.toNat (b.pop q).1))) ∧
      (declared → pop → ¬some_ → exec (.qpop o) s = .next ({ s with stamp := s.stamp + 1 }.putWave
        (c.wave.park c.gang (.qpop q o.d.toNat s.stamp))))) ∧
    (Ready s c (.qpoll o) →
      (declared → pop → some_ → exec (.qpoll o) s =
        .next (popped.retire c (.qpoll o) ((c.wave.writeG slices o.d.toNat (b.pop q).1).writeG slices (o.d.toNat + 1) 1))) ∧
      (declared → pop → ¬some_ → exec (.qpoll o) s = .next (s.retire c (.qpoll o) (c.wave.writeG slices (o.d.toNat + 1) 0))) ∧
      (¬declared → exec (.qpoll o) s = .next (s.takeTrap c.wave (c.trap 0x12 1 (BitVec.ofNat 64 q) c.activeGroup))))

/-- Outside the handler: a BAR, which is a release, waits while an access of its wave is held; else it sets the wave's
ARRIVED bit and counts it once in the block's barrier words; BAR.sync and BAR.crew wait at the generation they joined
and BAR.arrive goes on; then the block's barrier is checked. An arrival of the other kind within a generation traps
QUEUE_MISUSE (0x12) SUB 4. In a G-buffer step, whose waves are alone, it goes on at once. A check of a block with a
barrier generation in progress changes nothing while some wave that has not exited has not arrived. Once every such
wave has arrived, a block generation completes: GEN flips, COUNT and ARRIVED become 0, and every gang of the block
that waits for the old generation goes on after its BAR. (R55, R98, R204, R283, R344, R363) -/
def Obligations.BarriersCountAndComplete : Prop :=
  (∀ p ∈ barriers, ∀ (o : Opnd) (s : State) (c : Issue), Ready s c (p.1 o) → c.wave.sup = false →
    (c.crew.isGbuffer = true → s.mustWait c.wave.ref true true = false → exec (p.1 o) s = .next (s.retire c (p.1 o) c.wave)) ∧
    (c.crew.isGbuffer = true → s.mustWait c.wave.ref true true = true → exec (p.1 o) s = .next (s.putWave (c.wave.park c.gang .held))) ∧
    (∀ b, c.crew.isGbuffer = false → s.block? c.crew.id c.wave.ref.rank = some b →
      let clash := bits (b.word 0x800) 5 0 ≠ 0 ∧ b.barCrew = some (!p.2.1)
      let s1 := s.putBlock (b.arrive c.wave.ref.wave p.2.1)
      (clash → exec (p.1 o) s = .next (s.takeTrap c.wave (c.trap 0x12 4 0 c.activeGroup))) ∧
      (¬clash → s.mustWait c.wave.ref true true = true → exec (p.1 o) s = .next (s.putWave (c.wave.park c.gang .held))) ∧
      (¬clash → s.mustWait c.wave.ref true true = false → p.2.2 = true → exec (p.1 o) s = .next ((s1.putWave
        { (c.wave.park c.gang (.barrier (barGen (b.word 0x800)) false)) with
          issued := c.wave.issued + 1, roundIssued := c.wave.roundIssued + 1 }).checkBlock c.crew c.wave.ref.rank)) ∧
      (¬clash → s.mustWait c.wave.ref true true = false → p.2.2 = false → exec (p.1 o) s = .next ((s1.retire c (p.1 o) c.wave).checkBlock c.crew c.wave.ref.rank)))) ∧
  (∀ (s : State) (c : Crew) (rank : Nat) (b : Block), s.block? c.id rank = some b → bits (b.word 0x800) 5 0 ≠ 0 →
    let missing (w : Wave) : Prop := w.ref.crew = c.id ∧ w.ref.rank = rank ∧ w.hasExited = false ∧
      (BitVec.ofNat 32 (b.word 0x804)).getLsbD w.ref.wave = false
    ((∃ w ∈ s.waves, missing w) → s.checkBlock c rank = s) ∧
    ((∀ w ∈ s.waves, ¬missing w) → b.barCrew ≠ some true → s.checkBlock c rank = s.completeBlock b))

/-- NOP changes nothing but the program counter. PREF looks up the line of each active lane, and beside the program
counter it changes only the translations and lines that the caches hold, the tags that go with an evicted line, the
counts of fills and of bytes moved, and the oracle that decides those (the model's own field): every block, register
and byte of memory stays. A FENCE outside the handler (that of a handler passes held accesses, assumption log 14) waits
while an access of its wave is held, and a remote one while a promotion is to be made; else it goes on, and one that
acquires at crew scope or wider empties the core's L1. REGANG outside the handler leaves its gang waiting at it, and
notes the bands that are ready thereby. (R27, R89, R94, R197, R210, R211, R221, R344) -/
def Obligations.OrderingAndIdleInstructions : Prop :=
  (∀ (o : Opnd) (s : State) (c : Issue), Ready s c (.nop o) → exec (.nop o) s = .next (s.retire c (.nop o) c.wave)) ∧
  (∀ p ∈ [(Instr.prefL1, true), (.prefL2, false)], ∀ (o : Opnd) (s : State) (c : Issue), Ready s c (p.1 o) →
    let t := s.prefetchLanes c p.2 o
    exec (p.1 o) s = .next (t.retire c (p.1 o) c.wave) ∧
    { t with tlb := s.tlb, l1 := s.l1, l2 := s.l2, fills := s.fills, oracle := s.oracle, mixTags := s.mixTags, blocks := s.blocks } = s ∧
    t.blocks.length = s.blocks.length ∧
    ∀ crew rank, (t.block? crew rank).map (fun b => { b with dramBytes := 0 }) = (s.block? crew rank).map fun b => { b with dramBytes := 0 }) ∧
  (∀ p ∈ fences, ∀ (o : Opnd) (s : State) (c : Issue), Ready s c (p.1 o) →
    let waits := (c.wave.sup = false ∧ s.heldOf c.wave.ref ≠ []) ∨ (o.ext.mod.getLsbD 2 = true ∧ s.promotes (fun _ => true) = true)
    (waits → exec (p.1 o) s = .next (s.putWave (c.wave.park c.gang .held))) ∧
    (¬waits → exec (p.1 o) s = .next ((if p.2 = true ∧ o.ext.mod.extractLsb' 0 2 ≠ 0 then s.dropL1 (c.crew.coreOf c.wave.ref.rank) else s).retire
        c (p.1 o) c.wave))) ∧
  (∀ (o : Opnd) (s : State) (c : Issue), Ready s c (.regang o) → c.wave.sup = false →
    exec (.regang o) s = .next (s.putWave { (c.wave.park c.gang .regang).noteBands with
      issued := c.wave.issued + 1, roundIssued := c.wave.roundIssued + 1 }))

/-- A permitted GSYS writes the register's word to D: for every number of R148, what it reads, with DROPPED of TRAP_CAUSE
the current flag of the cluster. A GSYS of the low word of a register marked L loads the wave's latch with its high
word (in a Woad partition a recorded input takes the place of the timer), and one of the high word returns the latch.
A permitted SSYS writes the writable fields, of TRAP_CAUSE only ACT. (BLOCK_ID, ROLE and WAVE_ID of a combiner wave are
assumption log 85.) In supervisor mode TLBINV removes the cached entries of the context (all, or those over the named pages, none where their count is 0), a
SETSEG that R213 allows writes its segment register, and REPLAYALL presents the cluster's held accesses again, or
stands until an entry is free. (R109, R113, R148, R150, R211, R212, R213, R333, R340, R353) -/
def Obligations.SystemRegisterInstructions : Prop :=
  (∀ (o : Opnd) (s : State) (c : Issue), Ready s c (.gsys o) →
    let n := o.ext.imm.toNat % 4096
    supervisorOnly n = false ∨ c.wave.sup = true →
    let gives (w : Wave) (x : Word) : Prop := exec (.gsys o) s = .next (s.retire c (.gsys o) (w.writeG c.gang.slices o.d.toNat x))
    (∀ r ∈ systemWords, n = r.1 → gives c.wave (r.2 s c.wave c.crew)) ∧
    (∀ r ∈ systemPairs, (n = r.1 → gives c.wave ((r.2 c.wave c.crew).extractLsb' 0 32)) ∧
      (n = r.1 + 1 → gives c.wave ((r.2 c.wave c.crew).extractLsb' 32 32))) ∧
    (∀ r ∈ latchedPairs,
      ((s.part c.crew.part).woad = false ∨ r.1 = 0x006 → n = r.1 →
        gives { c.wave with latches := setAt c.wave.latches r.2.1 ((r.2.2 s c.wave c.crew).extractLsb' 32 32) }
          ((r.2.2 s c.wave c.crew).extractLsb' 0 32)) ∧
      (n = r.1 + 1 → gives c.wave (c.wave.latches.getD r.2.1 0)))) ∧
  (∀ (o : Opnd) (s : State) (c : Issue), Ready s c (.ssys o) →
    let n := o.ext.imm.toNat % 4096
    ∀ r ∈ systemWrites, n = r.1 → n = 0x010 ∨ c.wave.sup = true →
      exec (.ssys o) s = .next (s.retire c (.ssys o) (r.2 c.wave (c.wave.readG o.a.toNat)))) ∧
  (∀ (o : Opnd) (s : State) (c : Issue), Ready s c (.tlbinv o) → c.wave.sup = true →
    exec (.tlbinv o) s = .next ({ s with tlb := s.tlb.filter fun t =>
      let first := (c.wave.readG2 o.a.toNat).toNat % 2 ^ 57 / 2 ^ 17
      !((t.ctag == c.crew.ctx.ctag && t.part == c.crew.part) && (o.ext.mod.getLsbD 0 ||
        ((c.wave.readG o.b.toNat).toNat != 0 && t.page < first + (c.wave.readG o.b.toNat).toNat && first < t.page + t.pages))) }.retire c (.tlbinv o) c.wave)) ∧
  (∀ (o : Opnd) (s : State) (c : Issue), Ready s c (.setseg o) → c.wave.sup = true →
    let n := o.ext.imm.toNat % 4096
    let v := segValue n (c.wave.readG2 o.a.toNat)
    c.wave.segs.refuses n v = false →
    exec (.setseg o) s = .next (s.retire c (.setseg o) { c.wave with segs := c.wave.segs.set n v })) ∧
  (∀ (o : Opnd) (s : State) (c : Issue), Ready s c (.replayall o) → c.wave.sup = true →
    let s1 := s.retire c (.replayall o) c.wave
    exec (.replayall o) s = .next (if s1.bufferHasRoom c.crew.clusterNo then s1.representAll c.crew.clusterNo
      else s1.putBuffer { s1.buffer c.crew.clusterNo with replayAll := true }))

/-- A plain LD or LDT whose active lanes all reach tile memory, or all mapped memory of GLOBAL or STACK, empties the
registers from D and goes on; when it lands, each active lane receives the converted element at its own address, low
word first, and the inactive lanes keep their values. For an e2m1 array the element's byte and nibble are those of R218.
Memory and tile memory stay. (For memory: where the core's L1 holds no line, so that no older copy answers.) (R61, R62,
R63, R143, R155, R214, R216, R217, R218, R220) -/
def Obligations.LoadsReadMemory : Prop :=
  (∀ (fmt size : BitVec 6), ∀ p ∈ loadForms fmt size, ∀ (o : Opnd) (s : State) (c : Issue) (place : Nat → Nat × Nat),
    size.toNat ≤ 2 → p.2.1 ≠ 13 → Ready s c (p.1 o) → o.ext.c.toNat % 4 = 0 →
    let n := fmtBytes p.2.1
    TileAccess s c { size := n, align := n, need := { r := true }, write := false, kind := 0 } (c.active o.ext) (p.2.2 c.wave o) place →
    exec (p.1 o) s = .next ({ s with stamp := s.stamp + 1 }.retire c (p.1 o) (c.wave.produce
      { id := s.stamp, file := false, reg := o.d.toNat, lanes := c.active o.ext, pending := 0
        data := (List.range (max 1 (n / 4))).map fun k => Lanes.build fun l =>
          if (c.active o.ext).getLsbD l then (ldWords p.2.1 0 (tileBytes s c.crew.id (place l) n)).getD k 0 else 0 }))) ∧
  (∀ (o : Opnd) (s : State) (c : Issue) (place : Nat → Nat × Nat), Ready s c (.ld 13 o) → o.ext.c.toNat % 4 = 0 →
    let base (l : Nat) : BitVec 64 := c.wave.readV2 o.a.toNat l + o.ext.imm.signExtend 64
    let at_ (l : Nat) := e2m1Place (base l) ((c.wave.readV o.b.toNat).at_ l).toNat
    (∀ l ∈ LaneMask.lanes (c.active o.ext), (base l).toNat % 16 = 0) →
    TileAccess s c { size := 1, align := 1, need := { r := true }, write := false, kind := 0 } (c.active o.ext) (fun l => (at_ l).1) place →
    exec (.ld 13 o) s = .next ({ s with stamp := s.stamp + 1 }.retire c (.ld 13 o) (c.wave.produce
      { id := s.stamp, file := false, reg := o.d.toNat, lanes := c.active o.ext, pending := 0
        data := [Lanes.build fun l =>
          if (c.active o.ext).getLsbD l then (ldWords 13 (at_ l).2 (tileBytes s c.crew.id (place l) 1)).getD 0 0 else 0] }))) ∧
  (∀ (fmt size : BitVec 6), ∀ p ∈ loadForms fmt size, ∀ (o : Opnd) (s s1 : State) (c : Issue) (ok : List (Nat × List Piece)),
    size.toNat ≤ 2 → p.2.1 ≠ 13 → Ready s c (p.1 o) → o.ext.c.toNat % 4 = 0 →
    let n := fmtBytes p.2.1
    MemoryAccess s s1 c { size := n, align := n, need := { r := true }, write := false, kind := 0 } 0x20 (c.active o.ext) (p.2.2 c.wave o) ok →
    (∀ x ∈ s1.l1, x.core ≠ c.crew.coreOf c.wave.ref.rank) →
    ∃ u, exec (p.1 o) s = .next (u.retire c (p.1 o) (c.wave.produce
      { id := s1.stamp, file := false, reg := o.d.toNat, lanes := c.active o.ext, pending := 0
        data := (List.range (max 1 (n / 4))).map fun k => Lanes.build fun l =>
          if (c.active o.ext).getLsbD l then (ldWords p.2.1 0 (laneBytes s ok l)).getD k 0 else 0 })) ∧
      u.waves = s.waves ∧ SameMemory s u ∧ SameTiles s u) ∧
  (∀ (o : Opnd) (s s1 : State) (c : Issue) (ok : List (Nat × List Piece)), Ready s c (.ld 13 o) → o.ext.c.toNat % 4 = 0 →
    let base (l : Nat) : BitVec 64 := c.wave.readV2 o.a.toNat l + o.ext.imm.signExtend 64
    let at_ (l : Nat) := e2m1Place (base l) ((c.wave.readV o.b.toNat).at_ l).toNat
    (∀ l ∈ LaneMask.lanes (c.active o.ext), (base l).toNat % 16 = 0) →
    MemoryAccess s s1 c { size := 1, align := 1, need := { r := true }, write := false, kind := 0 } 0x20 (c.active o.ext) (fun l => (at_ l).1) ok →
    (∀ x ∈ s1.l1, x.core ≠ c.crew.coreOf c.wave.ref.rank) →
    ∃ u, exec (.ld 13 o) s = .next (u.retire c (.ld 13 o) (c.wave.produce
      { id := s1.stamp, file := false, reg := o.d.toNat, lanes := c.active o.ext, pending := 0
        data := [Lanes.build fun l =>
          if (c.active o.ext).getLsbD l then (ldWords 13 (at_ l).2 (laneBytes s ok l)).getD 0 0 else 0] })) ∧
      u.waves = s.waves ∧ SameMemory s u ∧ SameTiles s u)

/-- A plain ST or STT whose active lanes all reach tile memory, or all mapped memory of GLOBAL or STACK through leaves that
need no A or D bit, writes the converted element of each at its own address, lanes ascending, so that where two name one
byte the higher lane's remains, and goes on; no other byte changes. A store to an e2m1 array replaces the nibble of R218
alone. (R61, R62, R84, R155, R214, R216, R217, R218, R220) -/
def Obligations.StoresWriteMemory : Prop :=
  (∀ (fmt size : BitVec 6), ∀ p ∈ storeForms fmt size, ∀ (o : Opnd) (s : State) (c : Issue) (place : Nat → Nat × Nat),
    size.toNat ≤ 2 → fmt ≠ 13 → Ready s c (p.1 o) → o.ext.c.toNat % 4 = 0 →
    TileAccess s c { size := p.2.1, align := p.2.1, need := { w := true }, write := true, kind := 1 } (c.active o.ext)
      (p.2.2.1 c.wave o) place →
    exec (p.1 o) s = .next (((LaneMask.lanes (c.active o.ext)).foldl (fun s l =>
      tileWrite s c.crew.id (place l) p.2.1 fun _ => p.2.2.2 c.wave o l) s).retire c (p.1 o) c.wave)) ∧
  (∀ (o : Opnd) (s : State) (c : Issue) (place : Nat → Nat × Nat), Ready s c (.st 13 o) → o.ext.c.toNat % 4 = 0 →
    let base (l : Nat) : BitVec 64 := c.wave.readV2 o.a.toNat l + o.ext.imm.signExtend 64
    let at_ (l : Nat) := e2m1Place (base l) ((c.wave.readV o.d.toNat).at_ l).toNat
    (∀ l ∈ LaneMask.lanes (c.active o.ext), (base l).toNat % 16 = 0) →
    TileAccess s c { size := 1, align := 1, need := { w := true }, write := true, kind := 2 } (c.active o.ext) (fun l => (at_ l).1) place →
    exec (.st 13 o) s = .next (((LaneMask.lanes (c.active o.ext)).foldl (fun s l =>
      tileWrite s c.crew.id (place l) 1 (nibbleBytes (at_ l).2 (stValue 13 [(c.wave.readV o.b.toNat).at_ l]))) s).retire c (.st 13 o) c.wave)) ∧
  (∀ (fmt size : BitVec 6), ∀ p ∈ storeForms fmt size, ∀ (o : Opnd) (s s1 : State) (c : Issue) (ok : List (Nat × List Piece)),
    size.toNat ≤ 2 → fmt ≠ 13 → Ready s c (p.1 o) → o.ext.c.toNat % 4 = 0 →
    MemoryAccess s s1 c { size := p.2.1, align := p.2.1, need := { w := true }, write := true, kind := 1 } 0x60 (c.active o.ext)
      (p.2.2.1 c.wave o) ok →
    ∃ u, exec (p.1 o) s = .next (u.retire c (p.1 o) c.wave) ∧ u.waves = s.waves ∧ SameTiles s u ∧
      SameMemory (storedAt s ok fun _ l => p.2.2.2 c.wave o l) u) ∧
  (∀ (o : Opnd) (s s1 : State) (c : Issue) (ok : List (Nat × List Piece)), Ready s c (.st 13 o) → o.ext.c.toNat % 4 = 0 →
    let base (l : Nat) : BitVec 64 := c.wave.readV2 o.a.toNat l + o.ext.imm.signExtend 64
    let at_ (l : Nat) := e2m1Place (base l) ((c.wave.readV o.d.toNat).at_ l).toNat
    (∀ l ∈ LaneMask.lanes (c.active o.ext), (base l).toNat % 16 = 0) →
    MemoryAccess s s1 c { size := 1, align := 1, need := { w := true }, write := true, kind := 2 } 0x60 (c.active o.ext) (fun l => (at_ l).1) ok →
    ∃ u, exec (.st 13 o) s = .next (u.retire c (.st 13 o) c.wave) ∧ u.waves = s.waves ∧ SameTiles s u ∧
      SameMemory (storedAt s ok fun t l =>
        nibbleBytes (at_ l).2 (stValue 13 [(c.wave.readV o.b.toNat).at_ l]) (laneBytes t ok l)) u)

/-- An ATOM whose one active lane reaches tile memory, or mapped memory of GLOBAL or STACK, replaces the value there by the
operation of the old value and B, and the old value lands in D unless NORET; a CAS writes C where the old value equals
B, and the old value lands in D. Of memory, no other byte changes, whatever the order. (No earlier strong access is
remembered; for tile memory, the relaxed order.) (R61, R62, R90, R93, R95, R222, R223, R224) -/
def Obligations.AtomicsReadModifyWriteMemory : Prop :=
  (∀ p ∈ atomForms 0, ∀ (o : Opnd) (s : State) (c : Issue) (l : Nat) (place : Nat → Nat × Nat),
    Ready s c (p.1 o) → LaneMask.lanes (c.active o.ext) = [l] → NoStrongInTiles s →
    TileAccess s c { size := p.2.1, align := p.2.1, need := { r := true, w := true }, write := true, kind := 2 } (c.active o.ext)
      (fun l => c.wave.readV2 o.a.toNat l + o.ext.imm.signExtend 64) place →
    let old := leNat (tileBytes s c.crew.id (place l) p.2.1)
    let new := p.2.2 (BitVec.ofNat 64 old) (laneOperand c.wave p.2.1 o.b.toNat l)
    let s1 := tileAtomic { s with stamp := s.stamp + 1 } c.crew.id (place l) p.2.1 fun _ => some (leBytes p.2.1 new)
    (o.ext.c = 0 → exec (p.1 o) s = .next (s1.retire c (p.1 o) (c.wave.produce
      { id := s.stamp, file := false, reg := o.d.toNat, lanes := c.active o.ext, pending := 0
        data := (List.range (p.2.1 / 4)).map fun k => Lanes.build fun j => if j = l then BitVec.ofNat 32 (old / 2 ^ (32 * k)) else 0 }))) ∧
    (o.ext.c ≠ 0 → exec (p.1 o) s = .next (s1.retire c (p.1 o) c.wave))) ∧
  (∀ p ∈ casForms, ∀ (o : Opnd) (s : State) (c : Issue) (l : Nat) (place : Nat → Nat × Nat),
    Ready s c (p.1 o) → LaneMask.lanes (c.active o.ext) = [l] → NoStrongInTiles s → o.ext.imm = 0 →
    TileAccess s c { size := p.2, align := p.2, need := { r := true }, write := true, kind := 3 } (c.active o.ext)
      (fun l => c.wave.readV2 o.a.toNat l) place →
    let old := leNat (tileBytes s c.crew.id (place l) p.2)
    let s1 := tileAtomic { s with stamp := s.stamp + 1 } c.crew.id (place l) p.2 fun _ =>
      if old = (laneOperand c.wave p.2 o.b.toNat l).toNat then some (leBytes p.2 (laneOperand c.wave p.2 o.ext.c.toNat l).toNat) else none
    exec (p.1 o) s = .next (s1.retire c (p.1 o) (c.wave.produce
      { id := s.stamp, file := false, reg := o.d.toNat, lanes := c.active o.ext, pending := 0
        data := (List.range (p.2 / 4)).map fun k => Lanes.build fun j => if j = l then BitVec.ofNat 32 (old / 2 ^ (32 * k)) else 0 }))) ∧
  (∀ (order : BitVec 2), ∀ p ∈ atomForms order, ∀ (o : Opnd) (s s1 : State) (c : Issue) (l : Nat) (ok : List (Nat × List Piece)),
    Ready s c (p.1 o) → LaneMask.lanes (c.active o.ext) = [l] → s1.strongs = [] → s1.mixTags = [] →
    MemoryAccess s s1 c { size := p.2.1, align := p.2.1, need := { r := true, w := true }, write := true, kind := 2 } 0x60
      (c.active o.ext) (fun l => c.wave.readV2 o.a.toNat l + o.ext.imm.signExtend 64) ok →
    let old := leNat (laneBytes s ok l)
    let new := p.2.2 (BitVec.ofNat 64 old) (laneOperand c.wave p.2.1 o.b.toNat l)
    ∃ u, exec (p.1 o) s = .next (u.retire c (p.1 o) (if o.ext.c = 0 then c.wave.produce
        { id := s1.stamp, file := false, reg := o.d.toNat, lanes := c.active o.ext, pending := 0
          data := (List.range (p.2.1 / 4)).map fun k => Lanes.build fun j => if j = l then BitVec.ofNat 32 (old / 2 ^ (32 * k)) else 0 }
        else c.wave)) ∧
      u.waves = s.waves ∧ SameTiles s u ∧ SameMemory (storedAt s ok fun _ _ => leBytes p.2.1 new) u) ∧
  (∀ p ∈ casForms, ∀ (o : Opnd) (s s1 : State) (c : Issue) (l : Nat) (ok : List (Nat × List Piece)),
    Ready s c (p.1 o) → LaneMask.lanes (c.active o.ext) = [l] → s1.strongs = [] → s1.mixTags = [] →
    MemoryAccess s s1 c { size := p.2, align := p.2, need := { r := true }, write := true, kind := 3 } 0x60 (c.active o.ext)
      (fun l => c.wave.readV2 o.a.toNat l) ok →
    let old := leNat (laneBytes s ok l)
    ∃ u, exec (p.1 o) s = .next (u.retire c (p.1 o) (c.wave.produce
        { id := s1.stamp, file := false, reg := o.d.toNat, lanes := c.active o.ext, pending := 0
          data := (List.range (p.2 / 4)).map fun k => Lanes.build fun j => if j = l then BitVec.ofNat 32 (old / 2 ^ (32 * k)) else 0 })) ∧
      u.waves = s.waves ∧ SameTiles s u ∧
      SameMemory (if old = (laneOperand c.wave p.2 o.b.toNat l).toNat then
        storedAt s ok fun _ _ => leBytes p.2 (laneOperand c.wave p.2 o.ext.c.toNat l).toNat else s) u)

/-- For LD and LDT, ST and STT, every ATOM and CAS (but an e2m1 array): when some active lane's address is no multiple of
the element's size, the instruction takes MISALIGNED (0x05) at its own address, with the misaligned lanes in
TRAP_LANES, the lowest one's address in TRAP_ADDR and the access's KIND, and the state is otherwise as before it: no
byte, register, page bit or fault buffer changes. An e2m1 array whose base is not 16-byte aligned traps the same way,
with the address of the lowest such lane's element (assumption log 60). (R216, R328, R329, R333, R363) -/
def Obligations.MisalignedAccessesTrap : Prop :=
  (∀ (fmt size : BitVec 6) (order : BitVec 2), fmt ≠ 13 → ∀ p ∈ alignedForms fmt size order,
    ∀ (o : Opnd) (s : State) (c : Issue) (l : Nat) (rest : List Nat), Ready s c (p.1 o) →
    ((LaneMask.lanes (c.active o.ext)).filter fun k => (p.2.2.2 c.wave o k).toNat % p.2.1 != 0) = l :: rest →
    exec (p.1 o) s = .next (s.takeTrap c.wave { cause := 0x05, kind := p.2.2.1, pc := c.gang.pc, addr := p.2.2.2 c.wave o l,
                                                lanes := laneSet (l :: rest), slices := c.gang.slices })) ∧
  (∀ p ∈ nibbleForms, ∀ (o : Opnd) (s : State) (c : Issue) (l : Nat) (rest : List Nat), Ready s c (p.1 o) →
    let base (k : Nat) : BitVec 64 := c.wave.readV2 o.a.toNat k + o.ext.imm.signExtend 64
    ((LaneMask.lanes (c.active o.ext)).filter fun k => (base k).toNat % 16 != 0) = l :: rest →
    exec (p.1 o) s = .next (s.takeTrap c.wave
      { cause := 0x05, kind := p.2.1, pc := c.gang.pc, addr := (e2m1Place (base l) ((c.wave.readV (p.2.2 o)).at_ l).toNat).1,
        lanes := laneSet (l :: rest), slices := c.gang.slices }))

/-- A lane's access fails MISALIGNED at step 1; else NONCANONICAL at step 2 where its first or last byte is not canonical;
else APERTURE_LIMIT at step 3 where it lies in the GLOBAL aperture outside SEG_GLOBAL_BASE and SEG_GLOBAL_LIMIT, in
the STACK window beyond SEG_STACK_LIMIT, or in the TILE window at a core index that is no block of the crew, beyond
SEG_TILE_LIMIT, or, for a write, below 0x1000; each with the state unchanged. Else a TILE access reaches the byte that the
block's region table gives; a GLOBAL one is translated at its own address, and a STACK one, 4 bytes at a time, at the
backing address of R61; a malformed walk fails MALFORMED_TABLE and a missing permission PERMISSION. Where no TLB holds an
entry, no poison stands and no choice is made, the walk of a well-formed descriptor is that of R70, or of R73, over the
words in memory. A is set in the leaf, and D for a write, by an OR that changes no other bit and no other byte, where
the leaf as it was read lacks them. (The end of a RANGE walk at a reserved field is assumption log 71 and 78.) (R47, R48,
R51, R54, R61, R62, R69, R70, R73, R74, R328, R330) -/
def Obligations.AddressesAreCheckedAndTranslated : Prop :=
  (∀ (s : State) (w : Wave) (c : Crew) (f : AccessForm) (l : Nat) (a : BitVec 64),
    let fails (step cause : Nat) : Prop := s.reachLane w c f l a = (.error { step := step, cause := cause, sub := 0 }, s)
    let last := a + BitVec.ofNat 64 (f.size - 1)
    (a.toNat % f.align ≠ 0 → fails 1 0x05) ∧
    (a.toNat % f.align = 0 → canonical a = false ∨ canonical last = false → fails 2 0x07) ∧
    (a.toNat % f.align = 0 → canonical a = true → canonical last = true →
      (steer w.segs a = .global → a < w.segs.globalBase ∨ w.segs.globalLimit < last → fails 3 0x06) ∧
      (∀ off, steer w.segs a = .stack off → w.segs.stackLimit.toNat < off + f.size - 1 → fails 3 0x06) ∧
      (∀ core off, steer w.segs a = .tile core off →
        (c.rankOf w.ref.rank core = none ∨ w.segs.tileLimit.toNat + 1 < off + f.size ∨ (f.write = true ∧ off < 0x1000) → fails 3 0x06) ∧
        (∀ r b, c.isCombiner = false → c.rankOf w.ref.rank core = some r → s.block? c.id r = some b →
          off + f.size ≤ w.segs.tileLimit.toNat + 1 → b.inShadow off = false →
          (f.write = true → 0x1000 ≤ off ∧ ∀ lo hi, s.planeRange c = some (lo, hi) → off + f.size ≤ lo ∨ hi ≤ off) →
          s.reachLane w c f l a = (.ok [{ off := 0, size := f.size, addr := a, place := .tile r (b.visible off) }], s))) ∧
      (∀ ps s1, steer w.segs a = .global → w.segs.globalBase ≤ a → last ≤ w.segs.globalLimit →
        (s.reachPiece c f.need 0 f.size a = (.ok ps, s1) → s.reachLane w c f l a = (.ok [ps], s1)) ∧
        (∀ e, s.reachPiece c f.need 0 f.size a = (.error e, s1) → s.reachLane w c f l a = (.error e, s1))) ∧
      (∀ off ps s1, steer w.segs a = .stack off → c.isCombiner = false → off + f.size - 1 ≤ w.segs.stackLimit.toNat →
        let unit (k : Nat) : BitVec 64 := w.segs.stackBack + BitVec.ofNat 64 ((off + 4 * k) / 4 * 384 + 4 * l + off % 4)
        (f.size ≤ 4 → 0 < f.size → s.reachPiece c f.need 0 f.size (unit 0) = (.ok ps, s1) → s.reachLane w c f l a = (.ok [ps], s1)) ∧
        (∀ qs, s.reachLane w c f l a = (.ok qs, s1) →
          qs.map (fun p => (p.off, p.size, p.addr)) = (List.range ((f.size + 3) / 4)).map fun k => (4 * k, min 4 f.size, unit k))))) ∧
  (∀ (s : State) (c : Crew) (need : Perm) (off size : Nat) (a : BitVec 64),
    let got := s.walk c.ctx c.part c.clusterNo a
    let permits (e : BitVec 64) : Prop :=
      (need.r = true → e.getLsbD 2 = true) ∧ (need.w = true → e.getLsbD 3 = true) ∧ (need.x = true → e.getLsbD 4 = true)
    let gives (p : Place) : Prop := s.reachPiece c need off size a = (.ok { off := off, size := size, addr := a, place := p }, got.2)
    let fails (step cause sub : Nat) : Prop := s.reachPiece c need off size a = (.error { step := step, cause := cause, sub := sub }, got.2)
    (∀ e frame mt pa, got.1 = .leaf e frame mt pa →
      (permits e → gives (.mem (mtOf e) (frame * 2 ^ 17 + (a.extractLsb' 0 17).toNat) (e.getLsbD 7) e mt pa)) ∧ (¬permits e → fails 5 0x09 0)) ∧
    (∀ sub e mt pa, got.1 = .missing sub e mt pa → (sub = 1 ∧ ¬permits e → fails 5 0x09 0) ∧ (sub ≠ 1 ∨ permits e → gives (.missing sub))) ∧
    (∀ sub, got.1 = .malformed sub → fails 4 0x14 sub) ∧ (got.1 = .poisoned → gives .lost)) ∧
  (∀ (s : State) (x : Context) (part cl : Nat) (a : BitVec 64), s.tlb = [] → s.poison = [] → s.module.down = 0 → s.oracle = [] →
    let root := (x.desc0.extractLsb' 8 44).toNat * 2 ^ 8
    let rmt := mtOf x.desc1
    let reserved := x.desc0.extractLsb' 52 12 ≠ 0 ∨ x.desc0.extractLsb' 0 8 ≠ 0 ∨ x.desc1.extractLsb' 48 16 ≠ 0 ∨
      x.desc1.extractLsb' 16 16 ≠ 0 ∨ x.desc1.extractLsb' 1 11 ≠ 0
    (reserved ∨ 13 ≤ rmt → (s.walk x part cl a).1 = .malformed 6) ∧
    (¬(reserved ∨ 13 ≤ rmt) → (s.walk x part cl a).1 =
      if x.desc1.getLsbD 0 then rangeOf s part a 6 rmt root else radixOf s part a rmt root)) ∧
  (∀ (s : State) (cl : Nat) (e : BitVec 64) (mt pa : Nat) (write : Bool), cellsWf 0 s.mem = true →
    let want : BitVec 64 := (if write then 0x60 else 0x20) &&& ~~~e
    let t := s.touchLeaf cl e mt pa write
    (want = 0 → t = s) ∧ tableWord t mt pa = tableWord s mt pa ||| want ∧
    ∀ k, k < memKey mt pa ∨ memKey mt pa + 8 ≤ k → t.memBytes k 1 = s.memBytes k 1)

/-- After a byte is stored at a key, that key reads as the byte and every other key as before, and a canonical store stays
canonical; n stored bytes read back as themselves and leave every other key alone; a number stored in n little-endian
bytes reads back as itself. The list of cells is the model's own form of memory (assumption log 2). (R3, R62) -/
def Obligations.MemoryKeepsWhatIsStored : Prop :=
  (∀ (m : List (Nat × Byte)) (a b : Nat) (v : Byte), cellsWf 0 m = true →
    cellGet 0 (cellSet 0 m a v) b = (if b = a then v else cellGet 0 m b) ∧ cellsWf 0 (cellSet 0 m a v) = true) ∧
  (∀ (m : List (Nat × Byte)) (a b : Nat) (bs : List Byte), cellsWf 0 m = true →
    bytesAt (storeBytes m a bs) a bs.length = bs ∧ cellsWf 0 (storeBytes m a bs) = true ∧
    (b < a ∨ a + bs.length ≤ b → cellGet 0 (storeBytes m a bs) b = cellGet 0 m b)) ∧
  (∀ n v : Nat, v < 256 ^ n → leNat (leBytes n v) = v)

/-- A plain store of one translated piece, through a leaf whose A and D bits are set and no link that is down, is done and
leaves its bytes at its place in memory and every other byte of memory as it was; tile memory, registers and gangs
stay. A whole 16-byte unit stored clears that unit's poison. A plain read of one translated piece, by a wave with no
stores held back, through a leaf whose A bit is set: poison on its unit is consumed with SUB 1; else, where the core's
L1 holds no copy of its line, it gives the bytes of memory; else those bytes or the copy's. Memory stays as it was.
(R62, R63, R74, R397, R403, R396, R398) -/
def Obligations.PlainAccessesToMemory : Prop :=
  (∀ (s : State) (w : Wave) (c : Crew) (p : Piece) (bs : List Byte) (mt pa : Nat) (comp : Bool) (e : BitVec 64) (lmt lpa : Nat),
    p.place = .mem mt pa comp e lmt lpa → p.off = 0 → bs.length = p.size → e &&& 0x60 = 0x60 → s.linkDown mt = false →
    cellsWf 0 s.mem = true →
    ∃ t, s.storePiece w c none p bs = (.done, t) ∧ t.memBytes (memKey mt pa) p.size = bs ∧
      (∀ k, k < memKey mt pa ∨ memKey mt pa + p.size ≤ k → t.memBytes k 1 = s.memBytes k 1) ∧
      t.waves = s.waves ∧ (∀ k r, (t.block? k r).map (fun b => (b.tile, b.loose)) = (s.block? k r).map fun b => (b.tile, b.loose)) ∧
      (p.size = 16 → pa % 16 = 0 → memKey mt pa ∉ t.poison)) ∧
  (∀ (s : State) (w : Wave) (c : Crew) (p : Piece) (mt pa : Nat) (comp : Bool) (e : BitVec 64) (lmt lpa : Nat),
    p.place = .mem mt pa comp e lmt lpa → e &&& 0x20 = 0x20 → w.buffer = [] →
    SameMemory s (s.readPiece w c none p).2 ∧
    (s.memPoisoned mt pa p.size = true → (s.readPiece w c none p).1 = .poison 1) ∧
    (s.memPoisoned mt pa p.size = false →
      ((∀ x ∈ s.l1, ¬(x.core = c.coreOf w.ref.rank ∧ x.mt = mt ∧ x.line = pa / 128)) →
        (s.readPiece w c none p).1 = .bytes (s.memBytes (memKey mt pa) p.size)) ∧
      ((s.readPiece w c none p).1 = .bytes (s.memBytes (memKey mt pa) p.size) ∨
        ∃ x ∈ s.l1, x.core = c.coreOf w.ref.rank ∧ x.mt = mt ∧ x.line = pa / 128 ∧
          (s.readPiece w c none p).1 = .bytes ((x.bytes.drop (pa % 128)).take p.size))))

/-- An engine instruction at its first issue whose descriptor address is a multiple of 64 and passes the checks of an
access: with no free progress record (the commands in flight hold one each, and so does each cohort whose descriptor's
read is held) its gang waits; else, when its wave holds no access and no batch holds the
descriptor's line, it reads the descriptor; one that passes the checks of its kind takes the lowest free record: the
record is written with VALID, the kind, the wave, the descriptor address and TOTAL, a command with the descriptor, the
segment registers and DONE = 0 joins the block, and the gang goes on. XFM presents its table next; a command of no
unit completes at once. A descriptor address that is no multiple of 64 traps MISALIGNED (0x05) KIND 5. (R55, R57,
R233, R234, R344, R368) -/
def Obligations.EngineCommandsAreIssued : Prop :=
  ∀ p ∈ engineForms, ∀ (o : Opnd) (s : State) (c : Issue) (b : Block), Ready s c (p.1 o) → c.gang.within = false →
    s.block? c.crew.id c.wave.ref.rank = some b →
    let da := c.wave.readG2 o.a.toNat
    (da.toNat % 64 ≠ 0 → exec (p.1 o) s = .next (s.takeTrap c.wave (c.trap 0x05 0 da c.activeGroup 5))) ∧
    (∀ ps s0, da.toNat % 64 = 0 → inStack c.wave.segs da = false → s.reachDesc c.wave c.crew da 64 5 = (.ok ps, s0) →
      (s.recordFree c.crew.id c.wave.ref.rank = false → exec (p.1 o) s = .next (s.putWave (c.wave.park c.gang .record))) ∧
      (∀ rec d s1 b1, s.recordFree c.crew.id c.wave.ref.rank = true → s.heldOf c.wave.ref = [] → s.piecesHeld c.crew.id [(0, ps)] = false →
        s0.readDesc c.wave c.crew da ps = (.got (.bits da d), s1) → s1.descFault c.wave c.crew p.2 d da = none →
        s1.block? c.crew.id c.wave.ref.rank = some b1 → b1.freeRecordNo = some rec →
        ∃ m : Command, m.recNo = rec ∧ m.kind = p.2 ∧ m.wave = c.wave.ref.wave ∧ m.desc = da.toNat ∧ m.bits = d ∧ m.segs = c.wave.segs ∧
          m.total = totalUnits p.2 d ∧ m.done = 0 ∧ m.written = [] ∧ m.held = [] ∧
          let s2 := (s1.retire c (p.1 o) c.wave).putBlock
            { b1.store (0xA00 + 32 * rec) (leBytes 4 (2 ^ 31 + 2 ^ 28 * p.2 + 2 ^ 16 * c.wave.ref.wave) ++ leBytes 4 0 ++
                leBytes 8 da.toNat ++ leBytes 4 m.total ++ leBytes 12 0) with commands := b1.commands ++ [m] }
          exec (p.1 o) s = .next (if p.2 = 4 then s2.performUnit c.crew c.wave.ref.rank m m.total fun s m a sub =>
              s.holdUnit c.crew c.wave.ref.rank m m.total a sub
            else if m.total = 0 then s2.countUnits c.crew.id c.wave.ref.rank m else s2)))

/-- On a gate that its locator may name, GATEINIT writes ARRIVED 0, EXPECTED from B, GEN 0 and the flags of its fields,
and GATEARM arms the gate and adds B to an armed gate's EXPECTED, or sets it; each then checks whether the gate is
complete, in one update of 16 bytes, of which tile memory holds the result where no strong access is remembered. PUBLISH
inverts CUR of a double-buffered region. Outside the handler (one in the handler does not wait, assumption log 14) a
gate update waits for the wave's earlier held reads and acquires, PUBLISH, a release, for every held access. A region
that is not double-buffered traps BAD_DESCRIPTOR (0x0B) SUB 10; a locator that may not be named traps with the cause of
its fault, as a write. (R56, R57, R59, R103, R232, R236, R237, R333, R344, R363, R369) -/
def Obligations.GatesAndPublication : Prop :=
  (∀ (o : Opnd) (s : State) (c : Issue) (r off : Nat) (b : Block), s.gateAt c.wave c.crew (c.wave.readG o.a.toNat) = .ok (r, off) →
    s.block? c.crew.id r = some b →
    let region := o.ext.imm.toNat % 16
    let n := (c.wave.readG o.b.toNat).toNat
    let g := b.gate off
    let free := c.wave.sup = true ∨ s.mustWait c.wave.ref true false = false
    (Ready s c (.gateinit o) → o.ext.imm.getLsbD 4 = false ∨ b.doubleBuffered region = true → free →
      exec (.gateinit o) s = .next ((s.gateUpdate b off fun b => b.checkGate off
        { flags := 16 * region + (if o.ext.mod.getLsbD 0 then 8 else 0) + (if o.ext.imm.getLsbD 4 then 4 else 0)
          arrived := 0, expected := n, gen := 0 }).retire c (.gateinit o) c.wave)) ∧
    (Ready s c (.gateinit o) → o.ext.imm.getLsbD 4 = true → b.doubleBuffered region = false →
      exec (.gateinit o) s = .next (s.takeTrap c.wave (c.trap 0x0B 10 ((c.wave.readG o.a.toNat).setWidth 64) c.activeGroup))) ∧
    (Ready s c (.gatearm o) → free →
      exec (.gatearm o) s = .next ((s.gateUpdate b off fun b => b.checkGate off { g with
        expected := if g.armed then (g.expected + n) % 2 ^ 32 else n, flags := setBits g.flags 3 3 1 }).retire c (.gatearm o) c.wave)) ∧
    (Ready s c (.gatearm o) → ¬free → exec (.gatearm o) s = .next (s.putWave (c.wave.park c.gang .held))) ∧
    (Ready s c (.gateinit o) → o.ext.imm.getLsbD 4 = false ∨ b.doubleBuffered region = true → ¬free →
      exec (.gateinit o) s = .next (s.putWave (c.wave.park c.gang .held)))) ∧
  (∀ (s : State) (b : Block) (off : Nat) (g : Gate), s.strongs = [] → s.block? b.crew b.rank = some b → cellsWf 0 b.tile = true →
    let u := s.gateUpdate b off fun b => b.checkGate off g
    (∀ p n, tileBytes u b.crew (b.rank, p) n = (b.checkGate off g).bytes p n) ∧ SameMemory s u ∧ u.waves = s.waves) ∧
  (∀ mk ∈ [Instr.gateinit, .gatearm], ∀ (o : Opnd) (s : State) (c : Issue) (cause : Nat), Ready s c (mk o) →
    s.gateAt c.wave c.crew (c.wave.readG o.a.toNat) = .error cause →
    exec (mk o) s = .next (s.takeTrap c.wave (c.trap cause 0 ((c.wave.readG o.a.toNat).setWidth 64) c.activeGroup 1))) ∧
  (∀ (o : Opnd) (s : State) (c : Issue) (b : Block), Ready s c (.publish o) → s.block? c.crew.id c.wave.ref.rank = some b →
    (b.doubleBuffered (o.ext.imm.toNat % 16) = true → c.wave.sup = false → s.mustWait c.wave.ref true true = true →
      exec (.publish o) s = .next (s.putWave (c.wave.park c.gang .held))) ∧
    (b.doubleBuffered (o.ext.imm.toNat % 16) = true → c.wave.sup = true ∨ s.mustWait c.wave.ref true true = false →
      exec (.publish o) s = .next ((s.putBlock (b.publish (o.ext.imm.toNat % 16))).retire c (.publish o) c.wave)) ∧
    (b.doubleBuffered (o.ext.imm.toNat % 16) = false → exec (.publish o) s = .next (s.takeTrap c.wave
      (c.trap 0x0B 10 (BitVec.ofNat 64 (o.ext.imm.toNat % 16)) c.activeGroup))))

/-- ACQACC outside the handler binds the banks of A that the wave's block does not hold (of a G-buffer wave, the block of
its own, assumption log 75), with zeros, when they may be bound now, and otherwise waits; RELACC unbinds the banks of
A and their contents are lost; ACCZ clears the tile of every acting octet. A tile above 255 or in a bank not held
traps ACC_NOT_HELD (0x0D) with those octets' leaders. (R142, R245, R246, R254, R363) -/
def Obligations.AccumulatorBanks : Prop :=
  ∀ (o : Opnd) (s : State) (c : Issue) (b : Block), s.accBlock? c.crew c.wave = some b →
    let want := c.wave.readG o.a.toNat &&& ~~~b.held
    let s1 : State := { s with stamp := s.stamp + 1 }
    (Ready s c (.acqacc o) → c.wave.sup = false → (∀ x st, c.gang.wait ≠ .acqacc x st) →
      (s1.mayBind c.crew b want s.stamp = true → exec (.acqacc o) s = .next ((s1.putBlock (b.bind want (s1.freeAside b))).retire c (.acqacc o) c.wave)) ∧
      (s1.mayBind c.crew b want s.stamp = false →
        exec (.acqacc o) s = .next (s1.putWave (c.wave.park c.gang (.acqacc (c.wave.readG o.a.toNat) s.stamp))))) ∧
    (Ready s c (.relacc o) →
      exec (.relacc o) s = .next ((s.putBlock (b.unbind (c.wave.readG o.a.toNat))).retire c (.relacc o) c.wave)) ∧
    (Ready s c (.accz o) →
      (badTiles b o.ext (c.octets o.ext) = [] → ∃ b', exec (.accz o) s = .next ((s.putBlock b').retire c (.accz o) c.wave) ∧
        b' = { b with acc := b'.acc } ∧ (cellsWf 0 b.acc = true → ∀ t i j, i < 8 → j < 32 →
          b'.accAt t i j = if t ∈ (c.octets o.ext).map (tileIndex o.ext) then 0 else b.accAt t i j)) ∧
      (∀ x rest, badTiles b o.ext (c.octets o.ext) = x :: rest → exec (.accz o) s = .next (s.takeTrap c.wave
        (c.trap 0x0D 0 (BitVec.ofNat 64 (tileIndex o.ext x % 512)) (laneSet ((x :: rest).map fun k => 8 * k))))))

/-- An MXM whose acting octets' tiles are held and whose panels may be read waits, outside the handler, for an earlier
acquire of its wave that is held; else, where they hold no poison, it replaces, octet by octet, each octet's tile and
goes on. Element (i, j) of the tile becomes the accumulation of row i of A and row j of B on its
old value, or on 0 where ZERO is set; for s8 operands it is the sum of the products, modulo 2^32. Every other element
stays. (R104, R133, R134, R142, R247, R248, R249, R250, R344) -/
def Obligations.MatrixProducts : Prop :=
  (∀ (fmts : BitVec 6) (o : Opnd) (s : State) (c : Issue) (b : Block), Ready s c (.mxm fmts o) →
    s.accBlock? c.crew c.wave = some b → badTiles b o.ext (c.octets o.ext) = [] →
    (∀ oc ∈ c.octets o.ext, ∀ p ∈ mxmPanels c.wave fmts o (8 * oc), s.panelFault c p = none) →
    (c.wave.sup = false → s.mustWait c.wave.ref false false = true →
      exec (.mxm fmts o) s = .next (s.putWave (c.wave.park c.gang .held))) ∧
    (c.wave.sup = true ∨ s.mustWait c.wave.ref false false = false →
      (∀ oc ∈ c.octets o.ext, ∀ p ∈ mxmPanels c.wave fmts o (8 * oc), s.panelPoison c p = none) →
      exec (.mxm fmts o) s = .next (((c.octets o.ext).foldl (fun s oc =>
      match s.accBlock? c.crew c.wave with
      | none => s
      | some b => s.putBlock (s.mxmTile c fmts o b oc (mxmPanels c.wave fmts o (8 * oc)))) s).retire c (.mxm fmts o) c.wave))) ∧
  (∀ (fmts : BitVec 6) (o : Opnd) (s : State) (c : Issue) (b : Block) (oc : Nat) (ps : List Panel) (t i j : Nat),
    cellsWf 0 b.acc = true → i < 8 → j < 32 →
    let b' := s.mxmTile c fmts o b oc ps
    let p (n : Nat) : Panel := ps.getD n { loc := 0, rows := 0, pitch := 0, bytes := 0 }
    b' = { b with acc := b'.acc } ∧ (t ≠ tileIndex o.ext oc → b'.accAt t i j = b.accAt t i j) ∧
    (t = tileIndex o.ext oc → mxmA fmts = 5 → b'.accAt t i j = (if o.ext.mod.getLsbD 0 then 0 else b.accAt t i j) +
      BitVec.ofInt 32 ((((s.panelRow c (p 0) i).zip (s.panelRow c (p 1) j)).map fun x => x.1.toInt * x.2.toInt).sum)) ∧
    (t = tileIndex o.ext oc → mxmA fmts ≠ 5 → b'.accAt t i j = accumulate (if o.ext.mod.getLsbD 0 then 0 else b.accAt t i j)
      ((List.range (mxmDepth fmts o.ext)).map (mxmElement (mxmA fmts) (mxmScaleA fmts o.ext) (s.panelRow c (p 0) i)
        (if mxmScaleA fmts o.ext then s.panelRow c (p 2) i else [])))
      ((List.range (mxmDepth fmts o.ext)).map (mxmElement (mxmB fmts) (mxmScaleB fmts o.ext) (s.panelRow c (p 1) j)
        (if mxmScaleB fmts o.ext then s.panelRow c (p (if mxmScaleA fmts o.ext then 3 else 2)) j else [])))))

/-- A DRAIN whose acting octets' tiles are held: the register form lands, in each active lane of an acting octet, the
words of its row; the memory form, when every unit passes its checks, is not held back and is written, goes on with
LOVF raised where a lattice box overflowed. (R142, R250, R251, R252, R253) -/
def Obligations.DrainsReadTheAccumulators : Prop :=
  ∀ p ∈ drainForms, ∀ (o : Opnd) (s : State) (c : Issue) (b : Block), Ready s c (p.1 o) →
    s.accBlock? c.crew c.wave = some b → badTiles b o.ext (c.octets o.ext) = [] →
    (drainReg o.ext = true → ∃ lanes : LaneMask,
      exec (p.1 o) s = .next ({ s with stamp := s.stamp + 1 }.retire c (p.1 o) (c.wave.produce
        { id := s.stamp, file := false, reg := o.d.toNat, lanes := lanes, pending := 0
          data := (List.range (drainRegs p.2 o.ext)).map fun k => Lanes.build fun l =>
            if lanes.getLsbD l then (drainWords b p.2 o.ext (l / 8) (l % 8)).getD k 0 else 0 })) ∧
      ∀ l, l < 96 → (lanes.getLsbD l = true ↔ l / 8 ∈ c.octets o.ext ∧ (c.active o.ext).getLsbD l = true)) ∧
    (∀ us s1 s2, drainReg o.ext = false → s.heldOf c.wave.ref = [] → s.drainReach c b p.2 o (c.octets o.ext) = (us, [], s1) →
      s.piecesHeld c.crew.id (us.map fun u => (8 * u.octet, u.pieces)) = false →
      us.foldl (fun (acc : Bool × State) u => ((acc.2.drainUnit c u).1 && acc.1, (acc.2.drainUnit c u).2)) (true, s1) = (true, s2) →
      exec (p.1 o) s = .next (s2.retire c (p.1 o) (if drainOverflow b p.2 o.ext (c.octets o.ext) then
        { s2.nowWave c with fp := (s2.nowWave c).fp ||| LOVF } else s2.nowWave c)))

/-- Outside the handler and a combiner wave, with no access of the wave held: an HCALL whose active lanes all reach device
memory empties D until every reply has come, drops each line from the core's L1, and puts one request for each active
lane on its way, in lane order, with the method, the lane's argument and its place. In a combiner wave: HARG gives
each active lane the named field of the request of its index, or 0; HINFO the number of requests and the method;
HREPLY records each active lane's reply, the last one standing; HDONE makes the wave's stores visible, ends the batch
and gives each request its reply, or 0. In any other wave they trap ROLE (0x11) SUB 5. (R63, R106, R143, R225, R226,
R230, R231, R362) -/
def Obligations.RequestsAndTheirCombiners : Prop :=
  (∀ (o : Opnd) (s s1 : State) (c : Issue) (ps : List (Nat × Piece)) (mt pa lmt lpa : Nat → Nat) (comp : Nat → Bool)
    (e : Nat → BitVec 64), Ready s c (.hcall o) → c.wave.sup = false → c.crew.combines = none → s.heldOf c.wave.ref = [] →
    let m := o.ext.imm.toNat % 256
    let size := if m = 2 then 8 else 4
    let addr (l : Nat) : BitVec 64 := c.wave.readV2 o.a.toNat l
    callPlaces c.wave c.crew { size := size, align := size, need := { r := true, w := true }, write := true, kind := 2 } addr
      (LaneMask.lanes (c.active o.ext)) s = some (ps, s1) →
    (∀ x ∈ ps, x.2.place = .mem (mt x.1) (pa x.1) (comp x.1) (e x.1) (lmt x.1) (lpa x.1)) →
    exec (.hcall o) s = .next ((LaneMask.lanes (c.active o.ext)).foldl (fun (t : State) l =>
      { t.dropL1Line (c.crew.coreOf c.wave.ref.rank) (mt l) (pa l) with
        inflight := t.inflight ++ [{ wave := c.wave.ref, lane := l, landing := s1.stamp, method := m,
                                     arg := (c.wave.readV o.b.toNat).at_ l, addr := addr l, mt := mt l, pa := pa l, comp := comp l,
                                     leaf := e l, leafMt := lmt l, leafPa := lpa l, stamp := s1.stamp, pc := c.gang.pc,
                                     context := c.crew.ctx, part := c.crew.part, arrived := 0 }] })
      ({ s1 with stamp := s1.stamp + 1 }.retire c (.hcall o) (c.wave.produce
        { id := s1.stamp, file := false, reg := o.d.toNat, lanes := c.active o.ext, data := [Lanes.build fun _ => 0],
          pending := c.active o.ext })))) ∧
  ((∀ (o : Opnd) (s : State) (c : Issue) (id : Nat) (b : Object), c.crew.kind = .combiner id → s.object? id = some b →
    let qs := b.running.getD []
    (Ready s c (.harg o) → exec (.harg o) s = .next (s.retire c (.harg o) (c.wave.writeV o.d.toNat (c.active o.ext) fun l =>
      match qs[l]? with
      | some q => q.field (o.ext.imm.toNat % 4)
      | none => 0))) ∧
    (Ready s c (.hinfo o) → exec (.hinfo o) s = .next (s.retire c (.hinfo o) (c.wave.writeG c.gang.slices o.d.toNat
      (BitVec.ofNat 32 (qs.length + 256 * (match qs with | q :: _ => q.method | [] => 0)))))) ∧
    (Ready s c (.hreply o) → exec (.hreply o) s = .next ((s.putObject { b with
      replies := (b.replies.filter fun (x : Nat × Word) => !(c.active o.ext).getLsbD x.1) ++
        (LaneMask.lanes (c.active o.ext)).map fun l => (l, (c.wave.readV o.a.toNat).at_ l) }).retire c (.hreply o) c.wave)) ∧
    (Ready s c (.hdone o) → exec (.hdone o) s = .next ((qs.zipIdx.foldl (fun (s : State) x =>
      s.reply x.1 (((b.replies.find? fun y => y.1 == x.2).map fun y => y.2).getD 0))
        ((s.commitBytes (c.crew.coreOf 0) c.crew.part c.crew.ctx.ctag none c.wave.buffer).endBatch b)).tidyObjects))) ∧
  (∀ mk ∈ [Instr.harg, .hinfo, .hreply, .hdone], ∀ (o : Opnd) (s : State) (c : Issue), Ready s c (mk o) → c.crew.combines = none →
    FirstIssue c →
    exec (mk o) s = .next (s.takeTrap c.wave (c.trap 0x11 5 (wordsAddr (encode (mk o))) (c.lanesOf (mk o))))))

/-- In a tile pass whose tile has not retired, PIXINFO and IPA write, in each active lane whose record has a pixel, the
value of R256 or R257 at its record, 96 × wave + lane. SAMPLE and SAMPLEL read a descriptor that passes its checks: of
one active lane whose texels are all read, D to D+3 receive the filtered channels at the lane's level of detail; a
descriptor that is not 32-byte aligned or has a reserved value traps; with no active lane nothing is written. BLEND of
one active lane replaces the colour of its address in tile memory by the blend of its source and the old colour.
(R255, R256, R257, R258, R259, R261, R267, R268) -/
def Obligations.PixelInstructions : Prop :=
  (∀ p ∈ pixelForms, ∀ (o : Opnd) (s : State) (c : Issue) (r : RenderPass) (t : TilePass) (b : Block), Ready s c (p.1 o) →
    s.tilePass c.crew = some (r, t) → t.retired = false → s.block? c.crew.id c.wave.ref.rank = some b →
    ∃ m : LaneMask, exec (p.1 o) s = .next (s.retire c (p.1 o) (c.wave.writeV o.d.toNat m fun l =>
        p.2 o c.wave r t b (96 * c.wave.ref.wave + l) l)) ∧
      ∀ l, l < 96 → (m.getLsbD l = true ↔ (c.active o.ext).getLsbD l = true ∧ 96 * c.wave.ref.wave + l < r.edge * r.edge)) ∧
  (∀ p ∈ sampleForms, ∀ (o : Opnd) (s : State) (c : Issue), Ready s c (p.1 o) →
    c.gang.within = false →
    let da := c.wave.readG2 o.b.toNat
    (∀ (l d : Nat) (ps qs : List Piece) (units : List (Nat × List Byte)) (s0 s1 s2 s3 : State) (w4 : Wave),
      LaneMask.lanes (c.active o.ext) = [l] → da.toNat % 32 = 0 → s.reachDesc c.wave c.crew da 32 0 = (.ok ps, s0) →
      s.heldOf c.wave.ref = [] → s.piecesHeld c.crew.id [(0, ps)] = false →
      s0.readDesc c.wave c.crew da ps = (.got (.bits da d), s1) → textureBad d = false →
      let t := textureOf d
      let ts := sampleTexels t ((c.wave.readV o.a.toNat).at_ l) ((c.wave.readV (o.a.toNat + 1)).at_ l) (p.2 o c.wave t l)
      s1.reachTexels c.wave c.crew t l (ts.map fun x => x.1) = (qs, [], s2) →
      s1.heldOf c.wave.ref = [] → s1.piecesHeld c.crew.id [(l, qs)] = false →
      { s2 with stamp := s2.stamp + 1 }.readTexels c.wave c.crew l qs = ({ units := units, missing := [], poison := none }, s3) →
      let s4 := s3.retire c (p.1 o) ((s3.nowWave c).produce
        { id := s2.stamp, file := false, reg := o.d.toNat, lanes := c.active o.ext, pending := 0
          data := (List.range 4).map fun k => Lanes.build fun j => if j = l then (sampledWords t ts units).getD k 0 else 0 })
      s4.wave? c.wave.ref = some w4 → exec (p.1 o) s = .next (s4.putWave w4.settle)) ∧
    (da.toNat % 32 ≠ 0 → c.active o.ext ≠ 0 → exec (p.1 o) s = .next (s.takeTrap c.wave (c.trap 0x05 0 da (c.active o.ext)))) ∧
    (∀ d ps s0 s1, c.active o.ext ≠ 0 → da.toNat % 32 = 0 → s.reachDesc c.wave c.crew da 32 0 = (.ok ps, s0) →
      s.heldOf c.wave.ref = [] → s.piecesHeld c.crew.id [(0, ps)] = false →
      s0.readDesc c.wave c.crew da ps = (.got (.bits da d), s1) →
      exec (p.1 o) s = .next (if textureBad d then s1.takeTrap c.wave (c.trap 0x0B 6 da (c.active o.ext))
        else s1.sampleLanes c (p.1 o) o (.bits da d) d (p.2 o c.wave))) ∧
    (c.active o.ext = 0 → exec (p.1 o) s = .next ({ s with stamp := s.stamp + 1 }.retire c (p.1 o) (c.wave.produce
      { id := s.stamp, file := false, reg := o.d.toNat, lanes := 0, data := List.replicate 4 (Lanes.build fun _ => 0), pending := 0 })))) ∧
  (∀ (o : Opnd) (s : State) (c : Issue) (r : RenderPass) (t : TilePass) (l core off rank place : Nat) (b : Block), Ready s c (.blend o) →
    s.tilePass c.crew = some (r, t) → t.retired = false → LaneMask.lanes (c.active o.ext) = [l] → NoStrongInTiles s →
    s.heldOf c.wave.ref = [] → steer c.wave.segs (c.wave.readV2 o.b.toNat l) = .tile core off →
    s.reachLane c.wave c.crew { size := 8, align := 8, need := { r := true, w := true }, write := true, kind := 2 } l
      (c.wave.readV2 o.b.toNat l) =
      (.ok [{ off := 0, size := 8, addr := c.wave.readV2 o.b.toNat l, place := .tile rank place }], s) →
    s.block? c.crew.id rank = some b → b.tilePoison.contains (place / 16 * 16) = false →
    exec (.blend o) s = .next ((tileAtomic s c.crew.id (rank, place) 8 fun old =>
      some (blendBytes o.ext.mod.toNat (c.wave.readV2 o.a.toNat l) old)).retire c (.blend o) c.wave))

/-- BIN of a geometry wave whose lanes have not submitted: every active lane's triangle that touches no tile is culled at
once, every other one is submitted with its primitive number; the gang goes on when all are culled and otherwise waits
for their commits, and goes on once every one is committed. In a tile pass TILEINFO gives the selected word. TDONE in
the resolve step of a tile that is no flush retires it, once no engine command of the block and no access of the wave
is outstanding, and waits before. (R255, R262, R263, R271, R279, R362) -/
def Obligations.BinningAndTileRetirement : Prop :=
  (∀ (o : Opnd) (s : State) (c : Issue) (r : RenderPass), Ready s c (.bin o) → c.wave.sup = false → c.crew.kind = .geometry →
    (∀ m, c.gang.wait ≠ .bin m) → c.active o.ext &&& c.wave.binned = 0 → s.passOf c.crew = some r → s.heldOf c.wave.ref = [] →
    let sub (l : Nat) : Submission :=
      { prim := c.wave.globalLane l, xyzq := (List.range 12).map fun k => (c.wave.readV (o.a.toNat + k)).at_ l,
        attr := c.wave.readV2 o.b.toNat l, wave := c.wave.ref, lane := l }
    let culled (l : Nat) : Bool := match r.resolve (sub l).xyzq with | some t => (r.touched t).isEmpty | none => true
    let lanes := LaneMask.lanes (c.active o.ext)
    let w : Wave := { c.wave with binned := c.wave.binned ||| laneSet (lanes.filter culled) }
    let s1 := s.putPass { r with
      subs := r.subs ++ (((lanes.filter fun l => !culled l).map sub).filter fun x => r.subs.all fun y => y.prim != x.prim)
      gone := r.gone ++ ((lanes.filter culled).map fun l => c.wave.globalLane l) }
    ((∀ l ∈ lanes, culled l = true) → exec (.bin o) s = .next (s1.retire c (.bin o) w)) ∧
    ((∃ l ∈ lanes, culled l = false) →
      exec (.bin o) s = .next (s1.putWave (w.park c.gang (.bin (laneSet (lanes.filter fun l => !culled l))))))) ∧
  (∀ (o : Opnd) (s : State) (c : Issue) (r : RenderPass), Ready s c (.bin o) → c.crew.kind = .geometry → s.passOf c.crew = some r →
    s.heldOf c.wave.ref = [] → c.gang.wait = .bin 0 → exec (.bin o) s = .next ((s.putPass r).retire c (.bin o) c.wave)) ∧
  (∀ (o : Opnd) (s : State) (c : Issue) (r : RenderPass) (t : TilePass), s.tilePass c.crew = some (r, t) →
    (Ready s c (.tileinfo o) → exec (.tileinfo o) s = .next (s.retire c (.tileinfo o)
      (c.wave.writeG c.gang.slices o.d.toNat (tileInfo r t (o.ext.imm.toNat % 16))))) ∧
    (Ready s c (.tdone o) → t.flush = false → t.step = .resolve → t.retired = false →
      ((∀ b ∈ s.blocks, b.crew = c.crew.id → b.commands = []) → s.heldOf c.wave.ref = [] →
        exec (.tdone o) s = .next ((s.retire c (.tdone o) c.wave).retireTile c.crew)) ∧
      ((∃ b ∈ s.blocks, b.crew = c.crew.id ∧ b.commands ≠ []) ∨ s.heldOf c.wave.ref ≠ [] →
        exec (.tdone o) s = .next (s.putWave (c.wave.park c.gang .tdone)))))

/-- In a wave of a graph, RECALLOC of a node above its own takes a slot for each active lane as R298 allows, in lane
order, and goes on with the addresses in D when every lane has one; a node that is 0, does not exist or is not above
traps RECORD_BAD_NODE (0x13) SUB 1. RECSEND of slots that the wave holds, each once, commits their records in lane order and
goes on; an address that no RECALLOC of the wave returned traps SUB 2. (R264, R298, R299, R362, R381) -/
def Obligations.RecordsOfWorkGraphs : Prop :=
  ∀ (o : Opnd) (s : State) (c : Issue) (g : Graph) (own : Nat), s.graphNode c.crew = some (g, own) →
    let n := o.ext.imm.toNat % 64
    let lanes := LaneMask.lanes (c.active o.ext)
    (Ready s c (.recalloc o) → c.wave.sup = false → c.active o.ext ≠ 0 →
      (n = 0 ∨ g.nodes.length ≤ n ∨ n ≤ own →
        exec (.recalloc o) s = .next (s.takeTrap c.wave (c.trap 0x13 1 (BitVec.ofNat 64 n) (c.active o.ext)))) ∧
      (n ≠ 0 → n < g.nodes.length → own < n →
        (∀ (got : List (Nat × Nat)) g', s.recTurn g n s.stamp = true → g.takeSlots n lanes = (got, g') → got.length = lanes.length →
          exec (.recalloc o) s = .next ((got.foldl (fun (t : State) x => t.blankSlot c.crew x.2 g.slotSize)
            ({ s with stamp := s.stamp + 1 }.putGraph g')).retire c (.recalloc o)
              ({ c.wave with slots := c.wave.slots ++ (got.map fun (x : Nat × Nat) => ({ addr := x.2, node := n, lane := x.1, sent := false } : Slot)) }.writeV2
                o.d.toNat (c.active o.ext) fun l => BitVec.ofNat 64 (((got.find? fun (x : Nat × Nat) => x.1 == l).map fun (x : Nat × Nat) => x.2).getD 0)))) ∧
        exec (.recalloc o) s = .next ({ s with stamp := s.stamp + 1 }.serveRecords c.wave c.gang g n o.d.toNat (c.active o.ext) [] s.stamp))) ∧
    (Ready s c (.recalloc o) → c.wave.sup = false → c.active o.ext = 0 → exec (.recalloc o) s = .next (s.retire c (.recalloc o) c.wave)) ∧
    (Ready s c (.recsend o) → s.heldOf c.wave.ref = [] →
      let addr (l : Nat) : Nat := (c.wave.readV2 o.a.toNat l).toNat
      ((∀ l ∈ lanes, c.wave.sendFault (addr l) = none) → (∀ l ∈ lanes, ∀ k ∈ lanes, addr k = addr l → k = l) →
        exec (.recsend o) s = .next ((s.sendRecords g c.wave (lanes.map addr)).1.retire c (.recsend o)
          (s.sendRecords g c.wave (lanes.map addr)).2)) ∧
      (∀ l rest, lanes.filter (fun l => c.wave.sendFault (addr l) == some 2) = l :: rest →
        exec (.recsend o) s = .next (s.takeTrap c.wave (c.trap 0x13 2 (c.wave.readV2 o.a.toNat l) (laneSet (l :: rest))))))

/-- Bring-up takes the module to READY and every partition to RESET. A write through a port that is no control port, or of
a node that does not administer the partition, changes nothing; any other aligned write outside a Woad round is made.
The commands RESET, RESIZE and START of an administrator give the partition its new state, spans and status. Enabling
a queue brings its waiting registers into force and sets RD to WR, while PART is in force at once; a doorbell sets WR,
and a count above the ring's size stops the queue with a record of CODE 0x10, whether or not it was enabled; a write to
an event counter sets that counter alone. LOADER_CHECK toggles the mailbox's flip bit; MERR_CLEAR clears MERR. That
PART is in force at once while the queue is enabled, and that a command is done at once, rest on log entry 42. (R285, R286, R291, R302, R303, R307, R308,
R309, R384, R404, R413) -/
def Obligations.HostWritesAndPartitionCommands : Prop :=
  (∀ (b : BringupInput) (s : State), s.module.ready = false → ∃ t, exec (.powerOnBringup b) s = .next t ∧
    t.module = { s.module with stepping := b.stepping, defsig := b.defsig, portRole := b.portRole, stage := 5, ready := true } ∧
    (∀ p, p < s.parts.length → (t.part p).state = 1 ∧ (t.part p).spans = (s.part p).spans) ∧ SameMemory s t) ∧
  (∀ (port : Fin 4) (off : BitVec 26) (wide : Bool) (value : BitVec 64) (s : State),
    (s.windowOn port.val = false ∨ (∃ p, s.windowPart off.toNat = some p ∧ s.administers port.val p = false) →
      exec (.controlRegisterWrite port off wide value) s = .next s) ∧
    (s.windowOn port.val = true → off.toNat % (if wide then 8 else 4) = 0 →
      (∀ p, s.windowPart off.toNat = some p → s.administers port.val p = true ∧ (s.part p).woad = false) →
      exec (.controlRegisterWrite port off wide value) s = .next (s.writeWindow off.toNat wide value))) ∧
  (∀ (port : Fin 4) (p : Fin 8) (new : BitVec 8) (s : State), Administers s port.val p.val → PartsNumbered s → p.val < s.parts.length →
    (s.part p.val).busy = false →
    ((s.part p.val).state ≠ 0 → ∃ t, exec (.partitionReset port p) s = .next t ∧ (t.part p.val).state = 1 ∧
      (t.part p.val).events = [] ∧ (t.part p.val).woad = false ∧ (∀ c ∈ t.crews, c.part ≠ p.val) ∧ (∀ w ∈ t.works, w.part ≠ p.val) ∧
      (∀ q ∈ t.queues, q.part = p.val → q.en = false ∧ q.rd = q.wr) ∧ SameMemory s t) ∧
    ((s.part p.val).woad = false → (s.part p.val).state = 1 ∨ (s.part p.val).state = 2 → s.spansFree p.val new = true →
      ∃ t, exec (.partitionResize port p new) s = .next t ∧
      (t.part p.val).spans = new ∧ (t.part p.val).status = 0 ∧
      (∀ k, k < s.parts.length → k ≠ p.val → (t.part k).spans = (s.part k).spans &&& ~~~new) ∧ SameMemory s t) ∧
    ((s.part p.val).woad = false → (s.part p.val).state = 1 → ∃ t, exec (.partitionStart port p) s = .next t ∧ (t.part p.val).status = 0 ∧
      (t.part p.val).state = (if s.queues.any (fun q => q.part == p.val && q.en) then 3 else 2) ∧
      (t.part p.val).woad = (s.part p.val).wctl.getLsbD 0 ∧ SameMemory s t)) ∧
  (∀ (port : Fin 4) (q : Fin 2048) (v : BitVec 32) (s : State), Administers s port.val (s.queue q.val).part →
    (s.part (s.queue q.val).part).woad = false →
    ((s.queue q.val).en = false → v.getLsbD 31 = true → ∃ t, exec (.queueEnable port q v) s = .next t ∧ (t.queue q.val).en = true ∧
      (t.queue q.val).base = (s.queue q.val).nextBase ∧ (t.queue q.val).ctx = (s.queue q.val).nextCtx ∧
      (t.queue q.val).logsz = bits v.toNat 4 0 ∧ (t.queue q.val).part = bits v.toNat 10 8 ∧ (t.queue q.val).rd = (s.queue q.val).wr) ∧
    (v.getLsbD 31 = false → ∃ t, exec (.queueEnable port q v) s = .next t ∧ (t.queue q.val).en = false ∧
      (t.queue q.val).part = bits v.toNat 10 8) ∧
    ((s.queue q.val).en = true → v.getLsbD 31 = true → ∃ t, exec (.queueEnable port q v) s = .next t ∧ (t.queue q.val).en = true ∧
      (t.queue q.val).part = bits v.toNat 10 8 ∧ (t.queue q.val).base = (s.queue q.val).base ∧ (t.queue q.val).ctx = (s.queue q.val).ctx ∧
      (t.queue q.val).logsz = (s.queue q.val).logsz ∧ (t.queue q.val).rd = (s.queue q.val).rd) ∧
    (∃ t, exec (.doorbell port q v) s = .next t ∧ (t.queue q.val).wr = v ∧ (t.queue q.val).rd = (s.queue q.val).rd ∧
      (t.queue q.val).en = ((s.queue q.val).en && decide ((v - (s.queue q.val).rd).toNat ≤ 2 ^ (s.queue q.val).logsz))) ∧
    (2 ^ (s.queue q.val).logsz < (v - (s.queue q.val).rd).toNat → ∃ u, (u.queue q.val).wr = v ∧ u.parts = s.parts ∧ SameMemory s u ∧
      exec (.doorbell port q v) s = .next (u.refusePacket q.val 0x10 (u.queueContext q.val)))) ∧
  (∀ (port : Fin 4) (p : Fin 8) (e : Nat) (v : BitVec 64) (s : State), Administers s port.val p.val → (s.part p.val).woad = false →
    (s.part p.val).num = p.val → p.val < s.parts.length → e < 65536 → e < (s.part p.val).evq →
    cellsWf (0 : BitVec 64) (s.part p.val).events = true →
    ∃ t, exec (.eventCounterWrite port p e v) s = .next t ∧ t.eventCount p.val e = v ∧
      (∀ e', e' ≠ e → t.eventCount p.val e' = s.eventCount p.val e') ∧ SameMemory s t) ∧
  (∀ (port : Fin 4) (s : State), s.windowOn port.val = true →
    (∃ t, exec (.loaderCheck port) s = .next t ∧ t.mailbox.flip = (!s.mailbox.flip) ∧ t.mailbox.addr = s.mailbox.addr) ∧
    exec (.merrClear port) s = .next { s with module := { s.module with merr := false } })

/-- Outside a Woad round: a TAKE event of a queue whose turn it is not changes nothing. Where the packet at RD can be
read, is of the event's kind and passes the checks of R384, a LAUNCH whose kernel loads and agrees joins the taken
works, as do a RENDERPASS and a GRAPH, at once placeable unless they depend on an event; WAITEVENT stops the queue
until its target is reached; SIGNAL and BARRIER stop it until every earlier packet has completed; and RD moves on. A
dependence that holds makes taken work placeable. Work of which nothing is left to do leaves the device, with its
graph and pass. A queue whose context record is poisoned, or has a nonzero reserved field, has its packet refused. The
order of the checks rests on log entry 37, the reserved DEP and SIG bits of a WAITEVENT, SIGNAL or BARRIER on 70, the
check of the record on 71. (R265, R286, R288, R289, R290, R291, R296, R300, R384, R6, R398) -/
def Obligations.PacketsAreTakenAndCompleted : Prop :=
  (∀ p ∈ takeForms, ∀ (q : Fin 2048) (s : State), (s.part (s.queue q.val).part).woad = false → s.mayTake (s.queue q.val) = false →
    exec (p.1 q) s = .next s) ∧
  (∀ p ∈ takeForms, ∀ (q : Fin 2048) (s s1 : State) (bs : List Byte),
    let x := s.queue q.val
    let c := s.queueContext q.val
    let d := leNat bs
    (s.part x.part).woad = false → s.mayTake x = true → s.contextBad q.val = none →
    s.devRead c x.part none (x.slot x.rd.toNat) 64 = (.ok bs, s1) → (s1.part x.part).woad = false → dfield d 0 7 0 = p.2 →
    (packetReserved d = true → exec (p.1 q) s = .next (s1.refusePacket q.val 0x11 c)) ∧
    (packetReserved d = false → packetEvents d (s1.part x.part).evq = false →
      (p.2 ≤ 3 → pvecBad (BitVec.ofNat 64 (dfield d 0x30 63 0)) (s1.part x.part).spans = false) →
      (p.2 = 1 → ∀ img s2, s1.loadKernel c x.part (BitVec.ofNat 64 (dfield d 8 63 0)) (dfield d 4 15 0) = (.ok img, s2) →
        launchAgrees d img.kernel = true →
        ∃ t w, exec (p.1 q) s = .next t ∧ t.works = s2.works ++ [w] ∧ w.seq = s2.nextSeq ∧ t.nextSeq = s2.nextSeq + 1 ∧ w.kind = .launch ∧
          w.queue = q.val ∧ w.image = some img ∧ w.grid = dfield d 0x10 31 0 ∧ w.size = dfield d 0 18 16 + 1 ∧
          w.placeable = decide (dfield d 0 11 11 ≠ 1) ∧ (t.queue q.val).rd = x.rd + 1) ∧
      (p.2 = 2 ∨ p.2 = 3 →
        let k : WorkKind := if p.2 = 2 then .render else .graph
        (dfield d 0 11 11 = 1 → ∃ t, exec (p.1 q) s = .next t ∧ t.works = s1.works ++ [s1.newWork x k d] ∧ (t.queue q.val).rd = x.rd + 1) ∧
        (dfield d 0 11 11 ≠ 1 → ∀ w g s2, s1.openWork c (s1.newWork x k d) = (.ok (w, g), s2) →
          ∃ t, exec (p.1 q) s = .next t ∧ t.works = s2.works ++ [w] ∧ t.graphs = s2.graphs ++ g.toList ∧ (t.queue q.val).rd = x.rd + 1)) ∧
      (p.2 = 4 → ∃ t, exec (p.1 q) s = .next t ∧ (t.queue q.val).rd = x.rd + 1 ∧ t.works = s1.works ∧
        (t.queue q.val).waitFor = (if dfield d 0x28 63 0 ≤ (s1.eventCount x.part (dfield d 0x24 15 0)).toNat then none
          else some (dfield d 0x24 15 0, dfield d 0x28 63 0, dfield d 0 10 8, s1.tick))) ∧
      (p.2 = 5 ∨ p.2 = 6 → ∃ t, exec (p.1 q) s = .next t ∧ (t.queue q.val).rd = x.rd + 1 ∧ t.works = s1.works ∧
        (t.queue q.val).blocked = (if s1.outstanding q.val = 0 then none
          else some (if p.2 = 5 then some (dfield d 0x24 31 16, dfield d 0x28 63 0) else none))))) ∧
  (∀ p ∈ takeForms, ∀ (q : Fin 2048) (s : State) (code : Nat), (s.part (s.queue q.val).part).woad = false →
    s.mayTake (s.queue q.val) = true → s.contextBad q.val = some code →
    exec (p.1 q) s = .next (s.refusePacket q.val code (s.queueContext q.val))) ∧
  (∀ (seq : Nat) (s : State) (w : Work), s.work? seq = some w → w.placeable = false → w.dep = true →
    ((s.eventCount w.part w.depev).toNat < w.deptgt → exec (.dependenceSatisfied seq) s = .next s) ∧
    (w.deptgt ≤ (s.eventCount w.part w.depev).toNat → ∀ w' g s1, s.openWork (s.queueContext w.queue) w = (.ok (w', g), s1) →
      exec (.dependenceSatisfied seq) s = .next ({ s1 with graphs := s1.graphs ++ g.toList }.putWork w'))) ∧
  (∀ (seq : Nat) (s : State) (w : Work), s.work? seq = some w →
    (s.workDone w = false → exec (.workCompletion seq) s = .next s) ∧
    (s.workDone w = true → ∃ t, exec (.workCompletion seq) s = .next t ∧ t.works = s.works.filter (fun x => x.seq != seq) ∧
      t.graphs = s.graphs.filter (fun g => g.seq != seq) ∧ t.passes = s.passes.filter (fun r => r.seq != seq) ∧ SameMemory s t))

/-- CREW_PLACEMENT places the first candidate of the span, a crew of a grid or a batch, on cores that have the room it
needs, and otherwise changes nothing. Work and queue heads age by one class for each full 100,000 ticks. A candidate
that has waited 10,000 ticks without room has as few crews of lower classes pre-empted as its placement needs. A
pre-emption request records its time-out; with a time-out of 0 every wave stops at once, and at the time-out those
that are left. A crew that may be saved leaves its cores, and takes new ones when its turn comes (a tile block that
left no image, when the broker reissues it). A phase starts, in its turn on the core, when every wave of its block
that has not exited (of a G-buffer step, where each wave is a block, one wave) has reached a PHASE and the core has
the room. What reads the context record again keeps the crew's TILE window, which is set at placement alone; a record
that is poisoned or has a nonzero reserved field fails the work. That a span places its top candidate alone rests on log
entry 39, what a saved crew keeps and when it may leave on 40, the check of the record on 71. (R38, R40, R41, R50, R279, R283, R287, R293,
R294, R295, R365, R367) -/
def Obligations.CrewsArePlacedAndPreempted : Prop :=
  (∀ (p : CoreAt) (s : State), s.topWaiting p.span.val = none → exec (.crewPlacement p) s = .next s) ∧
  (∀ (p : CoreAt) (s : State) (x : Ranked) (w : Work), s.topWaiting p.span.val = some x → s.needs x.cand ≠ [] →
    let cl := 12 * p.span.val + p.cluster.val
    let room := s.fits cl p.core.val (s.needs x.cand)
    let queued := (List.range (s.needs x.cand).length).any fun k => s.phaseQueued (8 * cl + p.core.val + k) x.prio
    (room = false ∨ queued = true → exec (.crewPlacement p) s = .next s) ∧
    (∀ code, room = true → queued = false → s.contextBad w.queue = some code →
      (∀ seq i, x.cand = .grid seq i → s.work? seq = some w → exec (.crewPlacement p) s = .next (s.failWork seq code)) ∧
      (∀ seq node rs g, x.cand = .batch seq node rs → s.work? seq = some w → s.graph? seq = some g →
        exec (.crewPlacement p) s = .next (s.failWork seq code))) ∧
    (room = true → queued = false → s.contextBad w.queue = none →
      (∀ seq i img, x.cand = .grid seq i → s.work? seq = some w → w.image = some img →
        exec (.crewPlacement p) s = .next (s.placeGrid w img i p)) ∧
      (∀ seq node rs g n, x.cand = .batch seq node rs → s.work? seq = some w → s.graph? seq = some g → g.nodes[node]? = some n →
        exec (.crewPlacement p) s = .next (s.placeBatch w g n node rs p)))) ∧
  (∀ (seq : Nat) (s : State) (w : Work), s.work? seq = some w → exec (.priorityAging (.work seq)) s = .next
    (if w.aged < (s.tick - w.takenAt) / 100000 ∧ w.prio + w.aged < 7 then s.putWork { w with aged := w.aged + 1 } else s)) ∧
  (∀ (q : Fin 2048) (s : State), let x := s.queue q.val
    exec (.priorityAging (.queueHead q)) s = .next
      (if x.en = true ∧ x.unread ≠ 0 ∧ x.aged < (s.tick - x.since) / 100000 ∧ x.aged < 7 then s.putQueue { x with aged := x.aged + 1 } else s)) ∧
  (∀ (span : Fin 8) (s : State) (x : Ranked), s.topWaiting span.val = some x →
    let leaving := (s.crews.filter fun c => c.preempt.isSome).map fun c => c.id
    let vs := (s.victims span.val x.prio).map fun c => c.id
    let room (n : Nat) := s.roomWithout span.val (s.needs x.cand) (leaving ++ vs.take n)
    (s.tick < x.since + 10000 → exec (.placementWaitTimeout span) s = .next s) ∧
    (∀ n cl j, x.since + 10000 ≤ s.tick → s.needs x.cand ≠ [] → 0 < n → n ≤ vs.length → (∀ m, m < n → room m = none) → room n = some (cl, j) →
      exec (.placementWaitTimeout span) s = .next ((vs.take n).foldl (fun s id =>
        match s.crew? id with
        | some c => if c.clusterNo = cl ∧ ∃ r, r < c.size ∧ j ≤ c.core + r ∧ c.core + r < j + (s.needs x.cand).length
                    then s.requestPreempt id else s
        | none => s) s))) ∧
  (∀ (crew : Nat) (s : State) (c : Crew), s.crew? crew = some c → c.mayPreempt = true → ∃ t, exec (.preemptionRequest crew) s = .next t ∧
    t.crew? crew = some { c with preempt := some (s.tick + (s.part c.part).sptmo) } ∧ SameMemory s t ∧
    ((s.part c.part).sptmo = 0 → ∀ w ∈ t.waves, w.ref.crew = crew → w.isHalted = true)) ∧
  (∀ (crew d : Nat) (s : State) (c : Crew), s.crew? crew = some c → c.preempt = some d →
    (s.tick < d → exec (.safePointTimeout crew) s = .next s) ∧
    (d ≤ s.tick → ∃ t, exec (.safePointTimeout crew) s = .next t ∧ t.crews = s.crews ∧ SameMemory s t ∧
      ∀ w ∈ t.waves, w.ref.crew = crew → w.isHalted = true)) ∧
  (∀ (crew : Nat) (s : State) (c : Crew), s.crew? crew = some c →
    (s.maySave c = true → c.isTile = false → exec (.crewSave crew) s = .next (s.saveCrew c)) ∧
    (s.maySave c = false → exec (.crewSave crew) s = .next s) ∧
    (∀ p : CoreAt, c.resident = false → s.mayResume c p = true → s.contextBad c.queue = none →
      (c.isTile = false → s.resumeTurn c p = true → exec (.crewResume crew p) s = .next (s.resumeCrew c p)) ∧
      (∀ r t b, c.tile? = some t → t.slot = none → s.passOf c = some r → (s.part c.part).modes.getLsbD 4 = false →
        s.brokerFree c.part = true → s.savedTile r = some c → s.block? c.id 0 = some b →
        (s.part c.part).spans.getLsbD p.span.val = true → s.spillHeld c.id = false →
        exec (.crewResume crew p) s = .next (s.resumeCrew c p)))) ∧
  (∀ (crew rank : Nat) (s s1 : State) (c : Crew) (b : Block) (img : Image), s.crew? crew = some c → s.block? crew rank = some b →
    let ws := if c.isGbuffer then (((s.wavesOf crew rank).filter fun w => !w.hasExited).filter fun w => w.reached.isSome).take 1
              else (s.wavesOf crew rank).filter fun w => !w.hasExited
    let ctx : Context := { s.queueContext c.queue with tilewin := c.ctx.tilewin }
    ws ≠ [] → (∀ w ∈ ws, w.reached.isSome = true) → c.resident = true → c.preempt = none → c.isCombiner = false → rank < c.size →
    s.hasRoom (c.coreOf rank) { slots := ws.length, regs := (ws.map fun w => w.regs + 1).sum, tile := 0, banks := 0 } = true →
    s.phaseTurn c (c.coreOf rank) = true → s.contextBad c.queue = none → s.refetch ctx c.part c.image = (img, s1) →
    exec (.phaseStart crew rank) s = .next (ws.foldl (fun s w =>
      (s.loadLatches (w.atPhaseStart { c with ctx := ctx } ctx b (w.reached.getD 1)) { c with ctx := ctx }).2.putWave
        (s.loadLatches (w.atPhaseStart { c with ctx := ctx } ctx b (w.reached.getD 1)) { c with ctx := ctx }).1)
      ((s1.putCrew { c with ctx := ctx }).putBlock { b with code := img.code })))

/-- Outside the commit of a round. A landing whose lanes have all come writes its registers; one that still lacks a lane
changes nothing. The bands that became ready first regroup. A waiting QPUSH with an allowance, and the first waiting
QPOP of a queue that is not empty, are performed, once no held access of the wave keeps them back. A waiting WAIT ends
with its result when its conditions hold up to its deadline, and else by that, with the time-out bit. A waiting ACQACC gets its
banks when they may be bound; a waiting RECALLOC takes the slots it may. Of a wave that can trap, what was raised
first comes first: its oldest asynchronous trap is taken, a POISON one once the ring has its record; or it vectors to
its handler for a fault-buffer entry that it owns, and the entry becomes HANDLER. (R27, R143, R201, R202, R208, R209,
R246, R298, R336, R344, R350, R399) -/
def Obligations.WaitingWavesGoOn : Prop :=
  (∀ (r : WaveRef) (n : Nat) (s : State) (x : Wave) (ld : Landing), s.wave? r = some x → x.landings[n]? = some ld →
    (ld.pending ≠ 0 → exec (.producerLanding r n) s = .next s) ∧
    (ld.pending = 0 → exec (.producerLanding r n) s = .next (((s.putWave (x.land ld)).phaseCheck r).settle))) ∧
  (∀ (r : WaveRef) (s : State) (x : Wave) (c : Crew), s.wave? r = some x → s.crew? r.crew = some c → s.roundHolds r = false → x.sup = false →
    (x.bands = [] → exec (.regangBandReady r) s = .next s) ∧
    (∀ m later, x.bands = m :: later →
      exec (.regangBandReady r) s = .next (s.putWave ({ x with bands := later }.regroup m (s.afterRegang x c))))) ∧
  (∀ (r : WaveRef) (slice : Nat) (s : State) (x : Wave) (g : Gang) (b : Block), WaitsIn s r slice x g → s.block? r.crew r.rank = some b →
    (∀ q a, g.wait = .qpush q a → b.allowance q r.wave ≠ 0 → x.isFull .g a = true → s.mustWait r true true = false →
      exec (.queueWaitPerformed r slice) s = .next ((s.putBlock (b.push q r.wave (x.readG a))).putWave (x.advance g (g.pc + 8)))) ∧
    (∀ q a, g.wait = .qpush q a → b.allowance q r.wave = 0 ∨ s.mustWait r true true = true → exec (.queueWaitPerformed r slice) s = .next s) ∧
    (∀ q d st, g.wait = .qpop q d st → b.queueCount q ≠ 0 → x.isFull .g d = true → s.mustWait r false false = false → (∀ u ∈ s.popStamps r.crew r.rank q, st ≤ u) →
      exec (.queueWaitPerformed r slice) s =
        .next ((s.putBlock (b.pop q).2).putWave ((x.writeG g.slices d (b.pop q).1).advance g (g.pc + 8)))) ∧
    (∀ q d st, g.wait = .qpop q d st → b.queueCount q = 0 → exec (.queueWaitPerformed r slice) s = .next s)) ∧
  (∀ (r : WaveRef) (slice : Nat) (s : State) (w : Wave) (c : Crew) (g : Gang) (x : WaitState), s.waiter r slice = some (w, c, g, x) →
    let y := (s.observe w c x).1
    let t := (s.observe w c x).2
    let done (n : BitVec 32) : Wave := ((w.writeG g.slices x.dst (y.seen.setWidth 32 ||| n ||| (if y.pois then 0x20 else 0))).setFull .g x.dst).goOn g
    (s.pastDeadline c x = true → exec (.waitConditionMet r slice) s = .next s) ∧
    (y.met = true → exec (.waitTimeout r slice) s = .next (t.putWave (done 0)) ∧
      (s.pastDeadline c x = false → exec (.waitConditionMet r slice) s = .next (t.putWave (done 0)))) ∧
    (y.met = false →
      (s.pastDeadline c x = false → exec (.waitConditionMet r slice) s = .next (t.putWave (w.park g (.cond y)))) ∧
      ((∃ d, x.deadline = some d ∧ d ≤ s.tick) → (s.part c.part).woad = false →
        exec (.waitTimeout r slice) s = .next (t.putWave (done 0x10))) ∧
      ((∀ d, x.deadline = some d → s.tick < d) → exec (.waitTimeout r slice) s = .next (t.putWave (w.park g (.cond y)))))) ∧
  (∀ (r : WaveRef) (slice : Nat) (s : State) (x : Wave) (g : Gang) (c : Crew), WaitsIn s r slice x g → s.crew? r.crew = some c →
    c.resident = true → c.preempt = none →
    (∀ banks st b, g.wait = .acqacc banks st → s.accBlock? c x = some b →
      exec (.acqaccGrant r slice) s = .next (if s.mayBind c b (banks &&& ~~~b.held) st then
        (s.putBlock (b.bind (banks &&& ~~~b.held) (s.freeAside b))).putWave (x.advance g (g.pc + 8)) else s)) ∧
    (∀ n d left got st gr, g.wait = .recalloc n d left got st → s.graph? c.work = some gr →
      exec (.recallocGrant r slice) s = .next (s.serveRecords x g gr n d left got st))) ∧
  (∀ (r : WaveRef) (s : State) (x : Wave) (c : Crew), s.wave? r = some x → s.crew? r.crew = some c → c.resident = true →
    (∀ t rest, x.traps = t :: rest →
      (x.canTrap = false → exec (.asyncTrapDelivery r) s = .next s) ∧
      (x.trapFirst (s.ownedEntry x c) = false ∨ (t.cause = 0x0E ∧ s.poisonUnposted c.part = true) →
        exec (.asyncTrapDelivery r) s = .next s) ∧
      (x.canTrap = true → x.trapFirst (s.ownedEntry x c) = true → (t.cause = 0x0E → s.poisonUnposted c.part = false) →
        exec (.asyncTrapDelivery r) s = .next (s.takeTrap { x with traps := rest } { t with async := true, slices := LaneMask.toSlices t.lanes }))) ∧
    (∀ e, s.ownedEntry x c = some e → x.canTrap = true → x.trapFirst (some e) = false → exec (.translationVector r) s =
      .next ((s.updEntry c.clusterNo e.index fun e => { e with state := .handler }).takeTrap x
        { cause := 0x08, sub := e.sub, kind := e.kind, async := e.async, fbi := e.index, pc := e.pc, addr := (s.faulters r e c.clusterNo).2,
          lanes := (s.faulters r e c.clusterNo).1, slices := LaneMask.toSlices (s.faulters r e c.clusterNo).1, cluster := c.clusterNo }
        (some (c.clusterNo, e.index)))))

/-- Outside a Woad round, an entry in WALK that is not busy and whose page is now present has its accesses replayed, one
whose translation is malformed or poisoned has them discarded with MALFORMED_TABLE (0x14) or POISON (0x0E) SUB 5, and
one whose page is still missing, where no INSTALL is made, goes to the host. Re-presentation runs when a REPLAYALL is
pending and an entry is free, or DROPPED stands and the buffer is empty, and otherwise not. The oldest record goes to
the ring, at its write count, when there is room. FRES with FAIL = 0 returns an entry in HOST to WALK; with FAIL = 1
it drops what is held on it and fails the context; one that names no entry in HOST of the partition, or a cluster
above 11, changes nothing. The ring address modulo 2^52 rests on log entry 42. (R335, R338, R339, R340, R342, R343) -/
def Obligations.FaultBufferEntriesAreResolved : Prop :=
  (∀ (cl : Fin 96) (k : Fin 8) (s s1 : State) (e : Entry) (w : Walk),
    ((s.buffer cl.val).entries.find? fun e => e.index == k.val && e.state == .walk) = some e → (s.part e.part).woad = false →
    (∀ h ∈ s.heldOn cl.val e.index, s.heldBusy h = false) → s.walk e.context e.part cl.val (BitVec.ofNat 64 (e.page * 2 ^ 17)) = (w, s1) →
    (s1.part e.part).woad = false →
    (∀ leaf a b c, w = .leaf leaf a b c → exec (.faultEntryWalk cl k) s = .next (s1.replayEntry cl.val e)) ∧
    (∀ sub, w = .malformed sub → exec (.faultEntryWalk cl k) s = .next (s1.discardEntry cl.val e.index 0x14 sub)) ∧
    (w = .poisoned → exec (.faultEntryWalk cl k) s = .next (s1.discardEntry cl.val e.index 0x0E 5)) ∧
    (∀ sub a b c, w = .missing sub a b c → sub ≠ 1 ∨ e.install = false ∨ s1.install e a b c = none →
      exec (.faultEntryWalk cl k) s = .next ((s1.updEntry cl.val e.index fun x => { x with sub := sub }).entryToHost cl.val e.index)) ∧
    (∀ a b c s2, w = .missing 1 a b c → e.install = true → s1.install e a b c = some s2 →
      exec (.faultEntryWalk cl k) s = .next ((s2.walk e.context e.part cl.val (BitVec.ofNat 64 (e.page * 2 ^ 17))).2.finishWalk cl.val e
        (s2.walk e.context e.part cl.val (BitVec.ofNat 64 (e.page * 2 ^ 17))).1))) ∧
  (∀ (cl : Fin 96) (s : State), let b := s.buffer cl.val
    exec (.faultRepresent cl) s = .next (if (b.replayAll = true ∧ b.entries.length < 8) ∨ (b.dropped = true ∧ b.entries = [])
      then s.representAll cl.val else s)) ∧
  (∀ (p : Fin 8) (s : State) (r : Nat) (rest : List Nat) (port : Nat), let x := s.part p.val
    x.records = r :: rest → s.controlPort = some port → 1 ≤ x.flog → x.flog ≤ 16 →
    ((x.fwr - x.frd).toNat = 2 ^ x.flog → exec (.faultRecordPost p) s = .next s) ∧
    ((x.fwr - x.frd).toNat ≠ 2 ^ x.flog → exec (.faultRecordPost p) s =
      .next ((s.putMem (memKey (9 + port) ((x.fring.toNat + 32 * (x.fwr.toNat % 2 ^ x.flog)) % 2 ^ 52)) (leBytes 32 r)).putPart
        { x with records := rest, fwr := x.fwr + 1 }))) ∧
  (∀ (port : Fin 4) (p : Fin 8) (v : BitVec 32) (s : State) (cl : Nat) (e : Entry), s.administers port.val p.val = true →
    (s.part p.val).woad = false → s.fresEntry p.val v = some (cl, e) →
    (v.getLsbD 12 = false → exec (.fresRetry port p v) s = .next (s.updEntry cl e.index fun e => { e with state := .walk })) ∧
    (v.getLsbD 12 = true → ∃ t : State, exec (.fresFail port p v) s = .next (t.entryFreed cl) ∧
      (∀ h ∈ t.held, ¬ (h.cluster = cl ∧ h.entry = some e.index)) ∧ (∀ c ∈ t.crews, ¬ (c.part = p.val ∧ c.ctx.ctag = e.ctag)))) ∧
  (∀ (p : Fin 8) (v : BitVec 32) (s : State), 12 ≤ bits v.toNat 6 3 → s.fresEntry p.val v = none) ∧
  (∀ (port : Fin 4) (p : Fin 8) (v : BitVec 32) (s : State),
    s.administers port.val p.val = false ∨ (s.part p.val).woad = false ∧ s.fresEntry p.val v = none →
    exec (.fresRetry port p v) s = .next s ∧ exec (.fresFail port p v) s = .next s)

/-- An access through a port of its role, aligned and reaching memory that no batch holds, is performed; through a port of
another role it changes nothing. A link that goes down reads as PORTROLE 0. A module error ends every crew and resets
every partition that is not OFF. An array error that poisons nothing of a Woad partition takes effect at once: a
corrected one is counted, also by the patrol; one in a core's L1, instruction cache or TLB drops the core's lines and
its cluster's entries; an uncorrectable one that a read meets poisons both units of its codeword, and on a patrol read
only makes a record. A dirty line that is written back becomes clean, its 128 bytes count for each block that dirtied
it, and its bad sectors are poisoned. That an error at a core drops all its L1 lines and its cluster's entries rests on
log entry 45, what a port access does and leaves out on 43, which partitions have traffic on a link on 44. (R105, R305, R393, R394, R395, R399, R400, R403, R404, R405) -/
def Obligations.ErrorsAndPortsTakeEffect : Prop :=
  (∀ (port : Fin 4) (a : PortAccess) (s s1 : State) (xs : List PortSpan), s.portReach a = (some xs, s1) →
    let role := bits s.module.portRole.toNat (2 * port.val + 1) (2 * port.val)
    let kind := match a.target with | .phys _ _ => 1 | .global _ _ _ _ => 2
    (role ≠ kind → exec (.portIncomingAccess port a) s = .next s) ∧
    (role = kind → (∀ op v, a.op = .atomic op v → ∀ x ∈ xs, x.pa % op.size = 0) →
      (∀ x ∈ xs, ∀ o ∈ s.objects, o.crew.isSome = true → o.mt = x.mt → ∀ k, k ≤ x.size → o.pa ≠ (x.pa + k) / 128 * 128) →
      (∀ p, xs.findSome? (fun x => x.part) = some p → (s1.part p).woad = false) →
      exec (.portIncomingAccess port a) s = .next (s1.portPerform a.op xs))) ∧
  (∀ (port : Fin 4) (s : State), ∃ t, exec (.portLinkDown port) s = .next t ∧ SameMemory s t ∧
    bits t.module.portRole.toNat (2 * port.val + 1) (2 * port.val) = 0 ∧ t.module.down.getLsbD port.val = true ∧
    ∀ k : Fin 4, k ≠ port → bits t.module.portRole.toNat (2 * k.val + 1) (2 * k.val) = bits s.module.portRole.toNat (2 * k.val + 1) (2 * k.val)) ∧
  (∀ (therm : Bool) (s : State), PartsNumbered s → ∃ t, exec (.moduleError therm) s = .next t ∧ t.module.merr = true ∧ t.module.therm = therm ∧
    t.module.ctrl = (!therm) ∧ SameMemory s t ∧
    ∀ p, p < s.parts.length → (s.part p).state ≠ 0 → (t.part p).state = 1 ∧ (∀ c ∈ t.crews, c.part ≠ p) ∧ ∀ w ∈ t.works, w.part ≠ p) ∧
  (∀ (e : ArrayErr) (s : State), (∀ p, s.poisonedPart e = some p → (s.part p).woad = false) →
    exec (.arrayError e) s = .next (s.arrayError e)) ∧
  (∀ (p : Fin 8) (s : State), exec (.arrayError (.corrected p)) s = .next (s.countCorrected p.val)) ∧
  (∀ (at_ : CoreAt) (s : State), exec (.arrayError (.refetch at_)) s = .next { s with
    l1 := s.l1.filter fun x => x.core != CoreAt.number at_, tlb := s.tlb.filter fun x => x.cluster != CoreAt.number at_ / 8 }) ∧
  (∀ (k : Nat) (s : State) (p : Nat), s.memPart (codewordPlace k).1 (codewordPlace k).2 = some p →
    exec (.patrolRead k .corrected) s = .next (s.countCorrected p) ∧
    (∃ t, exec (.patrolRead k .uncorrectable) s = .next t ∧ t.poison = s.poison ∧ SameMemory s t) ∧
    ((s.part p).woad = false → ∀ (ctag : BitVec 16) (kind : Fin 6), ∃ t, exec (.arrayError (.memory k ctag kind)) s = .next t ∧ SameMemory s t ∧
      t.memPoisoned (codewordPlace k).1 (codewordPlace k).2 32 = true)) ∧
  (∀ (line : Nat) (bad : BitVec 4) (s : State) (x : L2Line), s.l2Line line = some x →
    (x.dirty = false → exec (.l2Writeback line bad) s = .next s) ∧
    (x.dirty = true → (s.part x.part).woad = false → ∃ t, exec (.l2Writeback line bad) s = .next t ∧
      ({ s with l2 := t.l2 }).l2Line line = some { x with dirty := false, blocks := [] } ∧ SameMemory s t ∧
      (bad = 0 → t = { s with l2 := t.l2, blocks := t.blocks } ∧ ∀ (k r : Nat) (b : Block), s.block? k r = some b →
        t.block? k r = some { b with dramBytes := b.dramBytes + 128 * x.blocks.count (k, r) }) ∧
      ∀ k ∈ x.poisoned bad, t.memPoisoned x.mt (x.line * 128 + 32 * k) 32 = true))

/-- A unit that a command has neither written, nor waits for, nor passed, of a command whose table is read, is
transferred; a unit that it has written or waits for is not. A request arrives at its home behind every earlier one of
its wave's lane and instruction; with a method that exists it joins its object, which is new where the line has none;
where the method table's read misses it waits there. A batch that is full, or whose window has expired, launches; one
that is not due changes nothing but the reading of its method, nor does any while a batch of another object holds its
line. The oldest batch of a home whose combiner slot is free
gets a wave, with the method in g0 and the number of requests in g1. Records of a node launch once BATCH are pending
or TMO is 0, or TMO ticks after the oldest was committed: at most BATCH of those committed by then. (R106, R227, R228,
R229, R234, R296, R297, R299, R370) -/
def Obligations.EnginesCombinersAndGraphsMove : Prop :=
  (∀ (crew rank : Nat) (k : Fin 16) (u : Nat) (s : State) (c : Crew) (m : Command), s.crew? crew = some c →
    ((s.block? crew rank).bind fun b => b.command? k.val) = some m →
    (c.resident = false ∨ u ∈ m.held ∨ u ∈ m.written ∨ u < m.done → exec (.engineUnitTransfer crew rank k u) s = .next s) ∧
    (c.resident = true → u ∉ m.held → u ∉ m.written → m.done ≤ u →
      ((m.kind ≠ 4 ∨ m.table ≠ []) ∧ u < m.total ∨ m.kind = 4 ∧ m.table = [] ∧ u = m.total) →
      exec (.engineUnitTransfer crew rank k u) s = .next (s.performUnit c rank m u fun s m a sub => s.holdUnit c rank m u a sub))) ∧
  (∀ (n : Nat) (s s1 : State) (q : Request), s.inflight[n]? = some q →
    ((∃ x ∈ s.inflight.take n, x.context.ctag = q.context.ctag ∧ x.part = q.part ∧ x.mt = q.mt ∧ x.pa / 128 = q.pa / 128 ∧ x.wave = q.wave ∧
        (x.lane = q.lane ∨ x.stamp = q.stamp)) → exec (.madderRequestArrival n) s = .next s) ∧
    ((∀ x ∈ s.inflight.take n, x.wave ≠ q.wave) →
      let s0 : State := { s with inflight := s.inflight.eraseIdx n }
      let q' : Request := { q with arrived := s.tick }
      (∀ sub, s0.methodOf q.context q.part q.method = (.bad sub, s1) →
        exec (.madderRequestArrival n) s = .next (s1.rejectRequests [q'] sub 0)) ∧
      (∀ r o, s0.methodOf q.context q.part q.method = (r, s1) → (∀ sub, r ≠ .bad sub) → (∀ a sub, r ≠ .miss a sub) →
        s1.objectOf? q' = some o →
        exec (.madderRequestArrival n) s = .next ((s1.putObject { o with pending := o.pending ++ [q'] }).launchNow o.id)) ∧
      (∀ r, s0.methodOf q.context q.part q.method = (r, s1) → (∀ sub, r ≠ .bad sub) → (∀ a sub, r ≠ .miss a sub) →
        s1.objectOf? q' = none → (∀ x ∈ s1.objects, x.id ≠ s1.stamp) →
        exec (.madderRequestArrival n) s = .next (({ s1 with
          stamp := s1.stamp + 1
          objects := s1.objects ++ [{ id := s1.stamp, ctag := q.context.ctag, line := q.addr &&& ~~~(0x7F : BitVec 64), mt := q.mt,
                                      pa := q.pa / 128 * 128, part := q.part, pending := [q'], running := none, replies := [],
                                      crew := none, launched := 0, blocked := false, limit := none }] } : State).launchNow s1.stamp)) ∧
      (∀ a sub o, s0.methodOf q.context q.part q.method = (.miss a sub, s1) → s1.objectOf? q' = some o →
        let o' : Object := { o with pending := o.pending ++ [q'] }
        exec (.madderRequestArrival n) s = .next (if o.blocked then s1.putObject o' else (s1.putObject o').holdMethod o' q' a sub)))) ∧
  (∀ (line : Nat) (s s1 : State) (o : Object) (q : Request) (rest : List Request) (r : Method), s.object? line = some o →
    o.pending = q :: rest → o.running = none → o.blocked = false → o.limit = none →
    (∀ z ∈ s.objects, z.id ≠ o.id → z.running.isSome = true → ¬ (z.mt = o.mt ∧ z.pa = o.pa)) →
    s.methodOf q.context q.part q.method = (r, s1) →
    (∀ sub, r ≠ .bad sub) → (∀ a sub, r ≠ .miss a sub) →
    let b := (s1.batchOf q.part r).1
    let window := (s1.batchOf q.part r).2
    let full := b ≤ o.headRun.length ∨ window = 0 ∨ o.headRun.length < o.pending.length
    let taken := o.headRun.take (min o.headRun.length b)
    let left : Object := { o with pending := o.pending.drop taken.length }
    ((¬ full → exec (.madderBatchLaunch line) s = .next s1) ∧
     (s.tick < q.arrived + window → exec (.madderWindowExpiry line) s = .next s1)) ∧
    ∀ e, (e = Instr.madderBatchLaunch line ∧ full) ∨ (e = .madderWindowExpiry line ∧ q.arrived + window ≤ s.tick) →
      (r = .builtin → exec e s = .next ((taken.foldl State.builtin (s1.putObject left)).tidyObjects)) ∧
      (∀ co off x y, r = .user co off x y → exec e s = .next ({ s1 with stamp := s1.stamp + 1 }.putObject
        { left with running := some taken, replies := [], launched := s1.stamp }))) ∧
  (∀ (line : Nat) (s : State) (o z : Object), s.object? line = some o → z ∈ s.objects → z.id ≠ o.id → z.running.isSome = true →
    z.mt = o.mt → z.pa = o.pa → exec (.madderBatchLaunch line) s = .next s ∧ exec (.madderWindowExpiry line) s = .next s) ∧
  (∀ (line : Nat) (s s1 : State) (o : Object) (q : Request) (rest : List Request) (co : CodeObject) (off x y : Nat), s.object? line = some o →
    o.running = some (q :: rest) → o.crew = none →
    (∀ z ∈ s.objects, z.running.isSome = true → (s.homeCore z).1 = (s.homeCore o).1 → z.crew = none ∧ o.launched ≤ z.launched) →
    s.methodOf q.context q.part q.method = (.user co off x y, s1) →
    ∃ t, exec (.combinerWaveStart line) s = .next t ∧
      ∃ c ∈ t.crews, c.kind = .combiner o.id ∧ c.clusterNo = (s.homeCore o).1 ∧ c.core = (s.homeCore o).2 ∧ c.resident = true ∧
        ∃ w ∈ t.waves, w.ref = { crew := c.id, rank := 0, wave := 0 } ∧ w.readG 0 = BitVec.ofNat 32 q.method ∧
          w.readG 1 = BitVec.ofNat 32 (rest.length + 1)) ∧
  (∀ (seq node : Nat) (s : State) (g : Graph) (n : Node), s.graph? seq = some g → g.nodes[node]? = some n → node ≠ 0 →
    let mine := g.pending.filter fun x => x.1 == node
    let now := ((mine.take n.batch).filter fun x => decide (x.2.2 ≤ (mine.headD (0, 0, 0)).2.2 + n.tmo)).map fun x => x.2.1
    let t := s.putGraph { g with pending := g.pending.filter fun x => !(x.1 == node && now.contains x.2.1), ready := g.ready ++ [(node, now, s.tick)] }
    exec (.graphBatchLaunch seq node) s = .next (if mine ≠ [] ∧ (n.batch ≤ mine.length ∨ n.tmo = 0) then t else s) ∧
    exec (.graphBatchTimeout seq node) s = .next (if ∃ x ∈ mine, x.2.2 + n.tmo ≤ s.tick then t else s))

/-- The oldest placeable RENDERPASS of a partition that runs no pass begins. A commit passes over lanes that submitted
nothing; a submission that touches no tile is culled; one that needs more units than are left overflows; one that fits
has its setup record and list entries written, and its lane's BIN is answered; while a flush runs nothing commits. The
pool is reset once every flush pass has applied its list. The final round begins when every geometry lane has been
accounted for. The broker issues the first request whose tile no pass owns, to a core with room, and reissues a saved
tile before it, from its image where it left one (where an image lies and how it is laid out is the model's choice, log
entry 73). In the host-assisted modes the control node assigns tiles, extends the pool or asks for the flush, and orders
the queue heads. (R266, R270, R273, R276, R279, R280, R301, R388) -/
def Obligations.RenderPassesMove : Prop :=
  (∀ (p : Fin 8) (s : State) (w : Work) (r : RenderPass), s.pass? p.val = none →
    (s.works.find? fun w => w.part == p.val && w.placeable && w.pass.isSome) = some w → w.pass = some r →
    exec (.renderPassStart p) s = .next
      ({ s with passes := s.passes ++ [{ r with tiles := List.replicate (r.cols * r.rows) TileState.initial }] }.putWork
        (({ w with pass := none, image := some r.geom, grid := r.grid, nlanes := r.glanes, karg := r.karg } : Work).ready s (s.part p.val).spans))) ∧
  (∀ (p : Fin 8) (s : State) (r : RenderPass), s.pass? p.val = some r →
    exec (.renderPassStart p) s = .next s ∧
    (r.flushing = true → exec (.primitiveCommit p) s = .next s ∧ exec (.finalRoundStart p) s = .next s) ∧
    (r.flushing = false →
      ((r.subs.find? fun x => x.prim == r.skip.commit) = none → exec (.primitiveCommit p) s = .next (s.putPass r.skip)) ∧
      (∀ x, (r.subs.find? fun x => x.prim == r.skip.commit) = some x →
        (r.resolve x.xyzq = none → exec (.primitiveCommit p) s = .next (s.putPass { r.skip with
          subs := r.subs.filter fun y => y.prim != r.skip.commit, gone := r.skip.gone ++ [r.skip.commit] })) ∧
        (∀ t, r.resolve x.xyzq = some t → r.poolUnits - r.next < r.skip.need r.skip.commit (r.touched t) →
          exec (.primitiveCommit p) s = .next (s.overflow r.skip)) ∧
        (∀ t s1 r2 s2, r.resolve x.xyzq = some t → r.skip.need r.skip.commit (r.touched t) ≤ r.poolUnits - r.next →
          let n := r.skip.commit
          let blk := some (x.wave.crew, x.wave.rank)
          s.poolWrites r.skip blk [(r.skip.unit r.next, setupBytes n t x.attr)] = .ok s1 →
          appendAll blk n (r.touched t) { r.skip with
            next := r.next + 1, commit := n + 1, subs := r.subs.filter (fun y => y.prim != n), setups := (n, r.next) :: r.setups,
            backs := if t.back then n :: r.backs else r.backs, notified := false } s1 = .ok (r2, s2) →
          exec (.primitiveCommit p) s = .next ((s2.putPass r2).laneBinned x))) ∧
      (r.final = true ∨ r.skip.commit < r.glanes → exec (.finalRoundStart p) s = .next s) ∧
      (r.final = false → r.glanes ≤ r.skip.commit → exec (.finalRoundStart p) s = .next (s.putPass { r.skip with
        final := true, requests := r.requests ++ (List.range r.tiles.length).map fun t => (t, false) }))) ∧
    ((r.flushing = true ∧ (∀ x ∈ r.requests, x.2 = false) ∧
        (∀ c ∈ s.crews, ∀ t, c.work = r.seq → c.tile? = some t → t.flush = true → t.step ≠ .load ∧ t.step ≠ .visibility)) →
      exec (.poolReset p) s = .next (s.putPass { r with
        next := 1, flushing := false, flushes := r.flushes + 1, setups := []
        tiles := r.tiles.map fun x => { x with head := 0, tail := 0, used := 0, count := 0, prev := 0 } })) ∧
    (r.flushing = false → exec (.poolReset p) s = .next s)) ∧
  (∀ (p : Fin 8) (at_ : CoreAt) (s : State) (r : RenderPass), s.pass? p.val = some r → s.brokerFree p.val = true →
    (s.part p.val).modes.getLsbD 4 = false →
    (∀ c t b, s.savedTile r = some c → c.part = p.val → c.tile? = some t → s.block? c.id 0 = some b → s.spillHeld c.id = false →
      let free := (s.part p.val).spans.getLsbD at_.span.val = true ∧ s.mayResume c at_ = true
      (¬ free → exec (.brokerIssuePass p at_) s = .next s) ∧
      (free → t.slot = none → s.contextBad c.queue = none → exec (.brokerIssuePass p at_) s = .next (s.resumeCrew c at_)) ∧
      (∀ k l s1 bs s2, free → t.slot = some k → s.devReach c.ctx c.part (s.imageAt r k) r.imageSize { r := true } = (.ok l, s1) →
        s1.readImage c b l = (some bs, s2) →
        let c' := c.withTile { t with slot := none }
        let s3 := (s2.putCrew c').putBlock { b with
          tile := spliceBytes [] 0 bs, loose := [], tilePoison := []
          dramBytes := ((s2.block? b.crew b.rank).map fun x => x.dramBytes).getD b.dramBytes }
        s3.contextBad c.queue = none → exec (.brokerIssuePass p at_) s = .next (s3.resumeCrew c' at_))) ∧
    (∀ t flush, s.savedTile r = none → (r.requests.find? fun x => !(r.tile x.1).owned) = some (t, flush) →
      exec (.brokerIssuePass p at_) s = .next (s.issuePass r t flush at_))) ∧
  (∀ (at_ : CoreAt) (s : State) (r : RenderPass) (t : Nat) (flush : Bool) (w : Work), s.work? r.seq = some w →
    (s.part r.part).spans.getLsbD at_.span.val = true → s.fits (12 * at_.span.val + at_.cluster.val) at_.core.val [r.tileRoom] = true →
    ∃ c ∈ (s.issuePass r t flush at_).crews, c.id = s.nextCrew ∧ c.work = w.seq ∧ c.core = at_.core.val ∧
      c.clusterNo = 12 * at_.span.val + at_.cluster.val ∧ c.tile?.map (fun x => (x.tile, x.flush, x.step)) = some (t, flush, .load)) ∧
  (∀ (port : Fin 4) (p : Fin 8) (s : State) (r : RenderPass), s.pass? p.val = some r → s.administers port.val p.val = true →
    (∀ (tile : Nat) (at_ : CoreAt) (c : Crew), (s.part p.val).modes.getLsbD 4 = true → s.brokerFree p.val = true →
      (s.crews.find? fun c => c.work == r.seq && c.isTile && !c.resident && c.index == tile) = some c →
      exec (.controlNodeTileAssignment port p tile at_) s = .next (s.reissueTile c r at_)) ∧
    (∀ (tile : Nat) (at_ : CoreAt) (flush : Bool), (s.part p.val).modes.getLsbD 4 = true → s.brokerFree p.val = true →
      (∀ c ∈ s.crews, c.work = r.seq → c.isTile = true → c.resident = false → c.index ≠ tile) →
      (r.requests.find? fun x => x.1 == tile && !(r.tile x.1).owned) = some (tile, flush) →
      exec (.controlNodeTileAssignment port p tile at_) s = .next (s.issuePass r tile flush at_)) ∧
    ((s.part p.val).modes.getLsbD 2 = true → r.notified = true →
      exec (.controlNodePoolGrowth port p none) s = .next (s.putPass (r.startFlush r.commit)) ∧
      ∀ u, r.poolUnits < u → u ≤ 2 ^ 24 →
        exec (.controlNodePoolGrowth port p (some u)) s = .next (s.putPass { r with poolUnits := u, notified := false }))) ∧
  (∀ (port : Fin 4) (p : Fin 8) (queues : List Nat) (s : State), s.administers port.val p.val = true →
    (s.part p.val).modes.getLsbD 1 = true → exec (.controlNodeQueueHeadOrder port p queues) s =
      .next (s.putPart { s.part p.val with order := queues.filter fun q => q < 2048 && (s.queue q).part = p.val })) ∧
  (∀ (port : Fin 4) (p : Fin 8) (s : State), s.administers port.val p.val = false →
    (∀ tile at_, exec (.controlNodeTileAssignment port p tile at_) s = .next s) ∧ (∀ u, exec (.controlNodePoolGrowth port p u) s = .next s) ∧
    ∀ qs, exec (.controlNodeQueueHeadOrder port p qs) s = .next s)

/-- A resident tile crew in a step goes on: load writes the planes, cleared or from the tile's slot; visibility applies
the rest of the list, or the part of it that the unit has applied so far, and after the whole list the pass enters the
G-buffer step with the groups that hold an enabled record; the G-buffer step starts waves as room allows; shading and
resolve start when the waves of the step before have exited and the core has room; a flush pass stores its planes and
ends. A crew in another step changes nothing. A tile block that has stopped is written to the save area and leaves its
core; what the spill misses is held, and where it cannot be made the block goes on. A saved tile block whose image is
found poisoned restarts its pass, or with RECOV fails its context. The place and the layout of an image are the model's
choice (log entry 73), as is the event in which a reload finds it poisoned (35). (R267, R277, R280, R281, R282, R283, R389, R390) -/
def Obligations.TilePassesMove : Prop :=
  (∀ (crew : Nat) (s : State), (s.tileAt crew .load = none → exec (.passLoad crew) s = .next s) ∧
    (s.tileAt crew .visibility = none → exec (.passVisibility crew) s = .next s) ∧
    (s.tileAt crew .gbuffer = none → exec (.passGbuffer crew) s = .next s ∧ exec (.passShading crew) s = .next s ∧ exec (.resumeStore crew) s = .next s) ∧
    (s.tileAt crew .shading = none → exec (.passResolve crew) s = .next s)) ∧
  (∀ (crew : Nat) (s : State) (c : Crew) (t : TilePass) (r : RenderPass) (b : Block), s.tileAt crew .load = some (c, t, r, b) →
    let go (s : State) (bs : List Byte) (resumed : Bool) : State := (s.putBlock ((s.counted b).putPlanes r bs)).putCrew
      (c.withTile { t with step := .visibility, cursor := 0, resumed := resumed, prims := r.primPlane ((s.counted b).putPlanes r bs) })
    ((r.tile t.tile).valid = false → exec (.passLoad crew) s = .next (go s r.clearPlanes false)) ∧
    (∀ bs s1, (r.tile t.tile).valid = true → s.devRead r.context r.part (some (crew, 0)) (r.slotOf t.tile) r.planeRun.2 = (.ok bs, s1) →
      exec (.passLoad crew) s = .next (go s1 bs true)) ∧
    (∀ e s1, (r.tile t.tile).valid = true → s.devRead r.context r.part (some (crew, 0)) (r.slotOf t.tile) r.planeRun.2 = (.error e, s1) →
      exec (.passLoad crew) s = .next (s1.failPass r.part t.tile e.passCode))) ∧
  (∀ (crew k : Nat) (s s1 s2 s3 : State) (c : Crew) (t : TilePass) (r : RenderPass) (b b1 : Block) (ns : List Nat),
    s.tileAt crew .visibility = some (c, t, r, b) →
    (if (r.tile t.tile).head = 0 then (Except.ok [], s)
     else s.readList r (crew, 0) (r.tile t.tile).tail (r.poolUnits - 1) (r.tile t.tile).head 0) = (.ok ns, s1) →
    s1.choose (ns.drop t.cursor).length = (k, s2) →
    s2.applyPrims r t crew b (if k = 0 then ns.drop t.cursor else (ns.drop t.cursor).take k) = (.ok b1, s3) →
    exec (.passVisibility crew) s = .next (if k = 0 then s3.startStep c { t with
        step := .gbuffer, cursor := ns.length, groups := (List.range r.groupCount).filter fun w => r.enabled t b1 w != 0 } (s3.counted b1) r.gbuf
      else (s3.putBlock (s3.counted b1)).putCrew (c.withTile { t with cursor := t.cursor + k }))) ∧
  (∀ (crew : Nat) (s : State) (c : Crew) (t : TilePass) (r : RenderPass) (b : Block), s.tileAt crew .gbuffer = some (c, t, r, b) →
    let s0 := s.endGbufferBlocks c
    (∀ w, t.groups = [w] → s0.hasRoom (c.coreOf 0) { slots := 1, regs := r.gbuf.kernel.regs + 1, tile := 0, banks := 0 } = true →
      exec (.passGbuffer crew) s = .next (({ s0 with blocks := s0.blocks ++ [gbufferBlock c t r w] }.addWaves c
        [tileWave c t r b r.gbuf w r.groupCount 0 (r.enabled t b w)]).putCrew (c.withTile { t with groups := [] }))) ∧
    (t.groups = [] ∨ s0.hasRoom (c.coreOf 0) { slots := 1, regs := r.gbuf.kernel.regs + 1, tile := 0, banks := 0 } = false →
      exec (.passGbuffer crew) s = .next (s0.putCrew (c.withTile t))) ∧
    (exec (.passShading crew) s = .next (if t.flush = true ∨ t.groups ≠ [] then s else s.programStep c t r b r.shade .shading)) ∧
    (t.flush = true → t.groups = [] → s.stepDone crew = true → b.commands = [] → ∀ s1,
      s.devWrite r.context r.part (some (crew, 0)) (r.slotOf t.tile) (b.bytes r.planeRun.1 r.planeRun.2) = .ok s1 →
      exec (.resumeStore crew) s = .next ((s1.putPass (r.updTile t.tile fun x => { x with valid := true, owned := false })).dropCrews
        fun c => c.id == crew))) ∧
  (∀ (crew : Nat) (s : State) (c : Crew) (t : TilePass) (r : RenderPass) (b : Block), s.tileAt crew .shading = some (c, t, r, b) →
    exec (.passResolve crew) s = .next (s.programStep c t r b r.res .resolve)) ∧
  (∀ (s : State) (c : Crew) (t : TilePass) (r : RenderPass) (b : Block) (k : Image) (step : PassStep),
    let go := s.stepDone c.id = true ∧ s.hasRoom (c.coreOf 0)
      { slots := k.kernel.waves, regs := k.kernel.waves * (k.kernel.regs + 1), tile := 0, banks := 0 } = true
    (¬ go → s.programStep c t r b k step = s) ∧
    (go → s.programStep c t r b k step = (s.startStep c { t with step := step } b k).addWaves { c with image := k }
      ((List.range k.kernel.waves).map fun i => tileWave c t r b k i k.kernel.waves i (BitVec.allOnes 96)))) ∧
  (∀ (crew : Nat) (s s1 : State) (c : Crew) (t : TilePass) (r : RenderPass) (b : Block), s.crew? crew = some c → c.tile? = some t →
    s.passOf c = some r → s.block? crew 0 = some b →
    (s.maySave c = false ∨ s.spillHeld crew = true → exec (.tileSpill crew) s = .next s) ∧
    (s.maySave c = true → s.spillHeld crew = false →
      let k := s.freeImage c.part
      let got := s.devReach c.ctx c.part (s.imageAt r k) r.imageSize { r := true, w := true }
      (∀ l, got = (.ok l, s1) →
        exec (.tileSpill crew) s = .next ((s1.writeImage c b l).saveCrew (c.withTile { t with slot := some k }))) ∧
      (∀ a sub, got = (.error (.missing a sub), s1) → exec (.tileSpill crew) s = .next (s1.holdSpill c c.clusterNo a sub)) ∧
      (∀ e, got = (.error e, s1) → (∀ a sub, e ≠ .missing a sub) → exec (.tileSpill crew) s = .next (s1.spillFailed c t))) ∧
    (c.resident = true ∨ t.slot = none → exec (.passRestart crew) s = .next s) ∧
    (∀ k, c.resident = false → t.slot = some k →
      let got := s.devReach c.ctx c.part (s.imageAt r k) r.imageSize { r := true }
      let lost := if (s1.part c.part).modes.getLsbD 5 then s1.failContext c.part c.ctx.ctag 0x83 (c.place 9) else s1.restartPass c 9
      (∀ l, got = (.ok l, s1) → exec (.passRestart crew) s = .next (if (s1.readImage c b l).1.isNone then lost else s1)) ∧
      (got = (.error .poison, s1) → exec (.passRestart crew) s = .next lost)))

/-- In a partition in Woad mode that neither diverges nor has failed: a pass begins once every wave of its rounds has
stopped, with all of them to visit in key order; while a wave has not stopped, or STALL stands, nothing happens. In a
pass with nothing granted, a wave's visit comes next in that order, when no command, request or batch of the partition
can still move; with all visited the round's handlers run while accesses are held, what they left is visited, the
inputs take effect one at a time, and the round ends; a replay takes the entries of its log one at a time, after the
walks of which the log has no entry (log entry 88). In any other partition the event changes nothing. Inputs of a
recording partition are put off to the round's end. That the handlers run for the pass, that a second sweep visits what
they left, and that one input takes effect an event rest on log entry 23. (R107, R108, R407, R408, R409, R410) -/
def Obligations.RoundsCommitInOrder : Prop :=
  (∀ (p : Fin 8) (s : State), let x := s.part p.val
    (x.woad = false ∨ x.div = true ∨ x.state = 4 → exec (.woadRoundCommit p) s = .next s) ∧
    (x.woad = true → x.div = false → x.state ≠ 4 →
      (x.pass = none → (x.stall = true ∨ ∃ y ∈ s.roundWaves p.val, s.waveStopped y.1 y.2 = false) → exec (.woadRoundCommit p) s = .next s) ∧
      (x.pass = none → x.stall = false → (∀ y ∈ s.roundWaves p.val, s.waveStopped y.1 y.2 = true) →
        exec (.woadRoundCommit p) s = .next (s.putPart { x with
          pass := some { left := s.passOrder p.val, wanted := [], granted := none, stores := 0, syncs := 0, ended := false, taken := 0 } })) ∧
      (∀ ps g, x.pass = some ps → ps.granted = some g → exec (.woadRoundCommit p) s = .next (if s.grantOver g then
        s.updPass p.val fun y => { y with granted := none, syncs := y.syncs + (if s.movedOn g.wave g.slice g.pc then 1 else 0) } else s)) ∧
      (∀ ps, x.pass = some ps → ps.granted = none → s.passBusy p.val = false →
        (∀ r sl rest, ps.wanted = (r, sl) :: rest → exec (.woadRoundCommit p) s =
          .next ((s.updPass p.val fun x => { x with wanted := rest }).grantIssue p.val r sl)) ∧
        (∀ r rest, ps.wanted = [] → ps.left = r :: rest → exec (.woadRoundCommit p) s =
          .next ((s.updPass p.val fun x => { x with left := rest }).visitWave p.val r)) ∧
        (ps.wanted = [] → ps.left = [] → ps.ended = true → exec (.woadRoundCommit p) s = .next (s.flushLog p.val)) ∧
        (ps.wanted = [] → ps.left = [] → ps.ended = false →
          (s.handlersRun p.val = true → exec (.woadRoundCommit p) s = .next s) ∧
          (s.handlersRun p.val = false → s.sweepAgain p.val = true →
            exec (.woadRoundCommit p) s = .next (s.updPass p.val fun y => { y with left := s.passOrder p.val })) ∧
          (s.handlersRun p.val = false → s.sweepAgain p.val = false → x.wctl.getLsbD 1 = false →
            (∀ i rest, x.inputs = i :: rest →
              exec (.woadRoundCommit p) s = .next ((s.putPart { x with inputs := rest }).applyInput p.val i)) ∧
            (x.inputs = [] → s.passWaits p.val = true → exec (.woadRoundCommit p) s = .next s) ∧
            (x.inputs = [] → s.passWaits p.val = false → exec (.woadRoundCommit p) s = .next
              (((s.logEntry p.val 9 [ps.stores, ps.syncs]).updPass p.val fun y => { y with ended := true }).flushLog p.val))) ∧
          (s.handlersRun p.val = false → s.sweepAgain p.val = false → x.wctl.getLsbD 1 = true →
            (s.replayEntries x = none → exec (.woadRoundCommit p) s = .next (s.putPart { x with stall := true })) ∧
            (∀ es t, s.replayEntries x = some es → s.walkUnlogged p.val (es.drop ps.taken) = some t → exec (.woadRoundCommit p) s = .next t) ∧
            (∀ es e, s.replayEntries x = some es → s.walkUnlogged p.val (es.drop ps.taken) = none → es[ps.taken]? = some e → exec (.woadRoundCommit p) s =
              .next ((s.updPass p.val fun y => { y with taken := y.taken + 1 }).applyEntry p.val e)) ∧
            (∀ es, s.replayEntries x = some es → s.walkUnlogged p.val (es.drop ps.taken) = none → es[ps.taken]? = none → exec (.woadRoundCommit p) s =
              .next ((s.putPart { x with wrd := x.wrd + BitVec.ofNat 32 (es.map fun e => 8 * (e.words.length + 1)).sum }).nextRound p.val))))) ∧
      (∀ ps, x.pass = some ps → ps.granted = none → s.passBusy p.val = true → exec (.woadRoundCommit p) s = .next s))) ∧
  (∀ (p : Fin 8) (s : State), (s.passOrder p.val).Perm ((s.roundWaves p.val).map fun y => y.1.ref)) ∧
  (∀ t ∈ takeForms, ∀ (q : Fin 2048) (s : State), (s.part (s.queue q.val).part).woad = true → exec (t.1 q) s =
    .next (if (s.part (s.queue q.val).part).wctl.getLsbD 1 then s
      else s.putPart { s.part (s.queue q.val).part with inputs := (s.part (s.queue q.val).part).inputs ++ [t.1 q] }))

/-- A ready instruction of these forms goes on and changes nothing but its destination, in the lanes it writes, and the
place of its own gang: every other lane register, every inactive lane, every other group register, every other
predicate, FP_CTRL, every special and trap register, the other gangs and waves, all of memory and of tile memory
stand. A lane instruction leaves group registers and predicates; a predicate instruction leaves all registers; a group
instruction leaves lane registers and predicates, and of g61 to g63 the bits outside its cohort. (R8, R29, R30, R31,
R155, R159, R163, R182, R184) -/
def Obligations.RegisterInstructionsKeepTheRest : Prop :=
  (∀ x ∈ laneForms, ∀ (o : Opnd) (s : State) (c : Issue), Ready s c (x.1 o) → ∃ w : Wave, exec (x.1 o) s = .next (s.putWave w) ∧
    w = { c.wave with v := w.v, vInit := w.vInit, gangs := w.gangs, issued := w.issued, roundIssued := w.roundIssued } ∧
    (∀ r, r < o.d.toNat ∨ o.d.toNat + x.2 ≤ r → w.readV r = c.wave.readV r) ∧
    (∀ r l, l < 96 → (c.active o.ext).getLsbD l = false → (w.readV r).at_ l = (c.wave.readV r).at_ l) ∧
    OtherGangs c w ∧ OtherWaves s (s.putWave w) c.wave.ref ∧ MemoryUnchanged s (s.putWave w)) ∧
  (∀ x ∈ laneImms.map Prod.fst, ∀ (o : OpndI) (s : State) (c : Issue), Ready s c (x o) → ∃ w : Wave, exec (x o) s = .next (s.putWave w) ∧
    w = { c.wave with v := w.v, vInit := w.vInit, gangs := w.gangs, issued := w.issued, roundIssued := w.roundIssued } ∧
    (∀ r, r ≠ o.d.toNat → w.readV r = c.wave.readV r) ∧
    (∀ r l, l < 96 → (c.gang.slices.lanes &&& c.wave.act).getLsbD l = false → (w.readV r).at_ l = (c.wave.readV r).at_ l) ∧
    OtherGangs c w ∧ OtherWaves s (s.putWave w) c.wave.ref ∧ MemoryUnchanged s (s.putWave w)) ∧
  (∀ x ∈ predForms, ∀ (o : Opnd) (s : State) (c : Issue), Ready s c (x o) → ∃ w : Wave, exec (x o) s = .next (s.putWave w) ∧
    w = { c.wave with p := w.p, pInit := w.pInit, gangs := w.gangs, issued := w.issued, roundIssued := w.roundIssued } ∧
    (∀ n, n ≠ o.d.toNat % 8 → w.readP n = c.wave.readP n) ∧
    (∀ n l, (c.active o.ext).getLsbD l = false → (w.readP n).getLsbD l = (c.wave.readP n).getLsbD l) ∧
    OtherGangs c w ∧ OtherWaves s (s.putWave w) c.wave.ref ∧ MemoryUnchanged s (s.putWave w)) ∧
  (∀ x ∈ groupForms, ∀ (o : Opnd) (s : State) (c : Issue), Ready s c (x.1 o) → ∃ w : Wave, exec (x.1 o) s = .next (s.putWave w) ∧
    w = { c.wave with g := w.g, act := w.act, gInit := w.gInit, gangs := w.gangs, issued := w.issued, roundIssued := w.roundIssued } ∧
    (∀ r, r < 64 → r < o.d.toNat ∨ o.d.toNat + x.2 ≤ r → w.readG r = c.wave.readG r) ∧
    (∀ l, c.gang.slices.lanes.getLsbD l = false → w.act.getLsbD l = c.wave.act.getLsbD l) ∧
    OtherGangs c w ∧ OtherWaves s (s.putWave w) c.wave.ref ∧ MemoryUnchanged s (s.putWave w)) ∧
  (∀ x ∈ groupImms.map Prod.fst, ∀ (o : OpndI) (s : State) (c : Issue), Ready s c (x o) → ∃ w : Wave, exec (x o) s = .next (s.putWave w) ∧
    w = { c.wave with g := w.g, act := w.act, gInit := w.gInit, gangs := w.gangs, issued := w.issued, roundIssued := w.roundIssued } ∧
    (∀ r, r < 64 → r ≠ o.d.toNat → w.readG r = c.wave.readG r) ∧
    (∀ l, c.gang.slices.lanes.getLsbD l = false → w.act.getLsbD l = c.wave.act.getLsbD l) ∧
    OtherGangs c w ∧ OtherWaves s (s.putWave w) c.wave.ref ∧ MemoryUnchanged s (s.putWave w))

/-- A ready instruction of these forms goes on and changes nothing but its destination, in active lanes, the sticky flags
of FP_CTRL, of which it clears none, and the place of its own gang. FP_CTRL's rounding mode, FTZ and E5SAT stand, as
do the other registers, the inactive lanes, the special registers, the other gangs and waves, memory and tile memory.
FCMP does the same of a predicate. (R29, R113, R114, R115, R155, R163, R169) -/
def Obligations.FlaggedInstructionsKeepTheRest : Prop :=
  (∀ x ∈ flagForms, ∀ (o : Opnd) (s : State) (c : Issue), Ready s c (x o) → ∃ w : Wave, exec (x o) s = .next (s.putWave w) ∧
    w = { c.wave with v := w.v, vInit := w.vInit, fp := w.fp, gangs := w.gangs, issued := w.issued, roundIssued := w.roundIssued } ∧
    c.wave.fp ||| w.fp = w.fp ∧ w.fp &&& ~~~fpFlags = c.wave.fp &&& ~~~fpFlags ∧
    (∀ r, r ≠ o.d.toNat → w.readV r = c.wave.readV r) ∧
    (∀ r l, l < 96 → (c.active o.ext).getLsbD l = false → (w.readV r).at_ l = (c.wave.readV r).at_ l) ∧
    OtherGangs c w ∧ OtherWaves s (s.putWave w) c.wave.ref ∧ MemoryUnchanged s (s.putWave w)) ∧
  (∀ x ∈ fpCompares.map Prod.fst, ∀ (o : Opnd) (s : State) (c : Issue), Ready s c (x o) → ∃ w : Wave, exec (x o) s = .next (s.putWave w) ∧
    w = { c.wave with p := w.p, pInit := w.pInit, fp := w.fp, gangs := w.gangs, issued := w.issued, roundIssued := w.roundIssued } ∧
    c.wave.fp ||| w.fp = w.fp ∧ w.fp &&& ~~~fpFlags = c.wave.fp &&& ~~~fpFlags ∧
    (∀ n, n ≠ o.d.toNat % 8 → w.readP n = c.wave.readP n) ∧
    (∀ n l, (c.active o.ext).getLsbD l = false → (w.readP n).getLsbD l = (c.wave.readP n).getLsbD l) ∧
    OtherGangs c w ∧ OtherWaves s (s.putWave w) c.wave.ref ∧ MemoryUnchanged s (s.putWave w))

/-- Where each active lane of a store, or the one active lane of an atomic, reaches tile memory at the place that its
address gives, every byte of tile memory outside the bytes stored there reads as before, and so does every byte of
memory. Where it reaches mapped memory of GLOBAL or STACK, every byte of memory outside the pieces that its address
gives reads as before, and so does every byte of tile memory. Registers other than the destination that the old value is
to land in, predicates, FP_CTRL, special registers and the other waves stand. (R61, R62, R84, R90, R214, R217, R218,
R222, R224) -/
def Obligations.StoresKeepEveryOtherByte : Prop :=
  (∀ (fmt size : BitVec 6), ∀ p ∈ storeForms fmt size, ∀ (o : Opnd) (s : State) (c : Issue) (place : Nat → Nat × Nat),
    size.toNat ≤ 2 → fmt ≠ 13 → Ready s c (p.1 o) → o.ext.c.toNat % 4 = 0 →
    TileAccess s c { size := p.2.1, align := p.2.1, need := { w := true }, write := true, kind := 1 } (c.active o.ext)
      (p.2.2.1 c.wave o) place →
    ∃ t w, exec (p.1 o) s = .next t ∧ t.waves = (s.putWave w).waves ∧ SameMemory s t ∧
      w = { c.wave with gangs := w.gangs, issued := w.issued, roundIssued := w.roundIssued } ∧ OtherGangs c w ∧
      ∀ crew q, (crew = c.crew.id → ∀ l ∈ LaneMask.lanes (c.active o.ext), q.1 = (place l).1 → q.2 < (place l).2 ∨ (place l).2 + p.2.1 ≤ q.2) →
        tileBytes t crew q 1 = tileBytes s crew q 1) ∧
  (∀ (x : (Opnd → Instr) × Nat) (k : BitVec 6), x ∈ (atomForms 0).map (fun p => (p.1, p.2.1)) ∧ k = 2 ∨ x ∈ casForms ∧ k = 3 →
    ∀ (o : Opnd) (s : State) (c : Issue) (l : Nat) (place : Nat → Nat × Nat),
    Ready s c (x.1 o) → LaneMask.lanes (c.active o.ext) = [l] → NoStrongInTiles s → (k = 3 → o.ext.imm = 0) →
    TileAccess s c { size := x.2, align := x.2, need := { r := true, w := k = 2 }, write := true, kind := k.toNat } (c.active o.ext)
      (fun l => c.wave.readV2 o.a.toNat l + (if k = 2 then o.ext.imm.signExtend 64 else 0)) place →
    ∃ t w, exec (x.1 o) s = .next t ∧ t.waves = (s.putWave w).waves ∧ SameMemory s t ∧
      w = { c.wave with vFull := w.vFull, landings := w.landings, gangs := w.gangs, issued := w.issued, roundIssued := w.roundIssued } ∧
      OtherGangs c w ∧
      ∀ crew q, (crew = c.crew.id → q.1 = (place l).1 → q.2 < (place l).2 ∨ (place l).2 + x.2 ≤ q.2) →
        tileBytes t crew q 1 = tileBytes s crew q 1) ∧
  (∀ (fmt size : BitVec 6), ∀ p ∈ storeForms fmt size, ∀ (o : Opnd) (s s1 : State) (c : Issue) (ok : List (Nat × List Piece)),
    size.toNat ≤ 2 → fmt ≠ 13 → Ready s c (p.1 o) → o.ext.c.toNat % 4 = 0 →
    MemoryAccess s s1 c { size := p.2.1, align := p.2.1, need := { w := true }, write := true, kind := 1 } 0x60 (c.active o.ext)
      (p.2.2.1 c.wave o) ok →
    ∃ t w, exec (p.1 o) s = .next t ∧ t.waves = (s.putWave w).waves ∧ SameTiles s t ∧
      w = { c.wave with gangs := w.gangs, issued := w.issued, roundIssued := w.roundIssued } ∧ OtherGangs c w ∧
      ∀ k, Outside ok k → t.memBytes k 1 = s.memBytes k 1) ∧
  (∀ (order : BitVec 2) (x : (Opnd → Instr) × Nat) (k : BitVec 6),
    x ∈ (atomForms order).map (fun p => (p.1, p.2.1)) ∧ k = 2 ∨ x ∈ casForms ∧ k = 3 →
    ∀ (o : Opnd) (s s1 : State) (c : Issue) (l : Nat) (ok : List (Nat × List Piece)),
    Ready s c (x.1 o) → LaneMask.lanes (c.active o.ext) = [l] → s1.strongs = [] → s1.mixTags = [] →
    MemoryAccess s s1 c { size := x.2, align := x.2, need := { r := true, w := k = 2 }, write := true, kind := k.toNat } 0x60 (c.active o.ext)
      (fun l => c.wave.readV2 o.a.toNat l + (if k = 2 then o.ext.imm.signExtend 64 else 0)) ok →
    ∃ t w, exec (x.1 o) s = .next t ∧ t.waves = (s.putWave w).waves ∧ SameTiles s t ∧
      w = { c.wave with vFull := w.vFull, landings := w.landings, gangs := w.gangs, issued := w.issued, roundIssued := w.roundIssued } ∧
      OtherGangs c w ∧ ∀ k, Outside ok k → t.memBytes k 1 = s.memBytes k 1)

end
end

