-- ==== Sys2Proof/Laws/Device.lean ====
section
/-! SUPPORT. What the reads that the hardware itself makes leave as it was: the bytes of memory, its poison, the queues
and the module. -/

namespace Sys2Proof.Machine

/-- t has the bytes, the poison, the queues and the module of s. -/
structure State.Keeps (s t : State) : Prop where
  mem : t.mem = s.mem
  loose : t.loose = s.loose
  poison : t.poison = s.poison
  module : t.module = s.module
  queues : t.queues = s.queues

theorem State.Keeps.refl (s : State) : s.Keeps s := ⟨rfl, rfl, rfl, rfl, rfl⟩

theorem State.Keeps.trans {s t u : State} (h : s.Keeps t) (k : t.Keeps u) : s.Keeps u :=
  ⟨k.mem.trans h.mem, k.loose.trans h.loose, k.poison.trans h.poison, k.module.trans h.module, k.queues.trans h.queues⟩

/-- A fold of updates that keep them keeps them. -/
theorem State.Keeps.foldl {α : Type} {f : State → α → State} {l : List α} (h : ∀ s : State, ∀ x ∈ l, s.Keeps (f s x)) (s : State) : s.Keeps (l.foldl f s) := by
  induction l generalizing s with
  | nil => exact .refl s
  | cons x r ih => exact (h s x List.mem_cons_self).trans (ih (fun t y hy => h t y (List.mem_cons_of_mem x hy)) _)

theorem State.keeps_choose (s : State) (n : Nat) : s.Keeps (s.choose n).2 := by
  unfold State.choose; split <;> exact ⟨rfl, rfl, rfl, rfl, rfl⟩

theorem State.keeps_charge (s : State) (b : Option (Nat × Nat)) (n : Nat) : s.Keeps (s.charge b n) := by
  unfold State.charge; split <;> exact ⟨rfl, rfl, rfl, rfl, rfl⟩

theorem State.keeps_evict (s : State) (x : L2Line) : s.Keeps (s.evict x) := by
  unfold State.evict
  split
  · refine State.Keeps.trans ?_ (.foldl (fun t b _ => t.keeps_charge (some b) 128) _)
    exact ⟨rfl, rfl, rfl, rfl, rfl⟩
  · exact ⟨rfl, rfl, rfl, rfl, rfl⟩

theorem State.keeps_trimL2 (home n : Nat) (s : State) : s.Keeps (s.trimL2 home n) := by
  induction n generalizing s with
  | zero => exact .refl s
  | succ n ih =>
    unfold State.trimL2
    split
    · exact .refl s
    · split
      · exact .refl s
      · exact (s.keeps_evict _).trans (ih _)

theorem State.keeps_fillL2 (s : State) (part ctag : Nat) (blk : Option (Nat × Nat)) (mt line : Nat) (through comp : Bool) :
    s.Keeps (s.fillL2 part ctag blk mt line through comp) := by
  have hn (t : State) (home : Nat) (new : L2Line) : t.Keeps
      ((if through then { t with l2 := new :: t.l2 } else
        { t.charge blk 128 with l2 := new :: t.l2, fills := cellSet 0 t.fills home (cellGet 0 t.fills home + 1) } : State).trimL2 home 4) := by
    refine State.Keeps.trans ?_ (State.keeps_trimL2 home 4 _)
    split
    · exact ⟨rfl, rfl, rfl, rfl, rfl⟩
    · have h := t.keeps_charge blk 128
      exact ⟨h.mem, h.loose, h.poison, h.module, h.queues⟩
  unfold State.fillL2
  cases hf : s.l2.find? fun x => x.at_ (s.homeOf part mt (128 * line)) mt line with
  | none => simpa only [hf, Bool.false_eq_true, if_false] using hn s _ _
  | some x =>
    have hc := s.keeps_choose 2
    rcases hs : s.choose 2 with ⟨k, t⟩
    rw [hs] at hc
    by_cases hk : k = 1
    · simp only [hf, hk, if_true, Bool.false_eq_true, if_false]
      exact (hc.trans (t.keeps_evict x)).trans (hn _ _ _)
    · simpa only [hf, hk, if_false, if_true] using hc

/-- A read of a span sets the A bit of its leaf, where that is not set, and changes no other byte. -/
theorem State.keeps_touchSpan (s : State) (c : Context) (part : Nat) (blk : Option (Nat × Nat)) (x : Span) (h : 0x20#64 &&& ~~~x.leaf = 0) :
    s.Keeps (s.touchSpan c part blk x false) := by
  have hl (t : State) : t.touchLeaf 96 x.leaf x.leafMt x.leafPa false = t := by
    exact if_pos h
  simp only [State.touchSpan, hl]
  refine .foldl (fun t k _ => ?_) s
  simpa only [State.touchL2, Bool.false_and, Bool.false_eq_true, if_false] using t.keeps_fillL2 part c.ctag blk x.mt _ false x.comp

/-- An image that lies in clean memory can be read back. -/
theorem State.readImage_clean {s : State} (hp : s.poison = []) (hd : s.module.down = 0) (c : Crew) (b : Block) (l : List Span)
    (hl : ∀ x ∈ l, 0x20#64 &&& ~~~x.leaf = 0) : ∃ bs s2, s.readImage c b l = (some bs, s2) ∧ s.Keeps s2 := by
  have hh : s.Keeps (l.foldl (fun s x => s.touchSpan c.ctx c.part (some (c.id, 0)) x false) s) :=
    .foldl (fun t x hx => t.keeps_touchSpan c.ctx c.part (some (c.id, 0)) x (hl x hx)) s
  have hany : (l.any fun x => (l.foldl (fun s x => s.touchSpan c.ctx c.part (some (c.id, 0)) x false) s).memPoisoned x.mt x.pa x.size) = false := by
    rw [List.any_eq_false]; intro x _; simp [State.memPoisoned, State.linkDown, hh.poison, hh.module, hp, hd]
  simp only [State.readImage, hany]
  exact ⟨_, _, rfl, hh⟩

/-- Whether a context record can be used depends on the bytes, the poison, the queues and the module alone. -/
theorem State.Keeps.contextBad {s t : State} (h : s.Keeps t) (q : Nat) : t.contextBad q = s.contextBad q := by
  obtain ⟨h1, h2, h3, h4, h5⟩ := h
  cases s
  cases t
  simp only at h1 h2 h3 h4 h5
  subst h1 h2 h3 h4 h5
  rfl

end Sys2Proof.Machine
end

