-- ==== Sys2Proof/Laws/State.lean ====
section
/-! SUPPORT. What each update of State and of Wave leaves as it was: one lemma per field per update. -/

namespace Sys2Proof.Machine

/-! State.putWave -/

@[simp] theorem State.putWave_module (s : State) (w : Wave) : (s.putWave w).module = s.module := rfl
@[simp] theorem State.putWave_mailbox (s : State) (w : Wave) : (s.putWave w).mailbox = s.mailbox := rfl
@[simp] theorem State.putWave_tick (s : State) (w : Wave) : (s.putWave w).tick = s.tick := rfl
@[simp] theorem State.putWave_cycle (s : State) (w : Wave) : (s.putWave w).cycle = s.cycle := rfl
@[simp] theorem State.putWave_parts (s : State) (w : Wave) : (s.putWave w).parts = s.parts := rfl
@[simp] theorem State.putWave_queues (s : State) (w : Wave) : (s.putWave w).queues = s.queues := rfl
@[simp] theorem State.putWave_works (s : State) (w : Wave) : (s.putWave w).works = s.works := rfl
@[simp] theorem State.putWave_crews (s : State) (w : Wave) : (s.putWave w).crews = s.crews := rfl
@[simp] theorem State.putWave_blocks (s : State) (w : Wave) : (s.putWave w).blocks = s.blocks := rfl
@[simp] theorem State.putWave_buffers (s : State) (w : Wave) : (s.putWave w).buffers = s.buffers := rfl
@[simp] theorem State.putWave_held (s : State) (w : Wave) : (s.putWave w).held = s.held := rfl
@[simp] theorem State.putWave_mem (s : State) (w : Wave) : (s.putWave w).mem = s.mem := rfl
@[simp] theorem State.putWave_loose (s : State) (w : Wave) : (s.putWave w).loose = s.loose := rfl
@[simp] theorem State.putWave_poison (s : State) (w : Wave) : (s.putWave w).poison = s.poison := rfl
@[simp] theorem State.putWave_tilePoison (s : State) (w : Wave) : (s.putWave w).tilePoison = s.tilePoison := rfl
@[simp] theorem State.putWave_l1 (s : State) (w : Wave) : (s.putWave w).l1 = s.l1 := rfl
@[simp] theorem State.putWave_tlb (s : State) (w : Wave) : (s.putWave w).tlb = s.tlb := rfl
@[simp] theorem State.putWave_l2 (s : State) (w : Wave) : (s.putWave w).l2 = s.l2 := rfl
@[simp] theorem State.putWave_fills (s : State) (w : Wave) : (s.putWave w).fills = s.fills := rfl
@[simp] theorem State.putWave_objects (s : State) (w : Wave) : (s.putWave w).objects = s.objects := rfl
@[simp] theorem State.putWave_inflight (s : State) (w : Wave) : (s.putWave w).inflight = s.inflight := rfl
@[simp] theorem State.putWave_graphs (s : State) (w : Wave) : (s.putWave w).graphs = s.graphs := rfl
@[simp] theorem State.putWave_passes (s : State) (w : Wave) : (s.putWave w).passes = s.passes := rfl
@[simp] theorem State.putWave_saved (s : State) (w : Wave) : (s.putWave w).saved = s.saved := rfl
@[simp] theorem State.putWave_served (s : State) (w : Wave) : (s.putWave w).served = s.served := rfl
@[simp] theorem State.putWave_mixTags (s : State) (w : Wave) : (s.putWave w).mixTags = s.mixTags := rfl
@[simp] theorem State.putWave_strongs (s : State) (w : Wave) : (s.putWave w).strongs = s.strongs := rfl
@[simp] theorem State.putWave_releasers (s : State) (w : Wave) : (s.putWave w).releasers = s.releasers := rfl
@[simp] theorem State.putWave_passed (s : State) (w : Wave) : (s.putWave w).passed = s.passed := rfl
@[simp] theorem State.putWave_lastPipe (s : State) (w : Wave) : (s.putWave w).lastPipe = s.lastPipe := rfl
@[simp] theorem State.putWave_due (s : State) (w : Wave) : (s.putWave w).due = s.due := rfl
@[simp] theorem State.putWave_cur (s : State) (w : Wave) : (s.putWave w).cur = s.cur := rfl
@[simp] theorem State.putWave_stamp (s : State) (w : Wave) : (s.putWave w).stamp = s.stamp := rfl
@[simp] theorem State.putWave_nextSeq (s : State) (w : Wave) : (s.putWave w).nextSeq = s.nextSeq := rfl
@[simp] theorem State.putWave_nextCrew (s : State) (w : Wave) : (s.putWave w).nextCrew = s.nextCrew := rfl
@[simp] theorem State.putWave_fresh (s : State) (w : Wave) : (s.putWave w).fresh = s.fresh := rfl
@[simp] theorem State.putWave_oracle (s : State) (w : Wave) : (s.putWave w).oracle = s.oracle := rfl
@[simp] theorem State.putWave_agenda (s : State) (w : Wave) : (s.putWave w).agenda = s.agenda := rfl

/-! State.putBlock -/

@[simp] theorem State.putBlock_module (s : State) (b : Block) : (s.putBlock b).module = s.module := rfl
@[simp] theorem State.putBlock_mailbox (s : State) (b : Block) : (s.putBlock b).mailbox = s.mailbox := rfl
@[simp] theorem State.putBlock_tick (s : State) (b : Block) : (s.putBlock b).tick = s.tick := rfl
@[simp] theorem State.putBlock_cycle (s : State) (b : Block) : (s.putBlock b).cycle = s.cycle := rfl
@[simp] theorem State.putBlock_parts (s : State) (b : Block) : (s.putBlock b).parts = s.parts := rfl
@[simp] theorem State.putBlock_queues (s : State) (b : Block) : (s.putBlock b).queues = s.queues := rfl
@[simp] theorem State.putBlock_works (s : State) (b : Block) : (s.putBlock b).works = s.works := rfl
@[simp] theorem State.putBlock_crews (s : State) (b : Block) : (s.putBlock b).crews = s.crews := rfl
@[simp] theorem State.putBlock_waves (s : State) (b : Block) : (s.putBlock b).waves = s.waves := rfl
@[simp] theorem State.putBlock_buffers (s : State) (b : Block) : (s.putBlock b).buffers = s.buffers := rfl
@[simp] theorem State.putBlock_held (s : State) (b : Block) : (s.putBlock b).held = s.held := rfl
@[simp] theorem State.putBlock_mem (s : State) (b : Block) : (s.putBlock b).mem = s.mem := rfl
@[simp] theorem State.putBlock_loose (s : State) (b : Block) : (s.putBlock b).loose = s.loose := rfl
@[simp] theorem State.putBlock_poison (s : State) (b : Block) : (s.putBlock b).poison = s.poison := rfl
@[simp] theorem State.putBlock_tilePoison (s : State) (b : Block) : (s.putBlock b).tilePoison = s.tilePoison := rfl
@[simp] theorem State.putBlock_l1 (s : State) (b : Block) : (s.putBlock b).l1 = s.l1 := rfl
@[simp] theorem State.putBlock_tlb (s : State) (b : Block) : (s.putBlock b).tlb = s.tlb := rfl
@[simp] theorem State.putBlock_l2 (s : State) (b : Block) : (s.putBlock b).l2 = s.l2 := rfl
@[simp] theorem State.putBlock_fills (s : State) (b : Block) : (s.putBlock b).fills = s.fills := rfl
@[simp] theorem State.putBlock_objects (s : State) (b : Block) : (s.putBlock b).objects = s.objects := rfl
@[simp] theorem State.putBlock_inflight (s : State) (b : Block) : (s.putBlock b).inflight = s.inflight := rfl
@[simp] theorem State.putBlock_graphs (s : State) (b : Block) : (s.putBlock b).graphs = s.graphs := rfl
@[simp] theorem State.putBlock_passes (s : State) (b : Block) : (s.putBlock b).passes = s.passes := rfl
@[simp] theorem State.putBlock_saved (s : State) (b : Block) : (s.putBlock b).saved = s.saved := rfl
@[simp] theorem State.putBlock_served (s : State) (b : Block) : (s.putBlock b).served = s.served := rfl
@[simp] theorem State.putBlock_mixTags (s : State) (b : Block) : (s.putBlock b).mixTags = s.mixTags := rfl
@[simp] theorem State.putBlock_strongs (s : State) (b : Block) : (s.putBlock b).strongs = s.strongs := rfl
@[simp] theorem State.putBlock_releasers (s : State) (b : Block) : (s.putBlock b).releasers = s.releasers := rfl
@[simp] theorem State.putBlock_passed (s : State) (b : Block) : (s.putBlock b).passed = s.passed := rfl
@[simp] theorem State.putBlock_lastPipe (s : State) (b : Block) : (s.putBlock b).lastPipe = s.lastPipe := rfl
@[simp] theorem State.putBlock_due (s : State) (b : Block) : (s.putBlock b).due = s.due := rfl
@[simp] theorem State.putBlock_cur (s : State) (b : Block) : (s.putBlock b).cur = s.cur := rfl
@[simp] theorem State.putBlock_stamp (s : State) (b : Block) : (s.putBlock b).stamp = s.stamp := rfl
@[simp] theorem State.putBlock_nextSeq (s : State) (b : Block) : (s.putBlock b).nextSeq = s.nextSeq := rfl
@[simp] theorem State.putBlock_nextCrew (s : State) (b : Block) : (s.putBlock b).nextCrew = s.nextCrew := rfl
@[simp] theorem State.putBlock_fresh (s : State) (b : Block) : (s.putBlock b).fresh = s.fresh := rfl
@[simp] theorem State.putBlock_oracle (s : State) (b : Block) : (s.putBlock b).oracle = s.oracle := rfl
@[simp] theorem State.putBlock_agenda (s : State) (b : Block) : (s.putBlock b).agenda = s.agenda := rfl

/-! State.putCrew -/

@[simp] theorem State.putCrew_module (s : State) (c : Crew) : (s.putCrew c).module = s.module := rfl
@[simp] theorem State.putCrew_mailbox (s : State) (c : Crew) : (s.putCrew c).mailbox = s.mailbox := rfl
@[simp] theorem State.putCrew_tick (s : State) (c : Crew) : (s.putCrew c).tick = s.tick := rfl
@[simp] theorem State.putCrew_cycle (s : State) (c : Crew) : (s.putCrew c).cycle = s.cycle := rfl
@[simp] theorem State.putCrew_parts (s : State) (c : Crew) : (s.putCrew c).parts = s.parts := rfl
@[simp] theorem State.putCrew_queues (s : State) (c : Crew) : (s.putCrew c).queues = s.queues := rfl
@[simp] theorem State.putCrew_works (s : State) (c : Crew) : (s.putCrew c).works = s.works := rfl
@[simp] theorem State.putCrew_blocks (s : State) (c : Crew) : (s.putCrew c).blocks = s.blocks := rfl
@[simp] theorem State.putCrew_waves (s : State) (c : Crew) : (s.putCrew c).waves = s.waves := rfl
@[simp] theorem State.putCrew_buffers (s : State) (c : Crew) : (s.putCrew c).buffers = s.buffers := rfl
@[simp] theorem State.putCrew_held (s : State) (c : Crew) : (s.putCrew c).held = s.held := rfl
@[simp] theorem State.putCrew_mem (s : State) (c : Crew) : (s.putCrew c).mem = s.mem := rfl
@[simp] theorem State.putCrew_loose (s : State) (c : Crew) : (s.putCrew c).loose = s.loose := rfl
@[simp] theorem State.putCrew_poison (s : State) (c : Crew) : (s.putCrew c).poison = s.poison := rfl
@[simp] theorem State.putCrew_tilePoison (s : State) (c : Crew) : (s.putCrew c).tilePoison = s.tilePoison := rfl
@[simp] theorem State.putCrew_l1 (s : State) (c : Crew) : (s.putCrew c).l1 = s.l1 := rfl
@[simp] theorem State.putCrew_tlb (s : State) (c : Crew) : (s.putCrew c).tlb = s.tlb := rfl
@[simp] theorem State.putCrew_l2 (s : State) (c : Crew) : (s.putCrew c).l2 = s.l2 := rfl
@[simp] theorem State.putCrew_fills (s : State) (c : Crew) : (s.putCrew c).fills = s.fills := rfl
@[simp] theorem State.putCrew_objects (s : State) (c : Crew) : (s.putCrew c).objects = s.objects := rfl
@[simp] theorem State.putCrew_inflight (s : State) (c : Crew) : (s.putCrew c).inflight = s.inflight := rfl
@[simp] theorem State.putCrew_graphs (s : State) (c : Crew) : (s.putCrew c).graphs = s.graphs := rfl
@[simp] theorem State.putCrew_passes (s : State) (c : Crew) : (s.putCrew c).passes = s.passes := rfl
@[simp] theorem State.putCrew_saved (s : State) (c : Crew) : (s.putCrew c).saved = s.saved := rfl
@[simp] theorem State.putCrew_served (s : State) (c : Crew) : (s.putCrew c).served = s.served := rfl
@[simp] theorem State.putCrew_mixTags (s : State) (c : Crew) : (s.putCrew c).mixTags = s.mixTags := rfl
@[simp] theorem State.putCrew_strongs (s : State) (c : Crew) : (s.putCrew c).strongs = s.strongs := rfl
@[simp] theorem State.putCrew_releasers (s : State) (c : Crew) : (s.putCrew c).releasers = s.releasers := rfl
@[simp] theorem State.putCrew_passed (s : State) (c : Crew) : (s.putCrew c).passed = s.passed := rfl
@[simp] theorem State.putCrew_lastPipe (s : State) (c : Crew) : (s.putCrew c).lastPipe = s.lastPipe := rfl
@[simp] theorem State.putCrew_due (s : State) (c : Crew) : (s.putCrew c).due = s.due := rfl
@[simp] theorem State.putCrew_cur (s : State) (c : Crew) : (s.putCrew c).cur = s.cur := rfl
@[simp] theorem State.putCrew_stamp (s : State) (c : Crew) : (s.putCrew c).stamp = s.stamp := rfl
@[simp] theorem State.putCrew_nextSeq (s : State) (c : Crew) : (s.putCrew c).nextSeq = s.nextSeq := rfl
@[simp] theorem State.putCrew_nextCrew (s : State) (c : Crew) : (s.putCrew c).nextCrew = s.nextCrew := rfl
@[simp] theorem State.putCrew_fresh (s : State) (c : Crew) : (s.putCrew c).fresh = s.fresh := rfl
@[simp] theorem State.putCrew_oracle (s : State) (c : Crew) : (s.putCrew c).oracle = s.oracle := rfl
@[simp] theorem State.putCrew_agenda (s : State) (c : Crew) : (s.putCrew c).agenda = s.agenda := rfl

/-! State.putPart -/

@[simp] theorem State.putPart_module (s : State) (p : Partition) : (s.putPart p).module = s.module := rfl
@[simp] theorem State.putPart_mailbox (s : State) (p : Partition) : (s.putPart p).mailbox = s.mailbox := rfl
@[simp] theorem State.putPart_tick (s : State) (p : Partition) : (s.putPart p).tick = s.tick := rfl
@[simp] theorem State.putPart_cycle (s : State) (p : Partition) : (s.putPart p).cycle = s.cycle := rfl
@[simp] theorem State.putPart_queues (s : State) (p : Partition) : (s.putPart p).queues = s.queues := rfl
@[simp] theorem State.putPart_works (s : State) (p : Partition) : (s.putPart p).works = s.works := rfl
@[simp] theorem State.putPart_crews (s : State) (p : Partition) : (s.putPart p).crews = s.crews := rfl
@[simp] theorem State.putPart_blocks (s : State) (p : Partition) : (s.putPart p).blocks = s.blocks := rfl
@[simp] theorem State.putPart_waves (s : State) (p : Partition) : (s.putPart p).waves = s.waves := rfl
@[simp] theorem State.putPart_buffers (s : State) (p : Partition) : (s.putPart p).buffers = s.buffers := rfl
@[simp] theorem State.putPart_held (s : State) (p : Partition) : (s.putPart p).held = s.held := rfl
@[simp] theorem State.putPart_mem (s : State) (p : Partition) : (s.putPart p).mem = s.mem := rfl
@[simp] theorem State.putPart_loose (s : State) (p : Partition) : (s.putPart p).loose = s.loose := rfl
@[simp] theorem State.putPart_poison (s : State) (p : Partition) : (s.putPart p).poison = s.poison := rfl
@[simp] theorem State.putPart_tilePoison (s : State) (p : Partition) : (s.putPart p).tilePoison = s.tilePoison := rfl
@[simp] theorem State.putPart_l1 (s : State) (p : Partition) : (s.putPart p).l1 = s.l1 := rfl
@[simp] theorem State.putPart_tlb (s : State) (p : Partition) : (s.putPart p).tlb = s.tlb := rfl
@[simp] theorem State.putPart_l2 (s : State) (p : Partition) : (s.putPart p).l2 = s.l2 := rfl
@[simp] theorem State.putPart_fills (s : State) (p : Partition) : (s.putPart p).fills = s.fills := rfl
@[simp] theorem State.putPart_objects (s : State) (p : Partition) : (s.putPart p).objects = s.objects := rfl
@[simp] theorem State.putPart_inflight (s : State) (p : Partition) : (s.putPart p).inflight = s.inflight := rfl
@[simp] theorem State.putPart_graphs (s : State) (p : Partition) : (s.putPart p).graphs = s.graphs := rfl
@[simp] theorem State.putPart_passes (s : State) (p : Partition) : (s.putPart p).passes = s.passes := rfl
@[simp] theorem State.putPart_saved (s : State) (p : Partition) : (s.putPart p).saved = s.saved := rfl
@[simp] theorem State.putPart_served (s : State) (p : Partition) : (s.putPart p).served = s.served := rfl
@[simp] theorem State.putPart_mixTags (s : State) (p : Partition) : (s.putPart p).mixTags = s.mixTags := rfl
@[simp] theorem State.putPart_strongs (s : State) (p : Partition) : (s.putPart p).strongs = s.strongs := rfl
@[simp] theorem State.putPart_releasers (s : State) (p : Partition) : (s.putPart p).releasers = s.releasers := rfl
@[simp] theorem State.putPart_passed (s : State) (p : Partition) : (s.putPart p).passed = s.passed := rfl
@[simp] theorem State.putPart_lastPipe (s : State) (p : Partition) : (s.putPart p).lastPipe = s.lastPipe := rfl
@[simp] theorem State.putPart_due (s : State) (p : Partition) : (s.putPart p).due = s.due := rfl
@[simp] theorem State.putPart_cur (s : State) (p : Partition) : (s.putPart p).cur = s.cur := rfl
@[simp] theorem State.putPart_stamp (s : State) (p : Partition) : (s.putPart p).stamp = s.stamp := rfl
@[simp] theorem State.putPart_nextSeq (s : State) (p : Partition) : (s.putPart p).nextSeq = s.nextSeq := rfl
@[simp] theorem State.putPart_nextCrew (s : State) (p : Partition) : (s.putPart p).nextCrew = s.nextCrew := rfl
@[simp] theorem State.putPart_fresh (s : State) (p : Partition) : (s.putPart p).fresh = s.fresh := rfl
@[simp] theorem State.putPart_oracle (s : State) (p : Partition) : (s.putPart p).oracle = s.oracle := rfl
@[simp] theorem State.putPart_agenda (s : State) (p : Partition) : (s.putPart p).agenda = s.agenda := rfl

/-! State.putWork -/

@[simp] theorem State.putWork_module (s : State) (w : Work) : (s.putWork w).module = s.module := rfl
@[simp] theorem State.putWork_mailbox (s : State) (w : Work) : (s.putWork w).mailbox = s.mailbox := rfl
@[simp] theorem State.putWork_tick (s : State) (w : Work) : (s.putWork w).tick = s.tick := rfl
@[simp] theorem State.putWork_cycle (s : State) (w : Work) : (s.putWork w).cycle = s.cycle := rfl
@[simp] theorem State.putWork_parts (s : State) (w : Work) : (s.putWork w).parts = s.parts := rfl
@[simp] theorem State.putWork_queues (s : State) (w : Work) : (s.putWork w).queues = s.queues := rfl
@[simp] theorem State.putWork_crews (s : State) (w : Work) : (s.putWork w).crews = s.crews := rfl
@[simp] theorem State.putWork_blocks (s : State) (w : Work) : (s.putWork w).blocks = s.blocks := rfl
@[simp] theorem State.putWork_waves (s : State) (w : Work) : (s.putWork w).waves = s.waves := rfl
@[simp] theorem State.putWork_buffers (s : State) (w : Work) : (s.putWork w).buffers = s.buffers := rfl
@[simp] theorem State.putWork_held (s : State) (w : Work) : (s.putWork w).held = s.held := rfl
@[simp] theorem State.putWork_mem (s : State) (w : Work) : (s.putWork w).mem = s.mem := rfl
@[simp] theorem State.putWork_loose (s : State) (w : Work) : (s.putWork w).loose = s.loose := rfl
@[simp] theorem State.putWork_poison (s : State) (w : Work) : (s.putWork w).poison = s.poison := rfl
@[simp] theorem State.putWork_tilePoison (s : State) (w : Work) : (s.putWork w).tilePoison = s.tilePoison := rfl
@[simp] theorem State.putWork_l1 (s : State) (w : Work) : (s.putWork w).l1 = s.l1 := rfl
@[simp] theorem State.putWork_tlb (s : State) (w : Work) : (s.putWork w).tlb = s.tlb := rfl
@[simp] theorem State.putWork_l2 (s : State) (w : Work) : (s.putWork w).l2 = s.l2 := rfl
@[simp] theorem State.putWork_fills (s : State) (w : Work) : (s.putWork w).fills = s.fills := rfl
@[simp] theorem State.putWork_objects (s : State) (w : Work) : (s.putWork w).objects = s.objects := rfl
@[simp] theorem State.putWork_inflight (s : State) (w : Work) : (s.putWork w).inflight = s.inflight := rfl
@[simp] theorem State.putWork_graphs (s : State) (w : Work) : (s.putWork w).graphs = s.graphs := rfl
@[simp] theorem State.putWork_passes (s : State) (w : Work) : (s.putWork w).passes = s.passes := rfl
@[simp] theorem State.putWork_saved (s : State) (w : Work) : (s.putWork w).saved = s.saved := rfl
@[simp] theorem State.putWork_served (s : State) (w : Work) : (s.putWork w).served = s.served := rfl
@[simp] theorem State.putWork_mixTags (s : State) (w : Work) : (s.putWork w).mixTags = s.mixTags := rfl
@[simp] theorem State.putWork_strongs (s : State) (w : Work) : (s.putWork w).strongs = s.strongs := rfl
@[simp] theorem State.putWork_releasers (s : State) (w : Work) : (s.putWork w).releasers = s.releasers := rfl
@[simp] theorem State.putWork_passed (s : State) (w : Work) : (s.putWork w).passed = s.passed := rfl
@[simp] theorem State.putWork_lastPipe (s : State) (w : Work) : (s.putWork w).lastPipe = s.lastPipe := rfl
@[simp] theorem State.putWork_due (s : State) (w : Work) : (s.putWork w).due = s.due := rfl
@[simp] theorem State.putWork_cur (s : State) (w : Work) : (s.putWork w).cur = s.cur := rfl
@[simp] theorem State.putWork_stamp (s : State) (w : Work) : (s.putWork w).stamp = s.stamp := rfl
@[simp] theorem State.putWork_nextSeq (s : State) (w : Work) : (s.putWork w).nextSeq = s.nextSeq := rfl
@[simp] theorem State.putWork_nextCrew (s : State) (w : Work) : (s.putWork w).nextCrew = s.nextCrew := rfl
@[simp] theorem State.putWork_fresh (s : State) (w : Work) : (s.putWork w).fresh = s.fresh := rfl
@[simp] theorem State.putWork_oracle (s : State) (w : Work) : (s.putWork w).oracle = s.oracle := rfl
@[simp] theorem State.putWork_agenda (s : State) (w : Work) : (s.putWork w).agenda = s.agenda := rfl

/-! State.putGraph -/

@[simp] theorem State.putGraph_module (s : State) (g : Graph) : (s.putGraph g).module = s.module := rfl
@[simp] theorem State.putGraph_mailbox (s : State) (g : Graph) : (s.putGraph g).mailbox = s.mailbox := rfl
@[simp] theorem State.putGraph_tick (s : State) (g : Graph) : (s.putGraph g).tick = s.tick := rfl
@[simp] theorem State.putGraph_cycle (s : State) (g : Graph) : (s.putGraph g).cycle = s.cycle := rfl
@[simp] theorem State.putGraph_parts (s : State) (g : Graph) : (s.putGraph g).parts = s.parts := rfl
@[simp] theorem State.putGraph_queues (s : State) (g : Graph) : (s.putGraph g).queues = s.queues := rfl
@[simp] theorem State.putGraph_works (s : State) (g : Graph) : (s.putGraph g).works = s.works := rfl
@[simp] theorem State.putGraph_crews (s : State) (g : Graph) : (s.putGraph g).crews = s.crews := rfl
@[simp] theorem State.putGraph_blocks (s : State) (g : Graph) : (s.putGraph g).blocks = s.blocks := rfl
@[simp] theorem State.putGraph_waves (s : State) (g : Graph) : (s.putGraph g).waves = s.waves := rfl
@[simp] theorem State.putGraph_buffers (s : State) (g : Graph) : (s.putGraph g).buffers = s.buffers := rfl
@[simp] theorem State.putGraph_held (s : State) (g : Graph) : (s.putGraph g).held = s.held := rfl
@[simp] theorem State.putGraph_mem (s : State) (g : Graph) : (s.putGraph g).mem = s.mem := rfl
@[simp] theorem State.putGraph_loose (s : State) (g : Graph) : (s.putGraph g).loose = s.loose := rfl
@[simp] theorem State.putGraph_poison (s : State) (g : Graph) : (s.putGraph g).poison = s.poison := rfl
@[simp] theorem State.putGraph_tilePoison (s : State) (g : Graph) : (s.putGraph g).tilePoison = s.tilePoison := rfl
@[simp] theorem State.putGraph_l1 (s : State) (g : Graph) : (s.putGraph g).l1 = s.l1 := rfl
@[simp] theorem State.putGraph_tlb (s : State) (g : Graph) : (s.putGraph g).tlb = s.tlb := rfl
@[simp] theorem State.putGraph_l2 (s : State) (g : Graph) : (s.putGraph g).l2 = s.l2 := rfl
@[simp] theorem State.putGraph_fills (s : State) (g : Graph) : (s.putGraph g).fills = s.fills := rfl
@[simp] theorem State.putGraph_objects (s : State) (g : Graph) : (s.putGraph g).objects = s.objects := rfl
@[simp] theorem State.putGraph_inflight (s : State) (g : Graph) : (s.putGraph g).inflight = s.inflight := rfl
@[simp] theorem State.putGraph_passes (s : State) (g : Graph) : (s.putGraph g).passes = s.passes := rfl
@[simp] theorem State.putGraph_saved (s : State) (g : Graph) : (s.putGraph g).saved = s.saved := rfl
@[simp] theorem State.putGraph_served (s : State) (g : Graph) : (s.putGraph g).served = s.served := rfl
@[simp] theorem State.putGraph_mixTags (s : State) (g : Graph) : (s.putGraph g).mixTags = s.mixTags := rfl
@[simp] theorem State.putGraph_strongs (s : State) (g : Graph) : (s.putGraph g).strongs = s.strongs := rfl
@[simp] theorem State.putGraph_releasers (s : State) (g : Graph) : (s.putGraph g).releasers = s.releasers := rfl
@[simp] theorem State.putGraph_passed (s : State) (g : Graph) : (s.putGraph g).passed = s.passed := rfl
@[simp] theorem State.putGraph_lastPipe (s : State) (g : Graph) : (s.putGraph g).lastPipe = s.lastPipe := rfl
@[simp] theorem State.putGraph_due (s : State) (g : Graph) : (s.putGraph g).due = s.due := rfl
@[simp] theorem State.putGraph_cur (s : State) (g : Graph) : (s.putGraph g).cur = s.cur := rfl
@[simp] theorem State.putGraph_stamp (s : State) (g : Graph) : (s.putGraph g).stamp = s.stamp := rfl
@[simp] theorem State.putGraph_nextSeq (s : State) (g : Graph) : (s.putGraph g).nextSeq = s.nextSeq := rfl
@[simp] theorem State.putGraph_nextCrew (s : State) (g : Graph) : (s.putGraph g).nextCrew = s.nextCrew := rfl
@[simp] theorem State.putGraph_fresh (s : State) (g : Graph) : (s.putGraph g).fresh = s.fresh := rfl
@[simp] theorem State.putGraph_oracle (s : State) (g : Graph) : (s.putGraph g).oracle = s.oracle := rfl
@[simp] theorem State.putGraph_agenda (s : State) (g : Graph) : (s.putGraph g).agenda = s.agenda := rfl

/-! State.putPass -/

@[simp] theorem State.putPass_module (s : State) (r : RenderPass) : (s.putPass r).module = s.module := rfl
@[simp] theorem State.putPass_mailbox (s : State) (r : RenderPass) : (s.putPass r).mailbox = s.mailbox := rfl
@[simp] theorem State.putPass_tick (s : State) (r : RenderPass) : (s.putPass r).tick = s.tick := rfl
@[simp] theorem State.putPass_cycle (s : State) (r : RenderPass) : (s.putPass r).cycle = s.cycle := rfl
@[simp] theorem State.putPass_parts (s : State) (r : RenderPass) : (s.putPass r).parts = s.parts := rfl
@[simp] theorem State.putPass_queues (s : State) (r : RenderPass) : (s.putPass r).queues = s.queues := rfl
@[simp] theorem State.putPass_works (s : State) (r : RenderPass) : (s.putPass r).works = s.works := rfl
@[simp] theorem State.putPass_crews (s : State) (r : RenderPass) : (s.putPass r).crews = s.crews := rfl
@[simp] theorem State.putPass_blocks (s : State) (r : RenderPass) : (s.putPass r).blocks = s.blocks := rfl
@[simp] theorem State.putPass_waves (s : State) (r : RenderPass) : (s.putPass r).waves = s.waves := rfl
@[simp] theorem State.putPass_buffers (s : State) (r : RenderPass) : (s.putPass r).buffers = s.buffers := rfl
@[simp] theorem State.putPass_held (s : State) (r : RenderPass) : (s.putPass r).held = s.held := rfl
@[simp] theorem State.putPass_mem (s : State) (r : RenderPass) : (s.putPass r).mem = s.mem := rfl
@[simp] theorem State.putPass_loose (s : State) (r : RenderPass) : (s.putPass r).loose = s.loose := rfl
@[simp] theorem State.putPass_poison (s : State) (r : RenderPass) : (s.putPass r).poison = s.poison := rfl
@[simp] theorem State.putPass_tilePoison (s : State) (r : RenderPass) : (s.putPass r).tilePoison = s.tilePoison := rfl
@[simp] theorem State.putPass_l1 (s : State) (r : RenderPass) : (s.putPass r).l1 = s.l1 := rfl
@[simp] theorem State.putPass_tlb (s : State) (r : RenderPass) : (s.putPass r).tlb = s.tlb := rfl
@[simp] theorem State.putPass_l2 (s : State) (r : RenderPass) : (s.putPass r).l2 = s.l2 := rfl
@[simp] theorem State.putPass_fills (s : State) (r : RenderPass) : (s.putPass r).fills = s.fills := rfl
@[simp] theorem State.putPass_objects (s : State) (r : RenderPass) : (s.putPass r).objects = s.objects := rfl
@[simp] theorem State.putPass_inflight (s : State) (r : RenderPass) : (s.putPass r).inflight = s.inflight := rfl
@[simp] theorem State.putPass_graphs (s : State) (r : RenderPass) : (s.putPass r).graphs = s.graphs := rfl
@[simp] theorem State.putPass_saved (s : State) (r : RenderPass) : (s.putPass r).saved = s.saved := rfl
@[simp] theorem State.putPass_served (s : State) (r : RenderPass) : (s.putPass r).served = s.served := rfl
@[simp] theorem State.putPass_mixTags (s : State) (r : RenderPass) : (s.putPass r).mixTags = s.mixTags := rfl
@[simp] theorem State.putPass_strongs (s : State) (r : RenderPass) : (s.putPass r).strongs = s.strongs := rfl
@[simp] theorem State.putPass_releasers (s : State) (r : RenderPass) : (s.putPass r).releasers = s.releasers := rfl
@[simp] theorem State.putPass_passed (s : State) (r : RenderPass) : (s.putPass r).passed = s.passed := rfl
@[simp] theorem State.putPass_lastPipe (s : State) (r : RenderPass) : (s.putPass r).lastPipe = s.lastPipe := rfl
@[simp] theorem State.putPass_due (s : State) (r : RenderPass) : (s.putPass r).due = s.due := rfl
@[simp] theorem State.putPass_cur (s : State) (r : RenderPass) : (s.putPass r).cur = s.cur := rfl
@[simp] theorem State.putPass_stamp (s : State) (r : RenderPass) : (s.putPass r).stamp = s.stamp := rfl
@[simp] theorem State.putPass_nextSeq (s : State) (r : RenderPass) : (s.putPass r).nextSeq = s.nextSeq := rfl
@[simp] theorem State.putPass_nextCrew (s : State) (r : RenderPass) : (s.putPass r).nextCrew = s.nextCrew := rfl
@[simp] theorem State.putPass_fresh (s : State) (r : RenderPass) : (s.putPass r).fresh = s.fresh := rfl
@[simp] theorem State.putPass_oracle (s : State) (r : RenderPass) : (s.putPass r).oracle = s.oracle := rfl
@[simp] theorem State.putPass_agenda (s : State) (r : RenderPass) : (s.putPass r).agenda = s.agenda := rfl

/-! State.putObject -/

@[simp] theorem State.putObject_module (s : State) (o : Object) : (s.putObject o).module = s.module := rfl
@[simp] theorem State.putObject_mailbox (s : State) (o : Object) : (s.putObject o).mailbox = s.mailbox := rfl
@[simp] theorem State.putObject_tick (s : State) (o : Object) : (s.putObject o).tick = s.tick := rfl
@[simp] theorem State.putObject_cycle (s : State) (o : Object) : (s.putObject o).cycle = s.cycle := rfl
@[simp] theorem State.putObject_parts (s : State) (o : Object) : (s.putObject o).parts = s.parts := rfl
@[simp] theorem State.putObject_queues (s : State) (o : Object) : (s.putObject o).queues = s.queues := rfl
@[simp] theorem State.putObject_works (s : State) (o : Object) : (s.putObject o).works = s.works := rfl
@[simp] theorem State.putObject_crews (s : State) (o : Object) : (s.putObject o).crews = s.crews := rfl
@[simp] theorem State.putObject_blocks (s : State) (o : Object) : (s.putObject o).blocks = s.blocks := rfl
@[simp] theorem State.putObject_waves (s : State) (o : Object) : (s.putObject o).waves = s.waves := rfl
@[simp] theorem State.putObject_buffers (s : State) (o : Object) : (s.putObject o).buffers = s.buffers := rfl
@[simp] theorem State.putObject_held (s : State) (o : Object) : (s.putObject o).held = s.held := rfl
@[simp] theorem State.putObject_mem (s : State) (o : Object) : (s.putObject o).mem = s.mem := rfl
@[simp] theorem State.putObject_loose (s : State) (o : Object) : (s.putObject o).loose = s.loose := rfl
@[simp] theorem State.putObject_poison (s : State) (o : Object) : (s.putObject o).poison = s.poison := rfl
@[simp] theorem State.putObject_tilePoison (s : State) (o : Object) : (s.putObject o).tilePoison = s.tilePoison := rfl
@[simp] theorem State.putObject_l1 (s : State) (o : Object) : (s.putObject o).l1 = s.l1 := rfl
@[simp] theorem State.putObject_tlb (s : State) (o : Object) : (s.putObject o).tlb = s.tlb := rfl
@[simp] theorem State.putObject_l2 (s : State) (o : Object) : (s.putObject o).l2 = s.l2 := rfl
@[simp] theorem State.putObject_fills (s : State) (o : Object) : (s.putObject o).fills = s.fills := rfl
@[simp] theorem State.putObject_inflight (s : State) (o : Object) : (s.putObject o).inflight = s.inflight := rfl
@[simp] theorem State.putObject_graphs (s : State) (o : Object) : (s.putObject o).graphs = s.graphs := rfl
@[simp] theorem State.putObject_passes (s : State) (o : Object) : (s.putObject o).passes = s.passes := rfl
@[simp] theorem State.putObject_saved (s : State) (o : Object) : (s.putObject o).saved = s.saved := rfl
@[simp] theorem State.putObject_served (s : State) (o : Object) : (s.putObject o).served = s.served := rfl
@[simp] theorem State.putObject_mixTags (s : State) (o : Object) : (s.putObject o).mixTags = s.mixTags := rfl
@[simp] theorem State.putObject_strongs (s : State) (o : Object) : (s.putObject o).strongs = s.strongs := rfl
@[simp] theorem State.putObject_releasers (s : State) (o : Object) : (s.putObject o).releasers = s.releasers := rfl
@[simp] theorem State.putObject_passed (s : State) (o : Object) : (s.putObject o).passed = s.passed := rfl
@[simp] theorem State.putObject_lastPipe (s : State) (o : Object) : (s.putObject o).lastPipe = s.lastPipe := rfl
@[simp] theorem State.putObject_due (s : State) (o : Object) : (s.putObject o).due = s.due := rfl
@[simp] theorem State.putObject_cur (s : State) (o : Object) : (s.putObject o).cur = s.cur := rfl
@[simp] theorem State.putObject_stamp (s : State) (o : Object) : (s.putObject o).stamp = s.stamp := rfl
@[simp] theorem State.putObject_nextSeq (s : State) (o : Object) : (s.putObject o).nextSeq = s.nextSeq := rfl
@[simp] theorem State.putObject_nextCrew (s : State) (o : Object) : (s.putObject o).nextCrew = s.nextCrew := rfl
@[simp] theorem State.putObject_fresh (s : State) (o : Object) : (s.putObject o).fresh = s.fresh := rfl
@[simp] theorem State.putObject_oracle (s : State) (o : Object) : (s.putObject o).oracle = s.oracle := rfl
@[simp] theorem State.putObject_agenda (s : State) (o : Object) : (s.putObject o).agenda = s.agenda := rfl

/-! State.putQueue -/

@[simp] theorem State.putQueue_module (s : State) (q : Queue) : (s.putQueue q).module = s.module := by
  unfold State.putQueue; split <;> rfl
@[simp] theorem State.putQueue_mailbox (s : State) (q : Queue) : (s.putQueue q).mailbox = s.mailbox := by
  unfold State.putQueue; split <;> rfl
@[simp] theorem State.putQueue_tick (s : State) (q : Queue) : (s.putQueue q).tick = s.tick := by
  unfold State.putQueue; split <;> rfl
@[simp] theorem State.putQueue_cycle (s : State) (q : Queue) : (s.putQueue q).cycle = s.cycle := by
  unfold State.putQueue; split <;> rfl
@[simp] theorem State.putQueue_parts (s : State) (q : Queue) : (s.putQueue q).parts = s.parts := by
  unfold State.putQueue; split <;> rfl
@[simp] theorem State.putQueue_works (s : State) (q : Queue) : (s.putQueue q).works = s.works := by
  unfold State.putQueue; split <;> rfl
@[simp] theorem State.putQueue_crews (s : State) (q : Queue) : (s.putQueue q).crews = s.crews := by
  unfold State.putQueue; split <;> rfl
@[simp] theorem State.putQueue_blocks (s : State) (q : Queue) : (s.putQueue q).blocks = s.blocks := by
  unfold State.putQueue; split <;> rfl
@[simp] theorem State.putQueue_waves (s : State) (q : Queue) : (s.putQueue q).waves = s.waves := by
  unfold State.putQueue; split <;> rfl
@[simp] theorem State.putQueue_buffers (s : State) (q : Queue) : (s.putQueue q).buffers = s.buffers := by
  unfold State.putQueue; split <;> rfl
@[simp] theorem State.putQueue_held (s : State) (q : Queue) : (s.putQueue q).held = s.held := by
  unfold State.putQueue; split <;> rfl
@[simp] theorem State.putQueue_mem (s : State) (q : Queue) : (s.putQueue q).mem = s.mem := by
  unfold State.putQueue; split <;> rfl
@[simp] theorem State.putQueue_loose (s : State) (q : Queue) : (s.putQueue q).loose = s.loose := by
  unfold State.putQueue; split <;> rfl
@[simp] theorem State.putQueue_poison (s : State) (q : Queue) : (s.putQueue q).poison = s.poison := by
  unfold State.putQueue; split <;> rfl
@[simp] theorem State.putQueue_tilePoison (s : State) (q : Queue) : (s.putQueue q).tilePoison = s.tilePoison := by
  unfold State.putQueue; split <;> rfl
@[simp] theorem State.putQueue_l1 (s : State) (q : Queue) : (s.putQueue q).l1 = s.l1 := by
  unfold State.putQueue; split <;> rfl
@[simp] theorem State.putQueue_tlb (s : State) (q : Queue) : (s.putQueue q).tlb = s.tlb := by
  unfold State.putQueue; split <;> rfl
@[simp] theorem State.putQueue_l2 (s : State) (q : Queue) : (s.putQueue q).l2 = s.l2 := by
  unfold State.putQueue; split <;> rfl
@[simp] theorem State.putQueue_fills (s : State) (q : Queue) : (s.putQueue q).fills = s.fills := by
  unfold State.putQueue; split <;> rfl
@[simp] theorem State.putQueue_objects (s : State) (q : Queue) : (s.putQueue q).objects = s.objects := by
  unfold State.putQueue; split <;> rfl
@[simp] theorem State.putQueue_inflight (s : State) (q : Queue) : (s.putQueue q).inflight = s.inflight := by
  unfold State.putQueue; split <;> rfl
@[simp] theorem State.putQueue_graphs (s : State) (q : Queue) : (s.putQueue q).graphs = s.graphs := by
  unfold State.putQueue; split <;> rfl
@[simp] theorem State.putQueue_passes (s : State) (q : Queue) : (s.putQueue q).passes = s.passes := by
  unfold State.putQueue; split <;> rfl
@[simp] theorem State.putQueue_saved (s : State) (q : Queue) : (s.putQueue q).saved = s.saved := by
  unfold State.putQueue; split <;> rfl
@[simp] theorem State.putQueue_served (s : State) (q : Queue) : (s.putQueue q).served = s.served := by
  unfold State.putQueue; split <;> rfl
@[simp] theorem State.putQueue_mixTags (s : State) (q : Queue) : (s.putQueue q).mixTags = s.mixTags := by
  unfold State.putQueue; split <;> rfl
@[simp] theorem State.putQueue_strongs (s : State) (q : Queue) : (s.putQueue q).strongs = s.strongs := by
  unfold State.putQueue; split <;> rfl
@[simp] theorem State.putQueue_releasers (s : State) (q : Queue) : (s.putQueue q).releasers = s.releasers := by
  unfold State.putQueue; split <;> rfl
@[simp] theorem State.putQueue_cur (s : State) (q : Queue) : (s.putQueue q).cur = s.cur := by
  unfold State.putQueue; split <;> rfl
@[simp] theorem State.putQueue_stamp (s : State) (q : Queue) : (s.putQueue q).stamp = s.stamp := by
  unfold State.putQueue; split <;> rfl
@[simp] theorem State.putQueue_nextSeq (s : State) (q : Queue) : (s.putQueue q).nextSeq = s.nextSeq := by
  unfold State.putQueue; split <;> rfl
@[simp] theorem State.putQueue_nextCrew (s : State) (q : Queue) : (s.putQueue q).nextCrew = s.nextCrew := by
  unfold State.putQueue; split <;> rfl
@[simp] theorem State.putQueue_fresh (s : State) (q : Queue) : (s.putQueue q).fresh = s.fresh := by
  unfold State.putQueue; split <;> rfl
@[simp] theorem State.putQueue_oracle (s : State) (q : Queue) : (s.putQueue q).oracle = s.oracle := by
  unfold State.putQueue; split <;> rfl
@[simp] theorem State.putQueue_agenda (s : State) (q : Queue) : (s.putQueue q).agenda = s.agenda := by
  unfold State.putQueue; split <;> rfl

/-! State.putBuffer -/

@[simp] theorem State.putBuffer_module (s : State) (b : Buffer) : (s.putBuffer b).module = s.module := by
  unfold State.putBuffer; split <;> rfl
@[simp] theorem State.putBuffer_mailbox (s : State) (b : Buffer) : (s.putBuffer b).mailbox = s.mailbox := by
  unfold State.putBuffer; split <;> rfl
@[simp] theorem State.putBuffer_tick (s : State) (b : Buffer) : (s.putBuffer b).tick = s.tick := by
  unfold State.putBuffer; split <;> rfl
@[simp] theorem State.putBuffer_cycle (s : State) (b : Buffer) : (s.putBuffer b).cycle = s.cycle := by
  unfold State.putBuffer; split <;> rfl
@[simp] theorem State.putBuffer_parts (s : State) (b : Buffer) : (s.putBuffer b).parts = s.parts := by
  unfold State.putBuffer; split <;> rfl
@[simp] theorem State.putBuffer_queues (s : State) (b : Buffer) : (s.putBuffer b).queues = s.queues := by
  unfold State.putBuffer; split <;> rfl
@[simp] theorem State.putBuffer_works (s : State) (b : Buffer) : (s.putBuffer b).works = s.works := by
  unfold State.putBuffer; split <;> rfl
@[simp] theorem State.putBuffer_crews (s : State) (b : Buffer) : (s.putBuffer b).crews = s.crews := by
  unfold State.putBuffer; split <;> rfl
@[simp] theorem State.putBuffer_blocks (s : State) (b : Buffer) : (s.putBuffer b).blocks = s.blocks := by
  unfold State.putBuffer; split <;> rfl
@[simp] theorem State.putBuffer_waves (s : State) (b : Buffer) : (s.putBuffer b).waves = s.waves := by
  unfold State.putBuffer; split <;> rfl
@[simp] theorem State.putBuffer_held (s : State) (b : Buffer) : (s.putBuffer b).held = s.held := by
  unfold State.putBuffer; split <;> rfl
@[simp] theorem State.putBuffer_mem (s : State) (b : Buffer) : (s.putBuffer b).mem = s.mem := by
  unfold State.putBuffer; split <;> rfl
@[simp] theorem State.putBuffer_loose (s : State) (b : Buffer) : (s.putBuffer b).loose = s.loose := by
  unfold State.putBuffer; split <;> rfl
@[simp] theorem State.putBuffer_poison (s : State) (b : Buffer) : (s.putBuffer b).poison = s.poison := by
  unfold State.putBuffer; split <;> rfl
@[simp] theorem State.putBuffer_tilePoison (s : State) (b : Buffer) : (s.putBuffer b).tilePoison = s.tilePoison := by
  unfold State.putBuffer; split <;> rfl
@[simp] theorem State.putBuffer_l1 (s : State) (b : Buffer) : (s.putBuffer b).l1 = s.l1 := by
  unfold State.putBuffer; split <;> rfl
@[simp] theorem State.putBuffer_tlb (s : State) (b : Buffer) : (s.putBuffer b).tlb = s.tlb := by
  unfold State.putBuffer; split <;> rfl
@[simp] theorem State.putBuffer_l2 (s : State) (b : Buffer) : (s.putBuffer b).l2 = s.l2 := by
  unfold State.putBuffer; split <;> rfl
@[simp] theorem State.putBuffer_fills (s : State) (b : Buffer) : (s.putBuffer b).fills = s.fills := by
  unfold State.putBuffer; split <;> rfl
@[simp] theorem State.putBuffer_objects (s : State) (b : Buffer) : (s.putBuffer b).objects = s.objects := by
  unfold State.putBuffer; split <;> rfl
@[simp] theorem State.putBuffer_inflight (s : State) (b : Buffer) : (s.putBuffer b).inflight = s.inflight := by
  unfold State.putBuffer; split <;> rfl
@[simp] theorem State.putBuffer_graphs (s : State) (b : Buffer) : (s.putBuffer b).graphs = s.graphs := by
  unfold State.putBuffer; split <;> rfl
@[simp] theorem State.putBuffer_passes (s : State) (b : Buffer) : (s.putBuffer b).passes = s.passes := by
  unfold State.putBuffer; split <;> rfl
@[simp] theorem State.putBuffer_saved (s : State) (b : Buffer) : (s.putBuffer b).saved = s.saved := by
  unfold State.putBuffer; split <;> rfl
@[simp] theorem State.putBuffer_served (s : State) (b : Buffer) : (s.putBuffer b).served = s.served := by
  unfold State.putBuffer; split <;> rfl
@[simp] theorem State.putBuffer_mixTags (s : State) (b : Buffer) : (s.putBuffer b).mixTags = s.mixTags := by
  unfold State.putBuffer; split <;> rfl
@[simp] theorem State.putBuffer_strongs (s : State) (b : Buffer) : (s.putBuffer b).strongs = s.strongs := by
  unfold State.putBuffer; split <;> rfl
@[simp] theorem State.putBuffer_releasers (s : State) (b : Buffer) : (s.putBuffer b).releasers = s.releasers := by
  unfold State.putBuffer; split <;> rfl
@[simp] theorem State.putBuffer_cur (s : State) (b : Buffer) : (s.putBuffer b).cur = s.cur := by
  unfold State.putBuffer; split <;> rfl
@[simp] theorem State.putBuffer_stamp (s : State) (b : Buffer) : (s.putBuffer b).stamp = s.stamp := by
  unfold State.putBuffer; split <;> rfl
@[simp] theorem State.putBuffer_nextSeq (s : State) (b : Buffer) : (s.putBuffer b).nextSeq = s.nextSeq := by
  unfold State.putBuffer; split <;> rfl
@[simp] theorem State.putBuffer_nextCrew (s : State) (b : Buffer) : (s.putBuffer b).nextCrew = s.nextCrew := by
  unfold State.putBuffer; split <;> rfl
@[simp] theorem State.putBuffer_fresh (s : State) (b : Buffer) : (s.putBuffer b).fresh = s.fresh := by
  unfold State.putBuffer; split <;> rfl
@[simp] theorem State.putBuffer_oracle (s : State) (b : Buffer) : (s.putBuffer b).oracle = s.oracle := by
  unfold State.putBuffer; split <;> rfl
@[simp] theorem State.putBuffer_agenda (s : State) (b : Buffer) : (s.putBuffer b).agenda = s.agenda := by
  unfold State.putBuffer; split <;> rfl

/-! Wave.advance and Wave.park -/

@[simp] theorem Wave.advance_ref (w : Wave) (g : Gang) (pc : Addr) : (w.advance g pc).ref = w.ref := rfl
@[simp] theorem Wave.advance_regs (w : Wave) (g : Gang) (pc : Addr) : (w.advance g pc).regs = w.regs := rfl
@[simp] theorem Wave.advance_role (w : Wave) (g : Gang) (pc : Addr) : (w.advance g pc).role = w.role := rfl
@[simp] theorem Wave.advance_blockId (w : Wave) (g : Gang) (pc : Addr) : (w.advance g pc).blockId = w.blockId := rfl
@[simp] theorem Wave.advance_waves (w : Wave) (g : Gang) (pc : Addr) : (w.advance g pc).waves = w.waves := rfl
@[simp] theorem Wave.advance_mask (w : Wave) (g : Gang) (pc : Addr) : (w.advance g pc).mask = w.mask := rfl
@[simp] theorem Wave.advance_v (w : Wave) (g : Gang) (pc : Addr) : (w.advance g pc).v = w.v := rfl
@[simp] theorem Wave.advance_g (w : Wave) (g : Gang) (pc : Addr) : (w.advance g pc).g = w.g := rfl
@[simp] theorem Wave.advance_act (w : Wave) (g : Gang) (pc : Addr) : (w.advance g pc).act = w.act := rfl
@[simp] theorem Wave.advance_p (w : Wave) (g : Gang) (pc : Addr) : (w.advance g pc).p = w.p := rfl
@[simp] theorem Wave.advance_vFull (w : Wave) (g : Gang) (pc : Addr) : (w.advance g pc).vFull = w.vFull := rfl
@[simp] theorem Wave.advance_gFull (w : Wave) (g : Gang) (pc : Addr) : (w.advance g pc).gFull = w.gFull := rfl
@[simp] theorem Wave.advance_vInit (w : Wave) (g : Gang) (pc : Addr) : (w.advance g pc).vInit = w.vInit := rfl
@[simp] theorem Wave.advance_gInit (w : Wave) (g : Gang) (pc : Addr) : (w.advance g pc).gInit = w.gInit := rfl
@[simp] theorem Wave.advance_pInit (w : Wave) (g : Gang) (pc : Addr) : (w.advance g pc).pInit = w.pInit := rfl
@[simp] theorem Wave.advance_bands (w : Wave) (g : Gang) (pc : Addr) : (w.advance g pc).bands = w.bands := rfl
@[simp] theorem Wave.advance_exited (w : Wave) (g : Gang) (pc : Addr) : (w.advance g pc).exited = w.exited := rfl
@[simp] theorem Wave.advance_reached (w : Wave) (g : Gang) (pc : Addr) : (w.advance g pc).reached = w.reached := rfl
@[simp] theorem Wave.advance_fp (w : Wave) (g : Gang) (pc : Addr) : (w.advance g pc).fp = w.fp := rfl
@[simp] theorem Wave.advance_handlerBase (w : Wave) (g : Gang) (pc : Addr) : (w.advance g pc).handlerBase = w.handlerBase := rfl
@[simp] theorem Wave.advance_poolBase (w : Wave) (g : Gang) (pc : Addr) : (w.advance g pc).poolBase = w.poolBase := rfl
@[simp] theorem Wave.advance_dbgCtl (w : Wave) (g : Gang) (pc : Addr) : (w.advance g pc).dbgCtl = w.dbgCtl := rfl
@[simp] theorem Wave.advance_sup (w : Wave) (g : Gang) (pc : Addr) : (w.advance g pc).sup = w.sup := rfl
@[simp] theorem Wave.advance_trapCause (w : Wave) (g : Gang) (pc : Addr) : (w.advance g pc).trapCause = w.trapCause := rfl
@[simp] theorem Wave.advance_trapPc (w : Wave) (g : Gang) (pc : Addr) : (w.advance g pc).trapPc = w.trapPc := rfl
@[simp] theorem Wave.advance_trapAddr (w : Wave) (g : Gang) (pc : Addr) : (w.advance g pc).trapAddr = w.trapAddr := rfl
@[simp] theorem Wave.advance_trapLanes (w : Wave) (g : Gang) (pc : Addr) : (w.advance g pc).trapLanes = w.trapLanes := rfl
@[simp] theorem Wave.advance_segs (w : Wave) (g : Gang) (pc : Addr) : (w.advance g pc).segs = w.segs := rfl
@[simp] theorem Wave.advance_latches (w : Wave) (g : Gang) (pc : Addr) : (w.advance g pc).latches = w.latches := rfl
@[simp] theorem Wave.advance_frame (w : Wave) (g : Gang) (pc : Addr) : (w.advance g pc).frame = w.frame := rfl
@[simp] theorem Wave.advance_traps (w : Wave) (g : Gang) (pc : Addr) : (w.advance g pc).traps = w.traps := rfl
@[simp] theorem Wave.advance_unsettled (w : Wave) (g : Gang) (pc : Addr) : (w.advance g pc).unsettled = w.unsettled := rfl
@[simp] theorem Wave.advance_raised (w : Wave) (g : Gang) (pc : Addr) : (w.advance g pc).raised = w.raised := rfl
@[simp] theorem Wave.advance_landings (w : Wave) (g : Gang) (pc : Addr) : (w.advance g pc).landings = w.landings := rfl
@[simp] theorem Wave.advance_slots (w : Wave) (g : Gang) (pc : Addr) : (w.advance g pc).slots = w.slots := rfl
@[simp] theorem Wave.advance_binned (w : Wave) (g : Gang) (pc : Addr) : (w.advance g pc).binned = w.binned := rfl
@[simp] theorem Wave.advance_buffer (w : Wave) (g : Gang) (pc : Addr) : (w.advance g pc).buffer = w.buffer := rfl
@[simp] theorem Wave.advance_roundStores (w : Wave) (g : Gang) (pc : Addr) : (w.advance g pc).roundStores = w.roundStores := rfl
@[simp] theorem Wave.advance_roundStop (w : Wave) (g : Gang) (pc : Addr) : (w.advance g pc).roundStop = w.roundStop := rfl

@[simp] theorem Wave.park_ref (w : Wave) (g : Gang) (x : Wait) : (w.park g x).ref = w.ref := rfl
@[simp] theorem Wave.park_regs (w : Wave) (g : Gang) (x : Wait) : (w.park g x).regs = w.regs := rfl
@[simp] theorem Wave.park_role (w : Wave) (g : Gang) (x : Wait) : (w.park g x).role = w.role := rfl
@[simp] theorem Wave.park_blockId (w : Wave) (g : Gang) (x : Wait) : (w.park g x).blockId = w.blockId := rfl
@[simp] theorem Wave.park_waves (w : Wave) (g : Gang) (x : Wait) : (w.park g x).waves = w.waves := rfl
@[simp] theorem Wave.park_mask (w : Wave) (g : Gang) (x : Wait) : (w.park g x).mask = w.mask := rfl
@[simp] theorem Wave.park_v (w : Wave) (g : Gang) (x : Wait) : (w.park g x).v = w.v := rfl
@[simp] theorem Wave.park_g (w : Wave) (g : Gang) (x : Wait) : (w.park g x).g = w.g := rfl
@[simp] theorem Wave.park_act (w : Wave) (g : Gang) (x : Wait) : (w.park g x).act = w.act := rfl
@[simp] theorem Wave.park_p (w : Wave) (g : Gang) (x : Wait) : (w.park g x).p = w.p := rfl
@[simp] theorem Wave.park_vFull (w : Wave) (g : Gang) (x : Wait) : (w.park g x).vFull = w.vFull := rfl
@[simp] theorem Wave.park_gFull (w : Wave) (g : Gang) (x : Wait) : (w.park g x).gFull = w.gFull := rfl
@[simp] theorem Wave.park_vInit (w : Wave) (g : Gang) (x : Wait) : (w.park g x).vInit = w.vInit := rfl
@[simp] theorem Wave.park_gInit (w : Wave) (g : Gang) (x : Wait) : (w.park g x).gInit = w.gInit := rfl
@[simp] theorem Wave.park_pInit (w : Wave) (g : Gang) (x : Wait) : (w.park g x).pInit = w.pInit := rfl
@[simp] theorem Wave.park_bands (w : Wave) (g : Gang) (x : Wait) : (w.park g x).bands = w.bands := rfl
@[simp] theorem Wave.park_exited (w : Wave) (g : Gang) (x : Wait) : (w.park g x).exited = w.exited := rfl
@[simp] theorem Wave.park_reached (w : Wave) (g : Gang) (x : Wait) : (w.park g x).reached = w.reached := rfl
@[simp] theorem Wave.park_fp (w : Wave) (g : Gang) (x : Wait) : (w.park g x).fp = w.fp := rfl
@[simp] theorem Wave.park_handlerBase (w : Wave) (g : Gang) (x : Wait) : (w.park g x).handlerBase = w.handlerBase := rfl
@[simp] theorem Wave.park_poolBase (w : Wave) (g : Gang) (x : Wait) : (w.park g x).poolBase = w.poolBase := rfl
@[simp] theorem Wave.park_dbgCtl (w : Wave) (g : Gang) (x : Wait) : (w.park g x).dbgCtl = w.dbgCtl := rfl
@[simp] theorem Wave.park_sup (w : Wave) (g : Gang) (x : Wait) : (w.park g x).sup = w.sup := rfl
@[simp] theorem Wave.park_trapCause (w : Wave) (g : Gang) (x : Wait) : (w.park g x).trapCause = w.trapCause := rfl
@[simp] theorem Wave.park_trapPc (w : Wave) (g : Gang) (x : Wait) : (w.park g x).trapPc = w.trapPc := rfl
@[simp] theorem Wave.park_trapAddr (w : Wave) (g : Gang) (x : Wait) : (w.park g x).trapAddr = w.trapAddr := rfl
@[simp] theorem Wave.park_trapLanes (w : Wave) (g : Gang) (x : Wait) : (w.park g x).trapLanes = w.trapLanes := rfl
@[simp] theorem Wave.park_segs (w : Wave) (g : Gang) (x : Wait) : (w.park g x).segs = w.segs := rfl
@[simp] theorem Wave.park_latches (w : Wave) (g : Gang) (x : Wait) : (w.park g x).latches = w.latches := rfl
@[simp] theorem Wave.park_frame (w : Wave) (g : Gang) (x : Wait) : (w.park g x).frame = w.frame := rfl
@[simp] theorem Wave.park_traps (w : Wave) (g : Gang) (x : Wait) : (w.park g x).traps = w.traps := rfl
@[simp] theorem Wave.park_unsettled (w : Wave) (g : Gang) (x : Wait) : (w.park g x).unsettled = w.unsettled := rfl
@[simp] theorem Wave.park_raised (w : Wave) (g : Gang) (x : Wait) : (w.park g x).raised = w.raised := rfl
@[simp] theorem Wave.park_landings (w : Wave) (g : Gang) (x : Wait) : (w.park g x).landings = w.landings := rfl
@[simp] theorem Wave.park_issued (w : Wave) (g : Gang) (x : Wait) : (w.park g x).issued = w.issued := rfl
@[simp] theorem Wave.park_slots (w : Wave) (g : Gang) (x : Wait) : (w.park g x).slots = w.slots := rfl
@[simp] theorem Wave.park_binned (w : Wave) (g : Gang) (x : Wait) : (w.park g x).binned = w.binned := rfl
@[simp] theorem Wave.park_buffer (w : Wave) (g : Gang) (x : Wait) : (w.park g x).buffer = w.buffer := rfl
@[simp] theorem Wave.park_roundStores (w : Wave) (g : Gang) (x : Wait) : (w.park g x).roundStores = w.roundStores := rfl
@[simp] theorem Wave.park_roundIssued (w : Wave) (g : Gang) (x : Wait) : (w.park g x).roundIssued = w.roundIssued := rfl
@[simp] theorem Wave.park_roundStop (w : Wave) (g : Gang) (x : Wait) : (w.park g x).roundStop = w.roundStop := rfl

/-! Writes of registers -/

@[simp] theorem Wave.writeV_ref (w : Wave) (n : Nat) (m : LaneMask) (f : Nat → Word) : (w.writeV n m f).ref = w.ref := rfl
@[simp] theorem Wave.writeV2_ref (w : Wave) (n : Nat) (m : LaneMask) (f : Nat → BitVec 64) : (w.writeV2 n m f).ref = w.ref := rfl
@[simp] theorem Wave.writeV_regs (w : Wave) (n : Nat) (m : LaneMask) (f : Nat → Word) : (w.writeV n m f).regs = w.regs := rfl
@[simp] theorem Wave.writeV2_regs (w : Wave) (n : Nat) (m : LaneMask) (f : Nat → BitVec 64) : (w.writeV2 n m f).regs = w.regs := rfl
@[simp] theorem Wave.writeV_role (w : Wave) (n : Nat) (m : LaneMask) (f : Nat → Word) : (w.writeV n m f).role = w.role := rfl
@[simp] theorem Wave.writeV2_role (w : Wave) (n : Nat) (m : LaneMask) (f : Nat → BitVec 64) : (w.writeV2 n m f).role = w.role := rfl
@[simp] theorem Wave.writeV_blockId (w : Wave) (n : Nat) (m : LaneMask) (f : Nat → Word) : (w.writeV n m f).blockId = w.blockId := rfl
@[simp] theorem Wave.writeV2_blockId (w : Wave) (n : Nat) (m : LaneMask) (f : Nat → BitVec 64) : (w.writeV2 n m f).blockId = w.blockId := rfl
@[simp] theorem Wave.writeV_waves (w : Wave) (n : Nat) (m : LaneMask) (f : Nat → Word) : (w.writeV n m f).waves = w.waves := rfl
@[simp] theorem Wave.writeV2_waves (w : Wave) (n : Nat) (m : LaneMask) (f : Nat → BitVec 64) : (w.writeV2 n m f).waves = w.waves := rfl
@[simp] theorem Wave.writeV_mask (w : Wave) (n : Nat) (m : LaneMask) (f : Nat → Word) : (w.writeV n m f).mask = w.mask := rfl
@[simp] theorem Wave.writeV2_mask (w : Wave) (n : Nat) (m : LaneMask) (f : Nat → BitVec 64) : (w.writeV2 n m f).mask = w.mask := rfl
@[simp] theorem Wave.writeV_g (w : Wave) (n : Nat) (m : LaneMask) (f : Nat → Word) : (w.writeV n m f).g = w.g := rfl
@[simp] theorem Wave.writeV2_g (w : Wave) (n : Nat) (m : LaneMask) (f : Nat → BitVec 64) : (w.writeV2 n m f).g = w.g := rfl
@[simp] theorem Wave.writeV_act (w : Wave) (n : Nat) (m : LaneMask) (f : Nat → Word) : (w.writeV n m f).act = w.act := rfl
@[simp] theorem Wave.writeV2_act (w : Wave) (n : Nat) (m : LaneMask) (f : Nat → BitVec 64) : (w.writeV2 n m f).act = w.act := rfl
@[simp] theorem Wave.writeV_p (w : Wave) (n : Nat) (m : LaneMask) (f : Nat → Word) : (w.writeV n m f).p = w.p := rfl
@[simp] theorem Wave.writeV2_p (w : Wave) (n : Nat) (m : LaneMask) (f : Nat → BitVec 64) : (w.writeV2 n m f).p = w.p := rfl
@[simp] theorem Wave.writeV_vFull (w : Wave) (n : Nat) (m : LaneMask) (f : Nat → Word) : (w.writeV n m f).vFull = w.vFull := rfl
@[simp] theorem Wave.writeV2_vFull (w : Wave) (n : Nat) (m : LaneMask) (f : Nat → BitVec 64) : (w.writeV2 n m f).vFull = w.vFull := rfl
@[simp] theorem Wave.writeV_gFull (w : Wave) (n : Nat) (m : LaneMask) (f : Nat → Word) : (w.writeV n m f).gFull = w.gFull := rfl
@[simp] theorem Wave.writeV2_gFull (w : Wave) (n : Nat) (m : LaneMask) (f : Nat → BitVec 64) : (w.writeV2 n m f).gFull = w.gFull := rfl
@[simp] theorem Wave.writeV_gInit (w : Wave) (n : Nat) (m : LaneMask) (f : Nat → Word) : (w.writeV n m f).gInit = w.gInit := rfl
@[simp] theorem Wave.writeV2_gInit (w : Wave) (n : Nat) (m : LaneMask) (f : Nat → BitVec 64) : (w.writeV2 n m f).gInit = w.gInit := rfl
@[simp] theorem Wave.writeV_pInit (w : Wave) (n : Nat) (m : LaneMask) (f : Nat → Word) : (w.writeV n m f).pInit = w.pInit := rfl
@[simp] theorem Wave.writeV2_pInit (w : Wave) (n : Nat) (m : LaneMask) (f : Nat → BitVec 64) : (w.writeV2 n m f).pInit = w.pInit := rfl
@[simp] theorem Wave.writeV_gangs (w : Wave) (n : Nat) (m : LaneMask) (f : Nat → Word) : (w.writeV n m f).gangs = w.gangs := rfl
@[simp] theorem Wave.writeV2_gangs (w : Wave) (n : Nat) (m : LaneMask) (f : Nat → BitVec 64) : (w.writeV2 n m f).gangs = w.gangs := rfl
@[simp] theorem Wave.writeV_bands (w : Wave) (n : Nat) (m : LaneMask) (f : Nat → Word) : (w.writeV n m f).bands = w.bands := rfl
@[simp] theorem Wave.writeV2_bands (w : Wave) (n : Nat) (m : LaneMask) (f : Nat → BitVec 64) : (w.writeV2 n m f).bands = w.bands := rfl
@[simp] theorem Wave.writeV_exited (w : Wave) (n : Nat) (m : LaneMask) (f : Nat → Word) : (w.writeV n m f).exited = w.exited := rfl
@[simp] theorem Wave.writeV2_exited (w : Wave) (n : Nat) (m : LaneMask) (f : Nat → BitVec 64) : (w.writeV2 n m f).exited = w.exited := rfl
@[simp] theorem Wave.writeV_reached (w : Wave) (n : Nat) (m : LaneMask) (f : Nat → Word) : (w.writeV n m f).reached = w.reached := rfl
@[simp] theorem Wave.writeV2_reached (w : Wave) (n : Nat) (m : LaneMask) (f : Nat → BitVec 64) : (w.writeV2 n m f).reached = w.reached := rfl
@[simp] theorem Wave.writeV_fp (w : Wave) (n : Nat) (m : LaneMask) (f : Nat → Word) : (w.writeV n m f).fp = w.fp := rfl
@[simp] theorem Wave.writeV2_fp (w : Wave) (n : Nat) (m : LaneMask) (f : Nat → BitVec 64) : (w.writeV2 n m f).fp = w.fp := rfl
@[simp] theorem Wave.writeV_handlerBase (w : Wave) (n : Nat) (m : LaneMask) (f : Nat → Word) : (w.writeV n m f).handlerBase = w.handlerBase := rfl
@[simp] theorem Wave.writeV2_handlerBase (w : Wave) (n : Nat) (m : LaneMask) (f : Nat → BitVec 64) : (w.writeV2 n m f).handlerBase = w.handlerBase := rfl
@[simp] theorem Wave.writeV_poolBase (w : Wave) (n : Nat) (m : LaneMask) (f : Nat → Word) : (w.writeV n m f).poolBase = w.poolBase := rfl
@[simp] theorem Wave.writeV2_poolBase (w : Wave) (n : Nat) (m : LaneMask) (f : Nat → BitVec 64) : (w.writeV2 n m f).poolBase = w.poolBase := rfl
@[simp] theorem Wave.writeV_dbgCtl (w : Wave) (n : Nat) (m : LaneMask) (f : Nat → Word) : (w.writeV n m f).dbgCtl = w.dbgCtl := rfl
@[simp] theorem Wave.writeV2_dbgCtl (w : Wave) (n : Nat) (m : LaneMask) (f : Nat → BitVec 64) : (w.writeV2 n m f).dbgCtl = w.dbgCtl := rfl
@[simp] theorem Wave.writeV_sup (w : Wave) (n : Nat) (m : LaneMask) (f : Nat → Word) : (w.writeV n m f).sup = w.sup := rfl
@[simp] theorem Wave.writeV2_sup (w : Wave) (n : Nat) (m : LaneMask) (f : Nat → BitVec 64) : (w.writeV2 n m f).sup = w.sup := rfl
@[simp] theorem Wave.writeV_trapCause (w : Wave) (n : Nat) (m : LaneMask) (f : Nat → Word) : (w.writeV n m f).trapCause = w.trapCause := rfl
@[simp] theorem Wave.writeV2_trapCause (w : Wave) (n : Nat) (m : LaneMask) (f : Nat → BitVec 64) : (w.writeV2 n m f).trapCause = w.trapCause := rfl
@[simp] theorem Wave.writeV_trapPc (w : Wave) (n : Nat) (m : LaneMask) (f : Nat → Word) : (w.writeV n m f).trapPc = w.trapPc := rfl
@[simp] theorem Wave.writeV2_trapPc (w : Wave) (n : Nat) (m : LaneMask) (f : Nat → BitVec 64) : (w.writeV2 n m f).trapPc = w.trapPc := rfl
@[simp] theorem Wave.writeV_trapAddr (w : Wave) (n : Nat) (m : LaneMask) (f : Nat → Word) : (w.writeV n m f).trapAddr = w.trapAddr := rfl
@[simp] theorem Wave.writeV2_trapAddr (w : Wave) (n : Nat) (m : LaneMask) (f : Nat → BitVec 64) : (w.writeV2 n m f).trapAddr = w.trapAddr := rfl
@[simp] theorem Wave.writeV_trapLanes (w : Wave) (n : Nat) (m : LaneMask) (f : Nat → Word) : (w.writeV n m f).trapLanes = w.trapLanes := rfl
@[simp] theorem Wave.writeV2_trapLanes (w : Wave) (n : Nat) (m : LaneMask) (f : Nat → BitVec 64) : (w.writeV2 n m f).trapLanes = w.trapLanes := rfl
@[simp] theorem Wave.writeV_segs (w : Wave) (n : Nat) (m : LaneMask) (f : Nat → Word) : (w.writeV n m f).segs = w.segs := rfl
@[simp] theorem Wave.writeV2_segs (w : Wave) (n : Nat) (m : LaneMask) (f : Nat → BitVec 64) : (w.writeV2 n m f).segs = w.segs := rfl
@[simp] theorem Wave.writeV_latches (w : Wave) (n : Nat) (m : LaneMask) (f : Nat → Word) : (w.writeV n m f).latches = w.latches := rfl
@[simp] theorem Wave.writeV2_latches (w : Wave) (n : Nat) (m : LaneMask) (f : Nat → BitVec 64) : (w.writeV2 n m f).latches = w.latches := rfl
@[simp] theorem Wave.writeV_frame (w : Wave) (n : Nat) (m : LaneMask) (f : Nat → Word) : (w.writeV n m f).frame = w.frame := rfl
@[simp] theorem Wave.writeV2_frame (w : Wave) (n : Nat) (m : LaneMask) (f : Nat → BitVec 64) : (w.writeV2 n m f).frame = w.frame := rfl
@[simp] theorem Wave.writeV_traps (w : Wave) (n : Nat) (m : LaneMask) (f : Nat → Word) : (w.writeV n m f).traps = w.traps := rfl
@[simp] theorem Wave.writeV2_traps (w : Wave) (n : Nat) (m : LaneMask) (f : Nat → BitVec 64) : (w.writeV2 n m f).traps = w.traps := rfl
@[simp] theorem Wave.writeV_unsettled (w : Wave) (n : Nat) (m : LaneMask) (f : Nat → Word) : (w.writeV n m f).unsettled = w.unsettled := rfl
@[simp] theorem Wave.writeV2_unsettled (w : Wave) (n : Nat) (m : LaneMask) (f : Nat → BitVec 64) : (w.writeV2 n m f).unsettled = w.unsettled := rfl
@[simp] theorem Wave.writeV_raised (w : Wave) (n : Nat) (m : LaneMask) (f : Nat → Word) : (w.writeV n m f).raised = w.raised := rfl
@[simp] theorem Wave.writeV2_raised (w : Wave) (n : Nat) (m : LaneMask) (f : Nat → BitVec 64) : (w.writeV2 n m f).raised = w.raised := rfl
@[simp] theorem Wave.writeV_landings (w : Wave) (n : Nat) (m : LaneMask) (f : Nat → Word) : (w.writeV n m f).landings = w.landings := rfl
@[simp] theorem Wave.writeV2_landings (w : Wave) (n : Nat) (m : LaneMask) (f : Nat → BitVec 64) : (w.writeV2 n m f).landings = w.landings := rfl
@[simp] theorem Wave.writeV_issued (w : Wave) (n : Nat) (m : LaneMask) (f : Nat → Word) : (w.writeV n m f).issued = w.issued := rfl
@[simp] theorem Wave.writeV2_issued (w : Wave) (n : Nat) (m : LaneMask) (f : Nat → BitVec 64) : (w.writeV2 n m f).issued = w.issued := rfl
@[simp] theorem Wave.writeV_slots (w : Wave) (n : Nat) (m : LaneMask) (f : Nat → Word) : (w.writeV n m f).slots = w.slots := rfl
@[simp] theorem Wave.writeV2_slots (w : Wave) (n : Nat) (m : LaneMask) (f : Nat → BitVec 64) : (w.writeV2 n m f).slots = w.slots := rfl
@[simp] theorem Wave.writeV_binned (w : Wave) (n : Nat) (m : LaneMask) (f : Nat → Word) : (w.writeV n m f).binned = w.binned := rfl
@[simp] theorem Wave.writeV2_binned (w : Wave) (n : Nat) (m : LaneMask) (f : Nat → BitVec 64) : (w.writeV2 n m f).binned = w.binned := rfl
@[simp] theorem Wave.writeV_buffer (w : Wave) (n : Nat) (m : LaneMask) (f : Nat → Word) : (w.writeV n m f).buffer = w.buffer := rfl
@[simp] theorem Wave.writeV2_buffer (w : Wave) (n : Nat) (m : LaneMask) (f : Nat → BitVec 64) : (w.writeV2 n m f).buffer = w.buffer := rfl
@[simp] theorem Wave.writeV_roundStores (w : Wave) (n : Nat) (m : LaneMask) (f : Nat → Word) : (w.writeV n m f).roundStores = w.roundStores := rfl
@[simp] theorem Wave.writeV2_roundStores (w : Wave) (n : Nat) (m : LaneMask) (f : Nat → BitVec 64) : (w.writeV2 n m f).roundStores = w.roundStores := rfl
@[simp] theorem Wave.writeV_roundIssued (w : Wave) (n : Nat) (m : LaneMask) (f : Nat → Word) : (w.writeV n m f).roundIssued = w.roundIssued := rfl
@[simp] theorem Wave.writeV2_roundIssued (w : Wave) (n : Nat) (m : LaneMask) (f : Nat → BitVec 64) : (w.writeV2 n m f).roundIssued = w.roundIssued := rfl
@[simp] theorem Wave.writeV_roundStop (w : Wave) (n : Nat) (m : LaneMask) (f : Nat → Word) : (w.writeV n m f).roundStop = w.roundStop := rfl
@[simp] theorem Wave.writeV2_roundStop (w : Wave) (n : Nat) (m : LaneMask) (f : Nat → BitVec 64) : (w.writeV2 n m f).roundStop = w.roundStop := rfl

@[simp] theorem Wave.writeG_ref (w : Wave) (k : SliceMask) (n : Nat) (x : Word) : (w.writeG k n x).ref = w.ref := by
  unfold Wave.writeG; split <;> rfl
@[simp] theorem Wave.writeG_regs (w : Wave) (k : SliceMask) (n : Nat) (x : Word) : (w.writeG k n x).regs = w.regs := by
  unfold Wave.writeG; split <;> rfl
@[simp] theorem Wave.writeG_role (w : Wave) (k : SliceMask) (n : Nat) (x : Word) : (w.writeG k n x).role = w.role := by
  unfold Wave.writeG; split <;> rfl
@[simp] theorem Wave.writeG_blockId (w : Wave) (k : SliceMask) (n : Nat) (x : Word) : (w.writeG k n x).blockId = w.blockId := by
  unfold Wave.writeG; split <;> rfl
@[simp] theorem Wave.writeG_waves (w : Wave) (k : SliceMask) (n : Nat) (x : Word) : (w.writeG k n x).waves = w.waves := by
  unfold Wave.writeG; split <;> rfl
@[simp] theorem Wave.writeG_mask (w : Wave) (k : SliceMask) (n : Nat) (x : Word) : (w.writeG k n x).mask = w.mask := by
  unfold Wave.writeG; split <;> rfl
@[simp] theorem Wave.writeG_v (w : Wave) (k : SliceMask) (n : Nat) (x : Word) : (w.writeG k n x).v = w.v := by
  unfold Wave.writeG; split <;> rfl
@[simp] theorem Wave.writeG_p (w : Wave) (k : SliceMask) (n : Nat) (x : Word) : (w.writeG k n x).p = w.p := by
  unfold Wave.writeG; split <;> rfl
@[simp] theorem Wave.writeG_vFull (w : Wave) (k : SliceMask) (n : Nat) (x : Word) : (w.writeG k n x).vFull = w.vFull := by
  unfold Wave.writeG; split <;> rfl
@[simp] theorem Wave.writeG_gFull (w : Wave) (k : SliceMask) (n : Nat) (x : Word) : (w.writeG k n x).gFull = w.gFull := by
  unfold Wave.writeG; split <;> rfl
@[simp] theorem Wave.writeG_vInit (w : Wave) (k : SliceMask) (n : Nat) (x : Word) : (w.writeG k n x).vInit = w.vInit := by
  unfold Wave.writeG; split <;> rfl
@[simp] theorem Wave.writeG_pInit (w : Wave) (k : SliceMask) (n : Nat) (x : Word) : (w.writeG k n x).pInit = w.pInit := by
  unfold Wave.writeG; split <;> rfl
@[simp] theorem Wave.writeG_gangs (w : Wave) (k : SliceMask) (n : Nat) (x : Word) : (w.writeG k n x).gangs = w.gangs := by
  unfold Wave.writeG; split <;> rfl
@[simp] theorem Wave.writeG_bands (w : Wave) (k : SliceMask) (n : Nat) (x : Word) : (w.writeG k n x).bands = w.bands := by
  unfold Wave.writeG; split <;> rfl
@[simp] theorem Wave.writeG_exited (w : Wave) (k : SliceMask) (n : Nat) (x : Word) : (w.writeG k n x).exited = w.exited := by
  unfold Wave.writeG; split <;> rfl
@[simp] theorem Wave.writeG_reached (w : Wave) (k : SliceMask) (n : Nat) (x : Word) : (w.writeG k n x).reached = w.reached := by
  unfold Wave.writeG; split <;> rfl
@[simp] theorem Wave.writeG_fp (w : Wave) (k : SliceMask) (n : Nat) (x : Word) : (w.writeG k n x).fp = w.fp := by
  unfold Wave.writeG; split <;> rfl
@[simp] theorem Wave.writeG_handlerBase (w : Wave) (k : SliceMask) (n : Nat) (x : Word) : (w.writeG k n x).handlerBase = w.handlerBase := by
  unfold Wave.writeG; split <;> rfl
@[simp] theorem Wave.writeG_poolBase (w : Wave) (k : SliceMask) (n : Nat) (x : Word) : (w.writeG k n x).poolBase = w.poolBase := by
  unfold Wave.writeG; split <;> rfl
@[simp] theorem Wave.writeG_dbgCtl (w : Wave) (k : SliceMask) (n : Nat) (x : Word) : (w.writeG k n x).dbgCtl = w.dbgCtl := by
  unfold Wave.writeG; split <;> rfl
@[simp] theorem Wave.writeG_sup (w : Wave) (k : SliceMask) (n : Nat) (x : Word) : (w.writeG k n x).sup = w.sup := by
  unfold Wave.writeG; split <;> rfl
@[simp] theorem Wave.writeG_trapCause (w : Wave) (k : SliceMask) (n : Nat) (x : Word) : (w.writeG k n x).trapCause = w.trapCause := by
  unfold Wave.writeG; split <;> rfl
@[simp] theorem Wave.writeG_trapPc (w : Wave) (k : SliceMask) (n : Nat) (x : Word) : (w.writeG k n x).trapPc = w.trapPc := by
  unfold Wave.writeG; split <;> rfl
@[simp] theorem Wave.writeG_trapAddr (w : Wave) (k : SliceMask) (n : Nat) (x : Word) : (w.writeG k n x).trapAddr = w.trapAddr := by
  unfold Wave.writeG; split <;> rfl
@[simp] theorem Wave.writeG_trapLanes (w : Wave) (k : SliceMask) (n : Nat) (x : Word) : (w.writeG k n x).trapLanes = w.trapLanes := by
  unfold Wave.writeG; split <;> rfl
@[simp] theorem Wave.writeG_segs (w : Wave) (k : SliceMask) (n : Nat) (x : Word) : (w.writeG k n x).segs = w.segs := by
  unfold Wave.writeG; split <;> rfl
@[simp] theorem Wave.writeG_latches (w : Wave) (k : SliceMask) (n : Nat) (x : Word) : (w.writeG k n x).latches = w.latches := by
  unfold Wave.writeG; split <;> rfl
@[simp] theorem Wave.writeG_frame (w : Wave) (k : SliceMask) (n : Nat) (x : Word) : (w.writeG k n x).frame = w.frame := by
  unfold Wave.writeG; split <;> rfl
@[simp] theorem Wave.writeG_traps (w : Wave) (k : SliceMask) (n : Nat) (x : Word) : (w.writeG k n x).traps = w.traps := by
  unfold Wave.writeG; split <;> rfl
@[simp] theorem Wave.writeG_unsettled (w : Wave) (k : SliceMask) (n : Nat) (x : Word) : (w.writeG k n x).unsettled = w.unsettled := by
  unfold Wave.writeG; split <;> rfl
@[simp] theorem Wave.writeG_raised (w : Wave) (k : SliceMask) (n : Nat) (x : Word) : (w.writeG k n x).raised = w.raised := by
  unfold Wave.writeG; split <;> rfl
@[simp] theorem Wave.writeG_landings (w : Wave) (k : SliceMask) (n : Nat) (x : Word) : (w.writeG k n x).landings = w.landings := by
  unfold Wave.writeG; split <;> rfl
@[simp] theorem Wave.writeG_issued (w : Wave) (k : SliceMask) (n : Nat) (x : Word) : (w.writeG k n x).issued = w.issued := by
  unfold Wave.writeG; split <;> rfl
@[simp] theorem Wave.writeG_slots (w : Wave) (k : SliceMask) (n : Nat) (x : Word) : (w.writeG k n x).slots = w.slots := by
  unfold Wave.writeG; split <;> rfl
@[simp] theorem Wave.writeG_binned (w : Wave) (k : SliceMask) (n : Nat) (x : Word) : (w.writeG k n x).binned = w.binned := by
  unfold Wave.writeG; split <;> rfl
@[simp] theorem Wave.writeG_buffer (w : Wave) (k : SliceMask) (n : Nat) (x : Word) : (w.writeG k n x).buffer = w.buffer := by
  unfold Wave.writeG; split <;> rfl
@[simp] theorem Wave.writeG_roundStores (w : Wave) (k : SliceMask) (n : Nat) (x : Word) : (w.writeG k n x).roundStores = w.roundStores := by
  unfold Wave.writeG; split <;> rfl
@[simp] theorem Wave.writeG_roundIssued (w : Wave) (k : SliceMask) (n : Nat) (x : Word) : (w.writeG k n x).roundIssued = w.roundIssued := by
  unfold Wave.writeG; split <;> rfl
@[simp] theorem Wave.writeG_roundStop (w : Wave) (k : SliceMask) (n : Nat) (x : Word) : (w.writeG k n x).roundStop = w.roundStop := by
  unfold Wave.writeG; split <;> rfl

@[simp] theorem Wave.writeP_ref (w : Wave) (n : Nat) (m x : LaneMask) : (w.writeP n m x).ref = w.ref := by
  unfold Wave.writeP; split <;> rfl
@[simp] theorem Wave.writeP_regs (w : Wave) (n : Nat) (m x : LaneMask) : (w.writeP n m x).regs = w.regs := by
  unfold Wave.writeP; split <;> rfl
@[simp] theorem Wave.writeP_role (w : Wave) (n : Nat) (m x : LaneMask) : (w.writeP n m x).role = w.role := by
  unfold Wave.writeP; split <;> rfl
@[simp] theorem Wave.writeP_blockId (w : Wave) (n : Nat) (m x : LaneMask) : (w.writeP n m x).blockId = w.blockId := by
  unfold Wave.writeP; split <;> rfl
@[simp] theorem Wave.writeP_waves (w : Wave) (n : Nat) (m x : LaneMask) : (w.writeP n m x).waves = w.waves := by
  unfold Wave.writeP; split <;> rfl
@[simp] theorem Wave.writeP_mask (w : Wave) (n : Nat) (m x : LaneMask) : (w.writeP n m x).mask = w.mask := by
  unfold Wave.writeP; split <;> rfl
@[simp] theorem Wave.writeP_v (w : Wave) (n : Nat) (m x : LaneMask) : (w.writeP n m x).v = w.v := by
  unfold Wave.writeP; split <;> rfl
@[simp] theorem Wave.writeP_g (w : Wave) (n : Nat) (m x : LaneMask) : (w.writeP n m x).g = w.g := by
  unfold Wave.writeP; split <;> rfl
@[simp] theorem Wave.writeP_act (w : Wave) (n : Nat) (m x : LaneMask) : (w.writeP n m x).act = w.act := by
  unfold Wave.writeP; split <;> rfl
@[simp] theorem Wave.writeP_vFull (w : Wave) (n : Nat) (m x : LaneMask) : (w.writeP n m x).vFull = w.vFull := by
  unfold Wave.writeP; split <;> rfl
@[simp] theorem Wave.writeP_gFull (w : Wave) (n : Nat) (m x : LaneMask) : (w.writeP n m x).gFull = w.gFull := by
  unfold Wave.writeP; split <;> rfl
@[simp] theorem Wave.writeP_vInit (w : Wave) (n : Nat) (m x : LaneMask) : (w.writeP n m x).vInit = w.vInit := by
  unfold Wave.writeP; split <;> rfl
@[simp] theorem Wave.writeP_gInit (w : Wave) (n : Nat) (m x : LaneMask) : (w.writeP n m x).gInit = w.gInit := by
  unfold Wave.writeP; split <;> rfl
@[simp] theorem Wave.writeP_gangs (w : Wave) (n : Nat) (m x : LaneMask) : (w.writeP n m x).gangs = w.gangs := by
  unfold Wave.writeP; split <;> rfl
@[simp] theorem Wave.writeP_bands (w : Wave) (n : Nat) (m x : LaneMask) : (w.writeP n m x).bands = w.bands := by
  unfold Wave.writeP; split <;> rfl
@[simp] theorem Wave.writeP_exited (w : Wave) (n : Nat) (m x : LaneMask) : (w.writeP n m x).exited = w.exited := by
  unfold Wave.writeP; split <;> rfl
@[simp] theorem Wave.writeP_reached (w : Wave) (n : Nat) (m x : LaneMask) : (w.writeP n m x).reached = w.reached := by
  unfold Wave.writeP; split <;> rfl
@[simp] theorem Wave.writeP_fp (w : Wave) (n : Nat) (m x : LaneMask) : (w.writeP n m x).fp = w.fp := by
  unfold Wave.writeP; split <;> rfl
@[simp] theorem Wave.writeP_handlerBase (w : Wave) (n : Nat) (m x : LaneMask) : (w.writeP n m x).handlerBase = w.handlerBase := by
  unfold Wave.writeP; split <;> rfl
@[simp] theorem Wave.writeP_poolBase (w : Wave) (n : Nat) (m x : LaneMask) : (w.writeP n m x).poolBase = w.poolBase := by
  unfold Wave.writeP; split <;> rfl
@[simp] theorem Wave.writeP_dbgCtl (w : Wave) (n : Nat) (m x : LaneMask) : (w.writeP n m x).dbgCtl = w.dbgCtl := by
  unfold Wave.writeP; split <;> rfl
@[simp] theorem Wave.writeP_sup (w : Wave) (n : Nat) (m x : LaneMask) : (w.writeP n m x).sup = w.sup := by
  unfold Wave.writeP; split <;> rfl
@[simp] theorem Wave.writeP_trapCause (w : Wave) (n : Nat) (m x : LaneMask) : (w.writeP n m x).trapCause = w.trapCause := by
  unfold Wave.writeP; split <;> rfl
@[simp] theorem Wave.writeP_trapPc (w : Wave) (n : Nat) (m x : LaneMask) : (w.writeP n m x).trapPc = w.trapPc := by
  unfold Wave.writeP; split <;> rfl
@[simp] theorem Wave.writeP_trapAddr (w : Wave) (n : Nat) (m x : LaneMask) : (w.writeP n m x).trapAddr = w.trapAddr := by
  unfold Wave.writeP; split <;> rfl
@[simp] theorem Wave.writeP_trapLanes (w : Wave) (n : Nat) (m x : LaneMask) : (w.writeP n m x).trapLanes = w.trapLanes := by
  unfold Wave.writeP; split <;> rfl
@[simp] theorem Wave.writeP_segs (w : Wave) (n : Nat) (m x : LaneMask) : (w.writeP n m x).segs = w.segs := by
  unfold Wave.writeP; split <;> rfl
@[simp] theorem Wave.writeP_latches (w : Wave) (n : Nat) (m x : LaneMask) : (w.writeP n m x).latches = w.latches := by
  unfold Wave.writeP; split <;> rfl
@[simp] theorem Wave.writeP_frame (w : Wave) (n : Nat) (m x : LaneMask) : (w.writeP n m x).frame = w.frame := by
  unfold Wave.writeP; split <;> rfl
@[simp] theorem Wave.writeP_traps (w : Wave) (n : Nat) (m x : LaneMask) : (w.writeP n m x).traps = w.traps := by
  unfold Wave.writeP; split <;> rfl
@[simp] theorem Wave.writeP_unsettled (w : Wave) (n : Nat) (m x : LaneMask) : (w.writeP n m x).unsettled = w.unsettled := by
  unfold Wave.writeP; split <;> rfl
@[simp] theorem Wave.writeP_raised (w : Wave) (n : Nat) (m x : LaneMask) : (w.writeP n m x).raised = w.raised := by
  unfold Wave.writeP; split <;> rfl
@[simp] theorem Wave.writeP_landings (w : Wave) (n : Nat) (m x : LaneMask) : (w.writeP n m x).landings = w.landings := by
  unfold Wave.writeP; split <;> rfl
@[simp] theorem Wave.writeP_issued (w : Wave) (n : Nat) (m x : LaneMask) : (w.writeP n m x).issued = w.issued := by
  unfold Wave.writeP; split <;> rfl
@[simp] theorem Wave.writeP_slots (w : Wave) (n : Nat) (m x : LaneMask) : (w.writeP n m x).slots = w.slots := by
  unfold Wave.writeP; split <;> rfl
@[simp] theorem Wave.writeP_binned (w : Wave) (n : Nat) (m x : LaneMask) : (w.writeP n m x).binned = w.binned := by
  unfold Wave.writeP; split <;> rfl
@[simp] theorem Wave.writeP_buffer (w : Wave) (n : Nat) (m x : LaneMask) : (w.writeP n m x).buffer = w.buffer := by
  unfold Wave.writeP; split <;> rfl
@[simp] theorem Wave.writeP_roundStores (w : Wave) (n : Nat) (m x : LaneMask) : (w.writeP n m x).roundStores = w.roundStores := by
  unfold Wave.writeP; split <;> rfl
@[simp] theorem Wave.writeP_roundIssued (w : Wave) (n : Nat) (m x : LaneMask) : (w.writeP n m x).roundIssued = w.roundIssued := by
  unfold Wave.writeP; split <;> rfl
@[simp] theorem Wave.writeP_roundStop (w : Wave) (n : Nat) (m x : LaneMask) : (w.writeP n m x).roundStop = w.roundStop := by
  unfold Wave.writeP; split <;> rfl

end Sys2Proof.Machine
end

