-- ==== Sys2Proof/Laws/Issue.lean ====
section
/-! SUPPORT. What issuing an instruction comes to: the checks that pass, and the ones that trap or wait. -/

namespace Sys2Proof.Laws

open Sys2Proof.Machine Sys2Proof.Safety

/-- Where every operand is full, no source traps as empty. -/
theorem emptySource_of_full {w : Wave} {i : Instr} (h : operandsFull w i = true) : emptySource w i = none := by
  simp only [emptySource, List.head?_eq_none_iff, List.flatMap_eq_nil_iff]
  rintro ⟨k, u, x, e⟩ hm
  have h1 := (List.all_eq_true.mp (Bool.and_eq_true_iff.mp h).2) _ hm
  simp only [List.all_append, Bool.and_eq_true, List.all_eq_true] at h1
  cases e
  · rfl
  · simp only [if_true, List.filterMap_eq_nil_iff]
    rintro ⟨f, n⟩ hr
    simp only [h1.1 _ hr, if_true]

/-- What an instruction asks of its mode and place is given. -/
structure NeedsMet (n : Needs) (w : Wave) : Prop where
  mode : n.privileged = true → w.sup = true
  handler : n.notInHandler = true → w.sup = false
  permitted : n.denied = false
  entry : n.noEntry = false
  place : n.place = none
  indirect : n.indirect = none

/-- The checks of a ready instruction whose needs are met pass. -/
theorem check_of_ready {s : State} {c : Issue} {i : Instr} {n : Needs} (h : Ready s c i) (hn : NeedsMet n c.wave) :
    c.check i n = .ok := by
  obtain ⟨-, hf, hi, hr, hc, hw⟩ := h
  obtain ⟨hp, hh, hd, he, hpl, hin⟩ := hn
  have h1 : (n.privileged && !c.wave.sup) = false := by
    cases hq : n.privileged
    · rfl
    · simp [hp hq]
  have h2 : (n.notInHandler && c.wave.sup) = false := by
    cases hq : n.notInHandler
    · rfl
    · simp [hh hq]
  have h4 : c.checkSources i = .ok := by
    have hu : (if c.wave.dbgCtl.getLsbD 0 && readsNow i (c.lanesOf i) then uninitSource c.wave i else none) = none := by
      rcases hw with hw | hw
      · simp only [hw, Bool.false_and, Bool.false_eq_true, if_false]
      · rw [hw]; split <;> rfl
    simp only [Issue.checkSources, hu, hf, if_true]
  unfold Issue.check
  simp only [hi, he, h1, hd, h2, hpl, hin, h4, emptySource_of_full hf, Bool.false_eq_true, if_false]
  have h3 : (c.crew.isCombiner && !combinerAllows i) = false := by
    rcases hc with hc | hc
    · rw [hc, Bool.false_and]
    · simp [hc]
  simp only [hr, h3, Bool.not_true, Bool.false_eq_true, if_false, ite_self]

/-- A ready instruction whose needs are met has its own effect. -/
theorem issue_of_ready {s : State} {c : Issue} {i : Instr} {n : Issue → Needs} {body : Issue → State} (h : Ready s c i)
    (hn : NeedsMet (n c) c.wave) : issue i n s body = .next (body c) := by
  simp only [issue, h.issuer, check_of_ready h hn]

/-- The same of an instruction that asks nothing of its mode and place. -/
theorem issue_plain {s : State} {c : Issue} {i : Instr} {body : Issue → State} (h : Ready s c i) :
    issue i plain s body = .next (body c) :=
  issue_of_ready h ⟨nofun, nofun, rfl, rfl, rfl, rfl⟩

/-- With no issuer named, no instruction is issued. -/
theorem issue_none {s : State} {i : Instr} {n : Issue → Needs} {body : Issue → State} (h : s.issuer = none) :
    issue i n s body = .fault .noIssuer := by
  simp only [issue, h]

/-- Issuing an instruction for an issuer always answers a next state. -/
theorem issue_next {s : State} {c : Issue} {i : Instr} {n : Issue → Needs} {body : Issue → State}
    (h : s.issuer = some c) : ∃ t, issue i n s body = .next t := by
  simp only [issue, h]
  cases c.check i (n c) <;> exact ⟨_, rfl⟩

end Sys2Proof.Laws
end

