-- ==== Sys2Proof/Laws/Memory.lean ====
section
/-! SUPPORT. Memory keeps its canonical form, a write is read back, and it leaves every other place alone. The machine
changes memory by cellSet, storeBytes and zeroFrame alone, and tile memory by storeBytes and spliceBytes. -/

namespace Sys2Proof.Laws

open Sys2Proof.Machine Sys2Proof.Safety

variable {β : Type} [DecidableEq β] {d : β}

/-- The canonical form of a list with a head. -/
theorem cellsWf_cons {k : Nat} {v : β} {r : List (Nat × β)} :
    cellsWf d ((k, v) :: r) = true ↔ v ≠ d ∧ (∀ x ∈ r, k < x.1) ∧ cellsWf d r = true := by
  simp [cellsWf, and_assoc]

/-- A bound below every key stays one when a key above it is written. -/
theorem cellSet_above {k a : Nat} {v : β} : ∀ {c : List (Nat × β)}, (∀ x ∈ c, k < x.1) → k < a → ∀ x ∈ cellSet d c a v, k < x.1
  | [], _, ha, x, hx => by
    simp only [cellSet] at hx
    split at hx <;> simp_all
  | (j, y) :: r, hc, ha, x, hx => by
    have hj := hc (j, y) (by simp)
    have hr : ∀ x ∈ r, k < x.1 := fun x h => hc x (by simp [h])
    simp only [cellSet] at hx
    split at hx
    · split at hx
      · exact hc x hx
      · rcases List.mem_cons.mp hx with rfl | h
        · exact ha
        · exact hc x h
    · split at hx
      · split at hx
        · exact hr x hx
        · rcases List.mem_cons.mp hx with rfl | h
          · exact ha
          · exact hr x h
      · rcases List.mem_cons.mp hx with rfl | h
        · exact hj
        · exact cellSet_above hr ha x h

/-- A write of one cell keeps the canonical form. -/
theorem cellSet_wf {a : Nat} {v : β} : ∀ {c : List (Nat × β)}, cellsWf d c = true → cellsWf d (cellSet d c a v) = true
  | [], _ => by
    simp only [cellSet]
    split <;> simp_all [cellsWf]
  | (k, x) :: r, h => by
    obtain ⟨hx, hk, hr⟩ := cellsWf_cons.mp h
    simp only [cellSet]
    split
    · split
      · exact h
      · refine cellsWf_cons.mpr ⟨‹_›, ?_, h⟩
        intro y hy
        rcases List.mem_cons.mp hy with rfl | hy
        · assumption
        · have := hk y hy; omega
    · split
      · split
        · exact hr
        · refine cellsWf_cons.mpr ⟨‹_›, ?_, hr⟩
          subst_vars
          exact hk
      · exact cellsWf_cons.mpr ⟨hx, cellSet_above hk (by omega), cellSet_wf hr⟩

omit [DecidableEq β] in
/-- A key below every listed one is unlisted. -/
theorem cellGet_below {a : Nat} : ∀ {c : List (Nat × β)}, (∀ x ∈ c, a < x.1) → cellGet d c a = d
  | [], _ => rfl
  | (k, v) :: r, h => by
    have hk := h (k, v) (by simp)
    have : k ≠ a := by simp at hk; omega
    simp only [cellGet, this, if_false]
    exact cellGet_below fun x hx => h x (by simp [hx])

/-- A written cell reads as what was written. -/
theorem cellGet_cellSet_same {a : Nat} {v : β} : ∀ {c : List (Nat × β)}, cellsWf d c = true → cellGet d (cellSet d c a v) a = v
  | [], _ => by
    simp only [cellSet]
    split
    · simp_all [cellGet]
    · simp [cellGet]
  | (k, x) :: r, h => by
    obtain ⟨-, hk, hr⟩ := cellsWf_cons.mp h
    simp only [cellSet]
    split
    · split
      · rename_i hlt hv
        rw [hv]
        exact cellGet_below fun y hy => by
          rcases List.mem_cons.mp hy with rfl | hy
          · exact hlt
          · have := hk y hy; omega
      · simp [cellGet]
    · split
      · rename_i hak
        split
        · rename_i hv
          rw [hv]
          exact cellGet_below fun y hy => hak ▸ hk y hy
        · simp [cellGet]
      · rename_i hak
        have : k ≠ a := fun hh => hak hh.symm
        simp only [cellGet, this, if_false]
        exact cellGet_cellSet_same hr

/-- Every other cell reads as before. -/
theorem cellGet_cellSet_ne {a b : Nat} {v : β} (hab : b ≠ a) : ∀ {c : List (Nat × β)}, cellGet d (cellSet d c a v) b = cellGet d c b
  | [] => by
    simp only [cellSet]
    split <;> simp [cellGet, hab.symm]
  | (k, x) :: r => by
    simp only [cellSet]
    split
    · split
      · rfl
      · simp [cellGet, hab.symm]
    · split
      · rename_i hak
        have : k ≠ b := fun hh => hab (hh ▸ hak.symm)
        split <;> simp [cellGet, this, hab.symm]
      · by_cases hkb : k = b
        · simp [cellGet, hkb]
        · simp only [cellGet, hkb, if_false]
          exact cellGet_cellSet_ne hab

/-- A store of bytes keeps the canonical form. -/
theorem storeBytes_wf : ∀ {bs : List Byte} {c : List (Nat × Byte)} {a : Nat}, cellsWf 0 c = true → cellsWf 0 (storeBytes c a bs) = true
  | [], _, _, h => h
  | b :: r, c, a, h => by
    have hw := cellSet_wf (a := a) (v := b) h
    unfold storeBytes
    exact storeBytes_wf hw

/-- Bytes outside those stored read as before. -/
theorem cellGet_storeBytes_ne : ∀ {bs : List Byte} {c : List (Nat × Byte)} {a k : Nat}, k < a ∨ a + bs.length ≤ k →
    cellGet 0 (storeBytes c a bs) k = cellGet 0 c k
  | [], _, _, _, _ => rfl
  | b :: r, c, a, k, h => by
    simp only [List.length_cons] at h
    rw [storeBytes, cellGet_storeBytes_ne (by omega), cellGet_cellSet_ne (by omega)]

/-- Stored bytes are read back. -/
theorem bytesAt_storeBytes : ∀ {bs : List Byte} {c : List (Nat × Byte)} {a : Nat}, cellsWf 0 c = true →
    bytesAt (storeBytes c a bs) a bs.length = bs
  | [], _, _, _ => rfl
  | b :: r, c, a, h => by
    have hw := cellSet_wf (a := a) (v := b) h
    simp only [storeBytes, List.length_cons, bytesAt, bytesAt_storeBytes hw,
      cellGet_storeBytes_ne (bs := r) (c := cellSet 0 c a b) (a := a + 1) (k := a) (by omega), cellGet_cellSet_same h]

/-- Part of a canonical list is canonical. -/
theorem filter_wf {p : Nat × β → Bool} : ∀ {c : List (Nat × β)}, cellsWf d c = true → cellsWf d (c.filter p) = true
  | [], _ => rfl
  | (k, x) :: r, h => by
    obtain ⟨hx, hk, hr⟩ := cellsWf_cons.mp h
    simp only [List.filter_cons]
    split
    · exact cellsWf_cons.mpr ⟨hx, fun y hy => hk y (List.mem_filter.mp hy).1, filter_wf hr⟩
    · exact filter_wf hr

/-- Two canonical lists, the second above the first, join to one. -/
theorem append_wf : ∀ {c e : List (Nat × β)}, cellsWf d c = true → cellsWf d e = true → (∀ x ∈ c, ∀ y ∈ e, x.1 < y.1) →
    cellsWf d (c ++ e) = true
  | [], _, _, he, _ => he
  | (k, x) :: r, e, h, he, hlt => by
    obtain ⟨hx, hk, hr⟩ := cellsWf_cons.mp h
    refine cellsWf_cons.mpr ⟨hx, ?_, append_wf hr he fun a ha => hlt a (by simp [ha])⟩
    intro y hy
    rcases List.mem_append.mp hy with hy | hy
    · exact hk y hy
    · exact hlt (k, x) (by simp) y hy

/-- The cells of a run of bytes lie at its addresses. -/
theorem mem_runCells : ∀ {bs : List Byte} {a : Nat} {x : Nat × Byte},
    x ∈ (bs.zipIdx a).filterMap (fun y => if y.1 = 0 then none else some (y.2, y.1)) → a ≤ x.1 ∧ x.1 < a + bs.length
  | [], _, _, h => by simp at h
  | b :: r, a, x, h => by
    simp only [List.zipIdx_cons, List.filterMap_cons] at h
    have ih := @mem_runCells r (a + 1) x
    simp only [List.length_cons]
    split at h
    · have := ih h; omega
    · rcases List.mem_cons.mp h with rfl | h
      · rename_i hh
        split at hh
        · exact absurd hh (by simp)
        · simp only [Option.some.injEq] at hh
          subst hh
          simp only
          omega
      · have := ih h; omega

/-- The cells of a run of bytes are canonical. -/
theorem runCells_wf : ∀ {bs : List Byte} {a : Nat},
    cellsWf 0 ((bs.zipIdx a).filterMap (fun y => if y.1 = 0 then none else some (y.2, y.1))) = true
  | [], _ => rfl
  | b :: r, a => by
    have ih := @runCells_wf r (a + 1)
    simp only [List.zipIdx_cons, List.filterMap_cons]
    split
    · exact ih
    · rename_i hh
      split at hh
      · exact absurd hh (by simp)
      · simp only [Option.some.injEq] at hh
        subst hh
        exact cellsWf_cons.mpr ⟨‹_›, fun x hx => by have := mem_runCells hx; omega, ih⟩

/-- The replacement of a run of bytes keeps the canonical form. -/
theorem spliceBytes_wf {c : List (Nat × Byte)} {a : Nat} {bs : List Byte} (h : cellsWf 0 c = true) :
    cellsWf 0 (spliceBytes c a bs) = true := by
  refine append_wf (append_wf (filter_wf h) runCells_wf ?_) (filter_wf h) ?_
  · intro x hx y hy
    have h1 := (List.mem_filter.mp hx).2
    have h2 := mem_runCells hy
    simp only [decide_eq_true_eq] at h1
    omega
  · intro x hx y hy
    have h2 := (List.mem_filter.mp hy).2
    simp only [decide_eq_true_eq] at h2
    rcases List.mem_append.mp hx with hx | hx
    · have h1 := (List.mem_filter.mp hx).2
      simp only [decide_eq_true_eq] at h1
      omega
    · have := mem_runCells hx; omega

/-! ## Undefined bytes -/

/-- What is written is defined: no range that is left meets it. -/
theorem cutLoose_apart {l : Loose} {a n : Nat} : ((cutLoose l a n).all fun x => decide (a + n ≤ x.1) || decide (x.1 + x.2.1 ≤ a)) = true ∨ n = 0 := by
  by_cases hn : n = 0
  · exact .inr hn
  refine .inl (List.all_eq_true.mpr fun y hy => ?_)
  simp only [cutLoose, hn, if_false, List.mem_flatMap] at hy
  obtain ⟨⟨x, k, i⟩, -, hy⟩ := hy
  simp only [List.mem_append] at hy
  simp only [Bool.or_eq_true, decide_eq_true_eq]
  rcases hy with hy | hy <;> split at hy <;> simp at hy <;> subst hy <;> dsimp only <;> omega

/-- Where no undefined byte lies among them, bytes read as they are listed. -/
theorem readBytes_apart {free : Nat → Byte} {l : Loose} {c : List (Nat × Byte)} {a n : Nat}
    (h : (l.all fun x => decide (a + n ≤ x.1) || decide (x.1 + x.2.1 ≤ a)) = true) : readBytes free l c a n = bytesAt c a n := by
  rw [readBytes, if_pos h]

/-- Bytes that are stored read back. -/
theorem memBytes_putMem {s : State} (h : Memory.wf s) (a : Nat) (bs : List Byte) : (s.putMem a bs).memBytes a bs.length = bs := by
  rcases cutLoose_apart (l := s.loose) (a := a) (n := bs.length) with hc | hc
  · exact (readBytes_apart hc).trans (bytesAt_storeBytes h)
  · rw [List.length_eq_zero_iff.mp hc]; simp [State.memBytes, readBytes, bytesAt]

/-! ## The operations of State that change memory -/

/-- Memory is canonical at reset. -/
theorem reset_wf : Memory.wf State.reset := rfl

/-- A store anywhere in memory keeps it canonical. -/
theorem putMem_wf {s : State} (h : Memory.wf s) (a : Nat) (bs : List Byte) : Memory.wf (s.putMem a bs) := storeBytes_wf h

/-- Bytes that become undefined leave memory canonical. -/
theorem loosen_wf {s : State} (h : Memory.wf s) (a n : Nat) : Memory.wf (s.loosen a n) := by
  unfold State.loosen
  split
  · exact h
  · exact filter_wf h

/-- A frame that is written zero keeps memory canonical. -/
theorem zeroFrame_wf {s : State} (h : Memory.wf s) (mt pa : Nat) : Memory.wf (s.zeroFrame mt pa) := filter_wf h

end Sys2Proof.Laws
end

