-- ==== Sys2Proof/Laws/PerInstr.lean ====
section
/-! SUPPORT. One law per instruction: the opcode maps of the decoder and of the encoder agree on it. -/

namespace Sys2Proof.Laws.RoundTrip

/-- The decoder's opcode maps give back the instruction from the form, major and minor that the encoder gives it. -/
def Statement (i : Instr) : Prop :=
  match fields i with
  | none => encode i = []
  | some (.register s maj fn o) =>
    wellFormed i = true → shortForm s maj = false ∧ (s && maj == 4) = false ∧ registerInstr s maj fn o = .ok i
  | some (.immediate s maj o) => shortForm s maj = true ∧ ∀ off, shortInstr s maj o off = some i
  | some (.branch s maj off) => shortForm s maj = true ∧ ∀ o, shortInstr s maj o off = some i
  | some (.literal s maj fn o) => shortForm s maj = false ∧ (s && maj == 4) = true ∧ groupMinor04 fn o = some i

/-- The values of a two-bit field. -/
theorem two_bits : ∀ x : BitVec 2, x = 0 ∨ x = 1 ∨ x = 2 ∨ x = 3 := by decide

/-- Of a register form whose minor is in the map. -/
theorem of_register {i : Instr} {s : Bool} {maj fn : BitVec 6} {o : Opnd} (hf : fields i = some (.register s maj fn o))
    (h1 : shortForm s maj = false) (h2 : (s && maj == 4) = false) (h3 : registerInstr s maj fn o = .ok i) : Statement i := by
  simp only [Statement, hf]
  exact fun _ => ⟨h1, h2, h3⟩

theorem powerOnBringup (b : BringupInput) : Statement (.powerOnBringup b) := rfl

theorem controlRegisterWrite (port : Fin 4) (off : BitVec 26) (wide : Bool) (value : BitVec 64) : Statement (.controlRegisterWrite port off wide value) := rfl

theorem partitionReset (port : Fin 4) (p : Fin 8) : Statement (.partitionReset port p) := rfl

theorem partitionResize (port : Fin 4) (p : Fin 8) (newSpans : BitVec 8) : Statement (.partitionResize port p newSpans) := rfl

theorem partitionStart (port : Fin 4) (p : Fin 8) : Statement (.partitionStart port p) := rfl

theorem queueEnable (port : Fin 4) (q : Fin 2048) (ctl : BitVec 32) : Statement (.queueEnable port q ctl) := rfl

theorem doorbell (port : Fin 4) (q : Fin 2048) (wr : BitVec 32) : Statement (.doorbell port q wr) := rfl

theorem takeLaunch (q : Fin 2048) : Statement (.takeLaunch q) := rfl

theorem takeRenderpass (q : Fin 2048) : Statement (.takeRenderpass q) := rfl

theorem takeGraph (q : Fin 2048) : Statement (.takeGraph q) := rfl

theorem takeWaitevent (q : Fin 2048) : Statement (.takeWaitevent q) := rfl

theorem takeSignal (q : Fin 2048) : Statement (.takeSignal q) := rfl

theorem takeBarrier (q : Fin 2048) : Statement (.takeBarrier q) := rfl

theorem dependenceSatisfied (seq : Nat) : Statement (.dependenceSatisfied seq) := rfl

theorem eventCounterWrite (port : Fin 4) (p : Fin 8) (e : Nat) (value : BitVec 64) : Statement (.eventCounterWrite port p e value) := rfl

theorem workCompletion (seq : Nat) : Statement (.workCompletion seq) := rfl

theorem crewPlacement (at_ : CoreAt) : Statement (.crewPlacement at_) := rfl

theorem priorityAging (target : AgeTarget) : Statement (.priorityAging target) := rfl

theorem placementWaitTimeout (span : Fin 8) : Statement (.placementWaitTimeout span) := rfl

theorem preemptionRequest (crew : Nat) : Statement (.preemptionRequest crew) := rfl

theorem safePointTimeout (crew : Nat) : Statement (.safePointTimeout crew) := rfl

theorem crewSave (crew : Nat) : Statement (.crewSave crew) := rfl

theorem crewResume (crew : Nat) (at_ : CoreAt) : Statement (.crewResume crew at_) := rfl

theorem phaseStart (crew : Nat) (rank : Nat) : Statement (.phaseStart crew rank) := rfl

theorem producerLanding (w : WaveRef) (n : Nat) : Statement (.producerLanding w n) := rfl

theorem regangBandReady (w : WaveRef) : Statement (.regangBandReady w) := rfl

theorem queueWaitPerformed (w : WaveRef) (gang : Nat) : Statement (.queueWaitPerformed w gang) := rfl

theorem waitConditionMet (w : WaveRef) (gang : Nat) : Statement (.waitConditionMet w gang) := rfl

theorem waitTimeout (w : WaveRef) (gang : Nat) : Statement (.waitTimeout w gang) := rfl

theorem acqaccGrant (w : WaveRef) (gang : Nat) : Statement (.acqaccGrant w gang) := rfl

theorem recallocGrant (w : WaveRef) (gang : Nat) : Statement (.recallocGrant w gang) := rfl

theorem asyncTrapDelivery (w : WaveRef) : Statement (.asyncTrapDelivery w) := rfl

theorem translationVector (w : WaveRef) : Statement (.translationVector w) := rfl

theorem faultEntryWalk (cluster : Fin 96) (entry : Fin 8) : Statement (.faultEntryWalk cluster entry) := rfl

theorem faultRepresent (cluster : Fin 96) : Statement (.faultRepresent cluster) := rfl

theorem faultRecordPost (p : Fin 8) : Statement (.faultRecordPost p) := rfl

theorem fresRetry (port : Fin 4) (p : Fin 8) (value : BitVec 32) : Statement (.fresRetry port p value) := rfl

theorem fresFail (port : Fin 4) (p : Fin 8) (value : BitVec 32) : Statement (.fresFail port p value) := rfl

theorem loaderCheck (port : Fin 4) : Statement (.loaderCheck port) := rfl

theorem merrClear (port : Fin 4) : Statement (.merrClear port) := rfl

theorem portIncomingAccess (port : Fin 4) (a : PortAccess) : Statement (.portIncomingAccess port a) := rfl

theorem portLinkDown (port : Fin 4) : Statement (.portLinkDown port) := rfl

theorem moduleError (therm : Bool) : Statement (.moduleError therm) := rfl

theorem patrolRead (codeword : Nat) (err : ReadError) : Statement (.patrolRead codeword err) := rfl

theorem l2Writeback (line : Nat) (badSectors : BitVec 4) : Statement (.l2Writeback line badSectors) := rfl

theorem engineUnitTransfer (crew : Nat) (rank : Nat) (rec : Fin 16) (unit : Nat) : Statement (.engineUnitTransfer crew rank rec unit) := rfl

theorem madderRequestArrival (n : Nat) : Statement (.madderRequestArrival n) := rfl

theorem madderBatchLaunch (line : Nat) : Statement (.madderBatchLaunch line) := rfl

theorem madderWindowExpiry (line : Nat) : Statement (.madderWindowExpiry line) := rfl

theorem combinerWaveStart (line : Nat) : Statement (.combinerWaveStart line) := rfl

theorem graphBatchLaunch (seq : Nat) (node : Nat) : Statement (.graphBatchLaunch seq node) := rfl

theorem graphBatchTimeout (seq : Nat) (node : Nat) : Statement (.graphBatchTimeout seq node) := rfl

theorem renderPassStart (p : Fin 8) : Statement (.renderPassStart p) := rfl

theorem primitiveCommit (p : Fin 8) : Statement (.primitiveCommit p) := rfl

theorem poolReset (p : Fin 8) : Statement (.poolReset p) := rfl

theorem brokerIssuePass (p : Fin 8) (at_ : CoreAt) : Statement (.brokerIssuePass p at_) := rfl

theorem finalRoundStart (p : Fin 8) : Statement (.finalRoundStart p) := rfl

theorem passLoad (crew : Nat) : Statement (.passLoad crew) := rfl

theorem passVisibility (crew : Nat) : Statement (.passVisibility crew) := rfl

theorem passGbuffer (crew : Nat) : Statement (.passGbuffer crew) := rfl

theorem passShading (crew : Nat) : Statement (.passShading crew) := rfl

theorem passResolve (crew : Nat) : Statement (.passResolve crew) := rfl

theorem resumeStore (crew : Nat) : Statement (.resumeStore crew) := rfl

theorem tileSpill (crew : Nat) : Statement (.tileSpill crew) := rfl

theorem passRestart (crew : Nat) : Statement (.passRestart crew) := rfl

theorem woadRoundCommit (p : Fin 8) : Statement (.woadRoundCommit p) := rfl

theorem iadd (o : Opnd) : Statement (.iadd o) := of_register rfl rfl rfl rfl

theorem isub (o : Opnd) : Statement (.isub o) := of_register rfl rfl rfl rfl

theorem imul (o : Opnd) : Statement (.imul o) := of_register rfl rfl rfl rfl

theorem imulhS32 (o : Opnd) : Statement (.imulhS32 o) := of_register rfl rfl rfl rfl

theorem imulhN32 (o : Opnd) : Statement (.imulhN32 o) := of_register rfl rfl rfl rfl

theorem iminS32 (o : Opnd) : Statement (.iminS32 o) := of_register rfl rfl rfl rfl

theorem iminN32 (o : Opnd) : Statement (.iminN32 o) := of_register rfl rfl rfl rfl

theorem imaxS32 (o : Opnd) : Statement (.imaxS32 o) := of_register rfl rfl rfl rfl

theorem imaxN32 (o : Opnd) : Statement (.imaxN32 o) := of_register rfl rfl rfl rfl

theorem iabs (o : Opnd) : Statement (.iabs o) := of_register rfl rfl rfl rfl

theorem ineg (o : Opnd) : Statement (.ineg o) := of_register rfl rfl rfl rfl

theorem iadd64 (o : Opnd) : Statement (.iadd64 o) := of_register rfl rfl rfl rfl

theorem isub64 (o : Opnd) : Statement (.isub64 o) := of_register rfl rfl rfl rfl

theorem imulwS32 (o : Opnd) : Statement (.imulwS32 o) := of_register rfl rfl rfl rfl

theorem imulwN32 (o : Opnd) : Statement (.imulwN32 o) := of_register rfl rfl rfl rfl

theorem iaddi (o : OpndI) : Statement (.iaddi o) := ⟨rfl, fun _ => rfl⟩

theorem andi (o : OpndI) : Statement (.andi o) := ⟨rfl, fun _ => rfl⟩

theorem ori (o : OpndI) : Statement (.ori o) := ⟨rfl, fun _ => rfl⟩

theorem xori (o : OpndI) : Statement (.xori o) := ⟨rfl, fun _ => rfl⟩

theorem and (o : Opnd) : Statement (.and o) := of_register rfl rfl rfl rfl

theorem or (o : Opnd) : Statement (.or o) := of_register rfl rfl rfl rfl

theorem xor (o : Opnd) : Statement (.xor o) := of_register rfl rfl rfl rfl

theorem andn (o : Opnd) : Statement (.andn o) := of_register rfl rfl rfl rfl

theorem orn (o : Opnd) : Statement (.orn o) := of_register rfl rfl rfl rfl

theorem xnor (o : Opnd) : Statement (.xnor o) := of_register rfl rfl rfl rfl

theorem not (o : Opnd) : Statement (.not o) := of_register rfl rfl rfl rfl

theorem shl (o : Opnd) : Statement (.shl o) := of_register rfl rfl rfl rfl

theorem shr (o : Opnd) : Statement (.shr o) := of_register rfl rfl rfl rfl

theorem sar (o : Opnd) : Statement (.sar o) := of_register rfl rfl rfl rfl

theorem rotl (o : Opnd) : Statement (.rotl o) := of_register rfl rfl rfl rfl

theorem rotr (o : Opnd) : Statement (.rotr o) := of_register rfl rfl rfl rfl

theorem shli (o : Opnd) : Statement (.shli o) := of_register rfl rfl rfl rfl

theorem shri (o : Opnd) : Statement (.shri o) := of_register rfl rfl rfl rfl

theorem sari (o : Opnd) : Statement (.sari o) := of_register rfl rfl rfl rfl

theorem bfxS32 (o : Opnd) : Statement (.bfxS32 o) := of_register rfl rfl rfl rfl

theorem bfxN32 (o : Opnd) : Statement (.bfxN32 o) := of_register rfl rfl rfl rfl

theorem bfi (o : Opnd) : Statement (.bfi o) := of_register rfl rfl rfl rfl

theorem popc (o : Opnd) : Statement (.popc o) := of_register rfl rfl rfl rfl

theorem clz (o : Opnd) : Statement (.clz o) := of_register rfl rfl rfl rfl

theorem ctz (o : Opnd) : Statement (.ctz o) := of_register rfl rfl rfl rfl

theorem brev (o : Opnd) : Statement (.brev o) := of_register rfl rfl rfl rfl

theorem permb (o : Opnd) : Statement (.permb o) := of_register rfl rfl rfl rfl

theorem imad (o : Opnd) : Statement (.imad o) := of_register rfl rfl rfl rfl

theorem imadhS32 (o : Opnd) : Statement (.imadhS32 o) := of_register rfl rfl rfl rfl

theorem imadhN32 (o : Opnd) : Statement (.imadhN32 o) := of_register rfl rfl rfl rfl

theorem imadwS32 (o : Opnd) : Statement (.imadwS32 o) := of_register rfl rfl rfl rfl

theorem imadwN32 (o : Opnd) : Statement (.imadwN32 o) := of_register rfl rfl rfl rfl

theorem icmpEq (o : Opnd) : Statement (.icmpEq o) := of_register rfl rfl rfl rfl

theorem icmpNe (o : Opnd) : Statement (.icmpNe o) := of_register rfl rfl rfl rfl

theorem icmpLtS32 (o : Opnd) : Statement (.icmpLtS32 o) := of_register rfl rfl rfl rfl

theorem icmpLeS32 (o : Opnd) : Statement (.icmpLeS32 o) := of_register rfl rfl rfl rfl

theorem icmpGtS32 (o : Opnd) : Statement (.icmpGtS32 o) := of_register rfl rfl rfl rfl

theorem icmpGeS32 (o : Opnd) : Statement (.icmpGeS32 o) := of_register rfl rfl rfl rfl

theorem icmpLtN32 (o : Opnd) : Statement (.icmpLtN32 o) := of_register rfl rfl rfl rfl

theorem icmpLeN32 (o : Opnd) : Statement (.icmpLeN32 o) := of_register rfl rfl rfl rfl

theorem icmpGtN32 (o : Opnd) : Statement (.icmpGtN32 o) := of_register rfl rfl rfl rfl

theorem icmpGeN32 (o : Opnd) : Statement (.icmpGeN32 o) := of_register rfl rfl rfl rfl

theorem sel (o : Opnd) : Statement (.sel o) := of_register rfl rfl rfl rfl

theorem fadd (o : Opnd) : Statement (.fadd o) := of_register rfl rfl rfl rfl

theorem fsub (o : Opnd) : Statement (.fsub o) := of_register rfl rfl rfl rfl

theorem fmul (o : Opnd) : Statement (.fmul o) := of_register rfl rfl rfl rfl

theorem fmin (o : Opnd) : Statement (.fmin o) := of_register rfl rfl rfl rfl

theorem fmax (o : Opnd) : Statement (.fmax o) := of_register rfl rfl rfl rfl

theorem fminm (o : Opnd) : Statement (.fminm o) := of_register rfl rfl rfl rfl

theorem fmaxm (o : Opnd) : Statement (.fmaxm o) := of_register rfl rfl rfl rfl

theorem fabs (o : Opnd) : Statement (.fabs o) := of_register rfl rfl rfl rfl

theorem fneg (o : Opnd) : Statement (.fneg o) := of_register rfl rfl rfl rfl

theorem fcopysign (o : Opnd) : Statement (.fcopysign o) := of_register rfl rfl rfl rfl

theorem frndRn (o : Opnd) : Statement (.frndRn o) := of_register rfl rfl rfl rfl

theorem frndRz (o : Opnd) : Statement (.frndRz o) := of_register rfl rfl rfl rfl

theorem frndRd (o : Opnd) : Statement (.frndRd o) := of_register rfl rfl rfl rfl

theorem frndRu (o : Opnd) : Statement (.frndRu o) := of_register rfl rfl rfl rfl

theorem ffract (o : Opnd) : Statement (.ffract o) := of_register rfl rfl rfl rfl

theorem fclass (o : Opnd) : Statement (.fclass o) := of_register rfl rfl rfl rfl

theorem ffma (o : Opnd) : Statement (.ffma o) := of_register rfl rfl rfl rfl

theorem ffms (o : Opnd) : Statement (.ffms o) := of_register rfl rfl rfl rfl

theorem ffnma (o : Opnd) : Statement (.ffnma o) := of_register rfl rfl rfl rfl

theorem ffnms (o : Opnd) : Statement (.ffnms o) := of_register rfl rfl rfl rfl

theorem fcmpEq (o : Opnd) : Statement (.fcmpEq o) := of_register rfl rfl rfl rfl

theorem fcmpNe (o : Opnd) : Statement (.fcmpNe o) := of_register rfl rfl rfl rfl

theorem fcmpLt (o : Opnd) : Statement (.fcmpLt o) := of_register rfl rfl rfl rfl

theorem fcmpLe (o : Opnd) : Statement (.fcmpLe o) := of_register rfl rfl rfl rfl

theorem fcmpGt (o : Opnd) : Statement (.fcmpGt o) := of_register rfl rfl rfl rfl

theorem fcmpGe (o : Opnd) : Statement (.fcmpGe o) := of_register rfl rfl rfl rfl

theorem fcmpOrd (o : Opnd) : Statement (.fcmpOrd o) := of_register rfl rfl rfl rfl

theorem fcmpUnord (o : Opnd) : Statement (.fcmpUnord o) := of_register rfl rfl rfl rfl

theorem frcp (o : Opnd) : Statement (.frcp o) := of_register rfl rfl rfl rfl

theorem frsq (o : Opnd) : Statement (.frsq o) := of_register rfl rfl rfl rfl

theorem fsqrt (o : Opnd) : Statement (.fsqrt o) := of_register rfl rfl rfl rfl

theorem fexp2 (o : Opnd) : Statement (.fexp2 o) := of_register rfl rfl rfl rfl

theorem flog2 (o : Opnd) : Statement (.flog2 o) := of_register rfl rfl rfl rfl

theorem fsin (o : Opnd) : Statement (.fsin o) := of_register rfl rfl rfl rfl

theorem fcos (o : Opnd) : Statement (.fcos o) := of_register rfl rfl rfl rfl

theorem ftanh (o : Opnd) : Statement (.ftanh o) := of_register rfl rfl rfl rfl

theorem fsigm (o : Opnd) : Statement (.fsigm o) := of_register rfl rfl rfl rfl

theorem hadd2F16 (o : Opnd) : Statement (.hadd2F16 o) := of_register rfl rfl rfl rfl

theorem hmul2F16 (o : Opnd) : Statement (.hmul2F16 o) := of_register rfl rfl rfl rfl

theorem hmin2F16 (o : Opnd) : Statement (.hmin2F16 o) := of_register rfl rfl rfl rfl

theorem hmax2F16 (o : Opnd) : Statement (.hmax2F16 o) := of_register rfl rfl rfl rfl

theorem hadd2Bf16 (o : Opnd) : Statement (.hadd2Bf16 o) := of_register rfl rfl rfl rfl

theorem hmul2Bf16 (o : Opnd) : Statement (.hmul2Bf16 o) := of_register rfl rfl rfl rfl

theorem hmin2Bf16 (o : Opnd) : Statement (.hmin2Bf16 o) := of_register rfl rfl rfl rfl

theorem hmax2Bf16 (o : Opnd) : Statement (.hmax2Bf16 o) := of_register rfl rfl rfl rfl

theorem hfma2F16 (o : Opnd) : Statement (.hfma2F16 o) := of_register rfl rfl rfl rfl

theorem hfma2Bf16 (o : Opnd) : Statement (.hfma2Bf16 o) := of_register rfl rfl rfl rfl

theorem hdot2F16 (o : Opnd) : Statement (.hdot2F16 o) := of_register rfl rfl rfl rfl

theorem hdot2Bf16 (o : Opnd) : Statement (.hdot2Bf16 o) := of_register rfl rfl rfl rfl

theorem cvtF32S32 (o : Opnd) : Statement (.cvtF32S32 o) := of_register rfl rfl rfl rfl

theorem cvtF32N32 (o : Opnd) : Statement (.cvtF32N32 o) := of_register rfl rfl rfl rfl

theorem cvtS32F32 (o : Opnd) : Statement (.cvtS32F32 o) := of_register rfl rfl rfl rfl

theorem cvtN32F32 (o : Opnd) : Statement (.cvtN32F32 o) := of_register rfl rfl rfl rfl

theorem cvtF16F32 (o : Opnd) : Statement (.cvtF16F32 o) := of_register rfl rfl rfl rfl

theorem cvtBf16F32 (o : Opnd) : Statement (.cvtBf16F32 o) := of_register rfl rfl rfl rfl

theorem cvtF32F16 (o : Opnd) : Statement (.cvtF32F16 o) := of_register rfl rfl rfl rfl

theorem cvtF32Bf16 (o : Opnd) : Statement (.cvtF32Bf16 o) := of_register rfl rfl rfl rfl

theorem cvtE4m3F32 (o : Opnd) : Statement (.cvtE4m3F32 o) := of_register rfl rfl rfl rfl

theorem cvtE5m2F32 (o : Opnd) : Statement (.cvtE5m2F32 o) := of_register rfl rfl rfl rfl

theorem cvtF32E4m3 (o : Opnd) : Statement (.cvtF32E4m3 o) := of_register rfl rfl rfl rfl

theorem cvtF32E5m2 (o : Opnd) : Statement (.cvtF32E5m2 o) := of_register rfl rfl rfl rfl

theorem cvtE2m1F32 (o : Opnd) : Statement (.cvtE2m1F32 o) := of_register rfl rfl rfl rfl

theorem cvtF32E2m1 (o : Opnd) : Statement (.cvtF32E2m1 o) := of_register rfl rfl rfl rfl

theorem qlatX2 (o : Opnd) : Statement (.qlatX2 o) := of_register rfl rfl rfl rfl

theorem qlatX4 (o : Opnd) : Statement (.qlatX4 o) := of_register rfl rfl rfl rfl

theorem dlatX2 (o : Opnd) : Statement (.dlatX2 o) := of_register rfl rfl rfl rfl

theorem dlatX4 (o : Opnd) : Statement (.dlatX4 o) := of_register rfl rfl rfl rfl

theorem laterr (o : Opnd) : Statement (.laterr o) := of_register rfl rfl rfl rfl

theorem shflIdx (o : Opnd) : Statement (.shflIdx o) := of_register rfl rfl rfl rfl

theorem shflUp (o : Opnd) : Statement (.shflUp o) := of_register rfl rfl rfl rfl

theorem shflDown (o : Opnd) : Statement (.shflDown o) := of_register rfl rfl rfl rfl

theorem shflXor (o : Opnd) : Statement (.shflXor o) := of_register rfl rfl rfl rfl

theorem pushl (o : Opnd) : Statement (.pushl o) := of_register rfl rfl rfl rfl

theorem lredAddS32 (o : Opnd) : Statement (.lredAddS32 o) := of_register rfl rfl rfl rfl

theorem lredAddF32 (o : Opnd) : Statement (.lredAddF32 o) := of_register rfl rfl rfl rfl

theorem lredMinS32 (o : Opnd) : Statement (.lredMinS32 o) := of_register rfl rfl rfl rfl

theorem lredMaxS32 (o : Opnd) : Statement (.lredMaxS32 o) := of_register rfl rfl rfl rfl

theorem lredMinF32 (o : Opnd) : Statement (.lredMinF32 o) := of_register rfl rfl rfl rfl

theorem lredMaxF32 (o : Opnd) : Statement (.lredMaxF32 o) := of_register rfl rfl rfl rfl

theorem scanAddS32 (o : Opnd) : Statement (.scanAddS32 o) := of_register rfl rfl rfl rfl

theorem scanAddF32 (o : Opnd) : Statement (.scanAddF32 o) := of_register rfl rfl rfl rfl

theorem ballot (o : Opnd) : Statement (.ballot o) := of_register rfl rfl rfl rfl

theorem mov (o : Opnd) : Statement (.mov o) := of_register rfl rfl rfl rfl

theorem movil (o : Opnd) : Statement (.movil o) := of_register rfl rfl rfl rfl

theorem movih (o : Opnd) : Statement (.movih o) := of_register rfl rfl rfl rfl

theorem movin (o : Opnd) : Statement (.movin o) := of_register rfl rfl rfl rfl

theorem movout (o : Opnd) : Statement (.movout o) := of_register rfl rfl rfl rfl

theorem gbc (o : Opnd) : Statement (.gbc o) := of_register rfl rfl rfl rfl

theorem laneid (o : Opnd) : Statement (.laneid o) := of_register rfl rfl rfl rfl

theorem pand (o : Opnd) : Statement (.pand o) := of_register rfl rfl rfl rfl

theorem por (o : Opnd) : Statement (.por o) := of_register rfl rfl rfl rfl

theorem pxor (o : Opnd) : Statement (.pxor o) := of_register rfl rfl rfl rfl

theorem pnot (o : Opnd) : Statement (.pnot o) := of_register rfl rfl rfl rfl

theorem pmov (o : Opnd) : Statement (.pmov o) := of_register rfl rfl rfl rfl

theorem mask (o : Opnd) : Statement (.mask o) := of_register rfl rfl rfl rfl

theorem pact (o : Opnd) : Statement (.pact o) := of_register rfl rfl rfl rfl

theorem ld (fmt : BitVec 6) (o : Opnd) : Statement (.ld fmt o) := by
  intro h
  refine ⟨rfl, rfl, ?_⟩
  revert h
  simp only [wellFormed, minorListed, fields, registerInstr, laneRegister, laneMinor15]
  intro h
  split at h <;> simp_all [majorAssigned]

theorem st (fmt : BitVec 6) (o : Opnd) : Statement (.st fmt o) := by
  intro h
  refine ⟨rfl, rfl, ?_⟩
  revert h
  simp only [wellFormed, minorListed, fields, registerInstr, laneRegister, laneMinor16]
  intro h
  split at h <;> simp_all [majorAssigned]

theorem ldt (size : BitVec 6) (o : Opnd) : Statement (.ldt size o) := by
  intro h
  refine ⟨rfl, rfl, ?_⟩
  revert h
  simp only [wellFormed, minorListed, fields, registerInstr, laneRegister, laneMinor17]
  intro h
  split at h <;> simp_all [majorAssigned]

theorem stt (size : BitVec 6) (o : Opnd) : Statement (.stt size o) := by
  intro h
  refine ⟨rfl, rfl, ?_⟩
  revert h
  simp only [wellFormed, minorListed, fields, registerInstr, laneRegister, laneMinor18]
  intro h
  split at h <;> simp_all [majorAssigned]

theorem prefL1 (o : Opnd) : Statement (.prefL1 o) := of_register rfl rfl rfl rfl

theorem prefL2 (o : Opnd) : Statement (.prefL2 o) := of_register rfl rfl rfl rfl

theorem atomAddS32 (order : BitVec 2) (o : Opnd) : Statement (.atomAddS32 order o) := by
  obtain rfl | rfl | rfl | rfl := two_bits order <;> exact of_register rfl rfl rfl rfl

theorem atomAddS64 (order : BitVec 2) (o : Opnd) : Statement (.atomAddS64 order o) := by
  obtain rfl | rfl | rfl | rfl := two_bits order <;> exact of_register rfl rfl rfl rfl

theorem atomAddF32 (order : BitVec 2) (o : Opnd) : Statement (.atomAddF32 order o) := by
  obtain rfl | rfl | rfl | rfl := two_bits order <;> exact of_register rfl rfl rfl rfl

theorem atomMinS32 (order : BitVec 2) (o : Opnd) : Statement (.atomMinS32 order o) := by
  obtain rfl | rfl | rfl | rfl := two_bits order <;> exact of_register rfl rfl rfl rfl

theorem atomMaxS32 (order : BitVec 2) (o : Opnd) : Statement (.atomMaxS32 order o) := by
  obtain rfl | rfl | rfl | rfl := two_bits order <;> exact of_register rfl rfl rfl rfl

theorem atomMinN32 (order : BitVec 2) (o : Opnd) : Statement (.atomMinN32 order o) := by
  obtain rfl | rfl | rfl | rfl := two_bits order <;> exact of_register rfl rfl rfl rfl

theorem atomMaxN32 (order : BitVec 2) (o : Opnd) : Statement (.atomMaxN32 order o) := by
  obtain rfl | rfl | rfl | rfl := two_bits order <;> exact of_register rfl rfl rfl rfl

theorem atomAnd (order : BitVec 2) (o : Opnd) : Statement (.atomAnd order o) := by
  obtain rfl | rfl | rfl | rfl := two_bits order <;> exact of_register rfl rfl rfl rfl

theorem atomOr (order : BitVec 2) (o : Opnd) : Statement (.atomOr order o) := by
  obtain rfl | rfl | rfl | rfl := two_bits order <;> exact of_register rfl rfl rfl rfl

theorem atomXor (order : BitVec 2) (o : Opnd) : Statement (.atomXor order o) := by
  obtain rfl | rfl | rfl | rfl := two_bits order <;> exact of_register rfl rfl rfl rfl

theorem atomExch (order : BitVec 2) (o : Opnd) : Statement (.atomExch order o) := by
  obtain rfl | rfl | rfl | rfl := two_bits order <;> exact of_register rfl rfl rfl rfl

theorem atomInc (order : BitVec 2) (o : Opnd) : Statement (.atomInc order o) := by
  obtain rfl | rfl | rfl | rfl := two_bits order <;> exact of_register rfl rfl rfl rfl

theorem casB32 (o : Opnd) : Statement (.casB32 o) := of_register rfl rfl rfl rfl

theorem casB64 (o : Opnd) : Statement (.casB64 o) := of_register rfl rfl rfl rfl

theorem hcall (o : Opnd) : Statement (.hcall o) := of_register rfl rfl rfl rfl

theorem hreply (o : Opnd) : Statement (.hreply o) := of_register rfl rfl rfl rfl

theorem harg (o : Opnd) : Statement (.harg o) := of_register rfl rfl rfl rfl

theorem mxm (fmts : BitVec 6) (o : Opnd) : Statement (.mxm fmts o) := by
  intro h
  refine ⟨rfl, rfl, ?_⟩
  revert h
  simp only [wellFormed, minorListed, fields, registerInstr, laneRegister, laneMinor1D]
  intro h
  split at h <;> simp_all [majorAssigned]

theorem drainF32 (o : Opnd) : Statement (.drainF32 o) := of_register rfl rfl rfl rfl

theorem drainF16 (o : Opnd) : Statement (.drainF16 o) := of_register rfl rfl rfl rfl

theorem drainBf16 (o : Opnd) : Statement (.drainBf16 o) := of_register rfl rfl rfl rfl

theorem drainE4m3mx (o : Opnd) : Statement (.drainE4m3mx o) := of_register rfl rfl rfl rfl

theorem drainE2m1x (o : Opnd) : Statement (.drainE2m1x o) := of_register rfl rfl rfl rfl

theorem drainL8x2 (o : Opnd) : Statement (.drainL8x2 o) := of_register rfl rfl rfl rfl

theorem drainArgmax (o : Opnd) : Statement (.drainArgmax o) := of_register rfl rfl rfl rfl

theorem accz (o : Opnd) : Statement (.accz o) := of_register rfl rfl rfl rfl

theorem ipa (o : Opnd) : Statement (.ipa o) := of_register rfl rfl rfl rfl

theorem ipaPersp (o : Opnd) : Statement (.ipaPersp o) := of_register rfl rfl rfl rfl

theorem pixinfo (o : Opnd) : Statement (.pixinfo o) := of_register rfl rfl rfl rfl

theorem sample (o : Opnd) : Statement (.sample o) := of_register rfl rfl rfl rfl

theorem samplel (o : Opnd) : Statement (.samplel o) := of_register rfl rfl rfl rfl

theorem blend (o : Opnd) : Statement (.blend o) := of_register rfl rfl rfl rfl

theorem bin (o : Opnd) : Statement (.bin o) := of_register rfl rfl rfl rfl

theorem recalloc (o : Opnd) : Statement (.recalloc o) := of_register rfl rfl rfl rfl

theorem recsend (o : Opnd) : Statement (.recsend o) := of_register rfl rfl rfl rfl

theorem gadd (o : Opnd) : Statement (.gadd o) := of_register rfl rfl rfl rfl

theorem gsub (o : Opnd) : Statement (.gsub o) := of_register rfl rfl rfl rfl

theorem gmul (o : Opnd) : Statement (.gmul o) := of_register rfl rfl rfl rfl

theorem gmulhS32 (o : Opnd) : Statement (.gmulhS32 o) := of_register rfl rfl rfl rfl

theorem gmulhN32 (o : Opnd) : Statement (.gmulhN32 o) := of_register rfl rfl rfl rfl

theorem gminS32 (o : Opnd) : Statement (.gminS32 o) := of_register rfl rfl rfl rfl

theorem gminN32 (o : Opnd) : Statement (.gminN32 o) := of_register rfl rfl rfl rfl

theorem gmaxS32 (o : Opnd) : Statement (.gmaxS32 o) := of_register rfl rfl rfl rfl

theorem gmaxN32 (o : Opnd) : Statement (.gmaxN32 o) := of_register rfl rfl rfl rfl

theorem gand (o : Opnd) : Statement (.gand o) := of_register rfl rfl rfl rfl

theorem gor (o : Opnd) : Statement (.gor o) := of_register rfl rfl rfl rfl

theorem gxor (o : Opnd) : Statement (.gxor o) := of_register rfl rfl rfl rfl

theorem gnot (o : Opnd) : Statement (.gnot o) := of_register rfl rfl rfl rfl

theorem gshl (o : Opnd) : Statement (.gshl o) := of_register rfl rfl rfl rfl

theorem gshr (o : Opnd) : Statement (.gshr o) := of_register rfl rfl rfl rfl

theorem gsar (o : Opnd) : Statement (.gsar o) := of_register rfl rfl rfl rfl

theorem gpopc (o : Opnd) : Statement (.gpopc o) := of_register rfl rfl rfl rfl

theorem gclz (o : Opnd) : Statement (.gclz o) := of_register rfl rfl rfl rfl

theorem gadd64 (o : Opnd) : Statement (.gadd64 o) := of_register rfl rfl rfl rfl

theorem gsub64 (o : Opnd) : Statement (.gsub64 o) := of_register rfl rfl rfl rfl

theorem gaddi (o : OpndI) : Statement (.gaddi o) := ⟨rfl, fun _ => rfl⟩

theorem gandi (o : OpndI) : Statement (.gandi o) := ⟨rfl, fun _ => rfl⟩

theorem gori (o : OpndI) : Statement (.gori o) := ⟨rfl, fun _ => rfl⟩

theorem gmovl (o : OpndLit) : Statement (.gmovl o) := ⟨rfl, rfl, rfl⟩

theorem gaddl (o : OpndLit) : Statement (.gaddl o) := ⟨rfl, rfl, rfl⟩

theorem gcmpEq (o : Opnd) : Statement (.gcmpEq o) := of_register rfl rfl rfl rfl

theorem gcmpNe (o : Opnd) : Statement (.gcmpNe o) := of_register rfl rfl rfl rfl

theorem gcmpLtS32 (o : Opnd) : Statement (.gcmpLtS32 o) := of_register rfl rfl rfl rfl

theorem gcmpLeS32 (o : Opnd) : Statement (.gcmpLeS32 o) := of_register rfl rfl rfl rfl

theorem gcmpLtN32 (o : Opnd) : Statement (.gcmpLtN32 o) := of_register rfl rfl rfl rfl

theorem gcmpLeN32 (o : Opnd) : Statement (.gcmpLeN32 o) := of_register rfl rfl rfl rfl

theorem gsel (o : Opnd) : Statement (.gsel o) := of_register rfl rfl rfl rfl

theorem v2g (o : Opnd) : Statement (.v2g o) := by
  intro h
  refine ⟨rfl, rfl, ?_⟩
  have hb : o.ext.imm.getLsbD 7 = false := by
    simp only [wellFormed, illegalSub, fields, sig, reservedNonzero, Bool.and_eq_true] at h
    have h := h.2
    split at h
    · simp at h
    · rename_i h1
      simp at h1
      have h2 := congrArg (fun v => BitVec.getLsbD v 7) h1.1.2
      simpa using h2
  simp at hb
  simp [registerInstr, majorAssigned, groupRegister, groupMinor07, hb]

theorem v2gLane (o : Opnd) : Statement (.v2gLane o) := by
  intro h
  refine ⟨rfl, rfl, ?_⟩
  have hb : o.ext.imm.getLsbD 7 = true := by
    simp only [wellFormed, illegalSub, fields, sig, reservedValue, Bool.and_eq_true] at h
    have h := h.2
    repeat (first | split at h | contradiction)
    simp_all
  simp at hb
  simp [registerInstr, majorAssigned, groupRegister, groupMinor07, hb]

theorem bra (off : BitVec 24) : Statement (.bra off) := ⟨rfl, fun _ => rfl⟩

theorem call (off : BitVec 24) : Statement (.call off) := ⟨rfl, fun _ => rfl⟩

theorem jmpg (o : Opnd) : Statement (.jmpg o) := of_register rfl rfl rfl rfl

theorem callg (o : Opnd) : Statement (.callg o) := of_register rfl rfl rfl rfl

theorem ret (o : Opnd) : Statement (.ret o) := of_register rfl rfl rfl rfl

theorem brcEq (o : Opnd) : Statement (.brcEq o) := of_register rfl rfl rfl rfl

theorem brcNe (o : Opnd) : Statement (.brcNe o) := of_register rfl rfl rfl rfl

theorem brcLtS32 (o : Opnd) : Statement (.brcLtS32 o) := of_register rfl rfl rfl rfl

theorem brcLeS32 (o : Opnd) : Statement (.brcLeS32 o) := of_register rfl rfl rfl rfl

theorem brcLtN32 (o : Opnd) : Statement (.brcLtN32 o) := of_register rfl rfl rfl rfl

theorem brcLeN32 (o : Opnd) : Statement (.brcLeN32 o) := of_register rfl rfl rfl rfl

theorem brpAny (o : Opnd) : Statement (.brpAny o) := of_register rfl rfl rfl rfl

theorem brpAll (o : Opnd) : Statement (.brpAll o) := of_register rfl rfl rfl rfl

theorem brpNone (o : Opnd) : Statement (.brpNone o) := of_register rfl rfl rfl rfl

theorem regang (o : Opnd) : Statement (.regang o) := of_register rfl rfl rfl rfl

theorem exit (o : Opnd) : Statement (.exit o) := of_register rfl rfl rfl rfl

theorem waitAny (o : Opnd) : Statement (.waitAny o) := of_register rfl rfl rfl rfl

theorem waitAll (o : Opnd) : Statement (.waitAll o) := of_register rfl rfl rfl rfl

theorem barSync (o : Opnd) : Statement (.barSync o) := of_register rfl rfl rfl rfl

theorem barArrive (o : Opnd) : Statement (.barArrive o) := of_register rfl rfl rfl rfl

theorem barCrew (o : Opnd) : Statement (.barCrew o) := of_register rfl rfl rfl rfl

theorem phase (o : Opnd) : Statement (.phase o) := of_register rfl rfl rfl rfl

theorem safe (o : Opnd) : Statement (.safe o) := of_register rfl rfl rfl rfl

theorem qpush (o : Opnd) : Statement (.qpush o) := of_register rfl rfl rfl rfl

theorem qpop (o : Opnd) : Statement (.qpop o) := of_register rfl rfl rfl rfl

theorem qoffer (o : Opnd) : Statement (.qoffer o) := of_register rfl rfl rfl rfl

theorem qpoll (o : Opnd) : Statement (.qpoll o) := of_register rfl rfl rfl rfl

theorem copy (o : Opnd) : Statement (.copy o) := of_register rfl rfl rfl rfl

theorem copyw (o : Opnd) : Statement (.copyw o) := of_register rfl rfl rfl rfl

theorem copys (o : Opnd) : Statement (.copys o) := of_register rfl rfl rfl rfl

theorem gateinit (o : Opnd) : Statement (.gateinit o) := of_register rfl rfl rfl rfl

theorem gatearm (o : Opnd) : Statement (.gatearm o) := of_register rfl rfl rfl rfl

theorem publish (o : Opnd) : Statement (.publish o) := of_register rfl rfl rfl rfl

theorem xfm (o : Opnd) : Statement (.xfm o) := of_register rfl rfl rfl rfl

theorem acqacc (o : Opnd) : Statement (.acqacc o) := of_register rfl rfl rfl rfl

theorem relacc (o : Opnd) : Statement (.relacc o) := of_register rfl rfl rfl rfl

theorem hdone (o : Opnd) : Statement (.hdone o) := of_register rfl rfl rfl rfl

theorem hinfo (o : Opnd) : Statement (.hinfo o) := of_register rfl rfl rfl rfl

theorem tdone (o : Opnd) : Statement (.tdone o) := of_register rfl rfl rfl rfl

theorem tileinfo (o : Opnd) : Statement (.tileinfo o) := of_register rfl rfl rfl rfl

theorem fenceAcq (o : Opnd) : Statement (.fenceAcq o) := of_register rfl rfl rfl rfl

theorem fenceRel (o : Opnd) : Statement (.fenceRel o) := of_register rfl rfl rfl rfl

theorem fenceAcqrel (o : Opnd) : Statement (.fenceAcqrel o) := of_register rfl rfl rfl rfl

theorem gsys (o : Opnd) : Statement (.gsys o) := of_register rfl rfl rfl rfl

theorem ssys (o : Opnd) : Statement (.ssys o) := of_register rfl rfl rfl rfl

theorem trap (o : Opnd) : Statement (.trap o) := of_register rfl rfl rfl rfl

theorem rte (o : Opnd) : Statement (.rte o) := of_register rfl rfl rfl rfl

theorem bkpt (o : Opnd) : Statement (.bkpt o) := of_register rfl rfl rfl rfl

theorem nop (o : Opnd) : Statement (.nop o) := of_register rfl rfl rfl rfl

theorem replayall (o : Opnd) : Statement (.replayall o) := of_register rfl rfl rfl rfl

theorem tlbinv (o : Opnd) : Statement (.tlbinv o) := of_register rfl rfl rfl rfl

theorem setseg (o : Opnd) : Statement (.setseg o) := of_register rfl rfl rfl rfl

theorem arrayError (e : ArrayErr) : Statement (.arrayError e) := rfl

theorem controlNodePoolGrowth (port : Fin 4) (p : Fin 8) (units : Option Nat) : Statement (.controlNodePoolGrowth port p units) := rfl

theorem controlNodeTileAssignment (port : Fin 4) (p : Fin 8) (tile : Nat) (at_ : CoreAt) : Statement (.controlNodeTileAssignment port p tile at_) := rfl

theorem controlNodeQueueHeadOrder (port : Fin 4) (p : Fin 8) (queues : List Nat) : Statement (.controlNodeQueueHeadOrder port p queues) := rfl

end Sys2Proof.Laws.RoundTrip
end

