-- ==== Sys2Proof/Laws/Wave.lean ====
section
/-! SUPPORT. What writing registers, advancing a gang, replacing a wave and taking a trap change, and what they leave. -/

namespace Sys2Proof.Laws

open Sys2Proof.Machine Sys2Proof.Safety

/-- Another place of a list stands. -/
theorem getD_setAt_ne {α : Type} {d v : α} {n k : Nat} (h : k ≠ n) : ∀ {l : List α}, (setAt l n v).getD k d = l.getD k d := by
  intro l
  induction l generalizing n k with
  | nil => rfl
  | cons x r ih =>
    cases n with
    | zero => cases k with
      | zero => exact absurd rfl h
      | succ k => rfl
    | succ n => cases k with
      | zero => rfl
      | succ k =>
        have := @ih n k (by omega)
        simpa [setAt, List.getD_cons_succ] using this

/-- The place that is set, if the list has it. -/
theorem getD_setAt_same {α : Type} {d v : α} {n : Nat} : ∀ {l : List α}, n < l.length → (setAt l n v).getD n d = v := by
  intro l
  induction l generalizing n with
  | nil => intro h; exact absurd h (by simp)
  | cons x r ih =>
    intro h
    cases n with
    | zero => rfl
    | succ n => simpa [setAt, List.getD_cons_succ] using @ih n (by simpa using h)

/-- A place past the end is not set. -/
theorem setAt_eq_self {α : Type} {v : α} {n : Nat} : ∀ {l : List α}, l.length ≤ n → setAt l n v = l := by
  intro l
  induction l generalizing n with
  | nil => intro _; rfl
  | cons x r ih =>
    intro h
    cases n with
    | zero => exact absurd h (by simp)
    | succ n => simp only [setAt, ih (show r.length ≤ n by simpa using h)]

/-- Lane l of a register built lane by lane. -/
theorem at_build {f : Nat → Word} {l : Nat} (h : l < 96) : (Lanes.build f).at_ l = f l := by
  simp [Lanes.at_, Lanes.build, List.getD, laneCount, h]

/-- Other lane registers stand. -/
theorem readV_writeV_ne {w : Wave} {n r : Nat} {m : LaneMask} {f : Nat → Word} (h : r ≠ n) : (w.writeV n m f).readV r = w.readV r :=
  getD_setAt_ne h

/-- A lane that is not written stands, in every register. -/
theorem readV_writeV_out {w : Wave} {n r l : Nat} {m : LaneMask} {f : Nat → Word} (hl : l < 96) (hm : m.getLsbD l = false) :
    ((w.writeV n m f).readV r).at_ l = (w.readV r).at_ l := by
  by_cases h : r = n
  · subst h
    by_cases hn : r < w.v.length
    · have : (w.writeV r m f).readV r = Lanes.build fun l => if m.getLsbD l then f l else (w.readV r).at_ l := getD_setAt_same hn
      rw [this, at_build hl, hm]
      simp
    · have : (w.writeV r m f).readV r = w.readV r := congrArg (fun v : List Lanes => v.getD r []) (setAt_eq_self (by omega))
      rw [this]
  · rw [readV_writeV_ne h]

/-- A lane that is written reads the word given for it. -/
theorem readV_writeV_in {w : Wave} {n l : Nat} {m : LaneMask} {f : Nat → Word} (hn : n < w.v.length) (hl : l < 96)
    (hm : m.getLsbD l = true) : ((w.writeV n m f).readV n).at_ l = f l := by
  have : (w.writeV n m f).readV n = Lanes.build fun l => if m.getLsbD l then f l else (w.readV n).at_ l := getD_setAt_same hn
  rw [this, at_build hl, hm]
  simp

/-- Other predicates stand. -/
theorem readP_writeP_ne {w : Wave} {n k : Nat} {m x : LaneMask} (h : k ≠ n) : (w.writeP n m x).readP k = w.readP k := by
  unfold Wave.writeP
  split
  · rfl
  · unfold Wave.readP
    split
    · rfl
    · exact getD_setAt_ne h

/-- A lane that is not written stands, in every predicate. -/
theorem readP_writeP_out {w : Wave} {n k l : Nat} {m x : LaneMask} (hm : m.getLsbD l = false) :
    ((w.writeP n m x).readP k).getLsbD l = (w.readP k).getLsbD l := by
  by_cases h : k = n
  · subst h
    unfold Wave.writeP
    split
    · rfl
    · rename_i h7
      simp only [Wave.readP, h7, if_false]
      by_cases hn : k < w.p.length
      · simp only [getD_setAt_same hn, BitVec.getLsbD_or, BitVec.getLsbD_and, BitVec.getLsbD_not, hm, Bool.and_false, Bool.or_false,
          Bool.not_false, Bool.and_true]
        by_cases hl : l < 96
        · simp [hl]
        · simp [BitVec.getLsbD_of_ge _ _ (show 96 ≤ l by omega)]
      · rw [setAt_eq_self (by omega)]
  · rw [readP_writeP_ne h]

/-! ## Gangs, waves and the state -/

/-- Advancing a gang leaves the other gangs. -/
theorem mem_gangs_advance {w : Wave} {g x : Gang} {pc : Addr} (h : x.slices ≠ g.slices) : x ∈ (w.advance g pc).gangs ↔ x ∈ w.gangs := by
  simp only [Wave.advance, updWhere, List.mem_map]
  constructor
  · rintro ⟨y, hy, rfl⟩
    by_cases hs : y.slices = g.slices
    · simp only [hs, beq_self_eq_true, if_true] at h
      exact absurd rfl h
    · have hb : (y.slices == g.slices) = false := by simpa using hs
      simp only [hb, Bool.false_eq_true, if_false]
      exact hy
  · intro hx
    refine ⟨x, hx, ?_⟩
    have hb : (x.slices == g.slices) = false := by simpa using h
    simp only [hb, Bool.false_eq_true, if_false]

/-- Replacing a wave leaves every other one. -/
theorem wave?_putWave_ne {s : State} {w : Wave} {r : WaveRef} (h : r ≠ w.ref) : (s.putWave w).wave? r = s.wave? r := by
  simp only [State.wave?, State.putWave, updWhere]
  induction s.waves with
  | nil => rfl
  | cons x l ih =>
    simp only [List.map_cons, List.find?_cons]
    by_cases hx : x.ref = w.ref
    · have h1 : (w.ref == r) = false := by simpa using fun hh => h hh.symm
      have h2 : (x.ref == r) = false := by rw [hx]; exact h1
      simp only [hx, beq_self_eq_true, if_true, h1, ih]
    · have hb : (x.ref == w.ref) = false := by simpa using hx
      simp only [hb, Bool.false_eq_true, if_false, ih]

/-- The replaced wave is found, where there was one. -/
theorem wave?_putWave_same {s : State} {w x : Wave} (h : s.wave? w.ref = some x) : (s.putWave w).wave? w.ref = some w := by
  revert h
  simp only [State.wave?, State.putWave, updWhere]
  induction s.waves with
  | nil => exact fun h => absurd h (by simp)
  | cons y l ih =>
    simp only [List.map_cons, List.find?_cons]
    by_cases hy : y.ref = w.ref
    · simp [hy]
    · have hb : (y.ref == w.ref) = false := by simpa using hy
      simp only [hb, Bool.false_eq_true, if_false]
      exact ih

/-- What an instruction that is done leaves of the state. -/
theorem retire_frame (s : State) (c : Issue) (i : Instr) (w : Wave) :
    (s.retire c i w).mem = s.mem ∧ (s.retire c i w).blocks = s.blocks ∧ (s.retire c i w).crews = s.crews ∧
      (s.retire c i w).parts = s.parts ∧ (s.retire c i w).queues = s.queues ∧ (s.retire c i w).held = s.held ∧
      (s.retire c i w).stamp = s.stamp := ⟨rfl, rfl, rfl, rfl, rfl, rfl, rfl⟩

/-- Everything that issuing can come to: no issuer; a check that waits, traps or fails the context; or the instruction's own effect. -/
theorem issue_cases (i : Instr) (n : Issue → Needs) (s : State) (body : Issue → State) :
    (s.issuer = none ∧ issue i n s body = .fault .noIssuer) ∨
    ∃ c, s.issuer = some c ∧
      (issue i n s body = .next (body c) ∨
        (∃ x, issue i n s body = .next (s.putWave (c.wave.park c.gang x))) ∨
        (∃ t, issue i n s body = .next (s.takeTrap c.wave t)) ∨
        ∃ k, issue i n s body = .next (s.failContext c.crew.part c.crew.ctx.ctag k)) := by
  cases h : s.issuer with
  | none => exact .inl ⟨rfl, by simp only [issue, h]⟩
  | some c =>
    refine .inr ⟨c, rfl, ?_⟩
    simp only [issue, h]
    cases c.check i (n c) with
    | ok => exact .inl rfl
    | wait => exact .inr (.inl ⟨_, rfl⟩)
    | trap t => exact .inr (.inr (.inl ⟨_, rfl⟩))
    | fail k => exact .inr (.inr (.inr ⟨_, rfl⟩))

/-- Everything that taking a trap can come to: the wave is in its handler; its combiner's batch ends; its context fails. -/
theorem takeTrap_cases (s : State) (w : Wave) (t : Trap) (e : Option (Nat × Nat)) :
    s.takeTrap w t e = s.putWave (w.enterHandler t e) ∨ (∃ o, s.takeTrap w t e = s.combinerTrap o t.cause) ∨
      (∃ p tag k, s.takeTrap w t e = s.failContext p tag k) ∨ (s.crew? w.ref.crew = none ∧ s.takeTrap w t e = s) := by
  unfold State.takeTrap
  cases h : s.crew? w.ref.crew with
  | none => exact .inr (.inr (.inr ⟨rfl, rfl⟩))
  | some c =>
    dsimp only
    split
    · exact .inr (.inl ⟨_, rfl⟩)
    · split
      · exact .inr (.inr (.inl ⟨_, _, _, rfl⟩))
      · split
        · exact .inr (.inr (.inl ⟨_, _, _, rfl⟩))
        · exact .inl rfl

end Sys2Proof.Laws
end

