-- ==== Sys2Proof/Tests/Slice0.lean ====
section
/-! SUPPORT. The model's own tests: words from the encoding tables, what is not well formed, single steps whose results
are worked out from the rules, and for each statement a state and operands that meet its hypotheses. -/

open Sys2Proof Sys2Proof.Machine Sys2Proof.Safety

noncomputable section

set_option Elab.async false

namespace Sys2Proof.Tests

/-! ## Small states -/

def r0 : WaveRef := { crew := 0, rank := 0, wave := 0 }

/-- A crew of one wave with 64 lane registers, one SAFE and one PHASE. -/
def crew0 : Crew := probeCrew 0 []

/-- Its wave at launch, with 0x1000 bytes of program range in its tile window. -/
def wave0 : Wave := launchWave r0 64 0 0 1 0 crew0.ctx (segsOf crew0.ctx 0x2000 0) (BitVec.allOnes 96) 0x10000

def block0 : Block := { newBlock 0 0 0 crew0.image with tileSize := 0x2000 }

/-- The wave in its handler. -/
def sup0 : Wave := { wave0 with
  sup := true, handlerBase := 0x4000
  frame := some { gangs := wave0.gangs, act := wave0.act, sync := true, slices := allSlices, entry := none } }

/-- A state of one crew, one block and one wave, whose gang of slice 0 issues. -/
def st (c : Crew) (w : Wave) (b : Block) : State :=
  { State.reset with crews := [c], blocks := [b], waves := [w], cur := some (r0, 0), nextCrew := 1 }

def s0 : State := st crew0 wave0 block0

/-- The issuer of such a state. -/
def by_ (c : Crew) (w : Wave) : Issue := { wave := w, gang := w.gangs.headD { slices := 0, pc := 0, wait := .ready }, crew := c }

def c0 : Issue := by_ crew0 wave0

/-- What Ready asks beside the issuer, as a Bool. -/
def passes (c : Issue) (i : Instr) : Bool :=
  operandsFull c.wave i && decide (outside i c.wave.regs = none) && roleAllows c.wave.role (classOf i) &&
    (!c.crew.isCombiner || combinerAllows i) && (!c.wave.dbgCtl.getLsbD 0 || decide (uninitSource c.wave i = none))

theorem ready_of {s : State} {c : Issue} {i : Instr} (h : (decide (s.issuer = some c) && passes c i) = true) : Ready s c i := by
  simp only [passes, Bool.and_eq_true, Bool.or_eq_true, decide_eq_true_eq, Bool.not_eq_true'] at h
  exact ⟨h.1, h.2.1.1.1.1, h.2.1.1.1.2, h.2.1.1.2, h.2.1.2, h.2.2⟩

/-- An extension word of C, MOD and IMM16, for every lane. -/
def ext (c : BitVec 6) (mod : BitVec 3) (imm : BitVec 16) : Option Ext :=
  some { c := c, pr := 7, pn := false, ea := false, eb := false, ec := false, mod := mod, imm := imm }

/-- D = 8, A = 4, B = 6, and the extension word given. -/
def o1 (x : Option Ext) : Opnd := { d := 8, a := 4, b := 6, x := x }

/-- The wave after an instruction of a state, where it answers a next state. -/
def after (i : Instr) (s : State) : Option Wave :=
  match exec i s with
  | .next t => t.wave? r0
  | _ => none

/-- The word of lane l of register r after an instruction. -/
def lane (i : Instr) (s : State) (r l : Nat) : Option Word := (after i s).map fun w => (w.readV r).at_ l

/-- Group register r after an instruction. -/
def group (i : Instr) (s : State) (r : Nat) : Option Word := (after i s).map fun w => w.readG r

/-- The cause, SUB, address and lanes of the trap that an instruction takes, with a handler in place. -/
def trapOf (i : Instr) (s : State) : Option (Nat × Nat × BitVec 64 × LaneMask) :=
  (after i s).bind fun w => if w.sup then some (w.trapCause.toNat % 4096, w.trapCause.toNat / 2 ^ 16 % 32, w.trapAddr, w.trapLanes) else none

/-- Register r of a wave is x in every lane. -/
def withV (w : Wave) (r : Nat) (x : Word) : Wave := w.writeV r (BitVec.allOnes 96) fun _ => x
def withG (w : Wave) (r : Nat) (x : Word) : Wave := w.writeG allSlices r x

/-- A and B of a lane instruction as words. -/
def sAB (a b : Word) : State := st crew0 (withV (withV wave0 4 a) 6 b) block0
/-- A and B of a group instruction as words. -/
def gAB (a b : Word) : State := st crew0 (withG (withG wave0 4 a) 6 b) block0
/-- The handler base is set. -/
def handled (w : Wave) : Wave := { w with handlerBase := 0x4000 }

/-! ## Decoding: words from the encoding tables (R137, R138, R144, R145, R147) -/

/-! ## Decoding: the words that the spec writes out (06_instruction_formats, 07_lane_instructions, 08_group_instructions,
14_programs_rendering, 15_programs_compute, R340, R364), and words of the other families from R137, R138, R144, R145 -/

/-- An extension word of PR, C, MOD and IMM16. -/
def extP (pr : BitVec 3) (c : BitVec 6) (mod : BitVec 3) (imm : BitVec 16) : Option Ext :=
  some { c := c, pr := pr, pn := false, ea := false, eb := false, ec := false, mod := mod, imm := imm }

/-- The two words decode to the instruction, and the instruction encodes to the words. -/
def means (w0 w1 : Word) (i : Instr) : Bool :=
  decide (decodeWords w0 w1 = .ok i) && decide (encode i = if w0.getLsbD 30 then [w0, w1] else [w0])

theorem test_decode_formats : [
    means 0x000C1080 0 (.iadd { d := 3, a := 1, b := 2, x := none }),
    means 0x08040202 0 (.icmpLtS32 { d := 1, a := 0, b := 8, x := none }),
    means 0x4B105180 0x1D900000 (.ffma { d := 4, a := 5, b := 6, x := some { c := 7, pr := 3, pn := false, ea := false, eb := true, ec := false, mod := 0, imm := 0 } }),
    means 0x4B105180 0x1DC00000 (.ffma { d := 4, a := 5, b := 6, x := some { c := 7, pr := 3, pn := true, ea := false, eb := false, ec := false, mod := 0, imm := 0 } }),
    means 0x81186FFC 0 (.gaddi { d := 6, a := 6, imm := 0xFFC }),
    means 0xC4280000 0x12345678 (.gmovl { d := 10, a := 0, b := 0, lit := 0x12345678 }),
    means 0x88000005 0 (.bra 5), means 0x88FFFFFD 0 (.bra 0xFFFFFD),
    means 0xD91C0000 0x03800008 (.gsys { d := 7, a := 0, b := 0, x := ext 0 0 8 })].all id = true := by decide

theorem test_decode_group_one : [
    means 0x801C6140 0 (.gadd { d := 7, a := 6, b := 5, x := none }),
    means 0xC4186001 0x00000100 (.gaddl { d := 6, a := 6, b := 0, lit := 0x100 }),
    means 0x852461C2 0 (.gcmpLtS32 { d := 9, a := 6, b := 7, x := none }),
    means 0xC7303000 0x038000A8 (.v2gLane { d := 12, a := 3, b := 0, x := ext 0 0 0xA8 }),
    means 0x89000010 0 (.call 0x10),
    means 0x8C03A002 0 (.ret { d := 0, a := 58, b := 0, x := none }),
    means 0xCA0061C2 0x0380FFFC (.brcLtS32 { d := 0, a := 6, b := 7, x := ext 0 0 0xFFFC }),
    means 0xCB001000 0x03800003 (.brpAny { d := 0, a := 1, b := 0, x := ext 0 0 3 }),
    means 0x8D000000 0 (.regang { d := 0, a := 0, b := 0, x := none }),
    means 0x8D000001 0 (.exit { d := 0, a := 0, b := 0, x := none })].all id = true := by decide

theorem test_decode_group_two : [
    means 0xCE508400 0x03800000 (.waitAny { d := 20, a := 8, b := 16, x := ext 0 0 0 }),
    means 0xCE858801 0x03800000 (.waitAll { d := 33, a := 24, b := 32, x := ext 0 0 0 }),
    means 0xCF000002 0x03800000 (.barCrew { d := 0, a := 0, b := 0, x := ext 0 0 0 }),
    means 0xD0000000 0x03800001 (.phase { d := 0, a := 0, b := 0, x := ext 0 0 1 }),
    means 0xD2009000 0x03800002 (.qpush { d := 0, a := 9, b := 0, x := ext 0 0 2 }),
    means 0xD2240001 0x03800002 (.qpop { d := 9, a := 0, b := 0, x := ext 0 0 2 }),
    means 0xD8000000 0x03860000 (.fenceAcq { d := 0, a := 0, b := 0, x := ext 0 6 0 }),
    means 0xD9006001 0x03800010 (.ssys { d := 0, a := 6, b := 0, x := ext 0 0 0x10 }),
    means 0xD9006008 0x0380003C (.setseg { d := 0, a := 6, b := 0, x := ext 0 0 0x3C })].all id = true := by decide

theorem test_decode_system : [
    means 0xD9000006 0x03800000 (.replayall { d := 0, a := 0, b := 0, x := ext 0 0 0 }),
    means 0xD9000002 0x0380FFFF (.trap { d := 0, a := 0, b := 0, x := ext 0 0 0xFFFF }),
    means 0xD9000004 0x03800001 (.bkpt { d := 0, a := 0, b := 0, x := ext 0 0 1 }),
    means 0xD9000003 0x03800000 (.rte { d := 0, a := 0, b := 0, x := ext 0 0 0 }),
    means 0xD9000005 0x03800000 (.nop { d := 0, a := 0, b := 0, x := ext 0 0 0 })].all id = true := by decide

theorem test_decode_rendering : [
    means 0x46043051 0x038000E8 (.bfi { d := 1, a := 3, b := 1, x := ext 0 0 0xE8 }),
    means 0x5830E042 0x01000000 (.stt 2 { d := 12, a := 14, b := 1, x := extP 2 0 0 0 }),
    means 0x53308003 0x01800000 (.movin { d := 12, a := 8, b := 0, x := extP 3 0 0 0 }),
    means 0x5D184152 0x00870000 (.mxm 0x12 { d := 6, a := 4, b := 5, x := extP 1 0 7 0 }),
    means 0x5E008001 0x08800000 (.drainF16 { d := 0, a := 8, b := 0, x := extP 1 2 0 0 }),
    means 0x5708A041 0x00800010 (.ldt 1 { d := 2, a := 10, b := 1, x := extP 1 0 0 0x10 }),
    means 0x5F00C205 0x00800000 (.blend { d := 0, a := 12, b := 8, x := extP 1 0 0 0 }),
    means 0x5F002205 0x00810000 (.blend { d := 0, a := 2, b := 8, x := extP 1 0 1 0 })].all id = true := by decide

theorem test_decode_compute : [
    means 0x60280000 0x00800001 (.recalloc { d := 10, a := 0, b := 0, x := extP 1 0 0 1 }),
    means 0x5600A044 0x01800000 (.st 4 { d := 0, a := 10, b := 1, x := extP 3 0 0 0 }),
    means 0x6000A001 0x01800000 (.recsend { d := 0, a := 10, b := 0, x := extP 3 0 0 0 }),
    means 0x5B510080 0x00800014 (.hcall { d := 20, a := 16, b := 2, x := extP 1 0 0 0x14 }),
    means 0x5B040002 0x03800000 (.harg { d := 1, a := 0, b := 0, x := ext 0 0 0 }),
    means 0x5220700B 0x03830001 (.scanAddS32 { d := 8, a := 7, b := 0, x := ext 0 3 1 }),
    means 0x5B00A001 0x03800000 (.hreply { d := 0, a := 10, b := 0, x := ext 0 0 0 }),
    means 0x51184380 0x00800000 (.qlatX2 { d := 6, a := 4, b := 14, x := extP 1 0 0 0 }),
    means 0x5600A182 0x01001000 (.st 2 { d := 0, a := 10, b := 6, x := extP 2 0 0 0x1000 }),
    means 0x5D1904B0 0x02000100 (.mxm 0x30 { d := 6, a := 16, b := 18, x := extP 4 0 0 0x100 }),
    means 0x5E014583 0x02000700 (.drainE4m3mx { d := 0, a := 20, b := 22, x := extP 4 0 0 0x700 })].all id = true := by decide

/-- Words of the families that no listing of the spec encodes: fields side by side as R137, R138, R144 and R145 lay them
out (D = 8, A = 4, B = 6, PR = 7). -/
theorem test_decode_lane_families : [
    means (2#8 ++ 8#6 ++ 4#6 ++ 0x0FF#12 : BitVec 32) 0 (.andi { d := 8, a := 4, imm := 0xFF }),
    means (0x06#8 ++ 8#6 ++ 4#6 ++ 6#6 ++ 11#6 : BitVec 32) 0 (.rotr { d := 8, a := 4, b := 6, x := none }),
    means (0x47#8 ++ 8#6 ++ 4#6 ++ 6#6 ++ 3#6 : BitVec 32) (10#6 ++ 7#3 ++ 0#23 : BitVec 32) (.imadwS32 (o1 (ext 10 0 0))),
    means (0x49#8 ++ 8#6 ++ 4#6 ++ 6#6 ++ 0#6 : BitVec 32) (2#6 ++ 7#3 ++ 0#23 : BitVec 32) (.sel (o1 (ext 2 0 0))),
    means (0x0A#8 ++ 8#6 ++ 4#6 ++ 6#6 ++ 5#6 : BitVec 32) 0 (.fminm (o1 none)),
    means (0x0C#8 ++ 2#6 ++ 4#6 ++ 6#6 ++ 7#6 : BitVec 32) 0 (.fcmpUnord { d := 2, a := 4, b := 6, x := none }),
    means (0x0D#8 ++ 8#6 ++ 4#6 ++ 0#6 ++ 2#6 : BitVec 32) 0 (.fsqrt { d := 8, a := 4, b := 0, x := none }),
    means (0x0E#8 ++ 8#6 ++ 4#6 ++ 6#6 ++ 1#6 : BitVec 32) 0 (.hmul2F16 (o1 none)),
    means (0x4F#8 ++ 8#6 ++ 4#6 ++ 6#6 ++ 2#6 : BitVec 32) (10#6 ++ 7#3 ++ 0#23 : BitVec 32) (.hdot2F16 (o1 (ext 10 0 0))),
    means (0x10#8 ++ 8#6 ++ 4#6 ++ 0#6 ++ 2#6 : BitVec 32) 0 (.cvtS32F32 { d := 8, a := 4, b := 0, x := none }),
    means (0x14#8 ++ 1#6 ++ 2#6 ++ 3#6 ++ 2#6 : BitVec 32) 0 (.pxor { d := 1, a := 2, b := 3, x := none })].all id = true := by decide

theorem test_decode_other_families : [
    means (0xC6#8 ++ 8#6 ++ 4#6 ++ 6#6 ++ 0#6 : BitVec 32) (10#6 ++ 7#3 ++ 0#23 : BitVec 32) (.gsel (o1 (ext 10 0 0))),
    means (0xD1#8 ++ 0#24 : BitVec 32) 0x03800005 (.safe { d := 0, a := 0, b := 0, x := ext 0 0 5 })].all id = true := by decide

theorem test_decode_memory : [
    means 0x55184009 0x03800020 (.ld 9 { d := 6, a := 4, b := 0, x := ext 0 0 32 }),
    means 0x55084004 0x27800000 (.ld 4 { d := 2, a := 4, b := 0, x := ext 9 0 0 }),
    means 0x5600424B 0x0380FFFE (.st 11 { d := 0, a := 4, b := 9, x := ext 0 0 0xFFFE }),
    means 0x571060C1 0x03800010 (.ldt 1 { d := 4, a := 6, b := 3, x := ext 0 0 16 }),
    means 0x582460C0 0x03800000 (.stt 0 { d := 9, a := 6, b := 3, x := ext 0 0 0 }),
    means 0x59204240 0x03820000 (.atomAddS32 0 { d := 8, a := 4, b := 9, x := ext 0 2 0 }),
    means 0x59004268 0x07810008 (.atomOr 2 { d := 0, a := 4, b := 9, x := ext 1 1 8 }),
    means 0x5A2842C0 0x3382000F (.casB32 { d := 10, a := 4, b := 11, x := ext 12 2 0xF }),
    means 0x5B504240 0x03800011 (.hcall { d := 20, a := 4, b := 9, x := ext 0 0 17 }),
    means 0x5C004001 0x03800080 (.prefL2 { d := 0, a := 4, b := 0, x := ext 0 0 128 })].all id = true := by decide

theorem test_decode_engines : [
    means 0x96000000 0 (.hdone { d := 0, a := 0, b := 0, x := none }),
    means 0x961C0001 0 (.hinfo { d := 7, a := 0, b := 0, x := none }),
    means 0xD3006000 0x03800000 (.copy { d := 0, a := 6, b := 0, x := ext 0 0 0 }),
    means 0xD3008243 0x03810012 (.gateinit { d := 0, a := 8, b := 9, x := ext 0 1 0x12 }),
    means 0xD3000005 0x03800002 (.publish { d := 0, a := 0, b := 0, x := ext 0 0 2 }),
    means 0xD4006000 0x03800000 (.xfm { d := 0, a := 6, b := 0, x := ext 0 0 0 }),
    means 0xD5008000 0x03800000 (.acqacc { d := 0, a := 8, b := 0, x := ext 0 0 0 }),
    means 0xD5008001 0x03800000 (.relacc { d := 0, a := 8, b := 0, x := ext 0 0 0 })].all id = true := by decide

theorem test_decode_matrix_and_graphics : [
    means 0x5D181092 0x0B830020 (.mxm 0x12 { d := 6, a := 1, b := 2, x := ext 2 3 0x20 }),
    means 0x5E400000 0x03810120 (.drainF32 { d := 16, a := 0, b := 0, x := ext 0 1 0x120 }),
    means 0x5E000007 0x03800020 (.accz { d := 0, a := 0, b := 0, x := ext 0 0 0x20 }),
    means 0x5F0C0002 0x03800001 (.pixinfo { d := 3, a := 0, b := 0, x := ext 0 0 1 }),
    means 0x5F148301 0x03800000 (.ipaPersp { d := 5, a := 8, b := 12, x := ext 0 0 0 }),
    means 0x5F304183 0x03800000 (.sample { d := 12, a := 4, b := 6, x := ext 0 0 0 }),
    means 0x5F010186 0x03800000 (.bin { d := 0, a := 16, b := 6, x := ext 0 0 0 }),
    means 0xD71C0001 0x03800000 (.tileinfo { d := 7, a := 0, b := 0, x := ext 0 0 0 }),
    means 0xD7000000 0x03800000 (.tdone { d := 0, a := 0, b := 0, x := ext 0 0 0 })].all id = true := by decide

/-! ## Words that are not instructions, and instructions that are not well formed (R140, R358) -/

theorem test_illegal_words : [
    decide (decodeWords 0x05000000 0 = .error 1), decide (decodeWords 0x9A000000 0 = .error 1),
    decide (decodeWords 0x0000000F 0 = .error 2), decide (decodeWords 0x01000040 0 = .ok (.iaddi { d := 0, a := 0, imm := 0x40 })),
    decide (decodeWords 0x00000049 0 = .error 3), decide (decodeWords 0xC1186FFC 0 = .error 4),
    decide (decodeWords 0x0B105180 0 = .error 5), decide (decodeWords 0xC0000000 0x03000000 = .error 6),
    decide (decodeWords 0x0000100B 0 = .error 7)].all id = true := by decide

/-- One term for each check: a minor the major does not list, a reserved field, a +X major without its extension word, a
predicate other than p7 in the group set, and an odd register of a pair. -/
theorem test_not_well_formed : [
    wellFormed (.ld 7 (o1 (ext 0 0 0))), wellFormed (.mxm 7 (o1 (ext 0 0 0))), wellFormed (.iabs (o1 none)),
    wellFormed (.gmovl { d := 1, a := 2, b := 0, lit := 0 }), wellFormed (.ffma (o1 none)),
    wellFormed (.gadd (o1 (extP 3 0 0 0))), wellFormed (.iadd64 { d := 8, a := 5, b := 6, x := none })].any id = false := by decide

/-! ## Single steps, with results worked out from the rules -/

/-- Lane l of register r is f l. -/
def withF (w : Wave) (r : Nat) (f : Nat → Word) : Wave := w.writeV r (BitVec.allOnes 96) f
def of (w : Wave) : State := st crew0 w block0
/-- The program counter of wave 0's first gang. -/
def pcOf (w : Wave) : Addr := (w.gangs.headD { slices := 0, pc := 0, wait := .ready }).pc
def pc0 : Addr := pcOf wave0
def o0 : Opnd := { d := 8, a := 4, b := 6, x := none }

/-- R158, R7: a sum wraps; the high halves of a signed and an unsigned product of −1. -/
theorem test_integer : (lane (.iadd o0) (sAB 0xFFFFFFFF 2) 8 5, lane (.imulhS32 o0) (sAB 0xFFFFFFFF 0xFFFFFFFF) 8 0,
    lane (.imulhN32 o0) (sAB 0xFFFFFFFF 0xFFFFFFFF) 8 0, lane (.iabs { o0 with b := 0 }) (sAB 0x80000000 0) 8 95) =
    (some 1, some 0, some 0xFFFFFFFE, some 0x80000000) := by decide +kernel

/-- R158: IADD64 carries into the odd register; IMULW.s32 of −1 and 2 is −2 in 64 bits. -/
theorem test_integer_pairs : (lane (.iadd64 o0) (sAB 0xFFFFFFFF 1) 9 0, lane (.imulwS32 o0) (sAB 0xFFFFFFFF 2) 8 0,
    lane (.imulwS32 o0) (sAB 0xFFFFFFFF 2) 9 0) = (some 0xFF4A000D, some 0xFFFFFFFE, some 0xFFFFFFFF) := by decide +kernel

/-- R162: the example of PERMB; R161: a shift by 32 gives 0, and SAR by 32 the sign. -/
theorem test_bits : (lane (.permb (o1 (ext 0 0 0x9910))) (sAB 0x80F3 0) 8 0, lane (.shl o0) (sAB 1 32) 8 0,
    lane (.sar o0) (sAB 0x80000000 32) 8 0, lane (.bfxS32 { o1 (ext 0 0 0xE8) with b := 0 }) (sAB 0x8100 0) 8 0) =
    (some 0xFFFF80F3, some 0, some 0xFFFFFFFF, some 0xFFFFFF81) := by decide +kernel

/-- R164: SEL takes A where the predicate is 1; R163: ICMP.LT.s32 of −1 and 0 is 1, ICMP.LT.n32 is 0. -/
theorem test_compare : (lane (.sel (o1 (ext 2 0 0))) (of ((withV (withV wave0 4 7) 6 9).writeP 2 1 1)) 8 0,
    lane (.sel (o1 (ext 2 0 0))) (of ((withV (withV wave0 4 7) 6 9).writeP 2 1 1)) 8 1,
    (after (.icmpLtS32 { o0 with d := 1 }) (sAB 0xFFFFFFFF 0)).map fun w => w.readP 1,
    (after (.icmpLtN32 { o0 with d := 1 }) (sAB 0xFFFFFFFF 0)).map fun w => w.readP 1) =
    (some 7, some 9, some (BitVec.allOnes 96), some 0) := by decide +kernel

/-- R165, R115: 1 + 2⁻²⁴ rounds to 1 with NX (bit 11 of FP_CTRL, R167); the root of 2 is 0x3FB504F3. -/
theorem test_float : (lane (.fadd o0) (sAB 0x3F800000 0x33800000) 8 0, lane (.fsqrt { o0 with b := 0 }) (sAB 0x40000000 0) 8 0,
    lane (.ffma (o1 (ext 10 0 0))) (of (withV (withV (withV wave0 4 0x3FC00000) 6 0x3FC00000) 10 0xC0000000)) 8 0,
    lane (.hadd2F16 o0) (sAB 0x3C003C00 0x3C004000) 8 0) =
    (some 0x3F800000, some 0x3FB504F3, some 0x3E800000, some 0x40004200) := by decide +kernel

/-- The example of 17_faults_execution: v4 has never been written and UNCHK is 1. Field B of FADD v9, v3, v4 traps UNINIT. -/
theorem test_uninit : trapOf (.fadd { d := 9, a := 3, b := 4, x := none })
    (of { handled (withV wave0 3 0) with dbgCtl := 1, gangs := [{ slices := 0xFF, pc := 0x100, wait := .ready },
      { slices := 0xFFFF00, pc := 0x200, wait := .ready }] }) = some (3, 2, 4, 0xFFFFFFFF) := by decide +kernel

/-- The same FADD with UNCHK 0: the uninitialised marker 0x7FA50004 is a signalling NaN, and gives 0x7FC00000. -/
theorem test_uninit_value : lane (.fadd { d := 9, a := 3, b := 4, x := none }) (of (withV wave0 3 0)) 9 0 = some 0x7FC00000 := by
  decide +kernel

/-- The group of the parity-flip example (05_number_formats, R175) and that of the box-overflow example, in octets 1 and 2. -/
def latticeInput : Wave :=
  withV (withF wave0 1 fun l => [0x3F400000, 0xBE800000, 0x3FB00000, 0x3EC00000, 0xBEC00000, 0x3E800000, 0x3F900000,
    0xBE000000, 0x40500000].getD (l - 8) 0) 2 0x7F

theorem test_qlat : (lane (.qlatX2 { d := 6, a := 1, b := 2, x := ext 0 0 0 }) (of latticeInput) 6 8,
    lane (.qlatX2 { d := 6, a := 1, b := 2, x := ext 0 0 0 }) (of latticeInput) 6 16) = (some 0xA9B6, some 0x1557) := by decide +kernel

theorem test_laterr : (lane (.laterr { d := 8, a := 1, b := 6, x := ext 2 0 0 }) (of (withF latticeInput 6 fun l => if l = 8 then 0xA9B6 else 0x1557)) 8 8,
    lane (.dlatX2 { d := 7, a := 6, b := 2, x := ext 0 0 0 }) (of (withF latticeInput 6 fun _ => 0xA9B6)) 7 10) =
    (some 0x3F440000, some 0x3FC00000) := by decide +kernel

/-- The compaction example of 07_lane_instructions: v1 = lane + 10, keep-mask 0xA6, slots 0 0 1 2 2 2 3 3. -/
def compaction (p : BitVec 3) : Option Word × Option Word × Option Word × Option Word :=
  let w := (withF (withF wave0 1 fun l => BitVec.ofNat 32 (l + 10)) 3 fun l => [0, 0, 1, 2, 2, 2, 3, 3].getD l 0).writeP 1 (BitVec.allOnes 96) 0xA6
  let i : Instr := .pushl { d := 4, a := 1, b := 3, x := extP p 0 1 0 }
  (lane i (of w) 4 0, lane i (of w) 4 2, lane i (of w) 4 3, lane i (of w) 4 4)

theorem test_pushl : compaction 1 = (some 11, some 15, some 17, some 0x7FA50004) ∧ compaction 7 = (some 11, some 15, some 17, some 0x7FA50004) := by
  decide +kernel

/-- The reduction example: gang A of slices 0 and 1 reduces a band of ones to 32, and writes its own lanes alone. -/
theorem test_lred :
    let w : Wave := { withV wave0 1 1 with gangs := [{ slices := 3, pc := 0x100, wait := .ready }, { slices := 0xFFFFFC, pc := 0x200, wait := .ready }] }
    let i : Instr := .lredAddS32 { d := 5, a := 1, b := 0, x := ext 0 2 0 }
    (lane i (of w) 5 7, lane i (of w) 5 8) = (some 32, some 0x7FA50005) := by decide +kernel

/-- SCAN.add.s32 (octet, excl) of the keep flags of 0xA6. -/
theorem test_scan : (List.range 8).map (lane (.scanAddS32 { d := 3, a := 2, b := 0, x := ext 0 1 1 })
    (of (withF wave0 2 fun l => BitVec.ofNat 32 ((0xA6 / 2 ^ (l % 8)) % 2))) 3) =
    [some 0, some 0, some 1, some 2, some 2, some 2, some 3, some 3] := by decide +kernel

/-- Parting (02_execution_model): p1 holds in lanes 0 to 9, so slices 0, 1 and 2 take BRP.ANY and the others go on. -/
theorem test_brp : (after (.brpAny { d := 0, a := 1, b := 0, x := ext 0 0 4 }) (of (wave0.writeP 1 (BitVec.allOnes 96) 0x3FF))).map
    (fun w => w.gangs.map fun g => (g.slices, g.pc - pc0)) = some [(7, 16), (0xFFFFF8, 8)] := by decide +kernel

/-- R30: GANDI g61, g61, #0 of a gang of slices 0 to 2 clears bits 0 to 11 alone. -/
theorem test_gandi : group (.gandi { d := 61, a := 61, imm := 0 })
    (of { wave0 with gangs := [{ slices := 7, pc := 0x100, wait := .ready }, { slices := 0xFFFFF8, pc := 0x200, wait := .ready }] }) 61 =
    some 0xFFFFF000 := by decide +kernel

/-- R186, R190, R189: a 64-bit carry; GSEL; a signed comparison. -/
theorem test_group : (group (.gadd64 o0) (of (withG (withG (withG (withG wave0 4 0xFFFFFFFF) 5 3) 6 1) 7 4)) 9,
    group (.gsel (o1 (ext 10 0 0))) (of (withG (withG (withG wave0 4 7) 6 9) 10 0)) 8, group (.gcmpLtS32 o0) (gAB 0xFFFFFFFF 0) 8,
    group (.gcmpLtN32 o0) (gAB 0xFFFFFFFF 0) 8) = (some 8, some 9, some 1, some 0) := by decide +kernel

/-- R192: CALL links the next address and moves by words; R193: a target with bits 1:0 set traps MISALIGNED, KIND 4. -/
theorem test_control : ((after (.call 0x10) s0).map fun w => (w.readG2 58 - pc0, pcOf w - pc0),
    (after (.brcLtS32 { d := 0, a := 4, b := 6, x := ext 0 0 0xFFFC }) (gAB 0xFFFFFFFF 0)).map fun w => pcOf w - pc0,
    (trapOf (.jmpg { d := 0, a := 4, b := 0, x := none }) (of (handled (withG (withG wave0 4 0x1002) 5 0)))).map fun t => t.1) =
    (some (4, 64), some (BitVec.ofInt 64 (-16)), some 5) := by decide +kernel

/-- R191: V2G takes the lowest active lane; its fixed form lane 40 whatever is active. -/
theorem test_v2g : (group (.v2g { d := 12, a := 3, b := 0, x := none }) (of { withF wave0 3 (BitVec.ofNat 32) with act := 0xF0 }) 12,
    group (.v2gLane { d := 12, a := 3, b := 0, x := ext 0 0 0xA8 }) (of { withF wave0 3 (BitVec.ofNat 32) with act := 0xF0 }) 12) =
    (some 4, some 40) := by decide +kernel

/-- R364, R351: TRAP #0x1234 raises SOFTWARE with the number as its address. -/
theorem test_trap : (trapOf (.trap { d := 0, a := 0, b := 0, x := ext 0 0 0x1234 }) (of (handled wave0))).map (fun t => (t.1, t.2.2.1)) =
    some (0x10, 0x1234) := by decide +kernel

/-- R148: FP_CTRL.DYN is set by SSYS and read by GSYS. -/
theorem test_system_registers :
    (after (.ssys { d := 0, a := 4, b := 0, x := ext 0 0 0x10 }) (gAB 1 0)).map (fun w => w.fp.extractLsb' 0 2) = some 1 ∧
    group (.gsys { d := 7, a := 0, b := 0, x := ext 0 0 0x10 }) (of { wave0 with fp := 0x80 }) 7 = some 0x80 := by decide +kernel

/-- R198: EXIT of one of two gangs leaves the other, and marks its slices as exited. -/
theorem test_exit : (after (.exit { d := 0, a := 0, b := 0, x := none })
    (of { wave0 with gangs := [{ slices := 7, pc := 0x100, wait := .ready }, { slices := 0xFFFFF8, pc := 0x200, wait := .ready }] })).map
      (fun w => (w.gangs.map fun g => (g.slices, g.pc), w.exited)) = some ([(0xFFFFF8, 0x200)], 7) := by decide +kernel

/-! ## Witnesses: for each statement with hypotheses, states and operands that meet them, clause by clause -/

theorem all_ready {α : Type} {f : α → Instr} {l : List α} {s : State} {c : Issue} (h : (decide (s.issuer = some c) && l.all fun p => passes c (f p)) = true) :
    ∀ p ∈ l, Ready s c (f p) := by
  rw [Bool.and_eq_true] at h
  exact fun p hp => ready_of (by rw [h.1, List.all_eq_true.mp h.2 p hp]; rfl)

def gang (slices : SliceMask) (pc : Addr) : Gang := { slices := slices, pc := pc, wait := .ready }
/-- The wave in two gangs: slices 0 to 7, which issue, and slices 8 to 23. -/
def parted (w : Wave) : Wave := { w with gangs := [gang 0xFF 0x100, gang 0xFFFF00 0x200] }
def waiting (w : Wave) : Wave := { w with gangs := [{ slices := 0xFFFFFF, pc := 0x10000, wait := .registers }] }
/-- Operands that use every field: D = 8, A = 4, B = 6, C = 10. -/
def oc : Opnd := o1 (ext 10 0 0)
/-- The code of a block: IADD v8, v4, v6, then the words given. -/
def probe (w : Nat) : State := State.reset.withFetchWord 64 w
def probeWave : Wave := launchWave r0 64 0 0 1 0 crew0.ctx (segsOf crew0.ctx 0x1000 0) (BitVec.allOnes 96) 0x10000
def probeIssue (code : List Word) : Issue := by_ (probeCrew 0 code) probeWave

theorem witness_DecodingGivesBackWhatWasEncoded : wellFormed (.ffma oc) = true ∧ encodable (.ffma oc) = true := by decide

theorem witness_WhatDecodesIsWellFormed : (decode [0x80, 0x10, 0x0C, 0x00, 0xFF]).toOption = some (.iadd { d := 3, a := 1, b := 2, x := none }, [0xFF]) := by
  decide

theorem witness_IllegalWordsAreRefusedByName :
    ((0x05000000 : Word).getLsbD 31 = false ∧ (0x05000000 : Word).extractLsb' 24 6 = 0x05) ∧
    ((0x21000000 : Word).getLsbD 31 = false ∧ 0x20 < ((0x21000000 : Word).extractLsb' 24 6).toNat) ∧
    ((0x9A000000 : Word).getLsbD 31 = true ∧ 0x19 < ((0x9A000000 : Word).extractLsb' 24 6).toNat) ∧
    ((0xC1186FFC : Word).getLsbD 30 = true ∧ shortForm ((0xC1186FFC : Word).getLsbD 31) ((0xC1186FFC : Word).extractLsb' 24 6) = true) ∧
    14 < (15 : BitVec 6).toNat ∧ 19 < (20 : BitVec 6).toNat ∧ (6 : BitVec 3) ≠ 7 := by decide

/-- What both statements about step ask of a state with the words of the probe. -/
def stepping (s : State) (c : Issue) (b : Block) : Bool :=
  decide (s.agenda = [{ ticks := 0, cycles := 0, action := .issue r0 0 }]) && decide ({ s with agenda := [], cur := some (r0, 0) }.issuer = some c) &&
    c.crew.resident && c.gang.wait.mayIssue && !(s.part c.crew.part).div && (s.part c.crew.part).state != 4 && !(s.part c.crew.part).woad &&
    decide (c.crew.preempt = none) && c.wave.traps.isEmpty && decide (s.ownedEntry c.wave c.crew = none) &&
    decide (s.block? c.crew.id c.wave.ref.rank = some b)

theorem witness_StepRunsTheDecodedInstruction :
    stepping (probe 0x000C1080) (probeIssue [0x000C1080, 0, 0, 0]) (newBlock 0 0 0 (probeCrew 0 [0x000C1080, 0, 0, 0]).image) = true ∧
    (newBlock 0 0 0 (probeCrew 0 [0x000C1080, 0, 0, 0]).image).codeWord (probeCrew 0 [0x000C1080, 0, 0, 0]).image 0x10000 = some 0x000C1080 ∧
    ((0x000C1080 : Word).getLsbD 30 = false) ∧ (decodeWords 0x000C1080 0).toOption = some (.iadd { d := 3, a := 1, b := 2, x := none }) := by
  decide +kernel

theorem witness_StepRunsTheDecodedInstruction_long :
    let k := probeCrew 0 [0x4B105180, 0x1D900000, 0, 0]
    stepping (probe 0x1D9000004B105180) (probeIssue [0x4B105180, 0x1D900000, 0, 0]) (newBlock 0 0 0 k.image) = true ∧
    (newBlock 0 0 0 k.image).codeWord k.image 0x10000 = some 0x4B105180 ∧ (newBlock 0 0 0 k.image).codeWord k.image 0x10004 = some 0x1D900000 ∧
    (decodeWords 0x4B105180 0x1D900000).toOption.isSome = true ∧
    (match State.fetchWords { probe 0x1D9000004B105180 with agenda := [], cur := some (r0, 0) } (probeIssue [0x4B105180, 0x1D900000, 0, 0]) with
      | .ok (w0, w1, _) => w0 == 0x4B105180 && w1 == 0x1D900000
      | .error _ => false) = true := by decide +kernel

theorem witness_StepTrapsOnIllegalWords :
    let k := probeCrew 0 [0xC1186FFC, 0x12345678, 0, 0]
    stepping (probe 0x12345678C1186FFC) (probeIssue [0xC1186FFC, 0x12345678, 0, 0]) (newBlock 0 0 0 k.image) = true ∧
    (newBlock 0 0 0 k.image).codeWord k.image 0x10000 = some 0xC1186FFC ∧ (newBlock 0 0 0 k.image).codeWord k.image 0x10004 = some 0x12345678 ∧
    (match decodeWords 0xC1186FFC 0x12345678 with | .error k => k == 4 | .ok _ => false) = true := by decide +kernel

/-- The step itself: IADD runs as the first instruction after reset; GADDI with X = 1 fails the context, which has no handler. -/
theorem test_first_step : (match step (State.reset.withFetchWord 32 0x000C1080) with
    | .next t => (t.wave? r0).map fun w => ((w.readV 3).at_ 7, pcOf w)
    | _ => none) = some (0x7FA50001 + 0x7FA50002, 0x10004) := by decide +kernel

theorem witness_RegistersAndRolesAreChecked :
    (encodable (.iadd { d := 8, a := 63, b := 6, x := none }) = true ∧ (of { wave0 with regs := 63 }).issuer = some (by_ crew0 { wave0 with regs := 63 }) ∧
      FirstIssue (by_ crew0 { wave0 with regs := 63 }) ∧ outside (.iadd { d := 8, a := 63, b := 6, x := none }) 63 = some 63) ∧
    ((of { wave0 with role := 1 }).issuer = some (by_ crew0 { wave0 with role := 1 }) ∧ encodable (.iadd o0) = true ∧ FirstIssue (by_ crew0 { wave0 with role := 1 }) ∧ wave0.sup = false ∧
      outside (.iadd o0) 64 = none ∧ roleAllows 1 (classOf (.iadd o0)) = false) := by decide +kernel

theorem witness_EmptyRegistersWaitOrTrap :
    (let w := waiting (wave0.setEmpty .v 4)
     encodable (.iadd o0) = true ∧ (of w).issuer = some (by_ crew0 w) ∧ (by_ crew0 w).gang.wait = .registers ∧ operandsFull w (.iadd o0) = false) ∧
    (let w := wave0.setEmpty .v 4
     let e : Instr := .iadd (o1 (some { c := 0, pr := 7, pn := false, ea := true, eb := false, ec := false, mod := 0, imm := 0 }))
     classOf (.iadd o0) = .laneArith ∧ (of w).issuer = some (by_ crew0 w) ∧ FirstIssue (by_ crew0 w) ∧ w.sup = false ∧ crew0.isCombiner = false ∧
      outside (.iadd o0) w.regs = none ∧ roleAllows w.role .laneArith = true ∧ w.dbgCtl.getLsbD 0 = false ∧
      emptySource w (.iadd o0) = none ∧ operandsFull w (.iadd o0) = false ∧
      classOf e = .laneArith ∧ encodable e = true ∧ (emptySource w e).map (fun x => (x.1, x.2.2)) = some (1, 4)) := by decide +kernel

theorem witness_PrivilegedInstructionsTrapOutsideTheHandler :
    (s0.issuer = some c0 ∧ FirstIssue c0 ∧ c0.wave.sup = false) ∧
    (let o : Opnd := { d := 7, a := 0, b := 0, x := ext 0 0 0x028 }; let n := o.ext.imm.toNat % 4096; 0x022 ≤ n ∧ n ≤ 0x028) ∧
    (let n := (o1 (ext 0 0 0x01D)).ext.imm.toNat % 4096; n ≠ 0x010 ∧ ¬(0x018 ≤ n ∧ n ≤ 0x01C) ∧ n ≠ 0x020 ∧ ¬(0x022 ≤ n ∧ n ≤ 0x028)) := by
  decide +kernel

/-- A SETSEG in the handler that moves the TILE window, and one whose GLOBAL limit lies below its base. -/
theorem witness_SetsegRefused :
    (let w := withG sup0 4 0x1000; let o : Opnd := { d := 0, a := 4, b := 0, x := ext 0 0 0x030 }
     Ready (of w) (by_ crew0 w) (.setseg o) ∧ w.sup = true ∧ segValue 0x030 (w.readG2 4) ≠ w.segs.tileBase) ∧
    (let w := withG (withG { sup0 with segs := { sup0.segs with globalBase := 0x40000 } } 4 0x1FFF) 5 0
     let o : Opnd := { d := 0, a := 4, b := 0, x := ext 0 0 0x03C }
     Ready (of w) (by_ crew0 w) (.setseg o) ∧ w.sup = true ∧ segValue 0x03C (w.readG2 4) < w.segs.globalBase) :=
  ⟨⟨ready_of (by decide +kernel), by decide +kernel⟩, ⟨ready_of (by decide +kernel), by decide +kernel⟩⟩

theorem witness_TakingATrapEntersTheHandler :
    (s0.crew? 0 = some crew0 ∧ crew0.isCombiner = false ∧ (handled wave0).sup = false ∧ (handled wave0).handlerBase ≠ 0 ∧
      (handled wave0).handlerBase.extractLsb' 0 2 = 0) ∧ sup0.sup = true ∧ wave0.handlerBase = 0 ∧
    ({ handled wave0 with handlerBase := 0x4002 }.handlerBase.extractLsb' 0 2 ≠ 0) ∧
    (({ s0 with crews := [{ crew0 with kind := .combiner 3 }] } : State).crew? 0 = some { crew0 with kind := .combiner 3 }) := by decide +kernel

theorem witness_SoftwareTrapsAndReturns :
    (Ready s0 c0 (.trap { d := 0, a := 0, b := 0, x := ext 0 0 0xFFFF }) ∧ Ready s0 c0 (.bkpt { d := 0, a := 0, b := 0, x := ext 0 0 0 })) ∧
    (Ready (of sup0) (by_ crew0 sup0) (.rte { d := 0, a := 0, b := 0, x := ext 0 0 0 }) ∧ sup0.sup = true ∧
      (∃ f, sup0.frame = some f ∧ f.entry = none ∧ (f.gangs.all fun g => match g.wait with | .barrier _ _ => false | _ => true) = true ∧
        (f.gangs.any fun g => match g.wait with | .phase _ => false | _ => true) = true) ∧ crew0.preempt = none ∧
      (of sup0).waves.all (fun w => w.ref == sup0.ref) = true) :=
  ⟨⟨ready_of (by decide +kernel), ready_of (by decide +kernel)⟩, ready_of (by decide +kernel), rfl, ⟨_, rfl, rfl, by decide, by decide⟩,
    by decide +kernel⟩

theorem witness_LaneResults : (∀ p ∈ laneIalu ++ laneBits ++ laneBitwise, Ready s0 c0 (p.1 (o1 (ext 0 0 0)))) ∧
    (∀ p ∈ laneImms, Ready s0 c0 (p.1 { d := 63, a := 0, imm := 0x800 })) ∧ (∀ p ∈ laneMads, Ready s0 c0 (p.1 oc)) ∧
    (∀ p ∈ lanePairs, Ready s0 c0 (p.1 oc)) :=
  by and_intros <;> exact all_ready (by decide +kernel)

theorem witness_ComparisonsSelectionsAndPredicates : (∀ p ∈ laneCompares, Ready s0 c0 (p.1 { o0 with d := 7 })) ∧ Ready s0 c0 (.sel (o1 (ext 6 0 0))) ∧
    (∀ p ∈ lanePredicates, Ready s0 c0 (p.1 { d := 1, a := 2, b := 7, x := none })) ∧ Ready s0 c0 (.pact { d := 1, a := 0, b := 0, x := none }) ∧
    Ready s0 c0 (.mask { d := 0, a := 7, b := 0, x := none }) :=
  ⟨all_ready (by decide +kernel), ready_of (by decide +kernel), all_ready (by decide +kernel), ready_of (by decide +kernel),
    ready_of (by decide +kernel)⟩

theorem witness_FloatingPoint : (∀ p ∈ fpPairs, Ready s0 c0 (p.1 o0)) ∧ (∀ p ∈ fpTriples, Ready s0 c0 (p.1 oc)) ∧
    (∀ p ∈ fpSingles, Ready s0 c0 (p.1 { o0 with b := 0 })) ∧ (∀ p ∈ fpCompares, Ready s0 c0 (p.1 { o0 with d := 7 })) ∧
    (∀ p ∈ fpSpecials, Ready s0 c0 (p.1 { o0 with b := 0 })) :=
  by and_intros <;> exact all_ready (by decide +kernel)

/-- MOVIN and MOVOUT of the highest register below .regs, and of the first one above. -/
theorem witness_MovesShufflesAndPushes :
    (∀ mk ∈ [Instr.movil, .movih, .gbc, .laneid], Ready s0 c0 (mk { o0 with b := 0, x := ext 0 0 0 })) ∧
    (let w := withV wave0 6 59; let o := o1 (ext 0 0 0)
     Ready (of w) (by_ crew0 w) (.movin o) ∧ ((LaneMask.lanes ((by_ crew0 w).active o.ext)).all fun l =>
       ((w.readV 6).at_ l).toNat + 4 == 63 && w.isFull .v 63) = true) ∧
    (let w := withV wave0 6 56; let o := o1 (ext 0 0 0)
     Ready (of w) (by_ crew0 w) (.movout o) ∧ ((LaneMask.lanes ((by_ crew0 w).active o.ext)).all fun l => ((w.readV 6).at_ l).toNat + 8 == 64) = true) ∧
    (∀ p ∈ laneShuffles, Ready s0 c0 (p.1 (o1 (ext 0 1 0)))) ∧ Ready s0 c0 (.pushl (o1 (ext 0 3 0))) :=
  ⟨all_ready (f := fun mk : Opnd → Instr => mk { o0 with b := 0, x := ext 0 0 0 }) (by decide +kernel), ⟨ready_of (by decide +kernel), by decide +kernel⟩,
    ⟨ready_of (by decide +kernel), by decide +kernel⟩, all_ready (by decide +kernel), ready_of (by decide +kernel)⟩

theorem witness_ReductionsScansAndBallots : (∀ p ∈ laneFolds, Ready s0 c0 (p.1 (o1 (ext 0 2 0)))) ∧
    (∀ p ∈ laneScans, Ready s0 c0 (p.1 (o1 (ext 0 3 1)))) ∧ Ready s0 c0 (.ballot { d := 8, a := 2, b := 0, x := ext 0 3 0 }) :=
  ⟨all_ready (by decide +kernel), all_ready (by decide +kernel), ready_of (by decide +kernel)⟩

theorem witness_LatticeResults : (∀ p ∈ latticeLeaders, Ready s0 c0 (p.1 oc)) ∧ (∀ p ∈ latticeDecodes, Ready s0 c0 (p.1 (o1 (ext 0 0 0)))) :=
  ⟨all_ready (by decide +kernel), all_ready (by decide +kernel)⟩

/-- V2G with lanes active and with none, of the only gang and of one of two; its fixed form at lane 95. -/
theorem witness_GroupResults : (∀ p ∈ groupWords, Ready s0 c0 (p.1 o0)) ∧ (∀ p ∈ groupImms, Ready s0 c0 (p.1 { d := 61, a := 0, imm := 0xFFF })) ∧
    (∀ p ∈ groupPairs, Ready s0 c0 (p.1 o0)) ∧
    (Ready s0 c0 (.gmovl { d := 9, a := 0, b := 0, lit := 1 }) ∧ Ready s0 c0 (.gaddl { d := 9, a := 4, b := 0, lit := 1 }) ∧ Ready s0 c0 (.gsel oc)) ∧
    (Ready s0 c0 (.v2g { o0 with b := 0 }) ∧ (LaneMask.lanes (c0.gang.slices.lanes &&& c0.wave.act)).head? = some 0 ∧ c0.wave.gangs.length = 1) ∧
    (let w := { parted wave0 with act := 0 }
     Ready (of w) (by_ crew0 w) (.v2g { o0 with b := 0 }) ∧ LaneMask.lanes ((by_ crew0 w).gang.slices.lanes &&& w.act) = [] ∧ w.gangs.length ≠ 1) ∧
    Ready s0 c0 (.v2gLane { d := 8, a := 4, b := 0, x := ext 0 0 (0x80 + 95) }) :=
  ⟨all_ready (by decide +kernel), all_ready (by decide +kernel), all_ready (by decide +kernel),
    ⟨ready_of (by decide +kernel), ready_of (by decide +kernel), ready_of (by decide +kernel)⟩,
    ⟨ready_of (by decide +kernel), by decide +kernel, by decide +kernel⟩,
    ⟨ready_of (by decide +kernel), by decide +kernel, by decide +kernel⟩, ready_of (by decide +kernel)⟩

theorem witness_BranchesMoveTheCohort : Ready s0 c0 (.bra 0x800000) ∧
    (Ready s0 c0 (.call 0x7FFFFF) ∧ c0.wave.isFull .g 58 = true ∧ c0.wave.isFull .g 59 = true) ∧
    (∀ p ∈ registerJumps, Ready s0 c0 (p.1 { o0 with b := 0 })) ∧
    ((withG (withG wave0 4 0x1004) 5 0).readG2 4).extractLsb' 0 2 = 0 ∧ ((withG (withG wave0 4 0x1002) 5 0).readG2 4).extractLsb' 0 2 ≠ 0 ∧
    (∀ p ∈ groupBranches, Ready s0 c0 (p.1 (o1 (ext 0 0 0x8000)))) :=
  ⟨ready_of (by decide +kernel), ⟨ready_of (by decide +kernel), by decide +kernel⟩, all_ready (by decide +kernel), by decide +kernel,
    by decide +kernel, all_ready (by decide +kernel)⟩

/-- The parting example of 02_execution_model, p7 (every lane takes) and p6 (none does). -/
theorem witness_PartingBranchesDivideTheCohort :
    let w := wave0.writeP 1 (BitVec.allOnes 96) 0x3FF
    (∀ p ∈ partingBranches, Ready (of w) (by_ crew0 w) (p.1 { d := 0, a := 1, b := 0, x := ext 0 0 4 })) ∧
    (let take (a : Nat) : SliceMask := sliceMaskOf fun sl => decide (0 < (((List.range 4).filter fun j => w.act.getLsbD (4 * sl + j)).filter fun j =>
        (w.readP a).getLsbD (4 * sl + j)).length)
     take 1 = 7 ∧ take 7 = 0xFFFFFF ∧ take 6 = 0) := ⟨all_ready (by decide +kernel), by decide +kernel⟩

theorem witness_ExitEndsTheSlices :
    let o : Opnd := { d := 0, a := 0, b := 0, x := none }
    (let w := parted wave0
     Ready (of w) (by_ crew0 w) (.exit o) ∧ w.sup = false ∧ crew0.kind = .launch ∧
      { w with exited := w.exited ||| 0xFF }.hasExited = false ∧ ((w.gangs.filter fun g => g.slices != 0xFF).any fun g => g.atPhase.isNone) = true) ∧
    (Ready s0 c0 (.exit o) ∧ { wave0 with exited := wave0.exited ||| 0xFFFFFF }.hasExited = true ∧ s0.graph? crew0.work = none ∧
      s0.blocks.all (fun b => bits (b.word 0x800) 5 0 == 0 && bits (b.word 0x808) 3 0 == 0) = true) :=
  ⟨⟨ready_of (by decide +kernel), by decide +kernel⟩, ready_of (by decide +kernel), by decide +kernel⟩

/-! ## Witnesses: control, stages and memory -/

theorem of_all {α : Type} {q : α → Bool} {l : List α} (h : l.all q = true) : ∀ a ∈ l, q a = true := List.all_eq_true.mp h

def oi (imm : BitVec 16) : Opnd := { d := 0, a := 0, b := 0, x := ext 0 0 imm }
def withGang2 (w : Wave) (x : Wait) : Wave := { w with gangs := [gang 0xFF 0x100, { slices := 0xFFFF00, pc := 0x200, wait := x }] }
def halting : Crew := { crew0 with preempt := some 5 }

/-- A load held in the fault buffer, and a state that holds it. -/
def heldLoad : Held :=
  { stamp := 0, wave := r0, lane := 0, addr := 0, size := 4, kind := .load, fmt := 4, data := 0, data2 := 0, landing := none, part := 0, pc := 0,
    fromHandler := false, context := crew0.ctx, partition := 0, acquire := false, cluster := 0, entry := none, saved := false }

def holdingLoad (s : State) : State := { s with held := [heldLoad] }

theorem witness_PhasesAndSafePoints :
    (let w := parted wave0
     Ready (of w) (by_ crew0 w) (.phase (oi 1)) ∧ (w.sup = false ∧ crew0.image.kernel.phaseN = 1 ∧
      ((w.gangs.filter fun g => g.slices != 0xFF).any fun g => g.atPhase.isNone) = true ∧ (of w).mustWait r0 true true = false) ∧
      Ready (holdingLoad (of w)) (by_ crew0 w) (.phase (oi 1)) ∧ (holdingLoad (of w)).mustWait r0 true true = true) ∧
    (let w := withGang2 wave0 (.phase 2)
     Ready (of w) (by_ crew0 w) (.phase (oi 1)) ∧ ((w.gangs.filter fun g => g.slices != 0xFF).all fun g => g.atPhase.isSome) = true ∧
      ((w.gangs.filter fun g => g.slices != 0xFF).any fun g => g.atPhase != some 1) = true) ∧
    (let w := withGang2 wave0 (.phase 1)
     Ready (of w) (by_ crew0 w) (.phase (oi 1)) ∧ ((w.gangs.filter fun g => g.slices != 0xFF).all fun g => g.atPhase == some 1) = true ∧
      (of w).block? 0 0 = some block0 ∧ w.reached = none ∧ w.carryFull (crew0.image.phase 1) = true ∧ (of w).mustWait r0 true true = false) ∧
    (Ready s0 c0 (.phase (oi 0)) ∧ Ready s0 c0 (.phase (oi 2)) ∧ FirstIssue c0) ∧
    (Ready s0 c0 (.safe (oi 0)) ∧ Ready s0 c0 (.safe (oi 1)) ∧ crew0.image.kernel.safeN = 1 ∧ crew0.preempt = none) ∧
    (Ready (st halting wave0 block0) (by_ halting wave0) (.safe (oi 0)) ∧ halting.preempt ≠ none) :=
  ⟨⟨ready_of (by decide +kernel), by decide +kernel, ready_of (by decide +kernel), by decide +kernel⟩,
    ⟨ready_of (by decide +kernel), by decide +kernel⟩, ⟨ready_of (by decide +kernel), by decide +kernel⟩,
    ⟨ready_of (by decide +kernel), ready_of (by decide +kernel), by decide +kernel⟩,
    ⟨ready_of (by decide +kernel), ready_of (by decide +kernel), by decide +kernel⟩, ⟨ready_of (by decide +kernel), by decide +kernel⟩⟩

/-- The registers of a WAIT: four conditions from g4, T in g12. -/
def conds (d0 v0 t : Word) : Wave :=
  (List.range 8).foldl (fun w k => withG w (4 + k) (if k = 0 then d0 else if k = 1 then v0 else 0)) (withG wave0 12 t)
def ow : Opnd := { d := 20, a := 4, b := 12, x := ext 0 0 0 }
def condsOf (w : Wave) : List Condition := (List.range 4).map fun k => { desc := w.readG (4 + 2 * k), opnd := w.readG (4 + 2 * k + 1) }
/-- What a WAIT sees at its issue. -/
def seenBy (all : Bool) (w : Wave) (deadline : Option Nat) : WaitState :=
  ((of w).observe w crew0 { all := all, conds := condsOf w, seen := 0, pois := false, dst := 20, deadline := deadline }).1

/-- Unused conditions with and without a time-out; word 0x1000 of the own block (0) compared with 0, which holds, and with 5. -/
theorem witness_WaitsTestTheirConditions :
    (let w := conds 0 0 0xFFFFFFFF
     (∀ p ∈ [Instr.waitAny, .waitAll], Ready (of w) (by_ crew0 w) (p ow)) ∧ (of w).block? 0 0 = some block0 ∧
      (∀ k ∈ condsOf w, condBad w block0 k = false) ∧ (∀ k ∈ condsOf w, k.kind = 0) ∧ w.readG 12 = 0xFFFFFFFF) ∧
    (let w := conds 0x10F01000 0 0xFFFFFFFF
     Ready (of w) (by_ crew0 w) (.waitAny ow) ∧ (∀ k ∈ condsOf w, condBad w block0 k = false) ∧
      (∀ k ∈ condsOf w, k.kind = 1 ∨ k.kind = 2 → (of w).condBlock w crew0 k ≠ none) ∧ (seenBy false w none).met = true) ∧
    (let w := conds 0x10F01000 5 0
     (seenBy false w (some 0)).met = false ∧ (seenBy false w (some 0)).expired 0 = true ∧ ((of w).part 0).woad = false) ∧
    (let w := conds 0x10F01000 5 200
     (seenBy false w (some 200)).met = false ∧ (seenBy false w (some 200)).expired 0 = false) ∧
    (let w := conds 0x10F01000 0 0xFFFFFFFF
     Ready (of w) (by_ crew0 w) (.waitAll ow) ∧ ((condsOf w).headD { desc := 0, opnd := 0 }).kind = 1 ∧ (seenBy true w none).met = true) :=
  ⟨⟨all_ready (f := fun p : Opnd → Instr => p ow) (by decide +kernel), by decide +kernel⟩,
    ⟨ready_of (by decide +kernel), by decide +kernel⟩, by decide +kernel, by decide +kernel, ready_of (by decide +kernel), by decide +kernel⟩

theorem witness_WaitResultWord : (60 : Nat) < 61 ∧ 60 < wave0.g.length := by decide +kernel

/-- Queue 3 of a block: declared, with wave 0 as producer, its allowance, and n handles. -/
def queued (allow n : Nat) (declared : Nat := 2 ^ 31 + 4 * 2 ^ 20 + 0x1000) : Block :=
  ((((block0.putWord 0x130 declared).putWord 0x138 1).store 0x260 [BitVec.ofNat 8 allow])).putWord 0x134 (n * 2 ^ 16)
def oq : Opnd := { d := 8, a := 4, b := 0, x := ext 0 0 3 }
def stq (b : Block) : State := st crew0 wave0 b

theorem witness_StageQueueOperations :
    (∀ p ∈ [(queued 1 0, Instr.qpush), (queued 0 0, Instr.qpush), (queued 1 0, Instr.qoffer), (queued 0 0, Instr.qoffer), (queued 0 1, Instr.qpop),
        (queued 0 0, Instr.qpop), (queued 0 1, Instr.qpoll), (queued 0 0, Instr.qpoll), (queued 0 0 0, Instr.qpoll)],
      (decide ((stq p.1).issuer = some c0) && passes c0 (p.2 (if p.2 oq = .qpush oq then { oq with d := 0 } else oq)) &&
        decide ((stq p.1).block? 0 0 = some p.1)) = true) ∧
    (bits ((queued 1 0).queueWord 3 0) 31 31 = 1 ∧ bits ((queued 0 0 0).queueWord 3 0) 31 31 ≠ 1 ∧
    (BitVec.ofNat 32 ((queued 1 0).queueWord 3 2)).getLsbD 0 = true ∧ (BitVec.ofNat 32 (block0.queueWord 3 2)).getLsbD 0 = false ∧
    (queued 1 0).allowance 3 0 ≠ 0 ∧ (queued 0 0).allowance 3 0 = 0 ∧
    ((stq (queued 0 1)).popStamps 0 0 3).length < (queued 0 1).queueCount 3 ∧ ¬((stq (queued 0 0)).popStamps 0 0 3).length < (queued 0 0).queueCount 3 ∧
    (stq (queued 1 0)).mustWait r0 true true = false ∧ (stq (queued 1 0)).mustWait r0 false false = false) ∧
    Ready (holdingLoad (stq (queued 1 0))) c0 (.qpush { oq with d := 0 }) ∧ (holdingLoad (stq (queued 1 0))).mustWait r0 true true = true :=
  ⟨by decide +kernel, by decide +kernel, ready_of (by decide +kernel), by decide +kernel⟩

def barBlock : Block := { (block0.putWord 0x800 1) with barCrew := some false }
def gbufferCrew : Crew := { crew0 with kind := .tile { tile := 0, flush := false, step := .gbuffer, cursor := 0, resumed := false, flushes := 0, prims := [],
                                                       groups := [], retired := false, restarts := 0, slot := none } }

theorem witness_BarriersCountAndComplete :
    (∀ p ∈ barriers, Ready s0 c0 (p.1 (oi 0))) ∧ (c0.wave.sup = false ∧ crew0.isGbuffer = false ∧ s0.block? 0 0 = some block0) ∧
    (∀ p ∈ barriers, Ready (st gbufferCrew wave0 block0) (by_ gbufferCrew wave0) (p.1 (oi 0))) ∧ gbufferCrew.isGbuffer = true ∧
    (∀ p ∈ barriers, Ready (holdingLoad (st gbufferCrew wave0 block0)) (by_ gbufferCrew wave0) (p.1 (oi 0))) ∧
    (∀ p ∈ barriers, Ready (holdingLoad s0) c0 (p.1 (oi 0))) ∧ s0.mustWait r0 true true = false ∧ (holdingLoad s0).mustWait r0 true true = true ∧
    (st gbufferCrew wave0 block0).mustWait r0 true true = false ∧ (holdingLoad (st gbufferCrew wave0 block0)).mustWait r0 true true = true ∧
    (bits (barBlock.word 0x800) 5 0 ≠ 0 ∧ barBlock.barCrew = some (!true) ∧ barBlock.barCrew ≠ some (!false) ∧ barBlock.barCrew ≠ some true) ∧
    (stq barBlock).block? 0 0 = some barBlock ∧ wave0.hasExited = false ∧ (BitVec.ofNat 32 (barBlock.word 0x804)).getLsbD 0 = false ∧
    (BitVec.ofNat 32 ((barBlock.putWord 0x804 1).word 0x804)).getLsbD 0 = true :=
  ⟨all_ready (f := fun p : (Opnd → Instr) × Bool × Bool => p.1 (oi 0)) (by decide +kernel), by decide +kernel, all_ready (f := fun p : (Opnd → Instr) × Bool × Bool => p.1 (oi 0)) (by decide +kernel),
    by decide +kernel, all_ready (f := fun p : (Opnd → Instr) × Bool × Bool => p.1 (oi 0)) (by decide +kernel),
    all_ready (f := fun p : (Opnd → Instr) × Bool × Bool => p.1 (oi 0)) (by decide +kernel), by decide +kernel⟩

theorem witness_OrderingAndIdleInstructions :
    (∀ p ∈ [(Instr.prefL1, 4), (Instr.prefL2, 4), (Instr.nop, 0)], Ready s0 c0 (p.1 { d := 0, a := p.2, b := 0, x := ext 0 0 0 })) ∧
    (∀ p ∈ fences, Ready s0 c0 (p.1 { d := 0, a := 0, b := 0, x := ext 0 1 0 })) ∧ s0.heldOf r0 = [] ∧
    (∀ p ∈ fences, Ready (holdingLoad s0) c0 (p.1 { d := 0, a := 0, b := 0, x := ext 0 0 0 })) ∧
    (holdingLoad s0).heldOf r0 ≠ [] ∧ Ready s0 c0 (.regang { d := 0, a := 0, b := 0, x := none }) :=
  ⟨all_ready (f := fun p : (Opnd → Instr) × BitVec 6 => p.1 { d := 0, a := p.2, b := 0, x := ext 0 0 0 }) (by decide +kernel),
    all_ready (by decide +kernel), by decide +kernel, all_ready (by decide +kernel), by decide +kernel, ready_of (by decide +kernel)⟩

theorem witness_SystemRegisterInstructions :
    (Ready s0 c0 (.gsys { d := 8, a := 0, b := 0, x := ext 0 0 0x008 }) ∧ supervisorOnly 0x008 = false ∧ (s0.part 0).woad = false) ∧
    (let w := withG (withG sup0 4 0x1000000) 5 0; let c := by_ crew0 w
     (∀ p ∈ [(Instr.ssys, (0x01C : BitVec 16)), (.setseg, 0x034), (.tlbinv, 0), (.replayall, 0)],
       Ready (of w) c (p.1 { d := 0, a := 4, b := 6, x := ext 0 0 p.2 })) ∧
      w.sup = true ∧ supervisorOnly 0x01C = true ∧ w.segs.refuses 0x034 (segValue 0x034 (w.readG2 4)) = false) :=
  ⟨⟨ready_of (by decide +kernel), by decide +kernel⟩,
    all_ready (f := fun p : (Opnd → Instr) × BitVec 16 => p.1 { d := 0, a := 4, b := 6, x := ext 0 0 p.2 }) (by decide +kernel), by decide +kernel⟩

/-! A wave whose lanes 0 and 95 alone are active, and whose address registers v4 and v5, and g4 and g5, name tile memory. -/

def tileWave : Wave :=
  { withG (withG (withF (withV (withV wave0 5 0x00FE0000) 6 0) 4 fun l => BitVec.ofNat 32 (0x1000 + 16 * l)) 4 0x1000) 5 0x00FE0000 with
    act := BitVec.ofNat 96 (2 ^ 95 + 1) }
/-- The same with lane 0 alone. -/
def tileLane : Wave := { tileWave with act := 1 }
def ct : Issue := by_ crew0 tileWave
def cl : Issue := by_ crew0 tileLane

/-- What TileAccess asks of each lane, as a Bool. -/
def reaches (s : State) (c : Issue) (f : AccessForm) (active : LaneMask) (addr : Nat → BitVec 64) (place : Nat → Nat × Nat) : Bool :=
  ((LaneMask.lanes active).all fun l => decide (s.reachLane c.wave c.crew f l (addr l) =
    (.ok [{ off := 0, size := f.size, addr := addr l, place := .tile (place l).1 (place l).2 }], s)) &&
    (match s.block? c.crew.id (place l).1 with | some b => !b.tilePoison.contains ((place l).2 / 16 * 16) | none => false)) &&
  decide (s.heldOf c.wave.ref = []) && !c.crew.isCombiner && !(s.part c.crew.part).woad && decide (c.wave.buffer = [])

theorem tile_of {s : State} {c : Issue} {f : AccessForm} {active : LaneMask} {addr : Nat → BitVec 64} {place : Nat → Nat × Nat}
    (h : reaches s c f active addr place = true) : TileAccess s c f active addr place := by
  simp only [reaches, Bool.and_eq_true, decide_eq_true_eq, Bool.not_eq_true', List.all_eq_true] at h
  refine ⟨fun l hl => (h.1.1.1.1 l hl).1, fun l hl => ?_, h.1.1.1.2, h.1.1.2, h.1.2, h.2⟩
  have hb := (h.1.1.1.1 l hl).2
  split at hb
  · rename_i b hs; exact ⟨b, hs, by simpa using hb⟩
  · exact absurd hb (by decide)

theorem witness_LoadsReadTileMemory :
    (∀ p ∈ loadForms 6 2, Ready (of tileWave) ct (p.1 (if p.1 oc = .ld 6 oc then { o1 (ext 0 0 0) with b := 0 } else o1 (ext 0 0 0)))) ∧
    TileAccess (of tileWave) ct { size := 16, align := 16, need := { r := true }, write := false, kind := 0 } tileWave.act
      (fun l => tileWave.readV2 4 l) (fun l => (0, 0x1000 + 16 * l)) ∧
    Ready (of tileWave) ct (.ld 13 (o1 (ext 0 0 0))) ∧
    TileAccess (of tileWave) ct { size := 1, align := 1, need := { r := true }, write := false, kind := 0 } tileWave.act
      (fun l => (e2m1Place (tileWave.readV2 4 l) 0).1) (fun l => (0, 0x1000 + 16 * l)) :=
  ⟨all_ready (by decide +kernel), tile_of (by decide +kernel), ready_of (by decide +kernel), tile_of (by decide +kernel)⟩

theorem witness_StoresWriteTileMemory :
    (∀ p ∈ storeForms 6 2, Ready (of tileWave) ct (p.1 (if p.1 oc = .st 6 oc then { d := 0, a := 4, b := 8, x := ext 0 0 0 } else o1 (ext 0 0 0)))) ∧
    TileAccess (of tileWave) ct { size := 16, align := 16, need := { w := true }, write := true, kind := 1 } tileWave.act
      (fun l => tileWave.readV2 4 l) (fun l => (0, 0x1000 + 16 * l)) ∧
    Ready (of tileWave) ct (.st 13 { d := 6, a := 4, b := 8, x := ext 0 0 0 }) ∧
    TileAccess (of tileWave) ct { size := 1, align := 1, need := { w := true }, write := true, kind := 2 } tileWave.act
      (fun l => (e2m1Place (tileWave.readV2 4 l) 0).1) (fun l => (0, 0x1000 + 16 * l)) :=
  ⟨all_ready (by decide +kernel), tile_of (by decide +kernel), ready_of (by decide +kernel), tile_of (by decide +kernel)⟩

theorem witness_AtomicsReadModifyWriteTileMemory :
    (∀ p ∈ atomForms 0, Ready (of tileLane) cl (p.1 (o1 (ext 0 0 0)))) ∧ (∀ p ∈ atomForms 0, Ready (of tileLane) cl (p.1 { o1 (ext 1 0 0) with d := 0 })) ∧
    LaneMask.lanes tileLane.act = [0] ∧ NoStrongInTiles (of tileLane) ∧
    (∀ n ∈ [4, 8], TileAccess (of tileLane) cl { size := n, align := n, need := { r := true, w := true }, write := true, kind := 2 } tileLane.act
      (fun l => tileLane.readV2 4 l) (fun l => (0, 0x1000 + 16 * l))) ∧
    (∀ p ∈ casForms, Ready (of tileLane) cl (p.1 oc)) ∧
    (∀ n ∈ [4, 8], TileAccess (of tileLane) cl { size := n, align := n, need := { r := true }, write := true, kind := 3 } tileLane.act
      (fun l => tileLane.readV2 4 l) (fun l => (0, 0x1000 + 16 * l))) :=
  ⟨all_ready (by decide +kernel), all_ready (by decide +kernel), by decide +kernel, by decide +kernel,
    fun n hn => tile_of (of_all (q := fun n => reaches _ _ { size := n, align := n, need := { r := true, w := true }, write := true, kind := 2 }
      tileLane.act _ _) (by decide +kernel) n hn), all_ready (by decide +kernel),
    fun n hn => tile_of (of_all (q := fun n => reaches _ _ { size := n, align := n, need := { r := true }, write := true, kind := 3 }
      tileLane.act _ _) (by decide +kernel) n hn)⟩

/-- Lane 95 is misaligned by the least step, lane 0 is aligned. -/
def skewed : Wave := withF (withV tileWave 5 0x00FE0000) 4 fun l => if l = 95 then 0x1002 else 0x1000

theorem witness_MisalignedAccessesTrap :
    (∀ p ∈ [Instr.ld 4, .atomAddS32 0, .ldt 0], Ready (of skewed) (by_ crew0 skewed) (p (if p oc = .ld 4 oc then { o1 (ext 0 0 0) with b := 0 } else o1 (ext 0 0 0)))) ∧
    (∀ p ∈ [Instr.st 4, .stt 0, .casB32], Ready (of skewed) (by_ crew0 skewed) (p (if p oc = .st 4 oc then { d := 0, a := 4, b := 8, x := ext 0 0 0 } else o1 (ext 0 0 0)))) ∧
    ((LaneMask.lanes skewed.act).filter fun k => (skewed.readV2 4 k).toNat % 4 != 0) = [95] ∧
    (∀ p ∈ [Instr.ld 13, .st 13], Ready (of skewed) (by_ crew0 skewed) (p (o1 (ext 0 0 0)))) ∧
    ((LaneMask.lanes skewed.act).filter fun k => (skewed.readV2 4 k).toNat % 16 != 0) = [95] :=
  ⟨all_ready (f := fun p : Opnd → Instr => p (if p oc = .ld 4 oc then { o1 (ext 0 0 0) with b := 0 } else o1 (ext 0 0 0))) (by decide +kernel),
    all_ready (f := fun p : Opnd → Instr => p (if p oc = .st 4 oc then { d := 0, a := 4, b := 8, x := ext 0 0 0 } else o1 (ext 0 0 0))) (by decide +kernel),
    by decide +kernel, all_ready (f := fun p : Opnd → Instr => p (o1 (ext 0 0 0))) (by decide +kernel), by decide +kernel⟩

theorem witness_AddressChecksInOrder :
    let w := { wave0 with segs := { wave0.segs with globalBase := 0x1000, globalLimit := 0x1FFFF } }
    (0x1002 : BitVec 64).toNat % 4 ≠ 0 ∧ canonical 0x0100000000000000 = false ∧
    (canonical 0x00FFFFFFFFFFFFFE = true ∧ canonical (0x00FFFFFFFFFFFFFE + BitVec.ofNat 64 3) = false) ∧
    (steer w.segs 0xFFC = .global ∧ (0xFFC : BitVec 64) < w.segs.globalBase) ∧
    (steer w.segs 0x1FFFE = .global ∧ w.segs.globalLimit < (0x1FFFE : BitVec 64) + BitVec.ofNat 64 3) ∧
    (steer w.segs 0x00FD00000000000E = .stack 14 ∧ w.segs.stackLimit.toNat < 14 + 4 - 1) ∧
    (steer w.segs 0x00FE000000100000 = .tile 1 0 ∧ crew0.rankOf 0 1 = none) := by decide +kernel

theorem witness_MemoryKeepsWhatIsStored : cellsWf (0 : Byte) ([] : List (Nat × Byte)) = true ∧ cellsWf (0 : Byte) [((3 : Nat), (1 : Byte)), (7, 2)] = true ∧ 255 < 256 ^ 1 := by
  decide

/-- A unit of HBM of span 0, through a leaf with A and D. -/
def piece : Piece := { off := 0, size := 16, addr := 0x20000, place := .mem 0 0x20000 false 0x6F 0 0x1000 }

theorem witness_PlainAccessesToMemory :
    piece.place = .mem 0 0x20000 false 0x6F 0 0x1000 ∧ piece.off = 0 ∧ (List.replicate 16 (1 : Byte)).length = piece.size ∧
    (0x6F : BitVec 64) &&& 0x60 = 0x60 ∧ s0.linkDown 0 = false ∧ cellsWf (0 : Byte) s0.mem = true ∧ piece.size = 16 ∧ 0x20000 % 16 = 0 ∧
    (0x2F : BitVec 64) &&& 0x20 = 0x20 ∧ wave0.buffer = [] ∧ s0.memPoisoned 0 0x20000 16 = false ∧ s0.l1 = [] ∧
    { s0 with poison := [memKey 0 0x20000] }.memPoisoned 0 0x2000F 1 = true := by decide +kernel

/-! ## Witnesses: engines, the matrix unit, combining, graphics and graphs -/

/-- A byte field of a descriptor. -/
def fieldAt (off v : Nat) : Nat := v * 2 ^ (8 * off)
/-- A tile address of the own block, as memory sees it. -/
def tileAddr (off : Nat) : Nat := 0x00FE000000000000 + off

/-- One row of 16 bytes, from 0x1800 to 0x1900, with a gate at 0x1A00. -/
def copyBits : Nat := tileAddr 0x1800 + fieldAt 0x10 0x1900 + fieldAt 0x18 1 + fieldAt 0x1C 16 + fieldAt 0x2C 0x1A00
/-- The COPYW example of 09_memory_and_engine_instructions, from 0x1200 to 0x1800. -/
def copywBits : Nat :=
  tileAddr 0x1200 + fieldAt 8 36 + fieldAt 0xC 5 + fieldAt 0xE 6 + fieldAt 0x10 3 + fieldAt 0x12 9 + fieldAt 0x14 3 + fieldAt 0x15 3 +
    fieldAt 0x16 2 + fieldAt 0x17 2 + fieldAt 0x18 0x01010101 + fieldAt 0x1C 1 + fieldAt 0x1E 2 + fieldAt 0x20 0x1800 + fieldAt 0x24 48 +
    fieldAt 0x2C 0x1F00
/-- The XFM example, with its stream and table in GLOBAL and its output at 0x1900. -/
def xfmBits : Nat :=
  0x40000 + fieldAt 8 0x40100 + fieldAt 0x10 (tileAddr 0x1900) + fieldAt 0x18 16 + fieldAt 0x1C 1 + fieldAt 0x20 2 + fieldAt 0x28 (2 + 16) +
    fieldAt 0x2C 0x1A00
def engineWave : Wave := withG (withG wave0 4 0x1100) 5 0x00FE0000
def ce : Issue := by_ crew0 engineWave
/-- The block with a descriptor at 0x1100. -/
def described (d : Nat) : Block := block0.store 0x1100 (leBytes 64 d)

/-- A command of one unit, in a record. -/
def command (rec kind d : Nat) : Command :=
  { recNo := rec, kind := kind, wave := 0, pc := 0, desc := 0, bits := d, segs := wave0.segs, total := 1, done := 0, written := [], held := [],
    cur := [0], table := [], starts := [], fromHandler := false }

/-- The COPYW example: TR = 5, TC = 7, 48 bytes of pitch, 240 bytes; the last row and the left column are padding. -/
theorem test_copyw : let x := windowDesc copywBits
    (x.oh, x.ow, x.n, x.tr, x.tc, x.pitch, totalUnits 2 copywBits) = (3, 3, 2, 5, 7, 48, 15) ∧ x.byteAt 4 6 = none ∧ x.byteAt 0 5 = none ∧
      x.byteAt 0 6 = some (BitVec.ofNat 64 (tileAddr 0x1200 + 36)) := by decide +kernel

/-- The XFM example: the first word is 0x22002211 and the other three are 0. -/
theorem test_xfm :
    let m := { command 0 4 (tileAddr 0x1300 + fieldAt 0x18 16 + fieldAt 0x1C 1 + fieldAt 0x20 2 + fieldAt 0x28 (2 + 16)) with
               table := [0x00010000, 0x00210000, 0x00020011, 0x00020022] }
    (match ((st crew0 wave0 (block0.store 0x1300 [0x17])).decodeSymbols crew0 0 m 16 2 0).1 with
      | .ok (v, _, _) => some v
      | .error _ => none) = some 0x22002211 := by decide +kernel

theorem witness_EngineCommandsAreIssued :
    (∀ p ∈ engineForms, Ready (of engineWave) ce (p.1 { o0 with d := 0, b := 0, x := ext 0 0 0 })) ∧ block0.freeRecordNo = some 0 ∧
    (∀ p ∈ [(1, copyBits), (2, copywBits), (3, copyBits), (4, xfmBits)],
      let s := st crew0 engineWave (described p.2)
      (match s.reachDesc engineWave crew0 (engineWave.readG2 4) 64 5 with
        | (.ok ps, s0) => !s.piecesHeld 0 [(0, ps)] && (match s0.readDesc engineWave crew0 (engineWave.readG2 4) ps with
          | (.got (.bits _ d), s1) => d == p.2 && (s1.descFault engineWave crew0 p.1 d (engineWave.readG2 4)).isNone && (s1.block? 0 0).isSome
          | _ => false)
        | _ => false) = true) ∧
    ((engineWave.readG2 4).toNat % 64 = 0 ∧ inStack engineWave.segs (engineWave.readG2 4) = false ∧ ce.gang.within = false ∧ (of engineWave).heldOf r0 = []) ∧
    { block0 with commands := (List.range 16).map fun k => command k 1 copyBits }.freeRecordNo =
      none :=
  ⟨all_ready (f := fun p : (Opnd → Instr) × Nat => p.1 { o0 with d := 0, b := 0, x := ext 0 0 0 }) (by decide +kernel), by decide +kernel⟩

/-- Region 2 is double-buffered; region 3 is not in use. -/
def regions : Block := ((block0.putWord 0x20 0x1000).putWord 0x24 0x100).putWord 0x28 (2 ^ 31 + 0x1400) |>.putWord 0x2C 1
def gateWave (loc : Word) : Wave := withG (withG wave0 4 loc) 6 16

theorem witness_GatesAndPublication :
    (let w := gateWave 0x00F01A00; let s := st crew0 w regions
     (∀ p ∈ [(Instr.gateinit, (0x12 : BitVec 16)), (.gateinit, 0), (.gateinit, 0x13), (.gatearm, 0)],
       Ready s (by_ crew0 w) (p.1 { d := 0, a := 4, b := 6, x := ext 0 0 p.2 })) ∧
      (match s.gateAt w crew0 (w.readG 4) with | .ok (r, off) => r == 0 && off == 0x1A00 | .error _ => false) = true ∧
      regions.doubleBuffered 2 = true ∧ regions.doubleBuffered 3 = false ∧
      (∀ p ∈ [(2 : BitVec 16), 3], Ready s (by_ crew0 w) (.publish { d := 0, a := 0, b := 0, x := ext 0 0 p }))) ∧
    (let w := gateWave 0x00F01A00; let s := st crew0 w regions
     (∀ p ∈ [(Instr.gateinit, (0x12 : BitVec 16)), (.gatearm, 0)], Ready (holdingLoad s) (by_ crew0 w) (p.1 { d := 0, a := 4, b := 6, x := ext 0 0 p.2 })) ∧
      Ready (holdingLoad s) (by_ crew0 w) (.publish { d := 0, a := 0, b := 0, x := ext 0 0 2 }) ∧ s.mustWait r0 true false = false ∧
      s.mustWait r0 true true = false ∧ (holdingLoad s).mustWait r0 true false = true ∧ (holdingLoad s).mustWait r0 true true = true) ∧
    (∀ p ∈ [((0x00F01A08 : Word), 5), (0x01F01A00, 6), (0x00101A00, 6), (0x00F00800, 6)],
      (match (st crew0 (gateWave p.1) regions).gateAt (gateWave p.1) crew0 p.1 with | .ok _ => false | .error k => k == p.2) = true) :=
  ⟨⟨all_ready (f := fun p : (Opnd → Instr) × BitVec 16 => p.1 { d := 0, a := 4, b := 6, x := ext 0 0 p.2 }) (by decide +kernel), by decide +kernel,
    by decide +kernel, by decide +kernel, all_ready (f := fun p : BitVec 16 => .publish { d := 0, a := 0, b := 0, x := ext 0 0 p }) (by decide +kernel)⟩,
    ⟨all_ready (f := fun p : (Opnd → Instr) × BitVec 16 => p.1 { d := 0, a := 4, b := 6, x := ext 0 0 p.2 }) (by decide +kernel), ready_of (by decide +kernel),
      by decide +kernel⟩, by decide +kernel⟩

/-- Octet 0 alone acts; the block holds every bank, or bank 0 alone. -/
def octetWave : Wave := { withV (withV (withV (withV wave0 4 0x00F01000) 6 0x00F01400) 8 0x00F01800) 9 0x00F01900 with act := 0xFF }
def co : Issue := by_ crew0 octetWave
def holding (banks : BitVec 32) : Block := { block0 with held := banks, setAside := 32 }
def sto (b : Block) : State := st crew0 octetWave b

theorem witness_AccumulatorBanks :
    (let w := withG wave0 4 3; let s := st crew0 w { block0 with setAside := 32 }
     Ready s (by_ crew0 w) (.acqacc { o0 with d := 0, b := 0, x := ext 0 0 0 }) ∧ s.mayBind crew0 { block0 with setAside := 32 } 3 0 = true ∧
      Ready s (by_ crew0 w) (.relacc { o0 with d := 0, b := 0, x := ext 0 0 0 }) ∧ w.gangs.all (fun g => g.wait == .ready) = true ∧
      s.accBlock? crew0 w = some { block0 with setAside := 32 }) ∧
    (let w := withG wave0 4 0xFFFFFFFF
     { st crew0 w block0 with blocks := [block0, { block0 with crew := 9, held := 1, setAside := 0 }]
                              crews := [crew0, { crew0 with id := 9 }] }.mayBind crew0 block0 0xFFFFFFFF 0 = false) ∧
    (Ready (sto (holding 1)) co (.accz { d := 0, a := 0, b := 0, x := ext 0 0 7 }) ∧ co.octets (o1 (ext 0 0 7)).ext = [0] ∧
      badTiles (holding 1) (o1 (ext 0 0 7)).ext [0] = [] ∧ cellsWf 0 (holding 1).acc = true) ∧
    (Ready (sto (holding 1)) co (.accz { d := 0, a := 0, b := 0, x := ext 0 0 8 }) ∧ badTiles (holding 1) (o1 (ext 0 0 8)).ext [0] = [0]) :=
  ⟨⟨ready_of (by decide +kernel), by decide +kernel, ready_of (by decide +kernel), by decide +kernel⟩, by decide +kernel,
    ⟨ready_of (by decide +kernel), by decide +kernel⟩, ⟨ready_of (by decide +kernel), by decide +kernel⟩⟩

/-- s8 by s8, and mx-e4m3 by mx-e4m3 with their scale panels. -/
theorem witness_MatrixProducts :
    ∀ f ∈ [(0x2D : BitVec 6), 0x12],
      Ready (sto (holding 1)) co (.mxm f (o1 (ext 0 0 0))) ∧ (sto (holding 1)).accBlock? crew0 octetWave = some (holding 1) ∧
      badTiles (holding 1) (o1 (ext 0 0 0)).ext [0] = [] ∧
      ((mxmPanels octetWave f (o1 (ext 0 0 0)) 0).all fun p =>
        ((sto (holding 1)).panelFault co p).isNone && ((sto (holding 1)).panelPoison co p).isNone) = true ∧ cellsWf 0 (holding 1).acc = true := by
  intro f hf
  have h := of_all (q := fun f => (decide ((sto (holding 1)).issuer = some co) && passes co (.mxm f (o1 (ext 0 0 0)))) &&
      decide ((sto (holding 1)).accBlock? crew0 octetWave = some (holding 1)) && decide (badTiles (holding 1) (o1 (ext 0 0 0)).ext [0] = []) &&
      ((mxmPanels octetWave f (o1 (ext 0 0 0)) 0).all fun p =>
        ((sto (holding 1)).panelFault co p).isNone && ((sto (holding 1)).panelPoison co p).isNone) && cellsWf 0 (holding 1).acc)
    (l := [(0x2D : BitVec 6), 0x12]) (by decide +kernel) f hf
  simp only [Bool.and_eq_true, decide_eq_true_eq] at h
  exact ⟨ready_of (by rw [Bool.and_eq_true]; exact ⟨decide_eq_true h.1.1.1.1.1, h.1.1.1.1.2⟩), h.1.1.1.2, h.1.1.2, h.1.2, h.2⟩

/-- Rows at 0x1000 + 64 × lane, side bytes at 0x1800. -/
def drainWave : Wave :=
  { withF (withV (withF (withV wave0 5 0x00FE0000) 4 fun l => BitVec.ofNat 32 (0x1000 + 64 * l)) 7 0x00FE0000) 6 fun l => BitVec.ofNat 32 (0x1800 + 16 * l) with act := 0xFF }
def cd : Issue := by_ crew0 drainWave

theorem witness_DrainsReadTheAccumulators :
    (∀ p ∈ drainForms, Ready (st crew0 drainWave (holding 1)) cd (p.1 { d := 16, a := 0, b := 0, x := ext 0 1 0x100 })) ∧
    (∀ p ∈ drainForms, Ready (st crew0 drainWave (holding 1)) cd (p.1 { d := 0, a := 4, b := 6, x := ext 0 0 0x700 })) ∧
    badTiles (holding 1) (o1 (ext 0 0 0x700)).ext [0] = [] ∧ drainReg (o1 (ext 0 1 0)).ext = true ∧ drainReg (o1 (ext 0 0 0x700)).ext = false ∧
    (∀ fn ∈ [0, 1, 3, 5],
      (match (st crew0 drainWave (holding 1)).drainReach cd (holding 1) fn { d := 0, a := 4, b := 6, x := ext 0 0 0x700 } [0] with
        | (us, [], s1) => !s1.piecesHeld 0 (us.map fun u => (8 * u.octet, u.pieces)) &&
            (us.foldl (fun (acc : Bool × State) u => ((acc.2.drainUnit cd u).1 && acc.1, (acc.2.drainUnit cd u).2)) (true, s1)).1
        | _ => false) = true) :=
  ⟨all_ready (by decide +kernel), all_ready (by decide +kernel), by decide +kernel⟩

/-! The walk of 03_memory_and_translation, and a page of GLOBAL mapped at 0x40000 through entries already cached. -/

def radix : Context := { crew0.ctx with desc0 := 0x01000000 }
def spanned : List Partition := (List.range 8).map fun k => { Partition.initial k with spans := if k = 0 then 9 else 0, state := 2 }
def entries (l : List (Nat × Nat)) : List (Nat × Byte) := l.foldl (fun m x => storeBytes m x.1 (leBytes 8 x.2)) []
def walked : State :=
  { s0 with parts := spanned, mem := entries [(0x01002AF0, 0x01040001), (0x0104DE10, 0x01060001), (0x01068D10, 0x00000005438A30AF)] }

theorem test_walk : (walked.walk radix 0 0 0x00ABCDE123456780).1 = .leaf 0x00000005438A30AF 0x2A1C5 0 0x01068D10 ∧
    (match (walked.translate radix 0 0 0x00ABCDE123456780 { w := true }).1 with | .mem mt pa comp _ _ _ => some (mt, pa, comp) | _ => none) =
      some (3, 0x5438B6780, true) ∧
    BitVec.ofNat 64 ((walked.touchLeaf 0 0x00000005438A30AF 0 0x01068D10 true).rawRead 0 0x01068D10 8) = 0x00000005438A30EF := by decide +kernel

def callCrew : Crew := { crew0 with ctx := radix }
def callWave : Wave := { withV (withV wave0 4 0x40000) 5 0 with act := 3 }
def mapped0 : State :=
  { st callCrew callWave block0 with parts := spanned, mem := entries [(0x01000000, 0x01040001), (0x01040000, 0x01060001), (0x01060010, 0x0200006F)] }
def mapped : State := { mapped0 with tlb := (mapped0.walk radix 0 0 0x40000).2.tlb }
def request : Request :=
  { wave := r0, lane := 5, landing := 0, method := 9, arg := 1, addr := 0x40000, mt := 0, pa := 0x02000000, comp := false, leaf := 0x0200006F, leafMt := 0,
    leafPa := 0x01060010, stamp := 0, pc := 0, context := radix, part := 0, arrived := 0 }
def object : Object :=
  { id := 3, ctag := 0, line := 0x40000, mt := 0, pa := 0x02000000, part := 0, pending := [], running := some [request], replies := [(0, 7)],
    crew := some 0, launched := 0, blocked := false, limit := none }
def combCrew : Crew := { crew0 with kind := .combiner 3 }
def combining : State := { st combCrew wave0 block0 with objects := [object] }

theorem witness_RequestsAndTheirCombiners :
    (Ready mapped (by_ callCrew callWave) (.hcall (o1 (ext 0 0 0))) ∧ callWave.sup = false ∧ callCrew.combines = none ∧ mapped.heldOf r0 = [] ∧
      (LaneMask.lanes callWave.act = [0, 1]) ∧
      callPlaces callWave callCrew { size := 4, align := 4, need := { r := true, w := true }, write := true, kind := 2 } (fun l => callWave.readV2 4 l) [0, 1]
        mapped = some ([0, 1].map fun l => (l, { off := 0, size := 4, addr := callWave.readV2 4 l, place := .mem 0 0x02000000 false 0x0200006F 0 0x01060010 }),
          mapped)) ∧
    ((∀ p ∈ [Instr.harg { d := 8, a := 0, b := 0, x := ext 0 0 3 }, .hinfo { d := 8, a := 0, b := 0, x := none }, .hreply { d := 0, a := 4, b := 0, x := ext 0 0 0 },
        .hdone { d := 0, a := 0, b := 0, x := none }], Ready combining (by_ combCrew wave0) p) ∧
      combCrew.kind = .combiner 3 ∧ combining.object? 3 = some object) ∧
    ((∀ p ∈ [Instr.harg, .hinfo, .hreply, .hdone], Ready s0 c0 (p { o0 with x := ext 0 0 0 })) ∧ crew0.combines = none ∧ FirstIssue c0) :=
  ⟨⟨ready_of (by decide +kernel), by decide +kernel⟩, ⟨all_ready (f := fun p : Instr => p) (by decide +kernel), by decide +kernel⟩,
    ⟨all_ready (f := fun p : Opnd → Instr => p { o0 with x := ext 0 0 0 }) (by decide +kernel), by decide +kernel⟩⟩

/-! A render pass of one 8 × 8 tile. -/

def tile0 : TilePass :=
  { tile := 0, flush := false, step := .resolve, cursor := 0, resumed := false, flushes := 0, prims := [], groups := [], retired := false, restarts := 0, slot := none }
def tileCrew : Crew := { crew0 with kind := .tile tile0 }
def pass0 : RenderPass :=
  { part := 0, seq := 0, queue := 0, context := radix, width := 8, height := 8, edge := 8, samples := 1, cull := 0, front := false, depthf := 0, recsz := 1,
    clearz := 0x3F800000, karg := 0, glanes := 96, poolBase := 0, poolUnits := 64, resBase := 0, geom := crew0.image, gbuf := crew0.image,
    shade := crew0.image, res := crew0.image, next := 0, commit := 0, subs := [], setups := [], gone := [],
    tiles := [{ head := 0, tail := 0, used := 0, count := 0, prev := 0, valid := false, owned := true, retired := false }], flushing := false, notified := false,
    lastFlush := none, backs := [], flushes := 0, final := true, requests := [] }
def rendering (c : Crew) (w : Wave) (b : Block) : State := { st c w b with passes := [pass0] }
/-- A 4 × 4 texture with two levels below it, at 0x1200 of the tile. -/
def texBits : Nat := tileAddr 0x1200 + fieldAt 8 3 + fieldAt 0xA 3 + fieldAt 0xC (2 * 4)
def sampleWave : Wave := withG (withG wave0 6 0x1100) 7 0x00FE0000
def tileBlock : Block := { block0 with tileSize := 0x4000 }

def textured (w : Wave) (d : Nat) : State := rendering tileCrew w (tileBlock.store 0x1100 (leBytes 32 d))
def sampleLane : Wave := { withV (withV (withV sampleWave 4 0) 5 0x3F000000) 10 0 with act := 1 }
/-- The descriptor is read, and f holds of it and of the state then. -/
def textureRead (w : Wave) (d : Nat) (f : Nat → State → Bool) : Bool :=
  let s := textured w d
  match s.reachDesc w tileCrew (w.readG2 6) 32 0 with
  | (.ok ps, s0) => decide (s.heldOf r0 = []) && !s.piecesHeld 0 [(0, ps)] &&
      (match s0.readDesc w tileCrew (w.readG2 6) ps with
       | (.got (.bits _ x), s1) => x == d && f x s1
       | _ => false)
  | _ => false

theorem witness_PixelInstructions :
    (∀ p ∈ [(Instr.pixinfo, (0 : BitVec 6), (0 : BitVec 6)), (.ipa, 4, 0), (.ipaPersp, 4, 10)],
      Ready (rendering tileCrew wave0 tileBlock) (by_ tileCrew wave0) (p.1 { d := 8, a := p.2.1, b := p.2.2, x := ext 0 0 1 })) ∧
    (rendering tileCrew wave0 tileBlock).tilePass tileCrew = some (pass0, tile0) ∧ tile0.retired = false ∧
    (∀ p ∈ sampleForms, Ready (rendering tileCrew sampleWave (tileBlock.store 0x1100 (leBytes 32 texBits))) (by_ tileCrew sampleWave) (p.1 { o1 (ext 10 0 0) with d := 12 })) ∧
    ((sampleWave.readG2 6).toNat % 32 = 0 ∧ (by_ tileCrew sampleWave).active (o1 none).ext ≠ 0 ∧ (by_ tileCrew sampleWave).gang.within = false ∧
      textureRead sampleWave texBits (fun d _ => !textureBad d) = true ∧ textureRead sampleWave (texBits + fieldAt 0x1F 0x80) (fun d _ => textureBad d) = true) ∧
    (∀ p ∈ sampleForms, Ready (textured sampleLane texBits) (by_ tileCrew sampleLane) (p.1 { o1 (ext 10 0 0) with d := 12 })) ∧
    LaneMask.lanes sampleLane.act = [0] ∧
    (∀ p ∈ sampleForms, textureRead sampleLane texBits (fun d s1 =>
      let t := textureOf d
      let ts := sampleTexels t ((sampleLane.readV 4).at_ 0) ((sampleLane.readV 5).at_ 0) (p.2 (o1 (ext 10 0 0)) sampleLane t 0)
      match s1.reachTexels sampleLane tileCrew t 0 (ts.map fun x => x.1) with
      | (qs, [], s2) => decide (s1.heldOf r0 = []) && !s1.piecesHeld 0 [(0, qs)] &&
          (match { s2 with stamp := s2.stamp + 1 }.readTexels sampleLane tileCrew 0 qs with
           | (x, s3) => x.missing.isEmpty && x.poison.isNone && (s3.wave? r0).isSome)
      | _ => false) = true) ∧
    (let w := { sampleWave with act := 0 }
     (∀ p ∈ sampleForms, Ready (rendering tileCrew w tileBlock) (by_ tileCrew w) (p.1 { o1 (ext 10 0 0) with d := 12 })) ∧
      (by_ tileCrew w).active (o1 (ext 10 0 0)).ext = 0) ∧
    (let w := { withV (withV wave0 6 0x1008) 7 0x00FE0000 with act := 1 }
     Ready (rendering tileCrew w tileBlock) (by_ tileCrew w) (.blend { d := 0, a := 4, b := 6, x := ext 0 1 0 }) ∧
      LaneMask.lanes w.act = [0] ∧ NoStrongInTiles (rendering tileCrew w tileBlock) ∧ (rendering tileCrew w tileBlock).heldOf r0 = [] ∧
      tileBlock.tilePoison.contains 0x1000 = false ∧ steer w.segs (w.readV2 6 0) = .tile 0 0x1008 ∧
      (rendering tileCrew w tileBlock).reachLane w tileCrew { size := 8, align := 8, need := { r := true, w := true }, write := true, kind := 2 } 0 (w.readV2 6 0) =
        (.ok [{ off := 0, size := 8, addr := w.readV2 6 0, place := .tile 0 0x1008 }], rendering tileCrew w tileBlock)) :=
  ⟨all_ready (f := fun p : (Opnd → Instr) × BitVec 6 × BitVec 6 => p.1 { d := 8, a := p.2.1, b := p.2.2, x := ext 0 0 1 }) (by decide +kernel),
    by decide +kernel, by decide +kernel, all_ready (by decide +kernel), by decide +kernel, all_ready (by decide +kernel), by decide +kernel,
    by decide +kernel, ⟨all_ready (by decide +kernel), by decide +kernel⟩, ⟨ready_of (by decide +kernel), by decide +kernel⟩⟩

def geomCrew : Crew := { crew0 with kind := .geometry }
/-- Lane 0's triangle has no area; lane 1's covers the tile's first pixels. -/
def binWave (active : LaneMask) : Wave :=
  let v : List Word := [0, 0, 0x3F000000, 0x3F800000, 0x40E00000, 0, 0x3F000000, 0x3F800000, 0, 0x40E00000, 0x3F000000, 0x3F800000]
  { (List.range 12).foldl (fun w k => withF w (16 + k) fun l => if l = 1 then v.getD k 0 else 0) wave0 with act := active }
def sentWave : Wave := { withV (withV wave0 4 0x5000) 5 0 with act := 1, slots := [{ addr := 0x5000, node := 1, lane := 0, sent := false }] }
def binOp : Opnd := { d := 0, a := 16, b := 6, x := ext 0 0 0 }
def culledIn (w : Wave) (l : Nat) : Bool :=
  match pass0.resolve ((List.range 12).map fun k => (w.readV (16 + k)).at_ l) with
  | some t => (pass0.touched t).isEmpty
  | none => true

theorem witness_BinningAndTileRetirement :
    (Ready (rendering geomCrew (binWave 1) block0) (by_ geomCrew (binWave 1)) (.bin binOp) ∧ (binWave 1).sup = false ∧
      (by_ geomCrew (binWave 1)).active binOp.ext &&& (binWave 1).binned = 0 ∧ (rendering geomCrew (binWave 1) block0).passOf geomCrew = some pass0 ∧
      (rendering geomCrew (binWave 1) block0).heldOf r0 = [] ∧ (by_ geomCrew (binWave 1)).gang.wait = .ready ∧
      culledIn (binWave 1) 0 = true) ∧
    (Ready (rendering geomCrew (binWave 3) block0) (by_ geomCrew (binWave 3)) (.bin binOp) ∧ culledIn (binWave 3) 1 = false) ∧
    (let w := { binWave 1 with gangs := [{ slices := 0xFFFFFF, pc := 0x10000, wait := .bin 0 }] }
     Ready (rendering geomCrew w block0) (by_ geomCrew w) (.bin binOp) ∧ (by_ geomCrew w).gang.wait = .bin 0) ∧
    (Ready (rendering tileCrew wave0 tileBlock) (by_ tileCrew wave0) (.tileinfo { d := 8, a := 0, b := 0, x := ext 0 0 15 }) ∧
      Ready (rendering tileCrew wave0 tileBlock) (by_ tileCrew wave0) (.tdone { d := 0, a := 0, b := 0, x := ext 0 0 0 }) ∧
      (tile0.flush = false ∧ tile0.step = .resolve ∧ tile0.retired = false) ∧ tileBlock.commands = [] ∧
      (rendering tileCrew wave0 tileBlock).heldOf r0 = [] ∧ (holdingLoad (rendering tileCrew wave0 tileBlock)).heldOf r0 ≠ []) :=
  ⟨⟨ready_of (by decide +kernel), by decide +kernel⟩, ⟨ready_of (by decide +kernel), by decide +kernel⟩,
    ⟨ready_of (by decide +kernel), by decide +kernel⟩, ready_of (by decide +kernel), ready_of (by decide +kernel), by decide +kernel⟩

def node0 : Node := { kidx := 0, phase := 0, batch := 8, recsz := 4, tmo := 0, res := 1, image := crew0.image }
def graph0 : Graph := { seq := 0, karg := 0, pool := 0x5000, slots := 4, slotSize := 64, nodes := [node0, node0], used := [], pending := [], ready := [] }
def rootCrew : Crew := { crew0 with kind := .root }
def graphing (w : Wave) : State := { st rootCrew w block0 with graphs := [graph0] }

theorem witness_RecordsOfWorkGraphs :
    (∀ p ∈ [(0 : BitVec 16), 1, 2], Ready (graphing wave0) (by_ rootCrew wave0) (.recalloc { d := 10, a := 0, b := 0, x := ext 0 0 p })) ∧
    ((graphing wave0).graphNode rootCrew = some (graph0, 0) ∧ graph0.nodes.length = 2 ∧ (by_ rootCrew wave0).active (o1 none).ext ≠ 0 ∧ wave0.sup = false) ∧
    (let w := { wave0 with act := 3 }
     Ready (graphing w) (by_ rootCrew w) (.recalloc { d := 10, a := 0, b := 0, x := ext 0 0 1 }) ∧ LaneMask.lanes w.act = [0, 1] ∧
      (graphing w).recTurn graph0 1 0 = true ∧ (graph0.takeSlots 1 [0, 1]).1.length = 2) ∧
    (let w := { wave0 with act := 0 }
     Ready (graphing w) (by_ rootCrew w) (.recalloc { d := 10, a := 0, b := 0, x := ext 0 0 1 }) ∧ (by_ rootCrew w).active (o1 (ext 0 0 1)).ext = 0) ∧
    (Ready (graphing sentWave) (by_ rootCrew sentWave) (.recsend { d := 0, a := 4, b := 0, x := ext 0 0 0 }) ∧ sentWave.sendFault 0x5000 = none ∧ (graphing sentWave).heldOf r0 = [] ∧
      (sentWave.readV2 4 0).toNat = 0x5000 ∧ LaneMask.lanes sentWave.act = [0]) ∧
    (wave0.sendFault 0x5000 = some 2 ∧ LaneMask.lanes ((by_ rootCrew { wave0 with act := 1 }).active (o1 none).ext) = [0]) :=
  ⟨all_ready (f := fun p : BitVec 16 => .recalloc { d := 10, a := 0, b := 0, x := ext 0 0 p }) (by decide +kernel), by decide +kernel,
    ⟨ready_of (by decide +kernel), by decide +kernel⟩, ⟨ready_of (by decide +kernel), by decide +kernel⟩, ⟨ready_of (by decide +kernel), by decide +kernel⟩,
    by decide +kernel⟩

/-! ## Witnesses: device events -/

/-- A port that answers as a control port and administers every partition, and one that does not; partition 0 owns span 0
and runs, in this state. -/
def partAt (p0 : Nat) (k : Nat) : Partition :=
  { Partition.initial k with state := if k = 0 then p0 else 1, spans := if k = 0 then 1 else 0, evq := 16, admin := 1 }
def device (p0 : Nat) : State :=
  { State.reset with module := { State.reset.module with ready := true, portRole := 5 }, parts := (List.range 8).map (partAt p0) }
def queue0 : Queue := { Queue.initial 0 with base := 0x40000, ctx := 0x03000000, en := true, logsz := 4, wr := 1 }
/-- The tables of a page of GLOBAL at 0x40000, and a context record that names them. -/
def pageWords : List (Nat × Nat) :=
  [(0x01000000, 0x01040001), (0x01040000, 0x01060001), (0x01060010, 0x0200007F), (0x03000000, 0x01000000), (0x03000040, 0x00FE000000000000),
   (0x03000048, 0x00FD000000000000), (0x03000068, 0x00FFFFFFFFFE0000)]
/-- A code object at 0x41000: one kernel, EXIT, of 8 registers and 1 wave. -/
def objectWords : List (Nat × Nat) :=
  [(0x02001000, 0x000400014F434C4A), (0x02001008, 0x0000008000000001), (0x02001010, 4), (0x02001018, 0x0000010000000002), (0x02001020, 64),
   (0x02001028, 0x0000018000000006), (0x02001030, 0xA00), (0x02001038, 0x00000C0000000007), (0x02001040, 1), (0x02001080, 0x8D000001),
   (0x02001108, 0x0000080100000004)]
/-- A graph descriptor at 0x42000, of a root. -/
def graphWords : List (Nat × Nat) :=
  [(0x02002000, 0x0000006000000001), (0x02002008, 0x41000), (0x02002018, 0x43000), (0x02002020, 0x0000001000000004)]
def launchPacket : Nat := 0x01000001 + fieldAt 4 0x80000 + fieldAt 8 0x41000 + fieldAt 0x10 1
def graphPacket (word0 : Nat) : Nat := word0 + fieldAt 8 0x42000
/-- The device with a packet of 64 bytes at the head of queue 0. -/
def packetWords (d : Nat) : List (Nat × Nat) := (List.range 8).map fun k => (0x02000000 + 8 * k, d / 2 ^ (64 * k) % 2 ^ 64)
def packetMem (d : Nat) : List (Nat × Byte) := entries (pageWords ++ objectWords ++ graphWords ++ packetWords d)
def offering (d : Nat) : State := { device 3 with queues := [queue0], mem := packetMem d }
/-- What the take of a packet meets: its turn, a readable context and slot, its fields. -/
def taken (d : Nat) : Bool :=
  let s := offering d
  !(s.part 0).woad && s.mayTake queue0 && decide (s.queue 0 = queue0) && decide (queue0.ctxPlace = (0, 0x03000000)) && !s.memPoisoned 0 0x03000000 256 &&
    (match s.devRead (s.queueContext 0) 0 none (queue0.slot 0) 64 with
     | (.ok bs, s1) => leNat bs == d && !(s1.part 0).woad && !packetReserved d && !packetEvents d (s1.part 0).evq &&
         !pvecBad (BitVec.ofNat 64 (dfield d 0x30 63 0)) (s1.part 0).spans
     | _ => false)
def afterRead (d : Nat) : State := ((offering d).devRead ((offering d).queueContext 0) 0 none 0x40000 64).2

theorem witness_HostWritesAndPartitionCommands :
    State.reset.module.ready = false ∧
    ((device 1).windowOn 0 = true ∧ (device 1).windowOn 2 = false ∧ (device 1).windowOn 1 = true ∧ (device 1).administers 1 0 = false ∧
      (device 1).windowPart 0x200000 = some 0) ∧
    (Administers (device 1) 0 0 ∧ (device 1).parts.length = 8 ∧ ((device 1).part 0).busy = false ∧ ((device 1).part 0).state = 1 ∧
      ((device 2).part 0).state = 2 ∧ (device 1).spansFree 0 0xFF = true ∧ ((device 1).parts.map fun x => x.num) = List.range 8) ∧
    ((device 1).queue 2047).en = false ∧ Administers (device 1) 0 ((device 1).queue 2047).part ∧ (0x80000000 : BitVec 32).getLsbD 31 = true ∧
    ((offering 6).queue 0).en = true ∧ Administers (offering 6) 0 ((offering 6).queue 0).part ∧
    ((offering 6).part ((offering 6).queue 0).part).woad = false ∧
    (((device 1).part 0).woad = false ∧ ((device 1).part 0).num = 0 ∧ 15 < ((device 1).part 0).evq ∧ cellsWf (0 : BitVec 64) ((device 1).part 0).events = true) := by
  decide +kernel

/-! A code object that is loaded: its control-area image is 2560 zero bytes. -/

theorem leNat_zeros (n : Nat) : leNat (List.replicate n 0#8) = 0 := by
  induction n with
  | zero => rfl
  | succ n ih => simp [List.replicate_succ, leNat, ih]
theorem numAt_zeros (m off n : Nat) : numAt (List.replicate m 0#8) off n = 0 := by
  simp [numAt, List.drop_replicate, List.take_replicate, leNat_zeros]
theorem imageOk_zeros (m : Nat) (k : Kernel) (es : List PhaseEntry) (hk : k.phaseN = 0) : imageOk (List.replicate m 0#8) k es = true := by
  have h (a b : Nat) : bits 0 a b = 0 := by simp [bits]
  have hr : imageRanges (List.replicate m 0#8) = [] := by simp [imageRanges, numAt_zeros]
  simp [imageOk, numAt_zeros, h, hr, hk, apart]
theorem loadObject_ok (s : State) (c : Context) (part : Nat) (base : BitVec 64) (h d : List Byte) (dir : List (Nat × Nat × Nat × Nat)) (s1 s2 s3 s4 : State)
    (secs : List (Nat × Nat × List Byte)) (h1 : s.loadBytes c part base 8 = (.ok h, s1))
    (h2 : s1.loadBytes c part (base + 8) (16 * numAt h 6 2) = (.ok d, s2))
    (hd : ((List.range (numAt h 6 2)).map fun i => (numAt d (16 * i) 4, numAt d (16 * i + 4) 4, numAt d (16 * i + 8) 4, numAt d (16 * i + 12) 4)) = dir)
    (h3 : s2.loadSections c part base dir = (.ok secs, s3)) (hg : (numAt h 0 4 = 0x4F434C4A ∧ numAt h 4 2 = 1))
    (h4 : directoryOk (numAt h 6 2) dir none = true)
    (h5 : ({ base := base, sections := secs } : CodeObject).tablesOk = true)
    (h6 : (({ base := base, sections := secs } : CodeObject).bytes 7).getLast? = some 0)
    (h7 : s3.loadImages c part { base := base, sections := secs } (List.range ({ base := base, sections := secs } : CodeObject).kernelCount) = (none, s4)) :
    s.loadObject c part base none = (.ok { base := base, sections := secs }, s4) := by
  simp only [State.loadObject, h1, h2, hd, hg.1, hg.2, Bool.not_false, List.filter_true, h3, h7]
  simp [h4, h5, h6]
theorem loadBytes_blind {s s1 : State} {c : Context} {part : Nat} {a : BitVec 64} {n : Nat} {bs : List Byte}
    (h : s.loadBytes c part a n = (.ok bs, s1)) (blind : Bool) : s.loadBytes c part a n blind = (.ok bs, s1) := by
  cases blind
  · exact h
  · rcases hs : s.devReach c part a n { r := true } with ⟨e | l, t⟩ <;> simp only [State.loadBytes, State.devRead, hs] at h ⊢
    · exact h
    · simp only [Bool.not_false, Bool.true_and] at h
      split_ifs at h with hp
      · simp at h
      · exact h
theorem loadImages_one {s s1 : State} {c : Context} {part at_ : Nat} {o : CodeObject} {l bs : List Byte} (hn : List.range o.kernelCount = [0])
    (hk : (o.kernel 0).cimage = 0) (h6 : o.section_ 6 = some (at_, l)) (hl : l.length = 2560)
    (h : s.loadBytes c part (o.base + BitVec.ofNat 64 at_) 2560 = (.ok bs, s1)) :
    s.loadImages c part o (List.range o.kernelCount) = (none, s1) := by
  simp [hn, State.loadImages, hk, h6, hl, h]
theorem loadSections_cons (s s1 : State) (c : Context) (part : Nat) (base : BitVec 64) (k off n x : Nat) (r : List (Nat × Nat × Nat × Nat)) (bs : List Byte)
    (h : s.loadBytes c part (base + BitVec.ofNat 64 off) n = (.ok bs, s1)) (l : List (Nat × Nat × List Byte)) (s2 : State)
    (h2 : s1.loadSections c part base r = (.ok l, s2)) : s.loadSections c part base ((k, off, n, x) :: r) = (.ok ((k, off, bs) :: l), s2) := by
  simp [State.loadSections, loadBytes_blind h, h2]
def obj0 : CodeObject :=
  { base := 0x41000, sections := [(1, 0x80, [1, 0, 0, 0x8D]), (2, 0x100, leBytes 64 (0x0000080100000004 * 2 ^ 64)), (6, 0x180, List.replicate 2560 0#8), (7, 0xC00, [0])] }
/-- What a read leaves, and what the object's reads leave, one by one. -/
def afterLoad (s : State) (c : Context) (a : BitVec 64) (n : Nat) : State := (s.loadBytes c 0 a n).2
def step1 (s : State) (c : Context) : State := afterLoad s c 0x41000 8
def step2 (s : State) (c : Context) : State := afterLoad (step1 s c) c (0x41000 + 8) 64
def step3 (s : State) (c : Context) : State := afterLoad (step2 s c) c (0x41000 + BitVec.ofNat 64 0x80) 4
def step4 (s : State) (c : Context) : State := afterLoad (step3 s c) c (0x41000 + BitVec.ofNat 64 0x100) 64
def step5 (s : State) (c : Context) : State := afterLoad (step4 s c) c (0x41000 + BitVec.ofNat 64 0x180) 2560
def step6 (s : State) (c : Context) : State := afterLoad (step5 s c) c (0x41000 + BitVec.ofNat 64 0xC00) 1
def step7 (s : State) (c : Context) : State := afterLoad (step6 s c) c (0x41000 + BitVec.ofNat 64 0x180) 2560
def head0 : List Byte := leBytes 8 0x000400014F434C4A
def dir0 : List Byte :=
  leBytes 64 (0x0000008000000001 + 2 ^ 64 * 4 + 2 ^ 128 * 0x0000010000000002 + 2 ^ 192 * 64 + 2 ^ 256 * 0x0000018000000006 + 2 ^ 320 * 0xA00 +
    2 ^ 384 * 0x00000C0000000007 + 2 ^ 448)
def gives (r : Except LoadError (List Byte)) (l : List Byte) : Bool := match r with | .ok x => x == l | _ => false
theorem loaded (s : State) (c : Context) (a : BitVec 64) (n : Nat) (l : List Byte)
    (h : gives (s.loadBytes c 0 a n).1 l = true) : s.loadBytes c 0 a n = (.ok l, afterLoad s c a n) := by
  unfold afterLoad
  rcases hs : s.loadBytes c 0 a n with ⟨r, t⟩
  rw [hs] at h
  rcases r with e | x <;> simp_all [gives]
theorem bytesAt_absent (c : List (Nat × Byte)) (a n : Nat) (h : c.all (fun x => decide (x.1 < a ∨ a + n ≤ x.1)) = true) : bytesAt c a n = List.replicate n 0#8 := by
  have hg (k : Nat) (hk : ∀ x ∈ c, x.1 ≠ k) : cellGet 0 c k = 0 := by
    clear h
    induction c with
    | nil => rfl
    | cons y r ih => simp_all [cellGet]
  simp only [List.all_eq_true, decide_eq_true_eq] at h
  induction n generalizing a with
  | zero => rfl
  | succ n ih =>
    rw [bytesAt, hg a (fun x hx => by have := h x hx; omega), ih (a + 1) (fun x hx => by have := h x hx; omega)]
    rfl
theorem memBytes_plain {s : State} {k n : Nat} (h : s.loose.isEmpty = true) : s.memBytes k n = bytesAt s.mem k n := by
  rw [State.memBytes, List.isEmpty_iff.mp h]; rfl
def readsZeros (s : State) (c : Context) (a : BitVec 64) (n : Nat) : Bool :=
  match s.devReach c 0 a n { r := true } with
  | (.ok [x], t) =>
    let t := t.touchSpan c 0 none x false
    x.size == n && t.loose.isEmpty && !t.memPoisoned x.mt x.pa n && t.mem.all fun y => decide (y.1 < memKey x.mt x.pa ∨ memKey x.mt x.pa + n ≤ y.1)
  | _ => false
theorem loaded_zeros (s : State) (c : Context) (a : BitVec 64) (n : Nat) (h : readsZeros s c a n = true) : s.loadBytes c 0 a n = (.ok (List.replicate n 0#8), afterLoad s c a n) := by
  unfold afterLoad
  unfold readsZeros at h
  rcases hs : s.devReach c 0 a n { r := true } with ⟨_ | l, t⟩
  · simp [hs] at h
  · rcases l with _ | ⟨x, _ | ⟨_, _⟩⟩
    · simp [hs] at h
    · simp only [hs, Bool.and_eq_true, beq_iff_eq, Bool.not_eq_true'] at h
      obtain ⟨⟨⟨rfl, hl⟩, hp⟩, hm⟩ := h
      simp [State.loadBytes, State.devRead, hs, hp, State.rawBytes, memBytes_plain hl, bytesAt_absent _ _ _ hm]
    · simp [hs] at h
theorem obj0_ok : obj0.tablesOk = true := by
  have hp : (obj0.kernel 0).phaseN = 0 := by decide +kernel
  have hc : obj0.controlImage (obj0.kernel 0) = List.replicate 2560 0#8 := by decide +kernel
  have hk : obj0.recordOk 0 = true := by
    simp only [CodeObject.recordOk, hc, imageOk_zeros _ _ _ hp]
    decide +kernel
  have hn : List.range obj0.kernelCount = [0] := by decide +kernel
  have h3 : (List.range ((obj0.bytes 4).length / 32)) = [] := by decide +kernel
  have h4 : (obj0.section_ 5).isNone = true := by decide +kernel
  simp [CodeObject.tablesOk, hn, hk, h3, h4]
theorem head0_count : numAt head0 6 2 = 4 := by decide +kernel
theorem loads_abs (s s1 s2 s3 s4 s5 s6 s7 : State) (c : Context) (l : List Byte) (hn : l.length = 2560) (hl : obj0.sections = [(1, 0x80, [1, 0, 0, 0x8D]), (2, 0x100, leBytes 64 (0x0000080100000004 * 2 ^ 64)), (6, 0x180, l), (7, 0xC00, [0])])
  (e1 : s.loadBytes c 0 0x41000 8 = (.ok head0, s1)) (e2 : s1.loadBytes c 0 (0x41000 + 8) 64 = (.ok dir0, s2))
  (e3 : s2.loadBytes c 0 (0x41000 + BitVec.ofNat 64 0x80) 4 = (.ok [1, 0, 0, 0x8D], s3))
  (e4 : s3.loadBytes c 0 (0x41000 + BitVec.ofNat 64 0x100) 64 = (.ok (leBytes 64 (0x0000080100000004 * 2 ^ 64)), s4))
  (e5 : s4.loadBytes c 0 (0x41000 + BitVec.ofNat 64 0x180) 2560 = (.ok l, s5))
  (e6 : s5.loadBytes c 0 (0x41000 + BitVec.ofNat 64 0xC00) 1 = (.ok [0], s6))
  (e7 : s6.loadBytes c 0 (0x41000 + BitVec.ofNat 64 0x180) 2560 = (.ok l, s7)) : s.loadObject c 0 0x41000 none = (.ok obj0, s7) := by
  have h := loadObject_ok s c 0 0x41000 head0 dir0 [(1, 0x80, 4, 0), (2, 0x100, 64, 0), (6, 0x180, 0xA00, 0), (7, 0xC00, 1, 0)] s1 s2 s6 s7 obj0.sections e1
    (by rw [head0_count]; exact e2) (by decide +kernel)
    (by rw [hl]; exact loadSections_cons _ s3 _ _ _ _ _ _ _ _ _ e3 _ _
          (loadSections_cons _ s4 _ _ _ _ _ _ _ _ _ e4 _ _
            (loadSections_cons _ s5 _ _ _ _ _ _ _ _ _ e5 _ _ (loadSections_cons _ s6 _ _ _ _ _ _ _ _ _ e6 _ _ rfl))))
    (by decide +kernel) (by rw [head0_count]; decide +kernel) obj0_ok (by decide +kernel)
    (loadImages_one (o := obj0) (by decide +kernel) (by decide +kernel) (by simp [CodeObject.section_, hl]) hn e7)
  exact h
theorem obj0_sections : obj0.sections = [(1, 0x80, [1, 0, 0, 0x8D]), (2, 0x100, leBytes 64 (0x0000080100000004 * 2 ^ 64)),
    (6, 0x180, List.replicate 2560 0#8), (7, 0xC00, [0])] := by simp only [obj0]
theorem loads_object (s : State) (c : Context)
    (h : gives (s.loadBytes c 0 0x41000 8).1 head0 = true ∧ gives ((step1 s c).loadBytes c 0 (0x41000 + 8) 64).1 dir0 = true ∧
      gives ((step2 s c).loadBytes c 0 (0x41000 + BitVec.ofNat 64 0x80) 4).1 [1, 0, 0, 0x8D] = true ∧
      gives ((step3 s c).loadBytes c 0 (0x41000 + BitVec.ofNat 64 0x100) 64).1 (leBytes 64 (0x0000080100000004 * 2 ^ 64)) = true ∧
      readsZeros (step4 s c) c (0x41000 + BitVec.ofNat 64 0x180) 2560 = true ∧ gives ((step5 s c).loadBytes c 0 (0x41000 + BitVec.ofNat 64 0xC00) 1).1 [0] = true ∧
      readsZeros (step6 s c) c (0x41000 + BitVec.ofNat 64 0x180) 2560 = true) :
    s.loadObject c 0 0x41000 none = (.ok obj0, step7 s c) :=
  let ⟨h1, h2, h3, h4, h5, h6, h7⟩ := h
  loads_abs s (step1 s c) (step2 s c) (step3 s c) (step4 s c) (step5 s c) (step6 s c) (step7 s c) c (List.replicate 2560 0#8) (List.length_replicate ..) obj0_sections (loaded _ _ _ _ _ h1) (loaded _ _ _ _ _ h2)
    (loaded _ _ _ _ _ h3) (loaded _ _ _ _ _ h4) (loaded_zeros _ _ _ _ h5) (loaded _ _ _ _ _ h6) (loaded_zeros _ _ _ _ h7)
theorem imageOf_kernel (s : State) (c : Context) (part : Nat) (o : CodeObject) (i : Nat) : (s.imageOf c part o i).1.kernel = o.kernel i := rfl
theorem chosen (d : BitVec 32) : obj0.choose 0 d = .ok 0 := by
  have hn : obj0.kernelCount = 1 := by decide +kernel
  have hc : (obj0.kernel 0).care = 0 := by decide +kernel
  simp [CodeObject.choose, hn, hc]
theorem loadKernel_ok (s s1 : State) (c : Context) (part : Nat) (base : BitVec 64) (o : CodeObject) (k i : Nat)
    (h : s.loadObject c part base none = (.ok o, s1)) (hc : ∀ d, o.choose k d = .ok i) :
    s.loadKernel c part base k = (.ok (s1.imageOf c part o i).1, (s1.imageOf c part o i).2) := by
  simp only [State.loadKernel, h, hc]
theorem agrees0 : launchAgrees launchPacket (obj0.kernel 0) = true := by decide +kernel
theorem loads_of (s s1 : State) (c : Context) (part : Nat) (base : BitVec 64) (o : CodeObject) (k i : Nat) (d : Nat)
    (h : s.loadObject c part base none = (.ok o, s1)) (hc : ∀ d, o.choose k d = .ok i) (ha : launchAgrees d (o.kernel i) = true) :
    ∃ img s2, s.loadKernel c part base k = (.ok img, s2) ∧ launchAgrees d img.kernel = true :=
  ⟨_, _, loadKernel_ok s s1 c part base o k i h hc, ha⟩

theorem witness_PacketsAreTaken :
    ((device 3).mayTake ((device 3).queue 5) = false ∧ ((device 3).part ((device 3).queue 5).part).woad = false) ∧
    (∀ d ∈ [launchPacket, graphPacket 3, graphPacket 0x803, 0x802, 4 + fieldAt 0x24 15 + fieldAt 0x28 1, 5 + fieldAt 0x26 15, 6], taken d = true) ∧
    (packetReserved (6 + fieldAt 0x3C 1) = true ∧ packetReserved 7 = true ∧ packetEvents (4 + fieldAt 0x24 16) 16 = true) := by decide +kernel

theorem witness_LaunchLoads :
    ∃ img s2, (afterRead launchPacket).loadKernel ((offering launchPacket).queueContext 0) 0 0x41000 0 = (.ok img, s2) ∧
      launchAgrees launchPacket img.kernel = true :=
  loads_of _ _ _ _ _ _ _ _ _ (loads_object _ _ (by decide +kernel)) chosen agrees0

/-! A graph packet's descriptor, opened. -/

theorem opens_graph (s s1 s2 s3 : State) (c : Context) (w : Work) (bs nb : List Byte) (e : Nat) (img : Image) (hk : w.kind = .graph)
    (h1 : s.devRead c w.part none (BitVec.ofNat 64 w.desc) 64 = (.ok bs, s1)) (hn : dfield (leNat bs) 0 6 0 = 1)
    (h2 : s1.devRead c w.part none (BitVec.ofNat 64 (w.desc + 0x40)) 32 = (.ok nb, s2)) (he : leNat (nb.take 32) = e)
    (hb : graphBad w.desc (leNat bs) [e] = false)
    (h3 : s2.loadKernel c w.part (BitVec.ofNat 64 (dfield (leNat bs) 8 63 0)) (dfield e 0 15 0) = (.ok img, s3))
    (hp : dfield e 0 23 16 = 0) : ∃ w' g s', s.openWork c w = (.ok (w', some g), s') := by
  have hg : ∃ g m, s.readGraph c w = (.ok (g, m), s3) ∧ ∃ n, g.nodes = [n] := by
    simp [State.readGraph, h1, hn, h2, he, hb, h3, hp]
  obtain ⟨g, m, hg, n, hn⟩ := hg
  simp only [State.openWork, hk, hg, hn]
  exact ⟨_, _, _, rfl⟩
/-- What a device read gives and leaves. -/
def afterDev (s : State) (c : Context) (a : BitVec 64) (n : Nat) : State := (s.devRead c 0 none a n).2
def givesDev (r : Except DevError (List Byte)) (l : List Byte) : Bool := match r with | .ok x => x == l | _ => false
theorem dev_loaded (s : State) (c : Context) (a : BitVec 64) (n : Nat) (l : List Byte)
    (h : givesDev (s.devRead c 0 none a n).1 l = true) : s.devRead c 0 none a n = (.ok l, afterDev s c a n) := by
  unfold afterDev
  rcases hs : s.devRead c 0 none a n with ⟨r, t⟩
  rw [hs] at h
  rcases r with e | x <;> simp_all [givesDev]
def graphBytes : List Byte := leBytes 64 (0x0000006000000001 + fieldAt 8 0x41000 + fieldAt 0x18 0x43000 + fieldAt 0x20 0x0000001000000004)
def gp : Nat := graphPacket 3
def gctx : Context := (offering gp).queueContext 0
def graphWork : Work := (afterRead gp).newWork queue0 .graph gp
def graph1 : State := afterDev (afterRead gp) gctx (BitVec.ofNat 64 graphWork.desc) 64
def graph2 : State := afterDev graph1 gctx (BitVec.ofNat 64 (graphWork.desc + 0x40)) 32
theorem graph_loads : ∃ img s2, graph2.loadKernel gctx 0 0x41000 0 = (.ok img, s2) ∧ launchAgrees launchPacket img.kernel = true :=
  loads_of _ _ _ _ _ _ _ _ _ (loads_object _ _ (by decide +kernel)) chosen agrees0

theorem witness_GraphOpens : ∃ w g s', (afterRead gp).openWork gctx graphWork = (.ok (w, some g), s') := by
  obtain ⟨img, s3, h, -⟩ := graph_loads
  have hp : graphWork.part = 0 := by decide +kernel
  have hb : BitVec.ofNat 64 (dfield (leNat graphBytes) 8 63 0) = 0x41000 := by decide +kernel
  refine opens_graph _ graph1 graph2 s3 gctx graphWork graphBytes (List.replicate 32 0) 0 img (by decide +kernel) ?_ (by decide +kernel) ?_ (by decide +kernel) (by decide +kernel)
    ?_ (by decide +kernel)
  · rw [hp]; exact dev_loaded _ _ _ _ _ (by decide +kernel)
  · rw [hp]; exact dev_loaded _ _ _ _ _ (by decide +kernel)
  · rw [hp, hb]; exact h

/-- A launch of one crew, waiting for an event to reach 1. -/
def work0 : Work :=
  { seq := 0, kind := .launch, part := 0, queue := 0, ring := 0, prio := 0, sig := false, dep := true, depev := 3, sigev := 0, deptgt := 1, desc := 0,
    pvec := 0, grid := 1, nlanes := 0, karg := 0, size := 1, takenAt := 0, aged := 0, placeable := false, image := some crew0.image, shares := [], since := [],
    crewsEnded := 0, pass := none }
def working (w : Work) : State := { device 3 with works := [w], nextSeq := 1 }

theorem witness_WorkCompletes :
    (let s := working work0
     s.work? 0 = some work0 ∧ work0.placeable = false ∧ work0.dep = true ∧ (s.eventCount 0 3).toNat < work0.deptgt ∧ s.workDone work0 = false) ∧
    (let w := { work0 with deptgt := 0 }
     w.deptgt ≤ ((working w).eventCount 0 3).toNat ∧ (match (working w).openWork ((working w).queueContext 0) w with | (.ok _, _) => true | _ => false) = true) ∧
    (let w := { work0 with placeable := true, crewsEnded := 1 }
     (working w).work? 0 = some w ∧ (working w).workDone w = true) := by decide +kernel

/-- A launch that may be placed on span 0, with its grid's first crew; a batch of a graph; no room. -/
def placeable0 : Work := { work0 with dep := false, placeable := true, shares := [(0, 1)], since := [0] }
def batchState : State :=
  { working { placeable0 with kind := .graph, shares := [] } with graphs := [{ graph0 with ready := [(1, [0x5000], 0)] }] }
def at0 : CoreAt := { span := 0, cluster := 0, core := 0 }
def rankedGrid : Ranked := { prio := 0, seq := 0, rank := 1000, since := 0, cand := .grid 0 0 }
def rankedBatch : Ranked := { prio := 0, seq := 0, rank := 99, since := 0, cand := .batch 0 1 [0x5000] }
/-- Candidate of 8 cores and class 1; each of the twelve clusters has a crew of class 0 that fills its core 7. -/
def crowded : State :=
  { device 3 with
    works := [{ placeable0 with shares := [] }, { placeable0 with seq := 1, prio := 1, size := 8, grid := 8 }]
    tick := 10000
    crews := (List.range 12).map fun k => { crew0 with id := k, cluster := k, core := 7 }
    blocks := (List.range 12).map fun k => { block0 with crew := k, tileSize := 768 * 1024 } }

/-- A crew whose block waits for its phase, on the core that the first place of span 0 names. -/
def queuedPhase : State := { working placeable0 with crews := [crew0], blocks := [block0], waves := [{ wave0 with gangs := [], reached := some 1 }] }

theorem witness_CrewsArePlaced :
    (device 3).topWaiting 0 = none ∧
    ((working placeable0).topWaiting 0 = some rankedGrid ∧ (working placeable0).needs rankedGrid.cand ≠ [] ∧
      (working placeable0).fits 0 0 ((working placeable0).needs rankedGrid.cand) = true ∧ (working placeable0).phaseQueued 0 0 = false ∧
      (working placeable0).contextBad 0 = none ∧ (working placeable0).work? 0 = some placeable0 ∧ placeable0.image = some crew0.image) ∧
    (batchState.topWaiting 0 = some rankedBatch ∧ batchState.needs rankedBatch.cand ≠ [] ∧ batchState.fits 0 0 (batchState.needs rankedBatch.cand) = true ∧
      (batchState.graph? 0).isSome = true ∧ batchState.work? 0 = some { placeable0 with kind := .graph, shares := [] } ∧ graph0.nodes[1]? = some node0 ∧
      batchState.phaseQueued 0 0 = false) ∧
    ((queuedPhase.topWaiting 0).map (fun x => (x.cand, x.prio)) = some (.grid 0 0, 0) ∧ queuedPhase.phaseQueued 0 0 = true) ∧
    (working placeable0).tick < rankedGrid.since + 10000 ∧
    (crowded.topWaiting 0).map (fun x => x.since) = some 0 ∧ crowded.fits 0 0 (crowded.needs (.grid 1 0)) = false ∧
    (crowded.victims 0 1).length = 12 ∧ crowded.roomWithout 0 (crowded.needs (.grid 1 0)) [] = none ∧
    crowded.roomWithout 0 (crowded.needs (.grid 1 0)) (((crowded.victims 0 1).map fun c => c.id).take 1) = some (11, 0) := by decide +kernel

def crewState (c : Crew) (w : Wave) : State := { device 3 with crews := [c], blocks := [block0], waves := [w], works := [placeable0] }
def stoppedWave : Wave := { wave0 with gangs := [{ slices := 0xFFFFFF, pc := 0x10000, wait := .stopped (some 0) }] }
def leavingCrew : Crew := { crew0 with preempt := some 0 }
def savedCrew : Crew := { crew0 with resident := false }
def savedState : State := { crewState savedCrew stoppedWave with works := [{ placeable0 with shares := [] }], saved := [{ crew := 0, span := 0, tick := 0 }] }
def reachedWave : Wave := { wave0 with gangs := [], reached := some 1 }

theorem witness_CrewsArePreempted :
    ((crewState crew0 wave0).crew? 0 = some crew0 ∧ crew0.mayPreempt = true ∧ ((crewState crew0 wave0).part 0).sptmo = 0) ∧
    ((crewState leavingCrew stoppedWave).maySave leavingCrew = true ∧ leavingCrew.isTile = false ∧ (crewState leavingCrew wave0).maySave leavingCrew = false ∧
      leavingCrew.preempt = some 0) ∧
    (savedState.crew? 0 = some savedCrew ∧ savedState.mayResume savedCrew at0 = true ∧ savedState.contextBad savedCrew.queue = none ∧
      savedState.resumeTurn savedCrew at0 = true ∧ savedCrew.isTile = false) ∧
    (let s := crewState crew0 reachedWave
     s.crew? 0 = some crew0 ∧ s.block? 0 0 = some block0 ∧ ((s.wavesOf 0 0).filter fun w => !w.hasExited) = [reachedWave] ∧ crew0.resident = true ∧
      crew0.preempt = none ∧ crew0.isCombiner = false ∧ crew0.isGbuffer = false ∧ s.contextBad crew0.queue = none ∧ s.phaseTurn crew0 (crew0.coreOf 0) = true ∧
      s.hasRoom (crew0.coreOf 0) { slots := 1, regs := 65, tile := 0, banks := 0 } = true) ∧
    (let s := crewState gbufferCrew reachedWave
     s.crew? 0 = some gbufferCrew ∧ gbufferCrew.isGbuffer = true ∧ s.block? 0 0 = some block0 ∧ ((s.wavesOf 0 0).filter fun w => w.reached.isSome) = [reachedWave] ∧
      gbufferCrew.resident = true ∧ s.phaseTurn gbufferCrew (gbufferCrew.coreOf 0) = true) := by decide +kernel

/-! Waiting gangs. -/

def waitingIn (x : Wait) : Wave := { wave0 with gangs := [{ slices := 0xFFFFFF, pc := 0x10000, wait := x }] }
def waits (s : State) (w : Wave) (x : Wait) : Bool :=
  decide (s.wave? r0 = some w) && decide (w.gang? 0 = some { slices := 0xFFFFFF, pc := 0x10000, wait := x }) && !s.roundHolds r0
def landing (pending : LaneMask) : Landing := { id := 0, file := false, reg := 8, lanes := 1, data := [Lanes.build fun _ => 7], pending := pending }
def condWait (w : Wave) (deadline : Option Nat) : WaitState := { all := false, conds := condsOf w, seen := 0, pois := false, dst := 20, deadline := deadline }
def condWave (d0 v0 : Word) (deadline : Option Nat) : Wave :=
  { conds d0 v0 0 with gangs := [{ slices := 0xFFFFFF, pc := 0x10000, wait := .cond (condWait (conds d0 v0 0) deadline) }] }
def trapped : Wave := { handled wave0 with traps := [{ cause := 0x0E, pc := 0, lanes := 1 }], raised := 1 }
def entry0 (x : EntryState) : Entry :=
  { index := 2, ctag := 0, page := 2, sub := 0, kind := 0, state := x, install := false, owner := some r0, part := 0, context := crew0.ctx, span := 0,
    async := false, mark := 0, pc := 0x10000, stamp := 0 }
def faulting (x : EntryState) : State := { of (handled wave0) with buffers := [{ cluster := 0, entries := [entry0 x], dropped := false, replayAll := false }] }

theorem witness_LandingsAreMade (m : LaneMask) :
    (of { wave0 with landings := [landing m] }).wave? r0 = some { wave0 with landings := [landing m] } := rfl

theorem witness_WaitingWavesGoOn :
    (let w := { waitingIn .regang with bands := [allSlices] }
     (of w).wave? r0 = some w ∧ (of w).crew? 0 = some crew0 ∧ w.bands = [allSlices] ∧ wave0.bands = [] ∧ (of w).roundHolds r0 = false ∧ w.sup = false) ∧
    (∀ b ∈ [queued 1 0, queued 0 0], waits (st crew0 (waitingIn (.qpush 3 4)) b) (waitingIn (.qpush 3 4)) (.qpush 3 4) = true) ∧
    (∀ b ∈ [queued 0 1, queued 0 0], waits (st crew0 (waitingIn (.qpop 3 8 0)) b) (waitingIn (.qpop 3 8 0)) (.qpop 3 8 0) = true) ∧
    ((st crew0 (waitingIn (.qpop 3 8 0)) (queued 0 1)).popStamps 0 0 3 = [0] ∧ (queued 0 1).queueCount 3 ≠ 0 ∧ (queued 0 0).queueCount 3 = 0 ∧
      wave0.isFull .g 4 = true ∧ wave0.isFull .g 8 = true) ∧
    ((queued 1 0).allowance 3 0 ≠ 0 ∧ (queued 0 0).allowance 3 0 = 0 ∧ (of wave0).mustWait r0 true true = false ∧ (of wave0).mustWait r0 false false = false ∧
      (holdingLoad (of wave0)).mustWait r0 true true = true) := by decide +kernel

theorem witness_WaitingConditions :
    (let w := condWave 0x10F01000 0 none
     ((of w).waiter r0 0).isSome = true ∧ ((of w).observe w crew0 (condWait w none)).1.met = true) ∧
    (let w := condWave 0x10F01000 5 (some 0)
     ((of w).waiter r0 0).map (fun x => x.2.2.2) = some (condWait w (some 0)) ∧ ((of w).observe w crew0 (condWait w (some 0))).1.met = false ∧
      (of w).tick = 0 ∧ ((of w).part 0).woad = false) ∧
    (let w := condWave 0x10F01000 5 (some 1)
     ((of w).observe w crew0 (condWait w (some 1))).1.met = false ∧ (of w).tick < 1) := by decide +kernel

def recording (frd : BitVec 32) : State :=
  { device 3 with parts := (device 3).parts.map fun x => if x.num = 0 then { x with records := [1], flog := 1, fwr := 2, frd := frd } else x }

theorem witness_WaitingGrants :
    (waits (of (waitingIn (.acqacc 3 0))) (waitingIn (.acqacc 3 0)) (.acqacc 3 0) = true ∧ crew0.resident = true ∧ crew0.preempt = none ∧
      (of (waitingIn (.acqacc 3 0))).accBlock? crew0 (waitingIn (.acqacc 3 0)) = some block0) ∧
    (waits (graphing (waitingIn (.recalloc 1 10 1 [] 0))) (waitingIn (.recalloc 1 10 1 [] 0)) (.recalloc 1 10 1 [] 0) = true ∧
      (graphing wave0).graph? 0 = some graph0) ∧
    ((of trapped).wave? r0 = some trapped ∧ trapped.canTrap = true ∧ { trapped with sup := true }.canTrap = false ∧ trapped.traps.length = 1 ∧
      trapped.trapFirst ((of trapped).ownedEntry trapped crew0) = true ∧ (of trapped).poisonUnposted 0 = false ∧
      (let e := entry0 .owned; { trapped with raised := 2 }.trapFirst (some { e with mark := 1 })) = false ∧
      (let s := recording 0; let s : State := { s with parts := s.parts.map fun x => { x with records := [0x2000E] } }; s.poisonUnposted 0) = true) ∧
    ((faulting .owned).ownedEntry (handled wave0) crew0 = some (entry0 .owned) ∧ (handled wave0).canTrap = true ∧
      (handled wave0).trapFirst (some (entry0 .owned)) = false) := by decide +kernel

/-- A first-touch page at 0x60000 and a pool of one frame at 0x40000. -/
def pooled : State :=
  { walked with mem := entries [(0x01000000, 0x01040001), (0x01040000, 0x01060001), (0x01060010, 0x0200006F), (0x01060018, 0x100), (0x02000000, 1),
      (0x02000010, 0x40100), (0x02000018, 5), (0x02000100, 0x04000000)] }
def poolContext : Context := { radix with pool := 0x40000 }
def poolEntry : Entry := { entry0 .walk with context := poolContext, page := 3, install := true, owner := none }

theorem witness_InstallsAreMade :
    let s := { pooled with buffers := [{ cluster := 0, entries := [poolEntry], dropped := false, replayAll := false }] }
    ((s.buffer 0).entries.find? fun e => e.index == 2 && e.state == .walk) = some poolEntry ∧
    (match s.walk poolContext 0 0 0x60000 with | (.missing 1 a b d, s1) => (s1.install poolEntry a b d).isSome && !(s1.part 0).woad | _ => false) = true := by
  decide +kernel

theorem witness_FaultBufferEntriesAreResolved :
    (let s := { walked with buffers := [{ cluster := 0, entries := [{ entry0 .walk with context := radix, page := 0x00ABCDE123456780 / 2 ^ 17 }], dropped := false, replayAll := false }] }
     ((s.buffer 0).entries.find? fun e => e.index == 2 && e.state == .walk).isSome = true ∧ (s.part 0).woad = false ∧ s.heldOn 0 2 = [] ∧
      (match s.walk radix 0 0 (BitVec.ofNat 64 (0x00ABCDE123456780 / 2 ^ 17 * 2 ^ 17)) with | (.leaf _ _ _ _, _) => true | _ => false) = true ∧
      (match s.walk radix 0 0 0 with | (.missing sub _ _ _, _) => sub == 0 | _ => false) = true) ∧
    (match { walked with mem := entries [(0x01000000, 3)] }.walk radix 0 0 0 with | (.malformed sub, _) => sub == 1 | _ => false) = true ∧
    (match { walked with poison := [memKey 0 0x01000000] }.walk radix 0 0 0 with | (.poisoned, _) => true | _ => false) = true ∧
    (match { walked with mem := entries [(0x01000000, 0x01040001), (0x01040000, 0x01060001), (0x01060000, 0x100)] }.walk radix 0 0 0 with
      | (.missing sub _ _ _, _) => sub == 1 | _ => false) = true := by decide +kernel

theorem witness_FaultRecordsAndResponses :
    (((recording 0).part 0).records = [1] ∧ (recording 0).controlPort.isSome = true ∧ ((recording 0).part 0).flog = 1 ∧
      ((recording 1).part 0).records = [1] ∧ (recording 1).controlPort.isSome = true ∧ ((recording 1).part 0).flog = 1) ∧
    ((((recording 0).part 0).fwr - ((recording 0).part 0).frd).toNat = 2 ^ 1 ∧ (((recording 1).part 0).fwr - ((recording 1).part 0).frd).toNat ≠ 2 ^ 1) ∧
    (let s := { device 3 with buffers := [{ cluster := 0, entries := [entry0 .host], dropped := false, replayAll := false }] }
     s.administers 0 0 = true ∧ s.administers 1 0 = false ∧ (s.part 0).woad = false ∧ (s.fresEntry 0 0x2).isSome = true ∧ (s.fresEntry 0 0x1002).isSome = true ∧
      (0x1002 : BitVec 32).getLsbD 12 = true ∧ s.fresEntry 0 0x7A = none ∧ 12 ≤ bits (0x7A : BitVec 32).toNat 6 3) := by decide +kernel

/-! ## Witnesses: errors, ports, engines, the tile pipeline, rounds and frames -/

def l2line (dirty : Bool) : L2Line := { mt := 0, line := 5, home := 0, part := 0, dirty := dirty, owner := 0, blocks := [(0, 0)], comp := false }
def ported : State := { offering 6 with l2 := [l2line true], blocks := [block0] }
def spanAt (x : PortSpan) : Nat × Nat × Nat × Option Nat := (x.mt, x.pa, x.size, x.part)

theorem witness_ErrorsAndPortsTakeEffect :
    ((match ported.portReach { target := .phys 0 0x100, op := .atomic .addS32 1 } with
      | (some xs, s1) => xs.map spanAt == [(0, 0x100, 4, some 0)] && !(s1.part 0).woad
      | _ => false) = true ∧
      bits ported.module.portRole.toNat 1 0 = 1 ∧ bits ported.module.portRole.toNat 5 4 ≠ 1 ∧ ported.objects = [] ∧ 0x100 % AtomOp.size .addS32 = 0) ∧
    ((match ported.portReach { target := .global 0 0 0x03000000 0x41000, op := .read 8 } with
      | (some xs, s1) => xs.map spanAt == [(0, 0x02001000, 8, some 0)] && !(s1.part 0).woad
      | _ => false) = true ∧
      bits { ported.module with portRole := 2 }.portRole.toNat 1 0 = 2) ∧
    (ported.parts.map fun x => x.num) = List.range 8 ∧ (ported.part 0).state ≠ 0 ∧
    ported.memPart (codewordPlace 0x100).1 (codewordPlace 0x100).2 = some 0 ∧ (ported.part 0).woad = false ∧
    (ported.l2Line 5 = some (l2line true) ∧ { ported with l2 := [l2line false] }.l2Line 5 = some (l2line false) ∧ (l2line true).poisoned 0xA = [1, 3] ∧ ported.block? 0 0 = some block0 ∧
      { l2line true with comp := true }.poisoned 1 = [0, 1, 2, 3]) := by decide +kernel

/-! Engines, requests, combiners and graphs. -/

def commanded (m : Command) : State := st crew0 wave0 { block0 with commands := [m] }
def inFlight (qs : List Request) : State := { mapped with inflight := qs, objects := [{ object with running := none, replies := [], crew := none }] }
def pendingOn (q : Request) : Object := { object with running := none, replies := [], crew := none, pending := [q] }

theorem witness_EnginesCombinersAndGraphsMove :
    (let s := commanded (command 0 1 copyBits)
     s.crew? 0 = some crew0 ∧ ((s.block? 0 0).bind fun b => b.command? 0) = some (command 0 1 copyBits) ∧ crew0.resident = true ∧ 0 < (command 0 1 copyBits).total) ∧
    (((commanded { command 0 1 copyBits with held := [0] }).block? 0 0).bind fun b => b.command? 0) = some { command 0 1 copyBits with held := [0] } ∧
    (((commanded (command 0 4 xfmBits)).block? 0 0).bind fun b => b.command? 0) = some (command 0 4 xfmBits) ∧ (command 0 4 xfmBits).total = 1 ∧
    (crew0.resident = true ∧ { crew0 with resident := false }.resident = false ∧ { command 0 4 xfmBits with table := [0] }.total = 1) ∧
    ((inFlight [request, request]).inflight[1]? = some request ∧ (inFlight [request, request]).inflight.take 1 = [request]) ∧
    ((inFlight [request]).inflight[0]? = some request ∧ ({ inFlight [request] with inflight := [] }.methodOf radix 0 9).1 = .builtin ∧
      ({ inFlight [request] with inflight := [] }.methodOf radix 0 12).1 = .bad 2 ∧
      (inFlight [request]).objectOf? request = some { object with running := none, replies := [], crew := none } ∧
      { inFlight [request] with objects := [] }.objectOf? request = none) ∧
    (let c := { radix with methobj := 0x60000 }
     let q := { request with method := 16, context := c }
     let s := { inFlight [q] with objects := [{ object with running := none, replies := [], crew := none, ctag := c.ctag }] }
     s.inflight[0]? = some q ∧ (match { s with inflight := [] }.methodOf c 0 16 with | (.miss _ _, s1) => (s1.objectOf? q).isSome | _ => false) = true) ∧
    (let s := { mapped with objects := [pendingOn request] }
     s.object? 3 = some (pendingOn request) ∧ (pendingOn request).blocked = false ∧ (pendingOn request).limit = none ∧ (s.methodOf radix 0 9).1 = .builtin ∧
      (s.batchOf 0 .builtin).2 = 0) ∧
    ((graphing wave0).graph? 0 = some graph0 ∧ graph0.nodes[1]? = some node0 ∧ node0.tmo = 0 ∧
      (let g : Graph := { graph0 with pending := [(1, 0x5000, 0)] }; g.pending.filter fun x => x.1 == 1) ≠ []) := by decide +kernel

/-! A code object at 0x44000 with a method table of one method, 16, of BATCH 2 and WINDOW 5. -/

def methodWords : List (Nat × Nat) :=
  [(0x02004000, 0x000500014F434C4A), (0x02004008, 0x0000008000000001), (0x02004010, 4), (0x02004018, 0x0000010000000002), (0x02004020, 64),
   (0x02004028, 0x0000100000000005), (0x02004030, 4096), (0x02004038, 0x0000018000000006), (0x02004040, 0xA00), (0x02004048, 0x00000C0000000007),
   (0x02004050, 1), (0x02004080, 0x8D000001), (0x02004108, 0x0000080100000004), (0x02005100, 0x8000000200000000), (0x02005108, 5)]
def entry16 : List Byte := leBytes 16 (0x8000000200000000 + 5 * 2 ^ 64)
def methodBytes : List Byte := List.replicate 256 0#8 ++ (entry16 ++ List.replicate 3824 0#8)

theorem bytesAt_append (c : List (Nat × Byte)) (a n m : Nat) : bytesAt c a (n + m) = bytesAt c a n ++ bytesAt c (a + n) m := by
  induction n generalizing a with
  | zero => simp [-List.reduceReplicate, bytesAt]
  | succ n ih => rw [show n + 1 + m = (n + m) + 1 by omega, bytesAt, bytesAt, ih, List.cons_append, show a + 1 + n = a + (n + 1) by omega]
def absent (c : List (Nat × Byte)) (a n : Nat) : Bool := c.all fun x => decide (x.1 < a ∨ a + n ≤ x.1)
def readsMethods (s : State) (c : Context) (a : BitVec 64) : Bool :=
  match s.devReach c 0 a 4096 { r := true } with
  | (.ok [x], t) =>
    let t := t.touchSpan c 0 none x false
    let k := memKey x.mt x.pa
    x.size == 4096 && t.loose.isEmpty && !t.memPoisoned x.mt x.pa 4096 && absent t.mem k 256 && bytesAt t.mem (k + 256) 16 == entry16 && absent t.mem (k + 272) 3824
  | _ => false
theorem loaded_methods (s : State) (c : Context) (a : BitVec 64) (h : readsMethods s c a = true) :
    s.loadBytes c 0 a 4096 = (.ok methodBytes, afterLoad s c a 4096) := by
  unfold afterLoad
  unfold readsMethods at h
  rcases hs : s.devReach c 0 a 4096 { r := true } with ⟨_ | l, t⟩
  · simp [-List.reduceReplicate, hs] at h
  · rcases l with _ | ⟨x, _ | ⟨_, _⟩⟩
    · simp [-List.reduceReplicate, hs] at h
    · simp only [hs, Bool.and_eq_true, beq_iff_eq, Bool.not_eq_true', absent] at h
      obtain ⟨⟨⟨⟨⟨hn, hl⟩, hp⟩, h1⟩, h2⟩, h3⟩ := h
      have hb : ∀ k c, bytesAt c k 4096 = bytesAt c k 256 ++ (bytesAt c (k + 256) 16 ++ bytesAt c (k + 272) 3824) := fun k c => by
        rw [show (4096 : Nat) = 256 + (16 + 3824) by rfl, bytesAt_append, bytesAt_append]
      simp [-List.reduceReplicate, State.loadBytes, State.devRead, hs, hn, hp, State.rawBytes, memBytes_plain hl, hb, bytesAt_absent _ _ _ h1, bytesAt_absent _ _ _ h3, h2, methodBytes]
    · simp [-List.reduceReplicate, hs] at h
def obj1 : CodeObject :=
  { base := 0x44000, sections := [(1, 0x80, [1, 0, 0, 0x8D]), (2, 0x100, leBytes 64 (0x0000080100000004 * 2 ^ 64)), (5, 0x1000, methodBytes),
      (6, 0x180, List.replicate 2560 0#8), (7, 0xC00, [0])] }
theorem obj1_methods : obj1.bytes 5 = methodBytes := rfl
theorem numAt_after (off n : Nat) (h : 272 ≤ off) : numAt methodBytes off n = 0 := by
  have he : entry16.length = 16 := by decide
  rw [numAt, methodBytes, List.drop_append, List.drop_append, List.drop_eq_nil_of_le (by simp [-List.reduceReplicate]; omega), List.drop_eq_nil_of_le (by simp [-List.reduceReplicate, he]; omega)]
  simp [-List.reduceReplicate, List.drop_replicate, List.take_replicate, leNat_zeros]
theorem obj1_methodOk (m : Nat) (h : m < 256) : obj1.methodOk m = true := by
  rcases Nat.lt_trichotomy m 16 with h1 | rfl | h1
  · have : List.take 16 (List.drop (16 * m) methodBytes) = List.replicate 16 0#8 := by
      rw [methodBytes, List.drop_append_of_le_length (by simp [-List.reduceReplicate]; omega), List.drop_replicate, List.take_append_of_le_length (by simp [-List.reduceReplicate]; omega), List.take_replicate]
      congr 1; omega
    simp [-List.reduceReplicate, CodeObject.methodOk, h1, obj1_methods, this, leNat_zeros]
  · decide +kernel
  · have hn (k n : Nat) : numAt (List.drop (16 * m) methodBytes) k n = 0 := by
      rw [numAt, List.drop_drop, ← numAt]; exact numAt_after _ _ (by omega)
    have hb (a b : Nat) : bits 0 a b = 0 := by simp [-List.reduceReplicate, bits]
    simp [-List.reduceReplicate, CodeObject.methodOk, CodeObject.method, show ¬ m < 16 by omega, obj1_methods, hn, hb]
theorem obj1_ok : obj1.tablesOk = true := by
  have hp : (obj1.kernel 0).phaseN = 0 := by decide +kernel
  have hc : obj1.controlImage (obj1.kernel 0) = List.replicate 2560 0#8 := by decide +kernel
  have hk : obj1.recordOk 0 = true := by
    simp only [CodeObject.recordOk, hc, imageOk_zeros _ _ _ hp]
    decide +kernel
  have hn : List.range obj1.kernelCount = [0] := by decide +kernel
  have h3 : (List.range ((obj1.bytes 4).length / 32)) = [] := by decide +kernel
  have h4 : ((List.range 256).all obj1.methodOk) = true := by
    simp only [List.all_eq_true, List.mem_range]; exact obj1_methodOk
  simp only [CodeObject.tablesOk, hn, h3, List.all_cons, List.all_nil, hk, h4, Bool.or_true, Bool.and_true]
theorem obj1_sections : obj1.sections = [(1, 0x80, [1, 0, 0, 0x8D]), (2, 0x100, leBytes 64 (0x0000080100000004 * 2 ^ 64)), (5, 0x1000, methodBytes),
    (6, 0x180, List.replicate 2560 0#8), (7, 0xC00, [0])] := by simp only [obj1]
def head1 : List Byte := leBytes 8 0x000500014F434C4A
def dir1 : List Byte :=
  leBytes 80 (0x0000008000000001 + 2 ^ 64 * 4 + 2 ^ 128 * 0x0000010000000002 + 2 ^ 192 * 64 + 2 ^ 256 * 0x0000100000000005 + 2 ^ 320 * 4096 +
    2 ^ 384 * 0x0000018000000006 + 2 ^ 448 * 0xA00 + 2 ^ 512 * 0x00000C0000000007 + 2 ^ 576)
def mstep1 (s : State) (c : Context) : State := afterLoad s c 0x44000 8
def mstep2 (s : State) (c : Context) : State := afterLoad (mstep1 s c) c (0x44000 + 8) 80
def mstep3 (s : State) (c : Context) : State := afterLoad (mstep2 s c) c (0x44000 + BitVec.ofNat 64 0x80) 4
def mstep4 (s : State) (c : Context) : State := afterLoad (mstep3 s c) c (0x44000 + BitVec.ofNat 64 0x100) 64
def mstep5 (s : State) (c : Context) : State := afterLoad (mstep4 s c) c (0x44000 + BitVec.ofNat 64 0x1000) 4096
def mstep6 (s : State) (c : Context) : State := afterLoad (mstep5 s c) c (0x44000 + BitVec.ofNat 64 0x180) 2560
def mstep7 (s : State) (c : Context) : State := afterLoad (mstep6 s c) c (0x44000 + BitVec.ofNat 64 0xC00) 1
def mstep8 (s : State) (c : Context) : State := afterLoad (mstep7 s c) c (0x44000 + BitVec.ofNat 64 0x180) 2560
theorem head1_count : numAt head1 6 2 = 5 := by decide +kernel
theorem loads_abs1 (s s1 s2 s3 s4 s5 s6 s7 s8 : State) (c : Context) (l m : List Byte) (hn : l.length = 2560)
    (hl : obj1.sections = [(1, 0x80, [1, 0, 0, 0x8D]), (2, 0x100, leBytes 64 (0x0000080100000004 * 2 ^ 64)), (5, 0x1000, m), (6, 0x180, l), (7, 0xC00, [0])])
    (e1 : s.loadBytes c 0 0x44000 8 = (.ok head1, s1)) (e2 : s1.loadBytes c 0 (0x44000 + 8) 80 = (.ok dir1, s2))
    (e3 : s2.loadBytes c 0 (0x44000 + BitVec.ofNat 64 0x80) 4 = (.ok [1, 0, 0, 0x8D], s3))
    (e4 : s3.loadBytes c 0 (0x44000 + BitVec.ofNat 64 0x100) 64 = (.ok (leBytes 64 (0x0000080100000004 * 2 ^ 64)), s4))
    (e5 : s4.loadBytes c 0 (0x44000 + BitVec.ofNat 64 0x1000) 4096 = (.ok m, s5))
    (e6 : s5.loadBytes c 0 (0x44000 + BitVec.ofNat 64 0x180) 2560 = (.ok l, s6))
    (e7 : s6.loadBytes c 0 (0x44000 + BitVec.ofNat 64 0xC00) 1 = (.ok [0], s7))
    (e8 : s7.loadBytes c 0 (0x44000 + BitVec.ofNat 64 0x180) 2560 = (.ok l, s8)) : s.loadObject c 0 0x44000 none = (.ok obj1, s8) := by
  have h := loadObject_ok s c 0 0x44000 head1 dir1 [(1, 0x80, 4, 0), (2, 0x100, 64, 0), (5, 0x1000, 4096, 0), (6, 0x180, 0xA00, 0), (7, 0xC00, 1, 0)]
    s1 s2 s7 s8 obj1.sections e1
    (by rw [head1_count]; exact e2) (by decide +kernel)
    (by rw [hl]; exact loadSections_cons _ s3 _ _ _ _ _ _ _ _ _ e3 _ _ (loadSections_cons _ s4 _ _ _ _ _ _ _ _ _ e4 _ _
          (loadSections_cons _ s5 _ _ _ _ _ _ _ _ _ e5 _ _ (loadSections_cons _ s6 _ _ _ _ _ _ _ _ _ e6 _ _
            (loadSections_cons _ s7 _ _ _ _ _ _ _ _ _ e7 _ _ rfl)))))
    (by decide +kernel) (by rw [head1_count]; decide +kernel) obj1_ok (by decide +kernel)
    (loadImages_one (o := obj1) (by decide +kernel) (by decide +kernel) (by simp [CodeObject.section_, hl]) hn e8)
  exact h
def methodReads (s : State) (c : Context) : Bool :=
  gives (s.loadBytes c 0 0x44000 8).1 head1 && (gives ((mstep1 s c).loadBytes c 0 (0x44000 + 8) 80).1 dir1 &&
    (gives ((mstep2 s c).loadBytes c 0 (0x44000 + BitVec.ofNat 64 0x80) 4).1 [1, 0, 0, 0x8D] &&
    (gives ((mstep3 s c).loadBytes c 0 (0x44000 + BitVec.ofNat 64 0x100) 64).1 (leBytes 64 (0x0000080100000004 * 2 ^ 64)) &&
    (readsMethods (mstep4 s c) c (0x44000 + BitVec.ofNat 64 0x1000) && (readsZeros (mstep5 s c) c (0x44000 + BitVec.ofNat 64 0x180) 2560 &&
      (gives ((mstep6 s c).loadBytes c 0 (0x44000 + BitVec.ofNat 64 0xC00) 1).1 [0] &&
      readsZeros (mstep7 s c) c (0x44000 + BitVec.ofNat 64 0x180) 2560))))))
theorem loads_methods (s : State) (c : Context) (h : methodReads s c = true) : s.loadObject c 0 0x44000 none = (.ok obj1, mstep8 s c) :=
  let ⟨h1, h⟩ := Bool.and_eq_true_iff.mp h
  let ⟨h2, h⟩ := Bool.and_eq_true_iff.mp h
  let ⟨h3, h⟩ := Bool.and_eq_true_iff.mp h
  let ⟨h4, h⟩ := Bool.and_eq_true_iff.mp h
  let ⟨h5, h⟩ := Bool.and_eq_true_iff.mp h
  let ⟨h6, h⟩ := Bool.and_eq_true_iff.mp h
  let ⟨h7, h8⟩ := Bool.and_eq_true_iff.mp h
  loads_abs1 s (mstep1 s c) (mstep2 s c) (mstep3 s c) (mstep4 s c) (mstep5 s c) (mstep6 s c) (mstep7 s c) (mstep8 s c) c (List.replicate 2560 0#8) methodBytes
    (List.length_replicate ..) obj1_sections
    (loaded _ _ _ _ _ h1) (loaded _ _ _ _ _ h2) (loaded _ _ _ _ _ h3) (loaded _ _ _ _ _ h4) (loaded_methods _ _ _ h5) (loaded_zeros _ _ _ _ h6)
    (loaded _ _ _ _ _ h7) (loaded_zeros _ _ _ _ h8)
theorem method16 : obj1.method 16 = some (0, 2, 5) := by decide +kernel
theorem methodOf_user (s s1 : State) (c : Context) (part m : Nat) (o : CodeObject) (off bt wn : Nat) (hm : 16 ≤ m) (hc : c.methobj ≠ 0)
    (h : s.loadObject c part c.methobj none = (.ok o, s1)) (hx : o.method m = some (off, bt, wn)) : s.methodOf c part m = (.user o off bt wn, s1) := by
  simp only [State.methodOf, show ¬ m < 12 by omega, show ¬ m < 16 by omega, hc, h, hx, if_false]
def methodCtx : Context := { radix with methobj := 0x44000 }
def request16 : Request := { request with method := 16, context := methodCtx }
def homeState (os : List Object) : State :=
  { mapped with mem := entries ([(0x01000000, 0x01040001), (0x01040000, 0x01060001), (0x01060010, 0x0200006F)] ++ methodWords), objects := os }
def waitingObject : Object := pendingOn request16
def launchedObject : Object := { object with running := some [request16], replies := [], crew := none }

theorem home_method (os : List Object) (h : methodReads (homeState os) methodCtx = true) :
    (homeState os).methodOf methodCtx 0 16 = (.user obj1 0 2 5, mstep8 (homeState os) methodCtx) :=
  methodOf_user _ _ _ _ _ _ _ _ _ (by decide) (by decide) (loads_methods _ _ h) method16

/-- One request of the two that a batch wants, in a window of five ticks. -/
theorem witness_MethodBatches :
    (homeState [waitingObject]).methodOf methodCtx 0 16 = (.user obj1 0 2 5, mstep8 (homeState [waitingObject]) methodCtx) ∧
    (homeState [waitingObject]).object? 3 = some waitingObject ∧ waitingObject.headRun.length = 1 ∧ waitingObject.pending.length = 1 ∧
    (homeState []).batchOf 0 (.user obj1 0 2 5) = (2, 5) ∧ (homeState [waitingObject]).tick < request16.arrived + 5 ∧
    request16.arrived + 5 ≤ { homeState [waitingObject] with tick := request16.arrived + 5 }.tick ∧
    { waitingObject with pending := [request16, request16] }.headRun.length = 2 :=
  ⟨home_method _ (by decide +kernel), by decide +kernel⟩

theorem witness_CombinersStart :
    (homeState [launchedObject]).methodOf methodCtx 0 16 = (.user obj1 0 2 5, mstep8 (homeState [launchedObject]) methodCtx) ∧
    (homeState [launchedObject]).object? 3 = some launchedObject ∧ launchedObject.running = some [request16] ∧ launchedObject.crew = none ∧
    (∀ z ∈ (homeState [launchedObject]).objects, z.crew = none ∧ launchedObject.launched ≤ z.launched) :=
  ⟨home_method _ (by decide +kernel), by decide +kernel, rfl, rfl, fun z hz => by rw [List.mem_singleton.mp hz]; exact ⟨rfl, Nat.le_refl _⟩⟩

/-! Render passes and their tiles. -/

def pass1 : RenderPass := { pass0 with tiles := [TileState.initial], final := false, next := 1 }
def passing (r : RenderPass) : State := { device 3 with passes := [r] }
def submitted (l : Nat) : Submission :=
  { prim := 0, xyzq := (List.range 12).map fun k => ((binWave 3).readV (16 + k)).at_ l, attr := 0, wave := r0, lane := l }
def modeSet (m : BitVec 32) (s : State) : State := { s with parts := s.parts.map fun x => { x with modes := m } }
def savedTileCrew : Crew := { tileCrew with resident := false }

/-- The pages of a save area at 0x40000. -/
def saveMem : List (Nat × Byte) :=
  entries ([(0x01000000, 0x01040001), (0x01040000, 0x01060001)] ++ (List.range 5).map fun i => (0x01060010 + 8 * i, 0x0200007F + 0x20000 * i))

theorem witness_RenderPassesMove :
    (let w := { work0 with dep := false, placeable := true, pass := some pass1 }
     (working w).pass? 0 = none ∧ ((working w).works.find? fun w => w.part == 0 && w.placeable && w.pass.isSome) = some w) ∧
    ((passing pass1).pass? 0 = some pass1 ∧ pass1.flushing = false ∧ (pass1.subs.find? fun x => x.prim == pass1.skip.commit) = none) ∧
    (let r := { pass1 with subs := [submitted 0] }
     (r.subs.find? fun x => x.prim == r.skip.commit) = some (submitted 0) ∧ r.resolve (submitted 0).xyzq = none) ∧
    (let r := { pass1 with subs := [submitted 1], poolUnits := 1 }
     (r.subs.find? fun x => x.prim == r.skip.commit) = some (submitted 1) ∧
      (match r.resolve (submitted 1).xyzq with | some t => decide (r.poolUnits - r.next < r.skip.need r.skip.commit (r.touched t)) | none => false) = true) ∧
    (let r := { pass1 with subs := [submitted 1], poolUnits := 8, next := 1, poolBase := 0x40000, context := radix }
     let s := { mapped with passes := [r], mem := saveMem }
     s.pass? 0 = some r ∧ r.flushing = false ∧ (r.subs.find? fun x => x.prim == r.skip.commit) = some (submitted 1) ∧
      (match r.resolve (submitted 1).xyzq with
       | some t => decide (r.skip.need r.skip.commit (r.touched t) ≤ r.poolUnits - r.next) &&
          (match s.poolWrites r.skip (some (0, 0)) [(r.skip.unit r.next, setupBytes r.skip.commit t (submitted 1).attr)] with
           | .ok s1 => (match appendAll (some (0, 0)) r.skip.commit (r.touched t) { r.skip with
               next := r.next + 1, commit := r.skip.commit + 1, subs := r.subs.filter (fun y => y.prim != r.skip.commit), setups := (r.skip.commit, r.next) :: r.setups,
               backs := if t.back then r.skip.commit :: r.backs else r.backs, notified := false } s1 with
             | .ok _ => true
             | _ => false)
           | _ => false)
       | none => false) = true) ∧
    (let s := { working work0 with passes := [pass1] }
     s.work? pass1.seq = some work0 ∧ (s.part pass1.part).spans.getLsbD 0 = true ∧ s.fits 0 0 [pass1.tileRoom] = true) ∧
    (let r := { pass1 with commit := 96 }
     r.final = false ∧ r.glanes ≤ r.skip.commit) ∧
    (let r := { pass1 with flushing := true }
     (passing r).pass? 0 = some r ∧ r.requests = [] ∧ (passing r).crews = []) ∧
    (let r := { pass1 with requests := [(0, false)] }
     (passing r).pass? 0 = some r ∧ (passing r).brokerFree 0 = true ∧ ((passing r).part 0).modes.getLsbD 4 = false ∧ (passing r).savedTile r = none ∧
      (r.requests.find? fun x => !(r.tile x.1).owned) = some (0, false) ∧
      { passing r with crews := [savedTileCrew] }.savedTile r = some savedTileCrew ∧
      (modeSet 0x10 (passing r)).brokerFree 0 = true ∧ ((modeSet 0x10 (passing r)).part 0).modes.getLsbD 4 = true ∧
      (r.requests.find? fun x => x.1 == 0 && !(r.tile x.1).owned) = some (0, false) ∧ (modeSet 0x10 (passing r)).administers 0 0 = true) ∧
    (let r := { pass1 with notified := true }
     (modeSet 4 (passing r)).pass? 0 = some r ∧ ((modeSet 4 (passing r)).part 0).modes.getLsbD 2 = true ∧ r.poolUnits < 2 ^ 24) ∧
    ((modeSet 2 (passing pass1)).administers 0 0 = true ∧ ((modeSet 2 (passing pass1)).part 0).modes.getLsbD 1 = true ∧
      (passing pass1).administers 1 0 = false) := by decide +kernel

def tileAtStep (step : PassStep) : TilePass := { tile0 with step := step }
def stepCrew (t : TilePass) : Crew := { callCrew with kind := .tile t }
def stepping1 (t : TilePass) (r : RenderPass) : State := { mapped with crews := [stepCrew t], passes := [r], waves := [] }
def saveParts : List Partition := spanned.map fun x => { x with saveArea := 0x40000 }
def tilePass1 (valid : Bool) : RenderPass := { pass0 with resBase := 0x40000, tiles := [{ TileState.initial with owned := true, valid := valid }] }

theorem witness_TilePassesMove :
    State.reset.tileAt 0 .load = none ∧
    ((stepping1 (tileAtStep .load) (tilePass1 false)).tileAt 0 .load = some (stepCrew (tileAtStep .load), tileAtStep .load, tilePass1 false, block0) ∧
      ((tilePass1 false).tile 0).valid = false) ∧
    ((stepping1 (tileAtStep .load) (tilePass1 true)).tileAt 0 .load = some (stepCrew (tileAtStep .load), tileAtStep .load, tilePass1 true, block0) ∧
      (match (stepping1 (tileAtStep .load) (tilePass1 true)).devRead radix 0 (some (0, 0)) ((tilePass1 true).slotOf 0) (tilePass1 true).planeRun.2 with
        | (.ok _, _) => true | _ => false) = true ∧
      (match (stepping1 (tileAtStep .load) (tilePass1 true)).devRead radix 0 (some (0, 0)) 0x60000 (tilePass1 true).planeRun.2 with
        | (.error _, _) => true | _ => false) = true) ∧
    (let s := stepping1 (tileAtStep .visibility) (tilePass1 false)
     s.tileAt 0 .visibility = some (stepCrew (tileAtStep .visibility), tileAtStep .visibility, tilePass1 false, block0) ∧ ((tilePass1 false).tile 0).head = 0 ∧
      s.choose 0 = (0, s) ∧ (match s.applyPrims (tilePass1 false) (tileAtStep .visibility) 0 block0 [] with | (.ok _, _) => true | _ => false) = true) := by decide +kernel

def reachesImage (s : State) (c : Crew) (r : RenderPass) : Except DevError (List Span) :=
  (s.devReach c.ctx c.part (s.imageAt r 0) r.imageSize { r := true, w := true }).1

theorem witness_TilePassesGoOn :
    (let t := { tileAtStep .gbuffer with groups := [0] }
     (stepping1 t (tilePass1 false)).tileAt 0 .gbuffer = some (stepCrew t, t, tilePass1 false, block0) ∧
      ((stepping1 t (tilePass1 false)).endGbufferBlocks (stepCrew t)).hasRoom ((stepCrew t).coreOf 0) { slots := 1, regs := (tilePass1 false).gbuf.kernel.regs + 1, tile := 0, banks := 0 } = true ∧
      ((stepping1 t (tilePass1 false)).endGbufferBlocks (stepCrew t)).hasRoom ((stepCrew t).coreOf 0) { slots := 1, regs := 2000, tile := 0, banks := 0 } = false) ∧
    (let t := { tileAtStep .gbuffer with flush := true }
     let s := stepping1 t (tilePass1 false)
     s.tileAt 0 .gbuffer = some (stepCrew t, t, tilePass1 false, block0) ∧ s.stepDone 0 = true ∧ block0.commands = []) ∧
    ((stepping1 (tileAtStep .shading) (tilePass1 false)).tileAt 0 .shading = some (stepCrew (tileAtStep .shading), tileAtStep .shading, tilePass1 false, block0)) := by decide +kernel

def spilling : Crew := { stepCrew tile0 with preempt := some 0 }
def spillState : State := { stepping1 tile0 (tilePass1 false) with crews := [spilling], parts := saveParts }

theorem witness_TilesAreSpilled :
    (let c := spilling
     let s := spillState
     let r := tilePass1 false
     s.crew? 0 = some c ∧ c.tile? = some tile0 ∧ s.passOf c = some r ∧ s.block? 0 0 = some block0 ∧ s.maySave c = true ∧ s.spillHeld 0 = false ∧
      { s with waves := [wave0] }.maySave c = false ∧ s.freeImage c.part = 0 ∧
      (match reachesImage { s with mem := saveMem } c r with | .ok _ => true | _ => false) = true ∧
      (match reachesImage s c r with | .error (.missing _ _) => true | _ => false) = true ∧
      (match reachesImage { s with mem := saveMem, poison := [memKey 0 0x01060010] } c r with | .error .poison => true | _ => false) = true) ∧
    (let s := stepping1 (tileAtStep .gbuffer) (tilePass1 false)
     s.stepDone 0 = true ∧ s.hasRoom ((stepCrew tile0).coreOf 0) { slots := 1, regs := 65, tile := 0, banks := 0 } = true ∧
      { s with waves := [wave0] }.stepDone 0 = false) := by decide +kernel

/-- A saved tile block, with an image at place 0 of the save area and without. -/
def spilledCrew (slot : Option Nat) : Crew := { stepCrew { tile0 with slot := slot } with resident := false }
def spilledState (slot : Option Nat) : State :=
  { stepping1 tile0 (tilePass1 false) with crews := [spilledCrew slot], parts := saveParts, mem := saveMem }
def spillReached (slot : Option Nat) : Except DevError (List Span) × State :=
  (spilledState slot).devReach radix 0 ((spilledState slot).imageAt (tilePass1 false) 0) (tilePass1 false).imageSize { r := true }

theorem witness_SavedTilesAreReissued :
    (∀ k ∈ [none, some 0], let s := spilledState k
      s.pass? 0 = some (tilePass1 false) ∧ s.brokerFree 0 = true ∧ (s.part 0).modes.getLsbD 4 = false ∧ s.savedTile (tilePass1 false) = some (spilledCrew k) ∧
        (spilledCrew k).part = 0 ∧ (spilledCrew k).tile? = some { tile0 with slot := k } ∧ s.block? (spilledCrew k).id 0 = some block0 ∧
        s.spillHeld 0 = false ∧ (s.part 0).spans.getLsbD 0 = true ∧ s.mayResume (spilledCrew k) at0 = true ∧ (s.part 0).spans.getLsbD 1 = false ∧
        s.contextBad (spilledCrew k).queue = none ∧ (s.crew? 0) = some (spilledCrew k) ∧ s.passOf (spilledCrew k) = some (tilePass1 false) ∧
        (spilledCrew k).resident = false) ∧
    ((modeSet 0x10 (spilledState none)).crews.find? fun c => c.work == 0 && c.isTile && !c.resident && c.index == 0) = some (spilledCrew none) := by
  decide +kernel

theorem witness_ImagesAreRead : ∃ l s1 bs s2, spillReached (some 0) = (.ok l, s1) ∧ s1.readImage (spilledCrew (some 0)) block0 l = (some bs, s2) ∧
    ∀ b : Block, ((s2.putCrew ((spilledCrew (some 0)).withTile tile0)).putBlock b).contextBad 0 = none := by
  have h : (match spillReached (some 0) with
    | (.ok l, s1) => decide (s1.poison = []) && decide (s1.module.down = 0) && (l.all fun x => 0x20#64 &&& ~~~x.leaf == 0) && s1.contextBad 0 == none
    | _ => false) = true := by decide +kernel
  rcases hs : spillReached (some 0) with ⟨_ | l, s1⟩
  · simp [hs] at h
  · simp only [hs, Bool.and_eq_true, decide_eq_true_eq, beq_iff_eq, List.all_eq_true] at h
    obtain ⟨bs, s2, h1, h2⟩ := State.readImage_clean h.1.1.1 h.1.1.2 (spilledCrew (some 0)) block0 l h.1.2
    exact ⟨l, s1, bs, s2, rfl, h1, fun b => (h2.contextBad 0).trans h.2⟩

/-- Two primitives in the list of tile 0, of which the unit applies one. -/
def listedPass : RenderPass :=
  { tilePass1 false with poolBase := 0x40000, setups := [(0, 2), (1, 2)], tiles := [{ TileState.initial with owned := true, head := 1, tail := 1, used := 2, count := 2, prev := 2 }] }
def listedState : State :=
  { stepping1 (tileAtStep .visibility) listedPass with
    oracle := [1, 1, 1, 1, 1]
    mem := entries [(0x01000000, 0x01040001), (0x01040000, 0x01060001), (0x01060010, 0x0200007F), (0x02000040, 0x010102000000), (0x02000088, 0x700),
      (0x02000090, 0x70000000000), (0x02000098, 0x3F0000003F000000), (0x020000A0, 0x3F000000)] }

theorem witness_PartOfAListIsApplied :
    listedState.tileAt 0 .visibility = some (stepCrew (tileAtStep .visibility), tileAtStep .visibility, listedPass, block0) ∧
    (match listedState.readList listedPass (0, 0) 1 63 1 0 with
     | (.ok ns, s1) => decide (ns = [0, 1]) && (match s1.choose 2 with
       | (1, s2) => (match s2.applyPrims listedPass (tileAtStep .visibility) 0 block0 [0] with | (.ok _, _) => true | _ => false)
       | _ => false)
     | _ => false) = true := by decide +kernel

theorem witness_ResumeStoreReaches :
    let t := { tileAtStep .gbuffer with flush := true }
    (match (stepping1 t (tilePass1 false)).devWrite radix 0 (some (0, 0)) ((tilePass1 false).slotOf 0) (List.replicate (tilePass1 false).planeRun.2 0) with
      | .ok _ => true | _ => false) = true := by decide +kernel

/-! Woad rounds of partition 0. -/

def woadIn (ps : Option CommitPass) (stall : Bool) (ws : List Wave) : State :=
  { st crew0 wave0 block0 with waves := ws, parts := (List.range 8).map fun k => { Partition.initial k with spans := if k = 0 then 9 else 0, state := 3, woad := k = 0, stall := stall, pass := ps } }
def pass2 : CommitPass := { left := [], wanted := [], granted := none, stores := 0, syncs := 0, ended := false, taken := 0 }
def partIn (f : Partition → Partition) (s : State) : State := { s with parts := s.parts.map fun x => if x.num = 0 then f x else x }
/-- The control node has written one round's log, its round end, into the ring of partition 0. -/
def replaying : State :=
  partIn (fun x => { x with wctl := 3, wwr := 32, wsz := 12, wring := 0x1000 })
    { woadIn (some pass2) false [wave0] with
      module := { State.reset.module with portRole := 1 }
      mem := storeBytes [] (memKey 9 0x1000) (LogEntry.bytes { type := 9, round := 0, words := [0, 0] }) }
def handlerWave : Wave := { wave0 with sup := true }

theorem witness_RoundsCommitInOrder :
    ((s0.part 0).woad = false) ∧
    (let s := woadIn none false [wave0]
     (s.part 0).woad = true ∧ (s.part 0).div = false ∧ (s.part 0).state ≠ 4 ∧ (s.roundWaves 0).map (fun y => s.waveStopped y.1 y.2) = [false]) ∧
    (let s := woadIn none false [{ wave0 with exited := allSlices }]
     (s.part 0).stall = false ∧ (s.roundWaves 0).map (fun y => s.waveStopped y.1 y.2) = [true]) ∧
    (((woadIn none true []).part 0).stall = true) ∧
    (∀ ps ∈ [pass2, { pass2 with wanted := [(r0, 0)] }, { pass2 with left := [r0] }, { pass2 with ended := true }],
      ((woadIn (some ps) false [wave0]).part 0).pass = some ps ∧ ps.granted = none ∧ (woadIn (some ps) false [wave0]).passBusy 0 = false) ∧
    ({ woadIn (some pass2) false [wave0] with inflight := [request] }.passBusy 0 = true) ∧
    (((woadIn none false []).part ((woadIn none false []).queue 5).part).woad = true) ∧
    (let s := woadIn (some pass2) false [wave0]
     s.handlersRun 0 = false ∧ s.sweepAgain 0 = false ∧ (s.part 0).wctl.getLsbD 1 = false ∧ s.passWaits 0 = false ∧ (s.part 0).inputs = [] ∧
      ((partIn (fun x => { x with inputs := [.l2Writeback 5 0] }) s).part 0).inputs = [.l2Writeback 5 0]) ∧
    (let s := { woadIn (some pass2) false [handlerWave] with held := [heldLoad] }
     s.passBusy 0 = false ∧ s.handlersRun 0 = true) ∧
    (let s := woadIn (some pass2) false [{ wave0 with roundStop := some 0 }]
     s.passBusy 0 = false ∧ s.handlersRun 0 = false ∧ s.sweepAgain 0 = true) ∧
    (let s := { woadIn (some pass2) false [waitingIn .held] with held := [heldLoad] }
     s.passBusy 0 = false ∧ s.handlersRun 0 = false ∧ s.sweepAgain 0 = false ∧ s.passWaits 0 = true) ∧
    (let s := partIn (fun x => { x with wctl := 3 }) (woadIn (some pass2) false [wave0])
     s.passBusy 0 = false ∧ (s.part 0).wctl.getLsbD 1 = true ∧ s.handlersRun 0 = false ∧ s.sweepAgain 0 = false ∧ s.replayEntries (s.part 0) = none) ∧
    (replaying.passBusy 0 = false ∧ replaying.handlersRun 0 = false ∧ replaying.sweepAgain 0 = false ∧
      replaying.replayEntries (replaying.part 0) = some [{ type := 9, round := 0, words := [0, 0] }]) := by decide +kernel

/-! Frames. -/

theorem witness_RegisterInstructionsKeepTheRest :
    (∀ p ∈ laneForms, Ready s0 c0 (p.1 oc)) ∧ (∀ p ∈ laneImms.map Prod.fst, Ready s0 c0 (p { d := 63, a := 0, imm := 0x800 })) ∧
    (∀ p ∈ predForms, Ready s0 c0 (p { o0 with d := 6, a := 4, b := 5 })) ∧ (∀ p ∈ groupForms, Ready s0 c0 (p.1 oc)) ∧
    (∀ p ∈ groupImms.map Prod.fst, Ready s0 c0 (p { d := 61, a := 0, imm := 0xFFF })) :=
  ⟨all_ready (by decide +kernel), all_ready (f := fun p : OpndI → Instr => p { d := 63, a := 0, imm := 0x800 }) (by decide +kernel),
    all_ready (f := fun p : Opnd → Instr => p { o0 with d := 6, a := 4, b := 5 }) (by decide +kernel), all_ready (by decide +kernel),
    all_ready (f := fun p : OpndI → Instr => p { d := 61, a := 0, imm := 0xFFF }) (by decide +kernel)⟩

theorem witness_FlaggedInstructionsKeepTheRest :
    (∀ p ∈ flagForms, Ready s0 c0 (p oc)) ∧ (∀ p ∈ fpCompares.map Prod.fst, Ready s0 c0 (p { o0 with d := 7 })) :=
  ⟨all_ready (f := fun p : Opnd → Instr => p oc) (by decide +kernel), all_ready (f := fun p : Opnd → Instr => p { o0 with d := 7 }) (by decide +kernel)⟩

theorem witness_StoresKeepEveryOtherByte :
    (∀ p ∈ storeForms 6 2, Ready (of tileWave) ct (p.1 (if p.1 oc = .st 6 oc then { d := 0, a := 4, b := 8, x := ext 0 0 0 } else o1 (ext 0 0 0)))) ∧
    TileAccess (of tileWave) ct { size := 16, align := 16, need := { w := true }, write := true, kind := 1 } tileWave.act
      (fun l => tileWave.readV2 4 l) (fun l => (0, 0x1000 + 16 * l)) ∧
    (∀ p ∈ (atomForms 0).map (fun p => (p.1, p.2.1)), Ready (of tileLane) cl (p.1 (o1 (ext 0 0 0)))) ∧ (∀ p ∈ casForms, Ready (of tileLane) cl (p.1 oc)) ∧
    LaneMask.lanes tileLane.act = [0] ∧ NoStrongInTiles (of tileLane) ∧
    (∀ n ∈ [4, 8], TileAccess (of tileLane) cl { size := n, align := n, need := { r := true, w := true }, write := true, kind := 2 } tileLane.act
      (fun l => tileLane.readV2 4 l) (fun l => (0, 0x1000 + 16 * l))) :=
  ⟨all_ready (by decide +kernel), tile_of (by decide +kernel), all_ready (f := fun p : (Opnd → Instr) × Nat => p.1 (o1 (ext 0 0 0))) (by decide +kernel),
    all_ready (by decide +kernel), by decide +kernel, by decide +kernel,
    fun n hn => tile_of (of_all (q := fun n => reaches _ _ { size := n, align := n, need := { r := true, w := true }, write := true, kind := 2 }
      tileLane.act _ _) (by decide +kernel) n hn)⟩

theorem witness_EveryStepKeepsMemoryCanonical : ∃ s t, Memory.wf s ∧ s.mem = [(5, 7)] ∧ step s = .next t := by
  let s : State := { State.reset with mem := [(5, 7)] }
  have h : (match step s with | .next _ => true | _ => false) = true := by decide +kernel
  rcases hs : step s with t | f | r
  · exact ⟨s, t, by decide +kernel, rfl, hs⟩
  · simp [hs] at h
  · simp [hs] at h

/-! ## Witnesses: memory, rounding and what holds an instruction back -/

/-- Lanes 0 and 95, or lane 0 alone, with addresses in the page of GLOBAL at 0x40000, or in STACK over that page. -/
def memWave : Wave :=
  { withG (withG (withF (withV tileWave 5 0) 4 fun l => BitVec.ofNat 32 (0x40000 + 16 * l)) 4 0x40000) 5 0 with
    segs := { tileWave.segs with stackBack := 0x40000 } }
def memLane : Wave := { memWave with act := 1 }
def stackWave : Wave := withV (withV memWave 5 0x00FD0000) 4 0
def stackLane : Wave := { stackWave with act := 1 }
def memState (w : Wave) : State := { mapped with waves := [w] }

/-- What MemoryAccess asks, with no line, mark or strong access remembered after the walks. -/
def reachesMem (w : Wave) (f : AccessForm) (ad : BitVec 64) (addr : Nat → BitVec 64) : Bool :=
  let s := memState w
  match s.reachLanes w callCrew f addr (LaneMask.lanes w.act) with
  | (ok, [], s1) =>
    (ok.all fun x => x.2.all fun p => match p.place with
      | .mem mt pa _ e _ _ => e &&& ad == ad && (!f.write || entryW e) && !s.memPoisoned mt pa p.size && !s.linkDown mt
      | _ => false) &&
    decide (s.heldOf r0 = []) && !s.piecesHeld 0 ok && !s.promotes (fun _ => true) && decide (w.buffer = []) && decide (w.ref = r0) &&
      decide (s1.l1 = []) && decide (s1.strongs = []) && decide (s1.mixTags = []) && !ok.isEmpty
  | _ => false

theorem mem_of {w : Wave} {f : AccessForm} {ad : BitVec 64} {addr : Nat → BitVec 64} (h : reachesMem w f ad addr = true) :
    ∃ ok s1, MemoryAccess (memState w) s1 (by_ callCrew w) f ad w.act addr ok ∧ ok ≠ [] ∧ s1.l1 = [] ∧ s1.strongs = [] ∧ s1.mixTags = [] := by
  simp only [reachesMem] at h
  rcases hs : (memState w).reachLanes w callCrew f addr (LaneMask.lanes w.act) with ⟨ok, _ | _, s1⟩
  · simp only [hs, Bool.and_eq_true, decide_eq_true_eq, Bool.not_eq_true', List.all_eq_true] at h
    obtain ⟨⟨⟨⟨⟨⟨⟨⟨⟨h1, h2⟩, h3⟩, h4⟩, h5⟩, h6⟩, h7⟩, h8⟩, h9⟩, h10⟩ := h
    refine ⟨ok, s1, ⟨hs, fun x hx p hp => ?_, by rw [show (by_ callCrew w).wave.ref = r0 from h6]; exact h2, h3, h4, rfl, rfl, h5⟩,
      by rintro rfl; simp at h10, h7, h8, h9⟩
    have hm := h1 x hx p hp
    split at hm
    · rename_i mt pa comp e lmt lpa hq
      simp only [Bool.and_eq_true, Bool.or_eq_true, beq_iff_eq, Bool.not_eq_true'] at hm
      exact ⟨mt, pa, comp, e, lmt, lpa, hq, hm.1.1.1, fun hw => hm.1.1.2.resolve_left (by rw [hw]; decide), hm.1.2, hm.2⟩
    · exact absurd hm (by decide)
  · simp [hs] at h

def loadOf (n : Nat) : AccessForm := { size := n, align := n, need := { r := true }, write := false, kind := 0 }
def storeOf (n kind : Nat) : AccessForm := { size := n, align := n, need := { w := true }, write := true, kind := kind }
def atomOf (n kind : Nat) : AccessForm := { size := n, align := n, need := { r := true, w := decide (kind = 2) }, write := true, kind := kind }

theorem witness_LoadsReadMemory :
    (∀ p ∈ loadForms 6 2, Ready (memState memWave) (by_ callCrew memWave) (p.1 (if p.1 oc = .ld 6 oc then { o1 (ext 0 0 0) with b := 0 } else o1 (ext 0 0 0)))) ∧
    Ready (memState memWave) (by_ callCrew memWave) (.ld 13 (o1 (ext 0 0 0))) ∧
    (∀ n ∈ [1, 2, 4, 8, 16], reachesMem memWave (loadOf n) 0x20 (fun l => memWave.readV2 4 l) = true) ∧
    (∀ n ∈ [4, 16], reachesMem stackWave (loadOf n) 0x20 (fun l => stackWave.readV2 4 l) = true) ∧
    reachesMem memWave (loadOf 1) 0x20 (fun l => (e2m1Place (memWave.readV2 4 l) 3).1) = true ∧
    ((LaneMask.lanes memWave.act).all fun l => (memWave.readV2 4 l).toNat % 16 == 0) = true :=
  ⟨all_ready (by decide +kernel), ready_of (by decide +kernel), by decide +kernel⟩

theorem witness_StoresWriteMemory :
    (∀ p ∈ storeForms 6 2, Ready (memState memWave) (by_ callCrew memWave)
      (p.1 (if p.1 oc = .st 6 oc then { d := 0, a := 4, b := 8, x := ext 0 0 0 } else o1 (ext 0 0 0)))) ∧
    Ready (memState memWave) (by_ callCrew memWave) (.st 13 { d := 6, a := 4, b := 8, x := ext 0 0 0 }) ∧
    (∀ n ∈ [1, 2, 4, 8, 16], reachesMem memWave (storeOf n 1) 0x60 (fun l => memWave.readV2 4 l) = true) ∧
    (∀ n ∈ [4, 16], reachesMem stackWave (storeOf n 1) 0x60 (fun l => stackWave.readV2 4 l) = true) ∧
    reachesMem memWave (storeOf 1 2) 0x60 (fun l => (e2m1Place (memWave.readV2 4 l) 3).1) = true :=
  ⟨all_ready (by decide +kernel), ready_of (by decide +kernel), by decide +kernel⟩

theorem witness_AtomicsReadModifyWriteMemory :
    (∀ p ∈ atomForms 3, Ready (memState memLane) (by_ callCrew memLane) (p.1 (o1 (ext 0 0 0)))) ∧
    (∀ p ∈ atomForms 3, Ready (memState memLane) (by_ callCrew memLane) (p.1 { o1 (ext 1 0 0) with d := 0 })) ∧
    (∀ p ∈ casForms, Ready (memState memLane) (by_ callCrew memLane) (p.1 oc)) ∧ LaneMask.lanes memLane.act = [0] ∧
    (∀ n ∈ [4, 8], reachesMem memLane (atomOf n 2) 0x60 (fun l => memLane.readV2 4 l) = true) ∧
    (∀ n ∈ [4, 8], reachesMem memLane (atomOf n 3) 0x60 (fun l => memLane.readV2 4 l) = true) ∧
    (∀ n ∈ [4, 8], reachesMem stackLane (atomOf n 2) 0x60 (fun l => stackLane.readV2 4 l) = true) :=
  ⟨all_ready (by decide +kernel), all_ready (by decide +kernel), all_ready (by decide +kernel), by decide +kernel⟩

/-- The word at 0x40000 of GLOBAL and the 4-byte units of STACK over it: lane 0's word is 5. -/
def fiveState (w : Wave) : State := { memState w with mem := storeBytes (memState w).mem 0x02000000 [5] }
theorem test_global_atomic :
    (match exec (.atomAddS32 0 (o1 (ext 0 0 0))) (fiveState (withV memLane 6 3)) with
     | .next t => some (t.rawRead 0 0x02000000 8, (t.wave? r0).map fun w => w.landings.map fun ld => ld.data.map fun x => x.at_ 0)
     | _ => none) = some (8, some [[5]]) := by decide +kernel
theorem test_stack_store :
    (match exec (.st 5 { d := 0, a := 4, b := 8, x := ext 0 0 0 }) (fiveState (withV (withV stackLane 8 7) 9 9)) with
     | .next t => some (t.rawRead 0 0x02000000 4, t.rawRead 0 0x02000180 4, t.rawRead 0 0x02000004 4)
     | _ => none) = some (7, 9, 0) := by decide +kernel

theorem witness_AddressesAreCheckedAndTranslated :
    (let w := wave0
     (steer w.segs 0x00FE000000002000 = .tile 0 0x2000 ∧ w.segs.tileLimit.toNat + 1 < 0x2000 + 4 ∧ steer w.segs 0x00FE000000000FFC = .tile 0 0xFFC) ∧
      (crew0.isCombiner = false ∧ crew0.rankOf 0 0 = some 0 ∧ s0.block? 0 0 = some block0 ∧ steer w.segs 0x00FE000000001FFC = .tile 0 0x1FFC ∧
        0x1FFC + 4 ≤ w.segs.tileLimit.toNat + 1 ∧ block0.inShadow 0x1FFC = false ∧ s0.planeRange crew0 = none)) ∧
    (let s := memState memWave
     (steer memWave.segs 0x40000 = .global ∧ memWave.segs.globalBase ≤ 0x40000 ∧ 0x40003 ≤ memWave.segs.globalLimit) ∧
      (match s.reachPiece callCrew { r := true } 0 4 0x40000 with | (.ok _, _) => true | _ => false) = true ∧
      (match s.reachPiece callCrew { x := true } 0 4 0x40000 with | (.error _, _) => true | _ => false) = true ∧
      (match s.reachLane stackWave callCrew (loadOf 16) 5 0x00FD000000000000 with | (.ok _, _) => true | _ => false) = true ∧
      (match s.reachPiece callCrew { r := true } 0 4 (stackWave.segs.stackBack + 20) with | (.ok _, _) => true | _ => false) = true ∧
      (match (s.walk callCrew.ctx 0 0 0x40000).1 with | .leaf e _ _ _ => e.getLsbD 2 && !e.getLsbD 4 | _ => false) = true ∧
      (match (s.walk callCrew.ctx 0 0 0x80000).1 with | .missing 0 _ _ _ => true | _ => false) = true ∧
      (match (pooled.walk poolContext 0 0 0x60000).1 with | .missing 1 e _ _ => !e.getLsbD 2 | _ => false) = true ∧
      (match (s.walk { radix with desc0 := 1 } 0 0 0x80000).1 with | .malformed 6 => true | _ => false) = true ∧
      (match (mapped0.walk { radix with desc0 := 0x02000000 } 0 0 0x40000).1, ({ mapped0 with poison := [0x02000000] }.walk { radix with desc0 := 0x02000000 } 0 0 0x40000).1 with
        | .missing 0 _ _ _, .poisoned => true | _, _ => false) = true) ∧
    (mapped0.tlb = [] ∧ mapped0.poison = [] ∧ mapped0.module.down = 0 ∧ mapped0.oracle = [] ∧ cellsWf (0 : Byte) mapped0.mem = true ∧
      (radix.desc0.extractLsb' 52 12 = 0 ∧ radix.desc0.extractLsb' 0 8 = 0 ∧ radix.desc1 = 0) ∧
      ({ radix with desc0 := 1 }.desc0.extractLsb' 0 8 ≠ 0) ∧ (0x60 : BitVec 64) &&& ~~~0x6F = 0) := by decide +kernel

/-- A range of one page that the RANGE walk finds. -/
def ranged : State := { s0 with parts := spanned, mem := entries [(0x01000000, 1), (0x01000020, 0x40000), (0x01000028, 0x40000), (0x01000030, 0x0200006F), (0x01000038, 1)] }
theorem test_range_walk : (ranged.walk { radix with desc1 := 1 } 0 0 0x40010).1 = .leaf 0x0200006F 0x100 0 0x01000030 := by decide +kernel

/-! Rounding. -/

theorem witness_RoundingGivesNeighbours :
    ((1 : Rat) ≠ 0 ∧ ratAbs (1 / 3) ≤ f32.largest ∧ (f32.flush = true ∧ ratAbs (1 / 2 ^ 140) ≤ pow2 f32.emin - pow2 (f32.emin - 1 - f32.fracBits)) ∧
      pow2 f32.emin ≤ ratAbs (1 / 3) ∧ (f32.largest < ratAbs (f32.largest + 1) ∧ ¬Beyond f32 1 (f32.largest + 1)) ∧ Beyond f32 0 (2 ^ 128)) ∧
    (Beyond e4m3 0 512 ∧ ¬Beyond e4m3 0 1) ∧
    (FVal.nan false).isNan = true ∧ signedRat false 1 + signedRat true 1 = 0 ∧ signedRat false 1 + signedRat false 1 ≠ 0 ∧
    (mulVal (.fin false 1) (.fin false 1)).2 = false ∧ (1 : Rat) * (signedRat false 1 * signedRat false 1) + signedRat false 1 ≠ 0 := by
  unfold Beyond; decide +kernel

theorem witness_SpecialFunctions :
    (f32.decode 0x40000000 = .fin false 2 ∧ (0 : Rat) < 2) ∧ IsValue f32 1 ∧ (0 : Rat) ≤ 1 ∧
    (∀ x ∈ specialCases, (fpSpecials[x.1]?).isSome = true) ∧
    (∀ e : FpEnv, ∀ w, f32.decode (fsin e.ftz w (.fin false 0)).code = .fin false 0) :=
  ⟨by decide +kernel, ⟨0x3F800000, false, 1, by decide +kernel⟩, by decide, by decide, fun _ _ => by simp only [fsin, if_true]; decide +kernel⟩

/-! What an instruction waits for, and what it meets. -/

def holdingAcquire (s : State) : State := { s with held := [{ heldLoad with acquire := true }] }

theorem witness_HeldAcquiresKeepWaiting :
    (let w := conds 0x10F01000 0 0xFFFFFFFF
     Ready (holdingAcquire (of w)) (by_ crew0 w) (.waitAll ow) ∧ (holdingAcquire (of w)).mustWait r0 false false = true ∧ (of w).strongs = [] ∧
      ((of w).part 0).woad = false ∧ (∃ k ∈ condsOf w, 1 ≤ k.kind ∧ k.kind ≤ 4)) ∧
    (Ready (holdingAcquire (sto (holding 1))) co (.mxm 0x2D (o1 (ext 0 0 0))) ∧ (holdingAcquire (sto (holding 1))).mustWait r0 false false = true ∧
      octetWave.sup = false ∧ (sto (holding 1)).mustWait r0 false false = false) :=
  ⟨⟨ready_of (by decide +kernel), by decide +kernel⟩, ready_of (by decide +kernel), by decide +kernel⟩

theorem witness_PromotionsAreWaitedFor :
    let s := { s0 with held := [{ heldLoad with kind := .store }], releasers := [(0x100, 0, 1)] }
    (∀ p ∈ fences, Ready s c0 (p.1 { d := 0, a := 0, b := 0, x := ext 0 6 0 })) ∧ s.promotes (fun _ => true) = true ∧
      (o1 (ext 0 6 0)).ext.mod.getLsbD 2 = true ∧ s0.promotes (fun _ => true) = false :=
  ⟨all_ready (by decide +kernel), by decide +kernel⟩

theorem witness_SystemRegistersOfTheTable :
    (∀ n ∈ systemWords.map (fun r => r.1) ++ (systemPairs.map (fun r => r.1) ++ (systemPairs.map (fun r => r.1 + 1) ++
        (latchedPairs.map (fun r => r.1) ++ latchedPairs.map fun r => r.1 + 1))),
      Ready (of sup0) (by_ crew0 sup0) (.gsys { d := 8, a := 0, b := 0, x := ext 0 0 (BitVec.ofNat 16 n) })) ∧
    (∀ n ∈ systemWrites.map (fun r => r.1), Ready (of sup0) (by_ crew0 sup0) (.ssys { d := 0, a := 4, b := 0, x := ext 0 0 (BitVec.ofNat 16 n) })) ∧
    ((of sup0).part 0).woad = false ∧ sup0.sup = true :=
  ⟨all_ready (f := fun n : Nat => .gsys { d := 8, a := 0, b := 0, x := ext 0 0 (BitVec.ofNat 16 n) }) (by decide +kernel),
    all_ready (f := fun n : Nat => .ssys { d := 0, a := 4, b := 0, x := ext 0 0 (BitVec.ofNat 16 n) }) (by decide +kernel), by decide +kernel⟩

/-- MOVIN and MOVOUT whose highest lanes name a register that the wave does not have. -/
theorem witness_RegistersOutside :
    let w := withF wave0 6 fun l => if l = 95 then 0xFFFFFFFF else 0
    (∀ mk ∈ [Instr.movin, .movout], Ready (of w) (by_ crew0 w) (mk (o1 (ext 0 0 0)))) ∧
    ∀ base ∈ [(4 : Int), 8], ((LaneMask.lanes ((by_ crew0 w).active (o1 (ext 0 0 0)).ext)).filter fun l =>
      !(decide (0 ≤ base + (((w.readV 6).at_ l).toNat : Int)) && decide (base + (((w.readV 6).at_ l).toNat : Int) < 64))) = [95] :=
  ⟨all_ready (f := fun mk : Opnd → Instr => mk (o1 (ext 0 0 0))) (by decide +kernel), by decide +kernel⟩

theorem witness_BranchWords : (∀ p ∈ partingBranches, wellFormed (p.1 { d := 0, a := 7, b := 0, x := ext 0 0 4 }) = true ∧
    encodable (p.1 { d := 0, a := 7, b := 0, x := ext 0 0 4 }) = true) ∧ (((encode (.iadd o0)).headD 0).extractLsb' 24 6).toNat ≤ 0x12 ∧
    (s0.crew? wave0.ref.crew = some crew0 ∧ crew0.isCombiner = false) :=
  by decide +kernel

/-! Engines, gates and the device. -/

def fullBlock : Block := { described copyBits with commands := (List.range 16).map fun k => command k 1 copyBits }

theorem witness_RecordsAreTaken :
    (let s := st crew0 engineWave fullBlock
     (∀ p ∈ engineForms, Ready s ce (p.1 { o0 with d := 0, b := 0, x := ext 0 0 0 })) ∧ s.recordFree 0 0 = false ∧
      (match s.reachDesc engineWave crew0 (engineWave.readG2 4) 64 5 with | (.ok _, _) => true | _ => false) = true ∧
      (st crew0 engineWave block0).recordFree 0 0 = true) ∧
    (let s := st crew0 engineWave { block0 with commands := (List.range 15).map fun k => command k 1 copyBits }
     s.recordFree 0 0 = true ∧
      { s with waves := [{ engineWave with gangs := [gang 1 0x100, { slices := 2, pc := 0x100, wait := .descriptor true none }] }] }.recordFree 0 0 = false) ∧
    (s0.strongs = [] ∧ s0.block? block0.crew block0.rank = some block0 ∧ cellsWf (0 : Byte) block0.tile = true) :=
  ⟨⟨all_ready (f := fun p : (Opnd → Instr) × Nat => p.1 { o0 with d := 0, b := 0, x := ext 0 0 0 }) (by decide +kernel), by decide +kernel⟩, by decide +kernel⟩

/-- A doorbell beyond the ring, of a queue that is not enabled; context records that are poisoned, or not clear. -/
theorem witness_QueuesMeet :
    2 ^ ((device 1).queue 2047).logsz < ((5 : BitVec 32) - ((device 1).queue 2047).rd).toNat ∧ ((device 1).part ((device 1).queue 2047).part).woad = false ∧
    (let s := { offering 6 with poison := [0x03000010] }
     (s.part (s.queue 0).part).woad = false ∧ s.mayTake (s.queue 0) = true ∧ s.contextBad 0 = some 0x24) ∧
    (let s := { offering 6 with mem := storeBytes (packetMem 6) 0x03000010 [1] }
     s.contextBad 0 = some 0x11 ∧ (offering 6).contextBad 0 = none) ∧
    (let s := { working placeable0 with poison := [0] }
     s.contextBad placeable0.queue = some 0x24 ∧ s.topWaiting 0 = some rankedGrid ∧ s.fits 0 0 (s.needs rankedGrid.cand) = true ∧ s.phaseQueued 0 0 = false) := by
  decide +kernel

theorem witness_WhatIsLate :
    (let w := condWave 0x10F01000 5 (some 0)
     { of w with tick := 1 }.pastDeadline crew0 (condWait w (some 0)) = true ∧ (of w).pastDeadline crew0 (condWait w (some 0)) = false) ∧
    (let a := { waitingObject with id := 3 }; let b := { launchedObject with id := 4 }
     let s := homeState [a, b]
     s.object? 3 = some a ∧ b ∈ s.objects ∧ b.id ≠ a.id ∧ b.running.isSome = true ∧ b.mt = a.mt ∧ b.pa = a.pa) := by decide +kernel

/-- A replay with an entry in WALK whose page is not mapped. -/
def unlogged : State := { replaying with buffers := [{ cluster := 0, entries := [{ entry0 .walk with context := radix, page := 3 }], dropped := false, replayAll := false }] }
theorem witness_UnloggedWalks :
    unlogged.replayEntries (unlogged.part 0) = some [{ type := 9, round := 0, words := [0, 0] }] ∧
    (unlogged.walkUnlogged 0 [{ type := 9, round := 0, words := [0, 0] }]).isSome = true ∧
    replaying.walkUnlogged 0 [{ type := 9, round := 0, words := [0, 0] }] = none := by decide +kernel

end Sys2Proof.Tests

end
end

section
/-! SUPPORT. Reading back a little-endian number, and what the frame of each register instruction leaves as it was. -/

namespace Sys2Proof.Laws

open Sys2Proof.Machine Sys2Proof.Safety

/-! ## Memory cells -/

/-- The low bytes of a number that fits in them are the number (R3). -/
theorem leNat_leBytes : ∀ {n v : Nat}, v < 256 ^ n → leNat (leBytes n v) = v
  | 0, v, h => by
    have hv : v = 0 := by simpa using h
    rw [hv, leBytes, leNat]
  | n + 1, v, h => by
    have hq : v / 256 < 256 ^ n := Nat.div_lt_of_lt_mul (by rwa [pow_succ, mul_comm] at h)
    calc leNat (leBytes (n + 1) v)
        = (BitVec.ofNat 8 v).toNat + 256 * leNat (leBytes n (v / 256)) := rfl
      _ = v % 256 + 256 * (v / 256) := by rw [leNat_leBytes hq, BitVec.toNat_ofNat]
      _ = v := Nat.mod_add_div v 256

/-- A cell after a write of one: the value written at its own key, and every other as before. -/
theorem cellGet_cellSet {β : Type} [DecidableEq β] {d v : β} {c : List (Nat × β)} {a b : Nat} (h : cellsWf d c = true) :
    cellGet d (cellSet d c a v) b = if b = a then v else cellGet d c b := by
  split
  next hab => rw [hab, cellGet_cellSet_same h]
  next hab => exact cellGet_cellSet_ne hab

/-- Settles O37: a write of one cell, and of a run of bytes, reads back, leaves every other cell and keeps the canonical form. -/
theorem memoryKeepsWhatIsStored : Obligations.MemoryKeepsWhatIsStored :=
  ⟨fun _ _ _ _ h => ⟨cellGet_cellSet h, cellSet_wf h⟩,
    fun _ _ _ _ h => ⟨bytesAt_storeBytes h, storeBytes_wf h, cellGet_storeBytes_ne⟩,
    fun _ _ => leNat_leBytes⟩

/-! ## Registers -/

/-- Lane registers outside a pair that is written stand. -/
theorem readV_writeV2_ne {w : Wave} {n r : Nat} {m : LaneMask} {f : Nat → BitVec 64} (h : r < n ∨ n + 2 ≤ r) :
    (w.writeV2 n m f).readV r = w.readV r := by
  rw [Wave.writeV2, readV_writeV_ne (by omega), readV_writeV_ne (by omega)]

/-- A lane that is not written stands, in every register, where a pair is written. -/
theorem readV_writeV2_out {w : Wave} {n r l : Nat} {m : LaneMask} {f : Nat → BitVec 64} (hl : l < 96) (hm : m.getLsbD l = false) :
    ((w.writeV2 n m f).readV r).at_ l = (w.readV r).at_ l := by
  rw [Wave.writeV2, readV_writeV_out hl hm, readV_writeV_out hl hm]

/-- Where bits under a mask are replaced, a bit outside the mask stands. -/
theorem getLsbD_replace_out {n l : Nat} {a x m : BitVec n} (hm : m.getLsbD l = false) :
    ((a &&& ~~~m) ||| (x &&& m)).getLsbD l = a.getLsbD l := by
  by_cases hl : l < n
  · simp only [BitVec.getLsbD_or, BitVec.getLsbD_and, BitVec.getLsbD_not, hm, hl, decide_true, Bool.not_false, Bool.and_true,
      Bool.and_false, Bool.or_false]
  · rw [BitVec.getLsbD_of_ge _ _ (by omega), BitVec.getLsbD_of_ge _ _ (by omega)]

/-- A bit of the activity mask stands that belongs to another cohort, or to another of g61 to g63 (R30). -/
theorem getLsbD_writeAct_out {act : LaneMask} {k : SliceMask} {n l : Nat} {x : Word}
    (h : k.lanes.getLsbD l = false ∨ l < 32 * (n - 61) ∨ 32 * (n - 61) + 32 ≤ l) :
    (writeAct act k n x).getLsbD l = act.getLsbD l := by
  refine getLsbD_replace_out ?_
  simp only [BitVec.getLsbD_and, BitVec.getLsbD_shiftLeft, BitVec.getLsbD_setWidth, BitVec.getLsbD_allOnes]
  rcases h with h | h | h
  · rw [h, Bool.false_and]
  · simp [h]
  · have hw : ¬l - 32 * (n - 61) < 32 := by omega
    simp [hw]

/-- Other group registers stand. -/
theorem readG_writeG_ne {w : Wave} {k : SliceMask} {n r : Nat} {x : Word} (h : r ≠ n) : (w.writeG k n x).readG r = w.readG r := by
  unfold Wave.writeG Wave.readG
  split <;> split
  · exact getD_setAt_ne h
  · rfl
  · rfl
  · refine BitVec.eq_of_getLsbD_eq fun i hi => ?_
    simp only [BitVec.getLsbD_extractLsb']
    rw [getLsbD_writeAct_out (by omega)]

/-- Group registers outside a pair that is written stand. -/
theorem readG_writeG2_ne {w : Wave} {k : SliceMask} {n r : Nat} {x : BitVec 64} (h : r < n ∨ n + 2 ≤ r) :
    (w.writeG2 k n x).readG r = w.readG r := by
  rw [Wave.writeG2, readG_writeG_ne (by omega), readG_writeG_ne (by omega)]

/-- The activity of lanes outside the cohort stands. -/
theorem act_writeG_out {w : Wave} {k : SliceMask} {n l : Nat} {x : Word} (h : k.lanes.getLsbD l = false) :
    (w.writeG k n x).act.getLsbD l = w.act.getLsbD l := by
  unfold Wave.writeG
  split
  · rfl
  · exact getLsbD_writeAct_out (.inl h)

/-- The activity of lanes outside the cohort stands where a pair is written. -/
theorem act_writeG2_out {w : Wave} {k : SliceMask} {n l : Nat} {x : BitVec 64} (h : k.lanes.getLsbD l = false) :
    (w.writeG2 k n x).act.getLsbD l = w.act.getLsbD l := by
  rw [Wave.writeG2, act_writeG_out h, act_writeG_out h]

/-- Writing a group register changes group registers, the activity mask and their init bits alone. -/
theorem writeG_eq (w : Wave) (k : SliceMask) (n : Nat) (x : Word) : w.writeG k n x =
    { w with g := (w.writeG k n x).g, act := (w.writeG k n x).act, gInit := (w.writeG k n x).gInit } := by
  unfold Wave.writeG; split <;> rfl

/-- So does writing a pair of them. -/
theorem writeG2_eq (w : Wave) (k : SliceMask) (n : Nat) (x : BitVec 64) : w.writeG2 k n x =
    { w with g := (w.writeG2 k n x).g, act := (w.writeG2 k n x).act, gInit := (w.writeG2 k n x).gInit } := by
  rw [Wave.writeG2, writeG_eq (w.writeG _ _ _), writeG_eq w]

/-- Writing a predicate changes predicates and their init bits alone. -/
theorem writeP_eq (w : Wave) (n : Nat) (m x : LaneMask) : w.writeP n m x =
    { w with p := (w.writeP n m x).p, pInit := (w.writeP n m x).pInit } := by
  unfold Wave.writeP; split <;> rfl

/-! ## What a register instruction comes to -/

/-- The instruction, where its checks pass, replaces its wave by the one that u gives, and goes on. -/
abbrev Writes (i : Instr) (s : State) (u : Issue → Wave) : Prop := exec i s = issue i plain s fun c => s.retire c i (u c)

/-- The wave of a ready instruction that writes registers, once it has gone on. -/
theorem exec_of_writes {i : Instr} {s : State} {c : Issue} {u : Issue → Wave} (hu : Writes i s u) (h : Ready s c i) :
    exec i s = .next (s.putWave ((u c).advance c.gang (c.nextPc i))) :=
  hu.trans (issue_plain h)

/-- The rest of the machine: the other gangs and waves, memory and tile memory stand where the issuer's wave, its gangs
not changed, goes on. -/
theorem rest_of_advance {s : State} {c : Issue} {w : Wave} (pc : Addr) (hr : w.ref = c.wave.ref) (hg : w.gangs = c.wave.gangs) :
    OtherGangs c (w.advance c.gang pc) ∧ OtherWaves s (s.putWave (w.advance c.gang pc)) c.wave.ref ∧
      MemoryUnchanged s (s.putWave (w.advance c.gang pc)) :=
  ⟨fun _ hx => hg ▸ mem_gangs_advance hx, fun _ hx => wave?_putWave_ne (hr ▸ hx), fun _ => rfl, fun _ _ => rfl⟩

/-! ## What the forms write

Each form's arm of exec is the frame of R155, R159, R163 or R184 around one register write; the value written, f, is
whatever the form computes, and is read off that arm. -/

/-- The form writes one lane register, D, in its active lanes. -/
abbrev WritesLane (x : Opnd → Instr) : Prop :=
  ∀ o s, ∃ f : Issue → Nat → Word, Writes (x o) s fun c => c.wave.writeV o.d.toNat (c.active o.ext) (f c)

/-- The form writes a pair of lane registers, D, in its active lanes. -/
abbrev WritesLanePair (x : Opnd → Instr) : Prop :=
  ∀ o s, ∃ f : Issue → Nat → BitVec 64, Writes (x o) s fun c => c.wave.writeV2 o.d.toNat (c.active o.ext) (f c)

/-- The form writes one predicate, D[2:0], in its active lanes. -/
abbrev WritesPred (x : Opnd → Instr) : Prop :=
  ∀ o s, ∃ f : Issue → LaneMask, Writes (x o) s fun c => c.wave.writeP (o.d.toNat % 8) (c.active o.ext) (f c)

/-- The form writes one group register, D, for its cohort. -/
abbrev WritesGroup (x : Opnd → Instr) : Prop :=
  ∀ o s, ∃ f : Issue → Word, Writes (x o) s fun c => c.wave.writeG c.gang.slices o.d.toNat (f c)

/-- The form writes a pair of group registers, D, for its cohort. -/
abbrev WritesGroupPair (x : Opnd → Instr) : Prop :=
  ∀ o s, ∃ f : Issue → BitVec 64, Writes (x o) s fun c => c.wave.writeG2 c.gang.slices o.d.toNat (f c)

/-- A lane form writes one register or a pair, as its width says. -/
theorem laneForms_cases : ∀ x ∈ laneForms, WritesLane x.1 ∧ x.2 = 1 ∨ WritesLanePair x.1 ∧ x.2 = 2 := by
  simp only [laneForms, List.forall_mem_append (l₂ := lanePairs.map _)]
  constructor
  case left =>
    simp only [laneIalu, laneBits, laneBitsA, laneBitsB, laneBitwise, laneMads, laneShuffles, List.forall_mem_append, List.forall_mem_map,
      List.forall_mem_cons, List.not_mem_nil, false_implies, implies_true, and_true]
    and_intros <;> exact .inl fun _ _ => ⟨_, rfl⟩
  case right =>
    simp only [lanePairs, List.forall_mem_map, List.forall_mem_cons, List.not_mem_nil, false_implies, implies_true, and_true]
    and_intros <;> exact .inr fun _ _ => ⟨_, rfl⟩

/-- A lane form with an immediate writes D in the cohort's active lanes (R159). -/
theorem laneImms_write : ∀ x ∈ laneImms.map Prod.fst, ∀ o s, ∃ f : Issue → Nat → Word,
    Writes (x o) s fun c => c.wave.writeV o.d.toNat (c.gang.slices.lanes &&& c.wave.act) (f c) := by
  simp only [laneImms, List.forall_mem_map, List.forall_mem_cons, List.not_mem_nil, false_implies, implies_true, and_true]
  and_intros <;> exact fun _ _ => ⟨_, rfl⟩

/-- A predicate form writes the predicate D[2:0]. -/
theorem predForms_write : ∀ x ∈ predForms, WritesPred x := by
  simp only [predForms, laneCompares, lanePredicates, List.forall_mem_append, List.forall_mem_map, List.forall_mem_cons,
    List.not_mem_nil, false_implies, implies_true, and_true]
  and_intros <;> exact fun _ _ => ⟨_, rfl⟩

/-- A group form writes one register or a pair, as its width says. -/
theorem groupForms_cases : ∀ x ∈ groupForms, WritesGroup x.1 ∧ x.2 = 1 ∨ WritesGroupPair x.1 ∧ x.2 = 2 := by
  simp only [groupForms, List.forall_mem_append (l₂ := groupPairs.map _)]
  constructor
  case left =>
    simp only [groupWords, groupWordsA, groupWordsB, List.forall_mem_append, List.forall_mem_map, List.forall_mem_cons,
      List.not_mem_nil, false_implies, implies_true, and_true]
    and_intros <;> exact .inl fun _ _ => ⟨_, rfl⟩
  case right =>
    simp only [groupPairs, List.forall_mem_map, List.forall_mem_cons, List.not_mem_nil, false_implies, implies_true, and_true]
    and_intros <;> exact .inr fun _ _ => ⟨_, rfl⟩

/-- A group form with an immediate writes D for its cohort (R187). -/
theorem groupImms_write : ∀ x ∈ groupImms.map Prod.fst, ∀ o s, ∃ f : Issue → Word,
    Writes (x o) s fun c => c.wave.writeG c.gang.slices o.d.toNat (f c) := by
  simp only [groupImms, List.forall_mem_map, List.forall_mem_cons, List.not_mem_nil, false_implies, implies_true, and_true]
  and_intros <;> exact fun _ _ => ⟨_, rfl⟩

/-! ## The frames -/

/-- The wave that a group form leaves, once its gang has gone on: only group registers, activity, their init bits and
the gang's place may differ. -/
theorem advance_eq_of_group {w u : Wave} (h : u = { w with g := u.g, act := u.act, gInit := u.gInit }) (g : Gang) (pc : Addr) :
    u.advance g pc = { w with
      g := (u.advance g pc).g, act := (u.advance g pc).act, gInit := (u.advance g pc).gInit,
      gangs := (u.advance g pc).gangs, issued := (u.advance g pc).issued, roundIssued := (u.advance g pc).roundIssued } := by
  rw [h]; rfl

/-- The wave that a predicate form leaves, likewise. -/
theorem advance_eq_of_pred {w u : Wave} (h : u = { w with p := u.p, pInit := u.pInit }) (g : Gang) (pc : Addr) :
    u.advance g pc = { w with
      p := (u.advance g pc).p, pInit := (u.advance g pc).pInit,
      gangs := (u.advance g pc).gangs, issued := (u.advance g pc).issued, roundIssued := (u.advance g pc).roundIssued } := by
  rw [h]; rfl

/-- Settles O58: each form comes to one register write, whose rules say what it leaves, and then its gang goes on. -/
theorem registerInstructionsKeepTheRest : Obligations.RegisterInstructionsKeepTheRest := by
  refine ⟨fun x hx o s c h => ?_, fun x hx o s c h => ?_, fun x hx o s c h => ?_, fun x hx o s c h => ?_, fun x hx o s c h => ?_⟩
  · rcases laneForms_cases x hx with ⟨hw, hn⟩ | ⟨hw, hn⟩
    · obtain ⟨f, hf⟩ := hw o s
      exact ⟨_, exec_of_writes hf h, rfl, fun r hr => readV_writeV_ne (by omega), fun r l => readV_writeV_out,
        rest_of_advance _ rfl rfl⟩
    · obtain ⟨f, hf⟩ := hw o s
      exact ⟨_, exec_of_writes hf h, rfl, fun r hr => readV_writeV2_ne (by omega), fun r l => readV_writeV2_out,
        rest_of_advance _ rfl rfl⟩
  · obtain ⟨f, hf⟩ := laneImms_write x hx o s
    exact ⟨_, exec_of_writes hf h, rfl, fun r => readV_writeV_ne, fun r l => readV_writeV_out, rest_of_advance _ rfl rfl⟩
  · obtain ⟨f, hf⟩ := predForms_write x hx o s
    exact ⟨_, exec_of_writes hf h, advance_eq_of_pred (writeP_eq ..) .., fun n => readP_writeP_ne, fun n l => readP_writeP_out,
      rest_of_advance _ (Wave.writeP_ref ..) (Wave.writeP_gangs ..)⟩
  · rcases groupForms_cases x hx with ⟨hw, hn⟩ | ⟨hw, hn⟩
    · obtain ⟨f, hf⟩ := hw o s
      exact ⟨_, exec_of_writes hf h, advance_eq_of_group (writeG_eq ..) .., fun r _ hr => readG_writeG_ne (by omega),
        fun l => act_writeG_out, rest_of_advance _ (Wave.writeG_ref ..) (Wave.writeG_gangs ..)⟩
    · obtain ⟨f, hf⟩ := hw o s
      exact ⟨_, exec_of_writes hf h, advance_eq_of_group (writeG2_eq ..) .., fun r _ hr => readG_writeG2_ne (by omega),
        fun l => act_writeG2_out, rest_of_advance _ (by simp [Wave.writeG2]) (by simp [Wave.writeG2])⟩
  · obtain ⟨f, hf⟩ := groupImms_write x hx o s
    exact ⟨_, exec_of_writes hf h, advance_eq_of_group (writeG_eq ..) .., fun r _ => readG_writeG_ne, fun l => act_writeG_out,
      rest_of_advance _ (Wave.writeG_ref ..) (Wave.writeG_gangs ..)⟩

end Sys2Proof.Laws
end

section
/-! SUPPORT. Finding what an instruction or an event names, and the needs of the instructions that a handler may not issue. -/

namespace Sys2Proof.Laws

open Sys2Proof.Machine Sys2Proof.Safety

/-! ## Issuing -/

/-- An instruction that at most must not be in a handler has its needs met outside one (R356). -/
theorem needsMet_notInHandler {w : Wave} {x : Bool} (h : x = true → w.sup = false) : NeedsMet { notInHandler := x } w :=
  ⟨nofun, h, rfl, rfl, rfl, rfl⟩

/-- A ready instruction that must not be in a handler, outside one, has its own effect. -/
theorem issue_outside_handler {s : State} {c : Issue} {i : Instr} {body : Issue → State} (h : Ready s c i) (hs : c.wave.sup = false) :
    issue i (fun _ => { notInHandler := true }) s body = .next (body c) :=
  issue_of_ready h (needsMet_notInHandler fun _ => hs)

/-- Noting the bands that are ready changes those that are noted alone (R27). -/
theorem noteBands_eq (w : Wave) : w.noteBands = { w with bands := w.noteBands.bands } := by
  unfold Wave.noteBands
  extract_lets new
  split <;> rfl

/-- The issuer that a state names, by its wave, its crew and its gang. -/
structure IssuerParts (s : State) (c : Issue) : Prop where
  wave : s.wave? c.wave.ref = some c.wave
  crew : s.crew? c.wave.ref.crew = some c.crew
  key : c.crew.id = c.wave.ref.crew
  gang : c.gang ∈ c.wave.gangs

theorem issuerParts {s : State} {c : Issue} (h : s.issuer = some c) : IssuerParts s c := by
  unfold State.issuer at h
  split at h
  · cases h
  next r sl _ =>
  split at h
  next w x hw hx =>
    split at h
    next g hg =>
      cases h
      have hr : w.ref = r := by simpa using List.find?_some hw
      have hc : x.id = r.crew := by simpa using List.find?_some hx
      subst hr
      exact ⟨hw, hx, hc, List.mem_of_find?_eq_some hg⟩
    next => cases h
  next => cases h

/-- Putting a wave in its place twice leaves what was put last. -/
theorem putWave_putWave (s : State) {w x : Wave} (h : w.ref = x.ref) : (s.putWave w).putWave x = s.putWave x := by
  simp only [State.putWave, updWhere, List.map_map]
  congr 1
  refine List.map_congr_left fun y _ => ?_
  simp only [Function.comp]
  by_cases hy : y.ref = x.ref
  · simp [hy, h]
  · have hw : ¬y.ref = w.ref := by rwa [h]
    simp [hy, hw]

/-- At its first issue, an instruction that names no entry traps ILLEGAL SUB 9 (R358). -/
theorem issue_noEntry {s : State} {c : Issue} {i : Instr} {n : Issue → Needs} {body : Issue → State} (h : Ready s c i)
    (hf : FirstIssue c) (hn : (n c).noEntry = true) :
    issue i n s body = .next (s.takeTrap c.wave (c.trap 0x01 9 (wordsAddr (encode i)) (c.lanesOf i))) := by
  have hw : (c.gang.wait == .registers) = false := by simpa using hf.1
  have hc : c.check i (n c) = .trap (c.trap 0x01 9 (wordsAddr (encode i)) (c.lanesOf i)) := by
    simp only [Issue.check, hf.2, hw, h.inside, hn, Bool.false_eq_true, if_false, if_true]
  simp only [issue, h.issuer, hc]

/-! ## Blocks -/

/-- A block that is found has the crew and the rank that were asked for. -/
theorem block?_key {s : State} {b : Block} {crew rank : Nat} (h : s.block? crew rank = some b) : b.crew = crew ∧ b.rank = rank := by
  simpa using List.find?_some h

/-- The block found after one has been put in its place. -/
theorem block?_putBlock (s : State) (b : Block) (crew rank : Nat) :
    (s.putBlock b).block? crew rank = (s.block? crew rank).map fun x => if x.crew == b.crew && x.rank == b.rank then b else x := by
  have hk : ((fun x : Block => x.crew == crew && x.rank == rank) ∘ fun x => if x.crew == b.crew && x.rank == b.rank then b else x) =
      fun x => x.crew == crew && x.rank == rank := by
    funext x
    simp only [Function.comp]
    split
    next h =>
      obtain ⟨hc, hr⟩ : x.crew = b.crew ∧ x.rank = b.rank := by simpa using h
      rw [hc, hr]
    next => rfl
  simp only [State.block?, State.putBlock, updWhere, List.find?_map, hk]

end Sys2Proof.Laws
end

section
/-! SUPPORT. What a lookup of a translation or of a line may change: the caches, their counts, and the oracle. -/

namespace Sys2Proof.Laws

open Sys2Proof.Machine Sys2Proof.Safety

/-! ## The caches and their counts -/

/-- The fields of the state that a lookup may change. -/
structure CacheFields where
  tlb : List TlbEntry
  l1 : List L1Line
  l2 : List L2Line
  fills : List (Nat × Nat)
  oracle : List Nat
  mixTags : List MixTag
  blocks : List Block

/-- The state with those fields replaced. -/
def withCaches (s : State) (x : CacheFields) : State :=
  { s with tlb := x.tlb, l1 := x.l1, l2 := x.l2, fills := x.fills, oracle := x.oracle, mixTags := x.mixTags, blocks := x.blocks }

/-- A block without its count of bytes moved. -/
def uncounted (b : Block) : Block := { b with dramBytes := 0 }

/-- t differs from s in caches, their counts and the oracle alone; of its blocks only the counts of bytes moved differ. -/
structure CachesOnly (s t : State) : Prop where
  fields : ∃ x, t = withCaches s x
  length : t.blocks.length = s.blocks.length
  block : ∀ crew rank, (t.block? crew rank).map uncounted = (s.block? crew rank).map uncounted

theorem CachesOnly.refl (s : State) : CachesOnly s s :=
  ⟨⟨⟨s.tlb, s.l1, s.l2, s.fills, s.oracle, s.mixTags, s.blocks⟩, rfl⟩, rfl, fun _ _ => rfl⟩

theorem CachesOnly.trans {s t u : State} (h : CachesOnly s t) (k : CachesOnly t u) : CachesOnly s u := by
  obtain ⟨⟨x, rfl⟩, hl, hb⟩ := h
  obtain ⟨⟨y, rfl⟩, kl, kb⟩ := k
  exact ⟨⟨y, rfl⟩, kl.trans hl, fun c r => (kb c r).trans (hb c r)⟩

/-- A fold of such changes is one. -/
theorem CachesOnly.foldl {α : Type} {f : State → α → State} (h : ∀ s x, CachesOnly s (f s x)) (l : List α) (s : State) :
    CachesOnly s (l.foldl f s) := by
  induction l generalizing s with
  | nil => exact .refl s
  | cons x l ih => exact (h s x).trans (ih _)

/-- A change of those fields that leaves the blocks. -/
theorem CachesOnly.of_blocks {s t : State} (x : CacheFields) (h : t = withCaches s x) (hb : x.blocks = s.blocks) : CachesOnly s t := by
  subst h
  have hbl : (withCaches s x).blocks = s.blocks := hb
  exact ⟨⟨x, rfl⟩, by rw [hbl], fun c r => by rw [State.block?, hbl]; rfl⟩

theorem CachesOnly.parts {s t : State} (h : CachesOnly s t) : t.parts = s.parts := by
  obtain ⟨⟨x, rfl⟩, -, -⟩ := h; rfl

/-! ## Translations -/

theorem cachesOnly_choose (s : State) (n : Nat) : CachesOnly s (s.choose n).2 := by
  unfold State.choose
  split
  · exact .refl s
  · exact .of_blocks ⟨s.tlb, s.l1, s.l2, s.fills, _, s.mixTags, s.blocks⟩ rfl rfl

theorem cachesOnly_tlb (s : State) (l : List TlbEntry) : CachesOnly s { s with tlb := l } :=
  .of_blocks ⟨l, s.l1, s.l2, s.fills, s.oracle, s.mixTags, s.blocks⟩ rfl rfl

theorem cachesOnly_cacheEntry (s : State) (x : TlbEntry) : CachesOnly s (s.cacheEntry x) := cachesOnly_tlb s _

/-- What a lookup that answered (a, t) did. -/
theorem CachesOnly.of_eq {α : Type} {s t : State} {a : α} {p : α × State} (h : CachesOnly s p.2) (he : p = (a, t)) : CachesOnly s t := by
  rw [he] at h; exact h

/-- One of two lookups. -/
theorem CachesOnly.ite {α : Type} {s : State} {b : Prop} [Decidable b] {p q : α × State} (hp : CachesOnly s p.2) (hq : CachesOnly s q.2) :
    CachesOnly s (if b then p else q).2 := by
  split
  · exact hp
  · exact hq

theorem cachesOnly_readEntry (s : State) (cl ctag part mt pa page pages : Nat) :
    CachesOnly s (s.readEntry cl ctag part mt pa page pages).2 := by
  unfold State.readEntry
  extract_lets now mine fresh
  have hf (t : State) : CachesOnly t (fresh t) := by
    simp only [fresh]
    split
    · exact cachesOnly_cacheEntry t _
    · exact .refl t
  split
  · refine .ite (.refl s) ?_
    split
    next k t h =>
      replace h := CachesOnly.of_eq (cachesOnly_choose s 2) h
      exact .ite h ((h.trans (cachesOnly_tlb t _)).trans (hf _))
  · exact hf s

theorem cachesOnly_chooseGroup (s : State) (i mt pa : Nat) (own : BitVec 64) : CachesOnly s (s.chooseGroup i mt pa own).2 := by
  unfold State.chooseGroup
  refine .ite (.refl s) ?_
  extract_lets base es f0 same
  refine .ite (.refl s) ?_
  extract_lets
  split
  next t h =>
  replace h := CachesOnly.of_eq (cachesOnly_choose ..) h
  split
  · exact h
  · split <;> exact h

theorem cachesOnly_walkRadix (s : State) (c : Context) (part cl : Nat) (a : BitVec 64) : CachesOnly s (s.walkRadix c part cl a).2 := by
  unfold State.walkRadix
  refine .ite (.refl s) (.ite (.refl s) ?_)
  split
  next e1 s1 h1 =>
  replace h1 := CachesOnly.of_eq (cachesOnly_readEntry ..) h1
  refine .ite h1 (.ite h1 (.ite h1 (.ite h1 ?_)))
  split
  next e2 s2 h2 =>
  replace h2 := h1.trans (.of_eq (cachesOnly_readEntry ..) h2)
  refine .ite h2 (.ite h2 (.ite (.ite h2 h2) (.ite h2 ?_)))
  split
  next e3 s3 h3 =>
  replace h3 := h2.trans (.of_eq (cachesOnly_readEntry ..) h3)
  split
  next h4 => exact h3.trans (.of_eq (cachesOnly_chooseGroup ..) h4)

theorem cachesOnly_findRange (s : State) (cl ctag part mt pa v : Nat) (es : List (Nat × Nat × BitVec 64 × Nat)) :
    CachesOnly s (s.findRange cl ctag part mt pa v es).2 := by
  unfold State.findRange
  extract_lets now cached
  clear_value now
  have hc (t : State) : CachesOnly t (cached t) := by
    simp only [cached]
    split
    · split
      · exact .refl t
      · split
        · exact .refl t
        · exact cachesOnly_cacheEntry t _
    · exact .refl t
  split
  · exact hc s
  · refine .ite (.refl s) ?_
    split
    next k t h =>
      replace h := CachesOnly.of_eq (cachesOnly_choose s 2) h
      exact .ite h (h.trans (hc t))

theorem cachesOnly_walkRange (c : Context) (part cl : Nat) (a : BitVec 64) : ∀ (depths mt pa : Nat) (s : State),
    CachesOnly s (s.walkRange c part cl a depths mt pa).2
  | 0, _, _, s => .refl s
  | depths + 1, mt, pa, s => by
    unfold State.walkRange
    refine .ite (.refl s) (.ite (.refl s) (.ite (.refl s) ?_))
    split
    next t h => exact .of_eq (cachesOnly_findRange ..) h
    next start last target w3 k t h =>
      replace h := CachesOnly.of_eq (cachesOnly_findRange ..) h
      split
      · exact .ite h (.ite h h)
      · exact .ite h (h.trans (cachesOnly_walkRange c part cl a depths _ _ t))
      · refine .ite h (.ite h (.ite h ?_))
        split
        next h3 => exact h.trans (.of_eq (cachesOnly_readEntry ..) h3)
      · exact h

theorem cachesOnly_walk (s : State) (c : Context) (part cl : Nat) (a : BitVec 64) : CachesOnly s (s.walk c part cl a).2 := by
  unfold State.walk
  exact .ite (.refl s) (.ite (.ite (.refl s) (cachesOnly_walkRange ..)) (cachesOnly_walkRadix ..))

theorem cachesOnly_translate (s : State) (c : Context) (part cl : Nat) (a : BitVec 64) (need : Perm) :
    CachesOnly s (s.translate c part cl a need).2 := by
  unfold State.translate
  split
  next h => exact .ite (.of_eq (cachesOnly_walk ..) h) (.of_eq (cachesOnly_walk ..) h)
  next h => exact .ite (.of_eq (cachesOnly_walk ..) h) (.of_eq (cachesOnly_walk ..) h)
  next h => exact .of_eq (cachesOnly_walk ..) h
  next h => exact .of_eq (cachesOnly_walk ..) h

theorem cachesOnly_reachPiece (s : State) (c : Crew) (need : Perm) (off size : Nat) (a : BitVec 64) :
    CachesOnly s (s.reachPiece c need off size a).2 := by
  unfold State.reachPiece
  split <;> next h => exact .of_eq (cachesOnly_translate ..) h

theorem cachesOnly_reachLane (s : State) (w : Wave) (c : Crew) (f : AccessForm) (l : Nat) (a : BitVec 64) :
    CachesOnly s (s.reachLane w c f l a).2 := by
  unfold State.reachLane
  extract_lets fail combiner
  refine .ite (.refl s) (.ite (.refl s) ?_)
  split
  · refine .ite (.refl s) ?_
    split
    · exact .refl s
    · split
      · exact .refl s
      · exact .ite (.refl s) (.refl s)
  · refine .ite (.refl s) ?_
    extract_lets step
    have hs (x : Except Failure (List Piece) × State) (k : Nat) : CachesOnly x.2 (step x k).2 := by
      rcases x with ⟨_ | ps, t⟩
      · exact .refl t
      · simp only [step]
        split <;> next h => exact .of_eq (cachesOnly_reachPiece ..) h
    generalize List.range ((f.size + 3) / 4) = ks
    have hf (x : Except Failure (List Piece) × State) : CachesOnly x.2 (ks.foldl step x).2 := by
      induction ks generalizing x with
      | nil => exact .refl _
      | cons k ks ih => exact (hs x k).trans (ih _)
    exact hf (.ok [], s)
  · refine .ite (.refl s) ?_
    split <;> next h => exact .of_eq (cachesOnly_reachPiece ..) h

/-! ## Lines -/

/-- A count of bytes moved changes in one block. -/
theorem cachesOnly_charge (s : State) (blk : Option (Nat × Nat)) (n : Nat) : CachesOnly s (s.charge blk n) := by
  unfold State.charge
  split
  · exact .refl s
  next b hb =>
    obtain ⟨x, -, hx⟩ := Option.bind_eq_some_iff.mp hb
    obtain ⟨hc, hr⟩ := block?_key hx
    refine ⟨⟨⟨s.tlb, s.l1, s.l2, s.fills, s.oracle, s.mixTags, _⟩, rfl⟩, by simp [State.putBlock, updWhere], fun crew rank => ?_⟩
    rw [block?_putBlock, Option.map_map]
    refine Option.map_congr fun y hy => ?_
    obtain ⟨hyc, hyr⟩ := block?_key hy
    simp only [Function.comp]
    split
    next hk =>
      obtain ⟨h1, h2⟩ : y.crew = b.crew ∧ y.rank = b.rank := by simpa using hk
      have hyb : y = b := Option.some.inj (by rw [← hy, ← hyc, ← hyr, h1, h2, hc, hr, hx])
      rw [hyb]; rfl
    next => rfl

theorem cachesOnly_evict (s : State) (x : L2Line) : CachesOnly s (s.evict x) := by
  unfold State.evict
  extract_lets t
  have ht : CachesOnly s t := .of_blocks ⟨s.tlb, s.l1, _, s.fills, s.oracle, _, s.blocks⟩ rfl rfl
  split
  · exact ht.trans (.foldl (fun t b => cachesOnly_charge t (some b) 128) _ _)
  · exact ht

theorem cachesOnly_trimL2 (home : Nat) : ∀ (n : Nat) (s : State), CachesOnly s (s.trimL2 home n)
  | 0, s => .refl s
  | n + 1, s => by
    unfold State.trimL2
    split
    · exact .refl s
    · split
      · exact .refl s
      · exact (cachesOnly_evict s _).trans (cachesOnly_trimL2 home n _)

theorem cachesOnly_l2 (s : State) (l : List L2Line) (n : List (Nat × Nat)) : CachesOnly s { s with l2 := l, fills := n } :=
  .of_blocks ⟨s.tlb, s.l1, l, n, s.oracle, s.mixTags, s.blocks⟩ rfl rfl

theorem cachesOnly_fillL2 (s : State) (part ctag : Nat) (blk : Option (Nat × Nat)) (mt line : Nat) (through comp : Bool) :
    CachesOnly s (s.fillL2 part ctag blk mt line through comp) := by
  unfold State.fillL2
  extract_lets home
  split
  next t here h =>
  have ht : CachesOnly s t := by
    split at h
    · cases h
      exact .refl s
    · split at h
      next k u hk =>
      replace hk := CachesOnly.of_eq (cachesOnly_choose s 2) hk
      split at h
      · cases h
        exact hk.trans (cachesOnly_evict u _)
      · cases h
        exact hk
  split
  · exact ht
  · extract_lets new u
    refine ht.trans (CachesOnly.trans ?_ (cachesOnly_trimL2 home 4 u))
    simp only [u]
    split
    · exact cachesOnly_l2 t _ t.fills
    · exact (cachesOnly_charge t blk 128).trans (cachesOnly_l2 _ _ _)

/-- A read of a line changes the caches alone. -/
theorem cachesOnly_touchL2 (s : State) (part ctag : Nat) (blk : Option (Nat × Nat)) (mt pa n : Nat) (comp : Bool) :
    CachesOnly s (s.touchL2 part ctag blk mt pa n false comp) := cachesOnly_fillL2 ..

theorem cachesOnly_l1 (s : State) (l : List L1Line) : CachesOnly s { s with l1 := l } :=
  .of_blocks ⟨s.tlb, l, s.l2, s.fills, s.oracle, s.mixTags, s.blocks⟩ rfl rfl

theorem cachesOnly_readL1 (s : State) (core mt pa n : Nat) : CachesOnly s (s.readL1 core mt pa n).2 := by
  unfold State.readL1
  extract_lets line is now fill
  split
  · exact cachesOnly_l1 s _
  · refine .ite (.refl s) ?_
    split
    next k t h =>
    replace h := CachesOnly.of_eq (cachesOnly_choose s 2) h
    exact .ite h (h.trans (cachesOnly_l1 t _))

theorem cachesOnly_prefetchLane (s : State) (c : Issue) (l1 : Bool) (l : Nat) (a : Addr) : CachesOnly s (s.prefetchLane c l1 l a) := by
  unfold State.prefetchLane
  extract_lets f
  split
  next t h =>
    replace h := CachesOnly.of_eq (cachesOnly_reachLane ..) h
    split
    next k u hk =>
    replace hk := h.trans (.of_eq (cachesOnly_choose t 2) hk)
    split
    · exact hk
    · extract_lets v
      have hv : CachesOnly s v := hk.trans (cachesOnly_touchL2 ..)
      split
      · exact hv.trans (cachesOnly_readL1 ..)
      · exact hv
  next t h => exact .of_eq (cachesOnly_reachLane ..) h

theorem cachesOnly_prefetchLanes (s : State) (c : Issue) (l1 : Bool) (o : Opnd) : CachesOnly s (s.prefetchLanes c l1 o) :=
  .foldl (fun s l => cachesOnly_prefetchLane s c l1 l _) _ s

end Sys2Proof.Laws
end

section
/-! SUPPORT. What a step does when a gang issues. -/

namespace Sys2Proof.Laws

open Sys2Proof.Machine Sys2Proof.Safety

/-- Where no WAIT waits, the passing of time changes the clock alone. -/
theorem passTime_of_no_wait {s : State} (h : s.inWait = []) (ticks cycles : Nat) :
    s.passTime ticks cycles = { s with tick := s.tick + ticks, cycle := s.cycle + cycles } := by
  simp only [State.passTime, h, List.foldl_nil, ite_self]

/-- Counting the gangs that are passed over changes the counts alone. -/
theorem passOver_eq (s : State) (rs : List Sys2Proof.Machine.Ready) (x : Sys2Proof.Machine.Ready) :
    s.passOver rs x = { s with passed := (s.passOver rs x).passed } := rfl

/-- Where no WAIT waits, what an issue finds differs in the agenda, the clock, the counts and the named issuer alone. -/
theorem issuing_eq {s : State} (h : s.inWait = []) (a : Agenda) (r : WaveRef) (sl : Nat) (rest : List Agenda) :
    issuing s a r sl rest = { s with
      agenda := rest, tick := s.tick + a.ticks, cycle := s.cycle + a.cycles, passed := (issuing s a r sl rest).passed, cur := some (r, sl) } := by
  have ht := passTime_of_no_wait (s := { s with agenda := rest }) h a.ticks a.cycles
  unfold issuing
  simp only [ht]
  split <;> rfl

/-- An issue that is next on the agenda, with no gang of its pipe before it, goes to the gang it names. -/
theorem takeNext_of_issue {s : State} {a : Agenda} {r : WaveRef} {sl : Nat} {rest : List Agenda} (ha : s.agenda = a :: rest)
    (hi : a.action = .issue r sl) (hf : s.issuesFirst a.action = none) : s.takeNext = (issuing s a r sl rest).nextOf r sl := by
  unfold State.takeNext issuing
  rw [ha]
  simp only [hf]
  rw [hi]
  simp only [State.nextAction]
  rfl

/-- The conditions under which a gang that is named as issuer goes on to fetch. -/
structure MayFetch (s : State) (c : Issue) : Prop where
  issuer : s.issuer = some c
  resident : c.crew.resident = true
  mayIssue : c.gang.wait.mayIssue = true
  agrees : (s.part c.crew.part).div = false
  working : (s.part c.crew.part).state ≠ 4
  unbound : (s.part c.crew.part).woad = false
  running : c.crew.preempt = none ∨ c.gang.isHalted = false
  untrapped : c.wave.sup = true ∨ (c.wave.traps = [] ∧ s.ownedEntry c.wave c.crew = none)

/-- A gang whose partition does not run in rounds runs the instruction that it fetches. -/
theorem nextOf_of_fetch {s s1 : State} {c : Issue} {r : WaveRef} {sl : Nat} {w0 w1 : Word} {i : Instr} (h : MayFetch s c)
    (hc : s.cur = some (r, sl)) (hf : s.fetchWords c = .ok (w0, w1, s1)) (hd : decodeWords w0 w1 = .ok i) :
    s.nextOf r sl = s1.issueInRound c sl i := by
  obtain ⟨hi, hr, hm, hdiv, hst, hw, hp, ht⟩ := h
  have hs : ({ s with cur := some (r, sl) } : State) = s := by rw [← hc]
  have hround : s.roundBars c = false := by simp [State.roundBars, State.inRounds, hw]
  have hstop : ((s.part c.crew.part).div || decide ((s.part c.crew.part).state = 4) || s.roundBars c || !c.crew.resident ||
      (c.crew.preempt.isSome && c.gang.isHalted)) = false := by
    rcases hp with hp | hp <;> simp [hdiv, hst, hround, hr, hp]
  have htrap : (!c.wave.sup && c.wave.trapFirst (s.ownedEntry c.wave c.crew)) = false := by
    rcases ht with ht | ⟨ht, -⟩
    · simp [ht]
    · simp [ht, Wave.trapFirst]
  have hown : (!c.wave.sup && (s.ownedEntry c.wave c.crew).isSome) = false := by
    rcases ht with ht | ⟨-, ht⟩ <;> simp [ht]
  unfold State.nextOf
  simp only [hs, hi, hstop, htrap, hown, hm, hf, hd, Bool.false_eq_true, if_false, Bool.not_true]

/-- Setting A or D in a leaf changes no partition. -/
theorem touchLeaf_parts (s : State) (cl : Nat) (e : BitVec 64) (mt pa : Nat) (write : Bool) :
    (s.touchLeaf cl e mt pa write).parts = s.parts := by
  unfold State.touchLeaf
  extract_lets want
  split <;> rfl

/-- Fetching a word changes no partition. -/
theorem fetchWord_parts (s : State) (w : Wave) (c : Crew) (pc : Addr) : (s.fetchWord w c pc).2.parts = s.parts := by
  unfold State.fetchWord
  split
  · rfl
  split
  · rfl
  split
  · rfl
  split
  · split
    · rfl
    split
    next t ht =>
      have h1 : t.parts = s.parts := (CachesOnly.of_eq (cachesOnly_translate ..) ht).parts
      extract_lets u v
      have h2 : v.parts = s.parts := by
        rw [(cachesOnly_touchL2 ..).parts, touchLeaf_parts, h1]
      split
      · exact h2
      · split <;> exact h2
    all_goals next ht => exact (CachesOnly.of_eq (cachesOnly_translate ..) ht).parts
  · rfl

/-- Nor does fetching an instruction. -/
theorem fetchWords_parts {s t : State} {c : Issue} {w0 w1 : Word} (h : s.fetchWords c = .ok (w0, w1, t)) : t.parts = s.parts := by
  have hw (s : State) (pc : Addr) {x : Fetched} {u : State} (h : s.fetchWord c.wave c.crew pc = (x, u)) : u.parts = s.parts := by
    rw [← fetchWord_parts s c.wave c.crew pc, h]
  unfold State.fetchWords at h
  extract_lets pc bad at h
  split at h
  next x0 s1 h1 =>
    split at h
    · split at h
      next x1 s2 h2 =>
        cases h
        exact (hw s1 _ h2).trans (hw s _ h1)
      next => cases h
    · cases h
      exact hw s _ h1
  next => cases h

/-- A word of the code range is read from the block, and changes nothing (R64). -/
theorem fetchWord_of_code {s : State} {w : Wave} {c : Crew} {pc : Addr} {b : Block} {x : Word} (hb : s.block? c.id w.ref.rank = some b)
    (hx : b.codeWord c.image pc = some x) : s.fetchWord w c pc = (.word x, s) := by
  simp only [State.fetchWord, hb, Option.bind_some, hx]

/-- So are an instruction's words. -/
theorem fetchWords_of_code {s : State} {c : Issue} {b : Block} {w0 w1 : Word} (hb : s.block? c.crew.id c.wave.ref.rank = some b)
    (h0 : b.codeWord c.crew.image c.gang.pc = some w0)
    (h1 : if w0.getLsbD 30 then b.codeWord c.crew.image (c.gang.pc + 4) = some w1 else w1 = 0) : s.fetchWords c = .ok (w0, w1, s) := by
  simp only [State.fetchWords, fetchWord_of_code hb h0]
  split at h1
  next hx => simp only [hx, if_true, fetchWord_of_code hb h1]
  next hx => simp only [hx, Bool.false_eq_true, if_false, h1]

/-- Settles O6: the agenda names the gang, its words are fetched and decoded, and it runs them, since it is in no round. -/
theorem stepRunsTheDecodedInstruction : Obligations.StepRunsTheDecodedInstruction := by
  intro s a r sl rest c w0 w1 i ha hi hf s0
  refine ⟨fun hw => issuing_eq hw a r sl rest, fun hc hr hm hdiv hst hwoad hp ht => ?_⟩
  have hcur : s0.cur = some (r, sl) := rfl
  have hrun (s1 : State) (hw : s0.fetchWords c = .ok (w0, w1, s1)) (hd : decodeWords w0 w1 = .ok i) : step s = exec i s1 := by
    have h1 : s1.inRounds c.crew = false := by
      rw [State.inRounds, State.part, fetchWords_parts hw, ← State.part, hwoad, Bool.false_and]
    rw [step, takeNext_of_issue ha hi hf, nextOf_of_fetch ⟨hc, hr, hm, hdiv, hst, hwoad, hp, ht⟩ hcur hw hd]
    simp only [State.issueInRound, h1, Bool.not_false, if_true]
  exact ⟨hrun, fun b hb h0 h1 => hrun s0 (fetchWords_of_code hb h0 h1)⟩

end Sys2Proof.Laws
end

section
/-! SUPPORT. The LAT family (R28, R174, R175). -/

namespace Sys2Proof.Laws

open Sys2Proof.Machine Sys2Proof.Safety

/-! ## Sets of lanes -/

/-- The lanes of a list, below 96, are those of the set. -/
theorem getLsbD_laneSet (ls : List Nat) (l : Nat) : (laneSet ls).getLsbD l = (decide (l < 96) && decide (l ∈ ls)) := by
  have hf (m : LaneMask) : (ls.foldl (fun m l => m ||| (1#96 <<< l)) m).getLsbD l = (m.getLsbD l || decide (l < 96) && decide (l ∈ ls)) := by
    induction ls generalizing m with
    | nil => simp
    | cons x ls ih =>
      have hx : (1#96 <<< x).getLsbD l = (decide (l < 96) && decide (l = x)) := by
        simp only [BitVec.getLsbD_shiftLeft, BitVec.getLsbD_one]
        by_cases h : l = x
        · simp [h]
        · by_cases hl : l < x
          · simp [h, hl]
          · simp [h, hl]; omega
      rw [List.foldl_cons, ih, BitVec.getLsbD_or, hx, Bool.or_assoc, ← Bool.and_or_distrib_left]
      simp only [List.mem_cons, Bool.decide_or]
  rw [laneSet, hf 0]
  simp

/-- A lane lies in one of the octets of a list. -/
theorem mem_octetLanes {os : List Nat} {l : Nat} : l ∈ (os.flatMap fun k => (List.range 8).map fun j => 8 * k + j) ↔ l / 8 ∈ os := by
  simp only [List.mem_flatMap, List.mem_map, List.mem_range]
  constructor
  · rintro ⟨k, hk, j, hj, rfl⟩
    rwa [show (8 * k + j) / 8 = k by omega]
  · exact fun h => ⟨l / 8, h, l % 8, by omega, by omega⟩

/-- The octets that act, each by its slices and its leader (R28). -/
theorem mem_octets {c : Issue} {x : Ext} {k : Nat} : k ∈ c.octets x ↔ k < 12 ∧ c.gang.slices.getLsbD (2 * k) = true ∧
    c.gang.slices.getLsbD (2 * k + 1) = true ∧ (c.active x).getLsbD (8 * k) = true := by
  simp only [Issue.octets, List.mem_filter, List.mem_range, Bool.and_eq_true, and_assoc]

/-- The lanes that DLAT writes: the active ones of the octets that act. -/
def octetLanes (c : Issue) (x : Ext) : LaneMask :=
  c.active x &&& laneSet ((c.octets x).flatMap fun k => (List.range 8).map fun j => 8 * k + j)

theorem getLsbD_octetLanes {c : Issue} {x : Ext} {l : Nat} (hl : l < 96) : (octetLanes c x).getLsbD l = true ↔
    (c.active x).getLsbD l = true ∧ (c.active x).getLsbD (l / 8 * 8) = true ∧
      c.gang.slices.getLsbD (l / 8 * 2) = true ∧ c.gang.slices.getLsbD (l / 8 * 2 + 1) = true := by
  simp only [octetLanes, BitVec.getLsbD_and, getLsbD_laneSet, Bool.and_eq_true, decide_eq_true_eq, mem_octetLanes, mem_octets,
    show l / 8 < 12 by omega, hl, true_and, Nat.mul_comm (l / 8)]
  tauto

/-- Settles O20: each form writes the leaders, or the active lanes, of the octets that act. -/
theorem latticeResults : Obligations.LatticeResults := by
  constructor
  · intro p hp o s c h
    simp only [latticeLeaders, List.mem_cons, List.not_mem_nil, or_false] at hp
    rcases hp with rfl | rfl | rfl <;> exact issue_plain h
  · intro p hp o s c h
    refine ⟨octetLanes c o.ext, ?_, fun l => getLsbD_octetLanes⟩
    simp only [latticeDecodes, List.mem_cons, List.not_mem_nil, or_false] at hp
    rcases hp with rfl | rfl <;> exact issue_plain h

end Sys2Proof.Laws
end

section
/-! SUPPORT. Stage queues (R34, R35, R208, R209). -/

namespace Sys2Proof.Laws

open Sys2Proof.Machine Sys2Proof.Safety

/-- A ready QUEUE instruction on a block, once its checks of rank 7 pass and no held access keeps it back. -/
structure QueueReady (s : State) (c : Issue) (o : Opnd) (pushes : Bool) (b : Block) : Prop where
  block : s.block? c.crew.id c.wave.ref.rank = some b
  declared : bits (b.queueWord (queueNo o) 0) 31 31 = 1
  producer : pushes = true → (BitVec.ofNat 32 (b.queueWord (queueNo o) 2)).getLsbD c.wave.ref.wave = true

/-- The check for a producer passes. -/
theorem passes_of_producer {pushes p : Bool} (h : pushes = true → p = true) : (pushes && !p) = false := by
  cases pushes
  · rfl
  · rw [h rfl]; rfl

variable {i : Instr} {o : Opnd} {pushes waits : Bool} {s : State} {c : Issue} {b : Block} {k : Issue → Block → State}

/-- A QUEUE instruction that passes those checks performs its operation. -/
theorem queueOp_performs (h : Ready s c i) (hw : waits = true → c.wave.sup = false) (hq : QueueReady s c o pushes b)
    (hm : c.wave.sup = true ∨ s.mustWait c.wave.ref pushes pushes = false) : queueOp i o pushes waits s k = .next (k c b) := by
  obtain ⟨hb, hd, hp⟩ := hq
  have hpr := passes_of_producer hp
  have hmw : (!c.wave.sup && s.mustWait c.wave.ref pushes pushes) = false := by
    rcases hm with hm | hm <;> simp [hm]
  rw [queueOp, issue_of_ready h (needsMet_notInHandler hw)]
  simp only [hb, hd, hpr, hmw, Nat.one_ne_zero, Bool.false_eq_true, if_false]

/-- It waits for held accesses. -/
theorem queueOp_waits (h : Ready s c i) (hw : waits = true → c.wave.sup = false) (hq : QueueReady s c o pushes b)
    (hm : ¬(c.wave.sup = true ∨ s.mustWait c.wave.ref pushes pushes = false)) :
    queueOp i o pushes waits s k = .next (s.putWave (c.wave.park c.gang .held)) := by
  obtain ⟨hb, hd, hp⟩ := hq
  have hpr := passes_of_producer hp
  have hmw : (!c.wave.sup && s.mustWait c.wave.ref pushes pushes) = true := by
    simpa [not_or] using hm
  rw [queueOp, issue_of_ready h (needsMet_notInHandler hw)]
  simp only [hb, hd, hpr, hmw, Nat.one_ne_zero, Bool.false_eq_true, if_false, if_true]

/-- An undeclared queue traps. -/
theorem queueOp_undeclared (h : Ready s c i) (hw : waits = true → c.wave.sup = false) (hb : s.block? c.crew.id c.wave.ref.rank = some b)
    (hd : ¬bits (b.queueWord (queueNo o) 0) 31 31 = 1) : queueOp i o pushes waits s k =
      .next (s.takeTrap c.wave (c.trap 0x12 1 (BitVec.ofNat 64 (queueNo o)) c.activeGroup)) := by
  have h0 : bits (b.queueWord (queueNo o) 0) 31 31 = 0 := by
    have : bits (b.queueWord (queueNo o) 0) 31 31 < 2 := Nat.mod_lt _ (by decide)
    omega
  rw [queueOp, issue_of_ready h (needsMet_notInHandler hw)]
  simp only [hb, h0, if_true]

/-- A wave that is no producer traps. -/
theorem queueOp_stranger (h : Ready s c i) (hw : waits = true → c.wave.sup = false) (hb : s.block? c.crew.id c.wave.ref.rank = some b)
    (hd : bits (b.queueWord (queueNo o) 0) 31 31 = 1)
    (hp : ¬(BitVec.ofNat 32 (b.queueWord (queueNo o) 2)).getLsbD c.wave.ref.wave = true) : queueOp i o true waits s k =
      .next (s.takeTrap c.wave (c.trap 0x12 2 (BitVec.ofNat 64 (queueNo o)) c.activeGroup)) := by
  rw [queueOp, issue_of_ready h (needsMet_notInHandler hw)]
  simp only [hb, hd, hp, Nat.one_ne_zero, Bool.true_and, Bool.not_false, if_false, if_true]

/-- QPUSH on its queue (R208). -/
theorem exec_qpush (h : Ready s c (.qpush o)) (hs : c.wave.sup = false) (hq : QueueReady s c o true b)
    (hm : c.wave.sup = true ∨ s.mustWait c.wave.ref true true = false) : exec (.qpush o) s = .next
      (if b.allowance (queueNo o) c.wave.ref.wave = 0 then s.putWave (c.wave.park c.gang (.qpush (queueNo o) o.a.toNat))
       else (s.putBlock (b.push (queueNo o) c.wave.ref.wave (c.wave.readG o.a.toNat))).retire c (.qpush o) c.wave) :=
  queueOp_performs h (fun _ => hs) hq hm

/-- QOFFER on its queue. -/
theorem exec_qoffer (h : Ready s c (.qoffer o)) (hq : QueueReady s c o true b)
    (hm : c.wave.sup = true ∨ s.mustWait c.wave.ref true true = false) : exec (.qoffer o) s = .next
      (if b.allowance (queueNo o) c.wave.ref.wave = 0 then s.retire c (.qoffer o) (c.wave.writeG c.gang.slices o.d.toNat 0)
       else (s.putBlock (b.push (queueNo o) c.wave.ref.wave (c.wave.readG o.a.toNat))).retire c (.qoffer o)
         (c.wave.writeG c.gang.slices o.d.toNat 1)) :=
  queueOp_performs (waits := false) h nofun hq hm

/-- QPOP on its queue (R209). -/
theorem exec_qpop (h : Ready s c (.qpop o)) (hs : c.wave.sup = false) (hq : QueueReady s c o false b)
    (hm : c.wave.sup = true ∨ s.mustWait c.wave.ref false false = false) : exec (.qpop o) s = .next
      (if b.queueCount (queueNo o) ≤ (s.popStamps c.crew.id c.wave.ref.rank (queueNo o)).length then
         { s with stamp := s.stamp + 1 }.putWave (c.wave.park c.gang (.qpop (queueNo o) o.d.toNat s.stamp))
       else (s.putBlock (b.pop (queueNo o)).2).retire c (.qpop o) (c.wave.writeG c.gang.slices o.d.toNat (b.pop (queueNo o)).1)) :=
  queueOp_performs h (fun _ => hs) hq hm

/-- QPOLL on its queue. -/
theorem exec_qpoll (h : Ready s c (.qpoll o)) (hq : QueueReady s c o false b)
    (hm : c.wave.sup = true ∨ s.mustWait c.wave.ref false false = false) : exec (.qpoll o) s = .next
      (if b.queueCount (queueNo o) ≤ (s.popStamps c.crew.id c.wave.ref.rank (queueNo o)).length then
         s.retire c (.qpoll o) (c.wave.writeG c.gang.slices (o.d.toNat + 1) 0)
       else (s.putBlock (b.pop (queueNo o)).2).retire c (.qpoll o)
         ((c.wave.writeG c.gang.slices o.d.toNat (b.pop (queueNo o)).1).writeG c.gang.slices (o.d.toNat + 1) 1)) :=
  queueOp_performs (waits := false) h nofun hq hm

/-- Settles O28: each instruction is the frame of the QUEUE instructions around one operation on the block. -/
theorem stageQueueOperations : Obligations.StageQueueOperations := by
  intro o s c b hb q declared producer some_ h pushed popped slices push pop
  have hpush (hd : declared) (hp : producer) : QueueReady s c o true b := ⟨hb, hd, fun _ => hp⟩
  have hpop (hd : declared) : QueueReady s c o false b := ⟨hb, hd, fun hx => absurd hx Bool.false_ne_true⟩
  refine ⟨fun hr hs => ⟨fun hd hp hm ha => ?_, fun hd hp hm ha => ?_, fun hd hp hm => ?_⟩,
    fun hr => ⟨fun hd hp hm ha => ?_, fun hd hp hm ha => ?_, fun hd hp => ?_⟩,
    fun hr hs => ⟨fun hd hm hn => ?_, fun hd hm hn => ?_⟩,
    fun hr => ⟨fun hd hm hn => ?_, fun hd hm hn => ?_, fun hd => ?_⟩⟩
  · exact (exec_qpush hr hs (hpush hd hp) hm).trans (congrArg _ (if_neg ha))
  · exact (exec_qpush hr hs (hpush hd hp) hm).trans (congrArg _ (if_pos ha))
  · exact queueOp_waits hr (fun _ => hs) (hpush hd hp) hm
  · exact (exec_qoffer hr (hpush hd hp) hm).trans (congrArg _ (if_neg ha))
  · exact (exec_qoffer hr (hpush hd hp) hm).trans (congrArg _ (if_pos ha))
  · exact queueOp_stranger (waits := false) hr nofun hb hd hp
  · exact (exec_qpop hr hs (hpop hd) hm).trans (congrArg _ (if_neg (Nat.not_le.mpr hn)))
  · exact (exec_qpop hr hs (hpop hd) hm).trans (congrArg _ (if_pos (Nat.not_lt.mp hn)))
  · exact (exec_qpoll hr (hpop hd) hm).trans (congrArg _ (if_neg (Nat.not_le.mpr hn)))
  · exact (exec_qpoll hr (hpop hd) hm).trans (congrArg _ (if_pos (Nat.not_lt.mp hn)))
  · exact queueOp_undeclared (waits := false) hr nofun hb hd

end Sys2Proof.Laws
end

section
/-! SUPPORT. NOP, PREF, FENCE and REGANG (R197, R210, R211, R221). -/

namespace Sys2Proof.Laws

open Sys2Proof.Machine Sys2Proof.Safety

/-- A fence waits or goes on (R210, R344). -/
theorem fence_of_ready {i : Instr} {acquire : Bool} {o : Opnd} {s : State} {c : Issue} (h : Ready s c i) : fence i acquire o s = .next
    (if (c.wave.sup = false ∧ s.heldOf c.wave.ref ≠ []) ∨ (o.ext.mod.getLsbD 2 = true ∧ s.promotes (fun _ => true) = true) then
      s.putWave (c.wave.park c.gang .held)
    else (if acquire = true ∧ o.ext.mod.extractLsb' 0 2 ≠ 0 then s.dropL1 (c.crew.coreOf c.wave.ref.rank) else s).retire c i c.wave) := by
  have hmod : o.ext.mod.toNat % 4 = 0 ↔ o.ext.mod.extractLsb' 0 2 = 0 := by
    rw [BitVec.toNat_eq]; simp
  rw [fence, issue_plain h]
  simp only [Bool.or_eq_true, Bool.and_eq_true, Bool.not_eq_true', List.isEmpty_eq_false_iff, bne_iff_ne, ne_eq, hmod]

/-- What PREF changes, as its statement names it. -/
theorem CachesOnly.prefetch {s t : State} (h : CachesOnly s t) :
    { t with tlb := s.tlb, l1 := s.l1, l2 := s.l2, fills := s.fills, oracle := s.oracle, mixTags := s.mixTags, blocks := s.blocks } = s ∧
      t.blocks.length = s.blocks.length ∧ ∀ crew rank, (t.block? crew rank).map (fun b => { b with dramBytes := 0 }) =
        (s.block? crew rank).map fun b => { b with dramBytes := 0 } := by
  obtain ⟨⟨x, rfl⟩, hl, hb⟩ := h
  exact ⟨rfl, hl, hb⟩

/-- Settles O30: PREF reaches storage by lookups alone, and a fence only decides whether it waits. -/
theorem orderingAndIdleInstructions : Obligations.OrderingAndIdleInstructions := by
  refine ⟨fun o s c h => issue_plain h, fun p hp o s c h => ⟨?_, (cachesOnly_prefetchLanes s c p.2 o).prefetch⟩,
    fun p hp o s c h => ?_, fun o s c h hs => ?_⟩
  · simp only [List.mem_cons, List.not_mem_nil, or_false] at hp
    rcases hp with rfl | rfl <;> exact issue_plain h
  · have he : exec (p.1 o) s = fence (p.1 o) p.2 o s := by
      simp only [fences, List.mem_cons, List.not_mem_nil, or_false] at hp
      rcases hp with rfl | rfl | rfl <;> rfl
    exact ⟨fun hw => by rw [he, fence_of_ready h, if_pos hw], fun hw => by rw [he, fence_of_ready h, if_neg hw]⟩
  · have hn := noteBands_eq (c.wave.park c.gang .regang)
    refine (issue_outside_handler h hs).trans ?_
    rw [hn]
    rfl

end Sys2Proof.Laws
end

section
/-! SUPPORT. EXIT, PHASE and SAFE (R36, R37, R198, R206, R207). -/

namespace Sys2Proof.Laws

open Sys2Proof.Machine Sys2Proof.Safety

/-! ## Reaching a PHASE -/

/-- While a gang of the wave is not at a PHASE, the wave reaches none. -/
theorem phaseCheck_of_other {s : State} {w : Wave} (hw : s.wave? w.ref = some w) (h : (w.gangs.any fun g => g.atPhase.isNone) = true) :
    s.phaseCheck w.ref = s := by
  simp only [State.phaseCheck, hw]
  split
  · simp only [h, Bool.or_true, if_true]
  · rfl

/-! ## EXIT -/

/-- The wave after the EXIT of its cohort (R198). -/
def exitedWave (c : Issue) : Wave := ({ c.wave with
  act := c.wave.act &&& ~~~c.gang.slices.lanes, exited := c.wave.exited ||| c.gang.slices
  gangs := c.wave.gangs.filter fun g => g.slices != c.gang.slices
  issued := c.wave.issued + 1, roundIssued := c.wave.roundIssued + 1 } : Wave).noteBands

/-- A wave that has exited keeps the slots that it sent (R381). -/
def sentSlots (w : Wave) : Wave := { w with slots := w.slots.filter fun x => x.sent }

theorem exitedWave_ref (c : Issue) : (exitedWave c).ref = c.wave.ref := by
  unfold exitedWave; rw [noteBands_eq]

/-- A block with no barrier generation in progress has none to complete (R204). -/
theorem checkBlock_of_idle (s : State) {c : Crew} (h : ∀ b ∈ s.blocks, b.crew = c.id → bits (b.word 0x800) 5 0 = 0) (rank : Nat) :
    s.checkBlock c rank = s := by
  unfold State.checkBlock
  split
  · rfl
  next b hb =>
    have h0 := h b (List.mem_of_find?_eq_some hb) (block?_key hb).1
    simp only [h0, decide_true, Bool.true_or, if_true]

/-- Nor has a crew. -/
theorem checkCrew_of_idle (s : State) {c : Crew} (h : ∀ b ∈ s.blocks, b.crew = c.id → bits (b.word 0x808) 3 0 = 0) : s.checkCrew c = s := by
  unfold State.checkCrew
  split
  · rfl
  next b hb =>
    have h0 := h b (List.mem_of_find?_eq_some hb) (block?_key hb).1
    simp only [h0, decide_true, Bool.true_or, if_true]

/-- EXIT in a crew of a LAUNCH (R198). -/
theorem exec_exit_of_launch {o : Opnd} {s : State} {c : Issue} (h : Ready s c (.exit o)) (hs : c.wave.sup = false)
    (hk : c.crew.kind = .launch) : exec (.exit o) s = .next
      (if (exitedWave c).hasExited then
        let t := (((s.putWave (exitedWave c)).freeSlots c.crew (exitedWave c)).putWave (sentSlots (exitedWave c))).checkBlock c.crew
          (exitedWave c).ref.rank
        (if t.blockLive c.crew.id (exitedWave c).ref.rank then t else t.checkCrew c.crew).settle
      else (s.putWave (exitedWave c)).phaseCheck (exitedWave c).ref) := by
  have hlast : s.lastOfResolve c = false := by simp only [State.lastOfResolve, hk]
  have hgone (t : State) (x : Wave) (m : LaneMask) : t.laneGone c.crew x m = t := by simp only [State.laneGone, hk]
  have hplain : c.crew.isGbuffer = false := by simp only [Crew.isGbuffer, hk]
  refine (issue_outside_handler h hs).trans ?_
  simp only [hlast, hgone, hplain, Bool.false_and, Bool.false_eq_true, if_false]
  rfl

/-- Settles O24: what EXIT does beside its wave is what its checks find, and they find nothing. -/
theorem exitEndsTheSlices : Obligations.ExitEndsTheSlices := by
  intro o s c h hs hk w
  have hw : w = exitedWave c := rfl
  have hr : w.ref = c.wave.ref := exitedWave_ref c
  have hput : (s.putWave w).wave? w.ref = some w := wave?_putWave_same (x := c.wave) (by rw [hr]; exact (issuerParts h.issuer).wave)
  have he := exec_exit_of_launch h hs hk
  rw [← hw] at he
  constructor
  · intro hx hg
    rw [he, hx, phaseCheck_of_other hput hg]
    rfl
  · intro hx hgraph hidle
    have hfree : (s.putWave w).freeSlots c.crew w = s.putWave w := by
      have : (s.putWave w).graph? c.crew.work = none := hgraph
      simp only [State.freeSlots, this]
    have hblock : (s.putWave (sentSlots w)).checkBlock c.crew w.ref.rank = s.putWave (sentSlots w) :=
      checkBlock_of_idle (s.putWave _) (fun b hb hc => (hidle b hb hc).1) _
    have hcrew : (s.putWave (sentSlots w)).checkCrew c.crew = s.putWave (sentSlots w) :=
      checkCrew_of_idle (s.putWave _) fun b hb hc => (hidle b hb hc).2
    rw [he, hx, hfree, putWave_putWave s (w := w) (x := sentSlots w) rfl]
    simp only [hblock, hcrew, if_true, ite_self]
    rfl

end Sys2Proof.Laws
end

section
/-! SUPPORT. PHASE and SAFE (R36, R37, R206, R207). -/

namespace Sys2Proof.Laws

open Sys2Proof.Machine Sys2Proof.Safety

/-- The lowest slice of a gang. -/
def lowestSlice (g : Gang) : Nat := (SliceMask.slices g.slices).headD 24

/-- The gang of the lowest slice is one of the wave's, where it has any. -/
theorem lowestGang_isSome {w : Wave} (h : w.gangs ≠ []) : ∃ g ∈ w.gangs, w.lowestGang = some g := by
  obtain ⟨g, hg⟩ := Option.ne_none_iff_exists'.mp (mt List.argmin_eq_none.mp h : w.gangs.argmin lowestSlice ≠ none)
  have hle : (w.gangs.all fun x => lowestSlice g ≤ lowestSlice x) = true := by
    simpa using fun x hx => List.le_of_mem_argmin hx hg
  have hsome : w.lowestGang.isSome := List.find?_isSome.mpr ⟨g, List.argmin_mem hg, hle⟩
  obtain ⟨y, hy⟩ := Option.isSome_iff_exists.mp hsome
  exact ⟨y, List.mem_of_find?_eq_some hy, hy⟩

/-- The other gangs of a wave. -/
def otherGangs (c : Issue) : List Gang := c.wave.gangs.filter fun g => g.slices != c.gang.slices

/-- The wave whose gang waits at a PHASE. -/
def phasedWave (c : Issue) (n : Nat) : Wave :=
  { (c.wave.park c.gang (.phase n)) with issued := c.wave.issued + 1, roundIssued := c.wave.roundIssued + 1 }

/-- The gangs of a wave that a gang has joined at a PHASE. -/
theorem mem_phasedWave {c : Issue} {n : Nat} {g : Gang} :
    g ∈ (phasedWave c n).gangs ↔ (∃ x ∈ c.wave.gangs, x.slices = c.gang.slices ∧ { x with wait := .phase n } = g) ∨ g ∈ otherGangs c := by
  simp only [phasedWave, Wave.park, updWhere, otherGangs, List.mem_map, List.mem_filter]
  constructor
  · rintro ⟨x, hx, rfl⟩
    by_cases hs : x.slices = c.gang.slices
    · exact .inl ⟨x, hx, hs, by simp [hs]⟩
    · exact .inr (by simp [hs, hx])
  · rintro (⟨x, hx, hs, rfl⟩ | ⟨hg, hs⟩)
    · exact ⟨x, hx, by simp [hs]⟩
    · exact ⟨g, hg, by simp_all⟩

/-- The index that PHASE names is one of its kernel's. -/
def PhaseNamed (c : Issue) (o : Opnd) : Prop := 1 ≤ o.ext.imm.toNat ∧ o.ext.imm.toNat ≤ c.crew.image.kernel.phaseN

/-- A PHASE of its kernel (R206). -/
theorem exec_phase {o : Opnd} {s : State} {c : Issue} (h : Ready s c (.phase o)) (hs : c.wave.sup = false) (hn : PhaseNamed c o) :
    exec (.phase o) s = .next
      (if ((otherGangs c).all fun g => g.atPhase.isSome) && (otherGangs c).any fun g => g.atPhase != some o.ext.imm.toNat then
        s.takeTrap c.wave (c.trap 0x12 5 (BitVec.ofNat 64 o.ext.imm.toNat) c.activeGroup)
      else if s.mustWait c.wave.ref true true then s.putWave (c.wave.park c.gang .held)
      else (s.putWave (phasedWave c o.ext.imm.toNat)).phaseCheck (phasedWave c o.ext.imm.toNat).ref) := by
  obtain ⟨h1, h2⟩ := hn
  refine issue_of_ready (n := fun c => { notInHandler := true, noEntry := o.ext.imm.toNat = 0 || c.crew.image.kernel.phaseN < o.ext.imm.toNat }) h
    ⟨nofun, fun _ => hs, rfl, ?_, rfl, rfl⟩
  simp only [Bool.or_eq_false_iff, decide_eq_false_iff_not]
  omega

/-- A wave all of whose gangs are at one PHASE, with the carried registers full, reaches it (R206). -/
theorem phaseCheck_of_all {s : State} {w : Wave} {c : Crew} {b : Block} {n : Nat} (hw : s.wave? w.ref = some w)
    (hc : s.crew? w.ref.crew = some c) (hb : s.block? w.ref.crew w.ref.rank = some b) (hs : w.sup = false) (hr : w.reached = none)
    (hne : w.gangs ≠ []) (hall : ∀ g ∈ w.gangs, g.atPhase = some n) (hf : w.carryFull (c.image.phase n) = true) :
    s.phaseCheck w.ref = (s.putBlock (b.writePhase w (c.waveNo w) n (c.image.phase n))).putWave { w with reached := some n, gangs := [] } := by
  obtain ⟨g, hg, hlow⟩ := lowestGang_isSome hne
  have hnone : (w.gangs.any fun x => x.atPhase.isNone) = false := by
    simpa using fun x hx => by simp [hall x hx]
  have hother : (w.gangs.any fun x => x.atPhase != some n) = false := by
    simpa using hall
  simp only [State.phaseCheck, hw, hc, hb, hlow, hs, hr, hnone, hall g hg, hother, hf, Option.isSome_none, Option.getD_some,
    Bool.or_self, Bool.not_true, Bool.false_eq_true, if_false]

section
variable {o : Opnd} {s : State} {c : Issue} (h : Ready s c (.phase o)) (hs : c.wave.sup = false) (hn : PhaseNamed c o)
include h hs hn

/-- While another gang is elsewhere, the gang waits at the PHASE. -/
theorem phase_waits (ho : ((otherGangs c).any fun g => g.atPhase.isNone) = true) (hm : s.mustWait c.wave.ref true true = false) :
    exec (.phase o) s = .next (s.putWave (phasedWave c o.ext.imm.toNat)) := by
  obtain ⟨g, hg, hgn⟩ := List.any_eq_true.mp ho
  have hall : ((otherGangs c).all fun g => g.atPhase.isSome) = false := by
    simp only [List.all_eq_false]
    exact ⟨g, hg, by simpa using hgn⟩
  have hput : (s.putWave (phasedWave c o.ext.imm.toNat)).wave? (phasedWave c o.ext.imm.toNat).ref = some (phasedWave c o.ext.imm.toNat) :=
    wave?_putWave_same (x := c.wave) (issuerParts h.issuer).wave
  rw [exec_phase h hs hn, hall, hm, phaseCheck_of_other hput (List.any_eq_true.mpr ⟨g, mem_phasedWave.mpr (.inr hg), hgn⟩)]
  rfl

/-- With an access held that it waits for, it is not performed. -/
theorem phase_held (ho : ((otherGangs c).any fun g => g.atPhase.isNone) = true ∨
      ((otherGangs c).all fun g => g.atPhase == some o.ext.imm.toNat) = true) (hm : s.mustWait c.wave.ref true true = true) :
    exec (.phase o) s = .next (s.putWave (c.wave.park c.gang .held)) := by
  have hno : (((otherGangs c).all fun g => g.atPhase.isSome) &&
      (otherGangs c).any fun g => g.atPhase != some o.ext.imm.toNat) = false := by
    rcases ho with ho | ho
    · obtain ⟨g, hg, hgn⟩ := List.any_eq_true.mp ho
      have : ((otherGangs c).all fun g => g.atPhase.isSome) = false := by
        simp only [List.all_eq_false]
        exact ⟨g, hg, by simpa using hgn⟩
      rw [this, Bool.false_and]
    · have : ((otherGangs c).any fun g => g.atPhase != some o.ext.imm.toNat) = false := by
        simpa using ho
      rw [this, Bool.and_false]
  rw [exec_phase h hs hn, hno, hm]
  rfl

/-- The last gang to come takes the wave to the PHASE. -/
theorem phase_reached {b : Block} (ho : ((otherGangs c).all fun g => g.atPhase == some o.ext.imm.toNat) = true)
    (hb : s.block? c.crew.id c.wave.ref.rank = some b) (hr : c.wave.reached = none)
    (hf : c.wave.carryFull (c.crew.image.phase o.ext.imm.toNat) = true) (hm : s.mustWait c.wave.ref true true = false) :
    let w := phasedWave c o.ext.imm.toNat
    exec (.phase o) s = .next (((s.putWave w).putBlock
      (b.writePhase w (c.crew.waveNo w) o.ext.imm.toNat (c.crew.image.phase o.ext.imm.toNat))).putWave
        { w with reached := some o.ext.imm.toNat, gangs := [] }) := by
  intro w
  obtain ⟨hwave, hcrew, hkey, hgang⟩ := issuerParts h.issuer
  have hat : ∀ g ∈ otherGangs c, g.atPhase = some o.ext.imm.toNat := by simpa using ho
  have hall : ∀ g ∈ w.gangs, g.atPhase = some o.ext.imm.toNat := fun g hg => by
    rcases mem_phasedWave.mp hg with ⟨x, -, -, rfl⟩ | hg
    · rfl
    · exact hat g hg
  have hany : ((otherGangs c).any fun g => g.atPhase != some o.ext.imm.toNat) = false := by
    simpa using hat
  have hne : w.gangs ≠ [] := List.ne_nil_of_mem (mem_phasedWave.mpr (.inl ⟨c.gang, hgang, rfl, rfl⟩))
  rw [exec_phase h hs hn, hany, Bool.and_false, hm,
    phaseCheck_of_all (w := w) (s := s.putWave w) (wave?_putWave_same (x := c.wave) hwave) hcrew (hkey ▸ hb) hs hr hne hall hf]
  rfl

end

/-- A SAFE of its kernel (R207). -/
theorem exec_safe {o : Opnd} {s : State} {c : Issue} (h : Ready s c (.safe o)) (hn : o.ext.imm.toNat < c.crew.image.kernel.safeN) :
    exec (.safe o) s = .next
      (if c.wave.sup || c.crew.preempt.isNone then s.putWave (c.wave.advance c.gang (c.nextPc (.safe o)))
      else s.putWave ((c.wave.advance c.gang (c.nextPc (.safe o))).park c.gang (.stopped (some o.ext.imm.toNat)))) :=
  issue_of_ready (n := fun c => { noEntry := c.crew.image.kernel.safeN ≤ o.ext.imm.toNat }) h
    ⟨nofun, nofun, rfl, by simpa using hn, rfl, rfl⟩

/-- Settles O25: PHASE waits, is held, traps or takes its wave to the PHASE, as its other gangs and held accesses decide. -/
theorem phasesAndSafePoints : Obligations.PhasesAndSafePoints := by
  refine ⟨fun o s c h hs => ⟨fun h1 h2 => ⟨phase_waits h hs ⟨h1, h2⟩, phase_held h hs ⟨h1, h2⟩, fun hall hany => ?_,
    fun b => phase_reached h hs ⟨h1, h2⟩⟩, fun hn hf => ?_⟩, fun o s c h => ⟨fun hn hp => ?_, fun hn hs hp => ?_, fun hn hf => ?_⟩⟩
  · have hboth : (((otherGangs c).all fun g => g.atPhase.isSome) &&
        (otherGangs c).any fun g => g.atPhase != some o.ext.imm.toNat) = true := by
      simp only [otherGangs, hall, hany, Bool.and_self]
    rw [exec_phase h hs ⟨h1, h2⟩, hboth]
    rfl
  · exact issue_noEntry (i := .phase o) h hf (by simpa using hn)
  · rw [exec_safe h hn]
    rcases hp with hp | hp <;> simp only [hp, Option.isNone_none, Bool.true_or, Bool.or_true, if_true] <;> rfl
  · rw [exec_safe h hn, hs, Option.isNone_eq_false_iff.mpr (Option.isSome_iff_ne_none.mpr hp)]
    rfl
  · exact issue_noEntry (i := .safe o) h hf (by simpa using hn)

end Sys2Proof.Laws
end

section
/-! SUPPORT. What the operations on words compute, as numbers (R158, R161, R162, R186). -/

namespace Sys2Proof.Laws

open Sys2Proof.Machine Sys2Proof.Safety

theorem add_eq_ofNat {n : Nat} (a b : BitVec n) : a + b = BitVec.ofNat n (a.toNat + b.toNat) := by
  simp [BitVec.ofNat_add]

theorem sub_eq_ofInt {n : Nat} (a b : BitVec n) : a - b = BitVec.ofInt n (a.toInt - b.toInt) := by
  apply BitVec.eq_of_toInt_eq; simp

theorem sub_eq_ofInt_toNat (a b : Word) : a - b = BitVec.ofInt 32 ((a.toNat : Int) - b.toNat) := by
  apply BitVec.eq_of_toNat_eq
  simp only [BitVec.toNat_sub, BitVec.toNat_ofInt]
  omega

theorem mul_eq_ofNat (a b : Word) : a * b = BitVec.ofNat 32 (a.toNat * b.toNat) := by
  simp [BitVec.ofNat_mul]

theorem mulHighS_eq (a b : Word) : mulHighS a b = (BitVec.ofInt 64 (a.toInt * b.toInt)).extractLsb' 32 32 := by
  unfold mulHighS
  generalize a.toInt * b.toInt = x
  apply BitVec.eq_of_toNat_eq
  simp only [BitVec.toNat_ofInt, BitVec.extractLsb'_toNat, Nat.shiftRight_eq_div_pow]
  omega

theorem mulHighN_eq (a b : Word) : mulHighN a b = (BitVec.ofNat 64 (a.toNat * b.toNat)).extractLsb' 32 32 := by
  unfold mulHighN
  generalize a.toNat * b.toNat = x
  apply BitVec.eq_of_toNat_eq
  simp only [BitVec.toNat_ofNat, BitVec.extractLsb'_toNat, Nat.shiftRight_eq_div_pow]
  omega

theorem minS_eq (a b : Word) : minS a b = if a.toInt ≤ b.toInt then a else b := by
  simp only [minS, BitVec.slt_eq_decide, decide_eq_true_eq]
  have : a.toInt = b.toInt → a = b := BitVec.eq_of_toInt_eq
  grind

theorem maxS_eq (a b : Word) : maxS a b = if a.toInt ≤ b.toInt then b else a := by
  simp only [maxS, BitVec.slt_eq_decide, decide_eq_true_eq]
  have : a.toInt = b.toInt → a = b := BitVec.eq_of_toInt_eq
  grind

theorem minN_eq (a b : Word) : minN a b = if a.toNat ≤ b.toNat then a else b := by
  simp only [minN, BitVec.lt_def]
  have : a.toNat = b.toNat → a = b := BitVec.eq_of_toNat_eq
  grind

theorem maxN_eq (a b : Word) : maxN a b = if a.toNat ≤ b.toNat then b else a := by
  simp only [maxN, BitVec.lt_def]
  have : a.toNat = b.toNat → a = b := BitVec.eq_of_toNat_eq
  grind

/-- A power of two from 32 on is 0 in a word. -/
theorem shl32_eq (a k : Word) : shl32 a k = BitVec.ofNat 32 (a.toNat * 2 ^ k.toNat) := by
  apply BitVec.eq_of_toNat_eq
  unfold shl32
  split
  next h =>
    have : 2 ^ 32 ∣ a.toNat * 2 ^ k.toNat := (pow_dvd_pow 2 h).mul_left _
    simpa using (Nat.mod_eq_zero_of_dvd this).symm
  next => simp [Nat.shiftLeft_eq]

theorem shr32_eq (a k : Word) : shr32 a k = BitVec.ofNat 32 (a.toNat / 2 ^ k.toNat) := by
  apply BitVec.eq_of_toNat_eq
  unfold shr32
  split
  next h =>
    have : a.toNat < 2 ^ k.toNat := a.isLt.trans_le (Nat.pow_le_pow_right (by omega) h)
    simp [Nat.div_eq_of_lt this]
  next =>
    have : a.toNat / 2 ^ k.toNat < 2 ^ 32 := (Nat.div_le_self _ _).trans_lt a.isLt
    simpa [Nat.shiftRight_eq_div_pow] using (Nat.mod_eq_of_lt this).symm

/-- From 32 on, a signed number divided by a power of two is as at 31: 0 or -1 by its sign. -/
theorem toInt_div_two_pow (a : Word) {n : Nat} (h : 31 ≤ n) : a.toInt / 2 ^ n = a.toInt / 2 ^ 31 := by
  have hl := BitVec.le_toInt a
  have hu := BitVec.toInt_lt (x := a)
  have hp : (2 : Int) ^ 31 ≤ 2 ^ n := by exact_mod_cast Nat.pow_le_pow_right (by omega) h
  rcases le_or_gt 0 a.toInt with h0 | h0
  · rw [Int.ediv_eq_zero_of_lt h0 (by omega), Int.ediv_eq_zero_of_lt h0 (by omega)]
  · have key {m : Int} (hm : 2 ^ 31 ≤ m) : a.toInt / m = -1 := by
      rw [Int.ediv_eq_iff_of_pos (by omega)]
      omega
    rw [key hp, key le_rfl]

theorem sar32_eq (a k : Word) : sar32 a k = BitVec.ofInt 32 (a.toInt / 2 ^ k.toNat) := by
  have hs (n : Nat) : a.sshiftRight n = BitVec.ofInt 32 (a.toInt / 2 ^ n) := by
    simp [BitVec.sshiftRight, Int.shiftRight_eq_div_pow]
  unfold sar32
  rw [hs]
  rcases le_or_gt 31 k.toNat with h | h
  · rw [min_eq_right h, toInt_div_two_pow a h]
  · rw [min_eq_left h.le]

theorem popcount_eq (a : Word) : popcount a = BitVec.ofNat 32 ((List.range 32).filter fun k => a.getLsbD k).length := by
  rw [popcount, List.countP_eq_length_filter]

theorem clz32_eq (a : Word) : clz32 a = if a = 0 then 32 else BitVec.ofNat 32 (31 - a.toNat.log2) := by
  unfold clz32
  split
  next h => subst h; rfl
  next h =>
    have h0 : a.toNat ≠ 0 := fun h' => h (BitVec.eq_of_toNat_eq h')
    have hlt : a.toNat.log2 < 32 := (Nat.log2_lt h0).mpr a.isLt
    have hfind : (List.range 32).find? (fun k => a.getLsbD (31 - k)) = some (31 - a.toNat.log2) := by
      rw [List.find?_range_eq_some]
      refine ⟨?_, by simp; omega, fun j hj => ?_⟩
      · rw [show 31 - (31 - a.toNat.log2) = a.toNat.log2 by omega]
        exact Nat.testBit_log2 h0
      · have hlow : a.toNat < 2 ^ (31 - j) := Nat.lt_log2_self.trans_le (Nat.pow_le_pow_right (by omega) (by omega))
        simpa [BitVec.getLsbD] using Nat.testBit_lt_two_pow hlow
    rw [hfind]
    rfl

end Sys2Proof.Laws
end

section
/-! SUPPORT. Group arithmetic and V2G (R184, R186 to R191). -/

namespace Sys2Proof.Laws

open Sys2Proof.Machine Sys2Proof.Safety

theorem flag_eq {p : Prop} [Decidable p] {b : Bool} (h : b = decide p) : flag b = if p then 1 else 0 := by
  simp only [flag, h, decide_eq_true_eq]

/-- A group instruction is of the frame of R184 with the function f, and f is the one that the statement names. -/
def WordForm (p : (Opnd → Instr) × (Word → Word → Word)) (f : Word → Word → Word) : Prop :=
  (∀ o s, exec (p.1 o) s = group2 (p.1 o) o f s) ∧ ∀ a b, f a b = p.2 a b

theorem WordForm.exec {p : (Opnd → Instr) × (Word → Word → Word)} {f : Word → Word → Word} (hp : WordForm p f) {o : Opnd} {s : State}
    {c : Issue} (h : Ready s c (p.1 o)) :
    exec (p.1 o) s = .next (s.retire c (p.1 o) (c.wave.writeG c.gang.slices o.d.toNat
      (p.2 (c.wave.readG o.a.toNat) (c.wave.readG o.b.toNat)))) := by
  obtain ⟨he, hf⟩ := hp
  simp only [he, group2, issue_plain h, hf]

theorem wordForm_of_mem_A : ∀ p ∈ groupWordsA, ∃ f, WordForm p f := by
  intro p hp
  simp only [groupWordsA, List.mem_cons, List.not_mem_nil, or_false] at hp
  rcases hp with rfl | rfl | rfl | rfl | rfl | rfl | rfl | rfl | rfl | rfl | rfl | rfl | rfl | rfl | rfl | rfl
  · exact ⟨(· + ·), fun _ _ => rfl, add_eq_ofNat⟩
  · exact ⟨(· - ·), fun _ _ => rfl, sub_eq_ofInt_toNat⟩
  · exact ⟨(· * ·), fun _ _ => rfl, mul_eq_ofNat⟩
  · exact ⟨mulHighS, fun _ _ => rfl, mulHighS_eq⟩
  · exact ⟨mulHighN, fun _ _ => rfl, mulHighN_eq⟩
  · exact ⟨minS, fun _ _ => rfl, minS_eq⟩
  · exact ⟨minN, fun _ _ => rfl, minN_eq⟩
  · exact ⟨maxS, fun _ _ => rfl, maxS_eq⟩
  · exact ⟨maxN, fun _ _ => rfl, maxN_eq⟩
  · exact ⟨(· &&& ·), fun _ _ => rfl, fun _ _ => rfl⟩
  · exact ⟨(· ||| ·), fun _ _ => rfl, fun _ _ => rfl⟩
  · exact ⟨(· ^^^ ·), fun _ _ => rfl, fun _ _ => rfl⟩
  · exact ⟨fun a _ => ~~~a, fun _ _ => rfl, fun _ _ => rfl⟩
  · exact ⟨shl32, fun _ _ => rfl, shl32_eq⟩
  · exact ⟨shr32, fun _ _ => rfl, shr32_eq⟩
  · exact ⟨sar32, fun _ _ => rfl, sar32_eq⟩

theorem wordForm_of_mem_B : ∀ p ∈ groupWordsB, ∃ f, WordForm p f := by
  intro p hp
  simp only [groupWordsB, List.mem_cons, List.not_mem_nil, or_false] at hp
  rcases hp with rfl | rfl | rfl | rfl | rfl | rfl | rfl | rfl
  · exact ⟨fun a _ => popcount a, fun _ _ => rfl, fun a _ => popcount_eq a⟩
  · exact ⟨fun a _ => clz32 a, fun _ _ => rfl, fun a _ => clz32_eq a⟩
  · exact ⟨fun a b => flag (a == b), fun _ _ => rfl, fun a b => flag_eq (beq_eq_decide a b)⟩
  · exact ⟨fun a b => flag (a != b), fun _ _ => rfl, fun a b => by simp [flag]⟩
  · exact ⟨fun a b => flag (ltS a b), fun _ _ => rfl, fun a b => flag_eq (BitVec.slt_eq_decide ..)⟩
  · exact ⟨fun a b => flag (leS a b), fun _ _ => rfl, fun a b => flag_eq (BitVec.sle_eq_decide ..)⟩
  · exact ⟨fun a b => flag (a < b), fun _ _ => rfl, fun a b => flag_eq rfl⟩
  · exact ⟨fun a b => flag (a ≤ b), fun _ _ => rfl, fun a b => flag_eq rfl⟩

theorem wordForm_of_mem : ∀ p ∈ groupWords, ∃ f, WordForm p f :=
  fun p hp => (List.mem_append.mp hp).elim (wordForm_of_mem_A p) (wordForm_of_mem_B p)

theorem groupImms_results : ∀ p ∈ groupImms, ∀ (o : OpndI) (s : State) (c : Issue), Ready s c (p.1 o) →
    exec (p.1 o) s = .next (s.retire c (p.1 o) (c.wave.writeG c.gang.slices o.d.toNat
      (p.2 (c.wave.readG o.a.toNat) (o.imm.signExtend 32)))) := by
  intro p hp o s c h
  simp only [groupImms, List.mem_cons, List.not_mem_nil, or_false] at hp
  rcases hp with rfl | rfl | rfl
  · simp only [← add_eq_ofNat]
    exact issue_plain (i := .gaddi o) h
  · exact issue_plain (i := .gandi o) h
  · exact issue_plain (i := .gori o) h

theorem groupPairs_results : ∀ p ∈ groupPairs, ∀ (o : Opnd) (s : State) (c : Issue), Ready s c (p.1 o) →
    exec (p.1 o) s = .next (s.retire c (p.1 o) (c.wave.writeG2 c.gang.slices o.d.toNat
      (p.2 (c.wave.readG2 o.a.toNat) (c.wave.readG2 o.b.toNat)))) := by
  intro p hp o s c h
  simp only [groupPairs, List.mem_cons, List.not_mem_nil, or_false] at hp
  rcases hp with rfl | rfl
  · simp only [← add_eq_ofNat]
    exact issue_plain (i := .gadd64 o) h
  · simp only [← sub_eq_ofInt]
    exact issue_plain (i := .gsub64 o) h

theorem exec_gsel {o : Opnd} {s : State} {c : Issue} (h : Ready s c (.gsel o)) :
    exec (.gsel o) s = .next (s.retire c (.gsel o) (c.wave.writeG c.gang.slices o.d.toNat
      (if c.wave.readG o.ext.c.toNat = 0 then c.wave.readG o.b.toNat else c.wave.readG o.a.toNat))) := by
  refine (issue_plain (i := .gsel o) h).trans ?_
  by_cases h0 : c.wave.readG o.ext.c.toNat = 0 <;> simp [h0]

/-- V2G of a word x: to D at once for the wave's only gang, else as a landing (R191). -/
theorem v2g_word {o : Opnd} {s : State} {c : Issue} {mk : Opnd → Instr} {x : Word}
    (hx : (mk = .v2g ∧ (∀ l rest, LaneMask.lanes (c.gang.slices.lanes &&& c.wave.act) = l :: rest → x = (c.wave.readV o.a.toNat).at_ l) ∧
        (LaneMask.lanes (c.gang.slices.lanes &&& c.wave.act) = [] → x = 0)) ∨
      (mk = .v2gLane ∧ x = (c.wave.readV o.a.toNat).at_ (o.ext.imm.toNat % 128)))
    (h : Ready s c (mk o)) : exec (mk o) s = .next (v2gWrite (mk o) o c x s) := by
  rcases hx with ⟨rfl, hcons, hnil⟩ | ⟨rfl, rfl⟩
  · refine (issue_plain (i := .v2g o) h).trans ?_
    cases hl : LaneMask.lanes (c.gang.slices.lanes &&& c.wave.act) with
    | nil => simp only [Issue.activeGroup, Issue.cohort, hl, hnil hl]
    | cons l rest => simp only [Issue.activeGroup, Issue.cohort, hl, hcons l rest hl]
  · exact issue_plain (i := .v2gLane o) h

/-- Settles O21: each form is a frame of R184 or R187 around one function of words, and the words agree. -/
theorem groupResults : Obligations.GroupResults := by
  refine ⟨⟨fun p hp o s c h => (wordForm_of_mem p hp).elim fun _ hf => hf.exec h,
    groupImms_results, groupPairs_results, fun o s c h => issue_plain (i := .gmovl o) h,
    fun o s c h => issue_plain (i := .gaddl o) h, fun o s c h => exec_gsel h⟩, fun o s c mk x hx h => ⟨fun hg => ?_, fun hg => ?_⟩⟩
  · rw [v2g_word hx h, v2gWrite, if_pos hg]
  · rw [v2g_word hx h]
    simp only [v2gWrite, if_neg hg]
    rfl

end Sys2Proof.Laws
end

section
/-! SUPPORT. The flags that results raise are exception flags of FP_CTRL (R113, R116 to R119). -/

namespace Sys2Proof.Laws

open Sys2Proof.Machine Sys2Proof.Safety

/-- The word sets no bit outside the exception flags of FP_CTRL (R113). -/
def Flagged (x : Word) : Prop := x &&& ~~~fpFlags = 0#32

@[simp] theorem flagged_zero : Flagged 0#32 := rfl
@[simp] theorem flagged_NV : Flagged NV := rfl
@[simp] theorem flagged_DZ : Flagged DZ := rfl
@[simp] theorem flagged_OF : Flagged OF := rfl
@[simp] theorem flagged_UF : Flagged UF := rfl
@[simp] theorem flagged_NX : Flagged NX := rfl
@[simp] theorem flagged_SATF : Flagged SATF := rfl
@[simp] theorem flagged_LOVF : Flagged LOVF := rfl

@[simp] theorem flagged_or {x y : Word} : Flagged (x ||| y) ↔ Flagged x ∧ Flagged y := by
  simp only [Flagged, BitVec.and_comm _ (~~~fpFlags), BitVec.and_or_distrib_left, BitVec.or_eq_zero_iff]

@[simp] theorem flagged_ite {p : Prop} [Decidable p] {x y : Word} (hx : Flagged x) (hy : Flagged y) : Flagged (if p then x else y) := by
  split
  · exact hx
  · exact hy

/-! ## Rounding -/

@[simp] theorem flagged_nanRes (f : FloatFmt) (b : Bool) : Flagged (f.nanRes b).flags := by
  simp [FloatFmt.nanRes]

@[simp] theorem flagged_roundMag (f : FloatFmt) (mode : RMode) (ftz neg : Bool) (m : Rat) : Flagged (f.roundMag mode ftz neg m).flags := by
  unfold FloatFmt.roundMag
  extract_lets
  split_ifs <;> simp

@[simp] theorem flagged_roundRat (f : FloatFmt) (mode : RMode) (ftz zn : Bool) (q : Rat) : Flagged (f.roundRat mode ftz zn q).flags := by
  unfold FloatFmt.roundRat
  split <;> simp

@[simp] theorem flagged_addVal (f : FloatFmt) (mode : RMode) (ftz : Bool) (x y : FVal) : Flagged (f.addVal mode ftz x y).flags := by
  unfold FloatFmt.addVal
  split
  · simp
  · split
    · split <;> simp
    all_goals simp

@[simp] theorem flagged_mulRound (f : FloatFmt) (mode : RMode) (ftz : Bool) (x y : FVal) : Flagged (f.mulRound mode ftz x y).flags := by
  unfold FloatFmt.mulRound
  split
  · simp
  · split <;> simp

@[simp] theorem flagged_fmaRound (f : FloatFmt) (mode : RMode) (ftz n : Bool) (x y z : FVal) :
    Flagged (f.fmaRound mode ftz n x y z).flags := by
  unfold FloatFmt.fmaRound
  extract_lets
  split
  split_ifs <;> simp

@[simp] theorem flagged_dotRound (mode : RMode) (ftz : Bool) (a b c d z : FVal) : Flagged (dotRound mode ftz a b c d z).flags := by
  unfold dotRound
  extract_lets
  split
  split
  extract_lets infs
  clear_value infs
  split_ifs
  · simp
  · simp
  · split
    · split <;> simp
    · split <;> simp

@[simp] theorem flagged_pick (f : FloatFmt) (ftz st mx : Bool) (a b : Nat) : Flagged (f.pick ftz st mx a b).flags := by
  unfold FloatFmt.pick
  extract_lets x y fl
  have : Flagged fl := by simp [fl]
  split_ifs <;> simpa

/-! ## Conversions -/

@[simp] theorem flagged_narrow (f : FloatFmt) (mode : RMode) (ftz sat : Bool) (x : FVal) : Flagged (f.narrow mode ftz sat x).flags := by
  unfold FloatFmt.narrow
  split
  · simp
  · split
    · simp
    · split <;> simp
  · split
    · simp
    · split
      · split
        · simp
        · split
          · split <;> simp
          · simp
      · simp

@[simp] theorem flagged_widen (f : FloatFmt) (ftz : Bool) (x : FVal) : Flagged (f.widen ftz x).flags := by
  unfold FloatFmt.widen
  split
  · simp
  · simp
  · split <;> simp

@[simp] theorem flagged_toInteger (mode : RMode) (lo hi : Int) (x : FVal) : Flagged (toInteger mode lo hi x).2 := by
  unfold toInteger
  split
  · simp
  · simp
  · extract_lets
    split_ifs <;> simp

@[simp] theorem flagged_frnd (mode : RMode) (e : FpEnv) (a : Nat) : Flagged (frnd mode e a).flags := by
  unfold frnd
  split <;> simp

@[simp] theorem flagged_ffract (e : FpEnv) (a : Nat) : Flagged (ffract e a).flags := by
  unfold ffract
  split <;> simp

/-- The flags of both halves are those of either. -/
theorem flagged_halves {f : Nat → Nat → FRes} (h : ∀ a b, Flagged (f a b).flags) (a b : Nat) : Flagged (halves f a b).flags :=
  flagged_or.mpr ⟨h .., h ..⟩

/-! ## The special functions -/

@[simp] theorem flagged_boundedRes (n : Nat) (ftz : Bool) (w : Word) (v b lo hi : Rat) : Flagged (boundedRes n ftz w v b lo hi).flags := by
  unfold boundedRes
  extract_lets
  split
  · split <;> simp
  · simp

@[simp] theorem flagged_frcp (mode : RMode) (ftz : Bool) (x : FVal) : Flagged (frcp mode ftz x).flags := by
  unfold frcp
  split
  · simp
  · simp
  · split <;> simp

@[simp] theorem flagged_fsqrt (mode : RMode) (ftz : Bool) (x : FVal) : Flagged (fsqrt mode ftz x).flags := by
  unfold fsqrt
  split
  · simp
  · split <;> simp
  · extract_lets
    split_ifs <;> simp

@[simp] theorem flagged_frsq (ftz : Bool) (w : Word) (x : FVal) : Flagged (frsq ftz w x).flags := by
  unfold frsq
  split
  · simp
  · split <;> simp
  · extract_lets v r
    split_ifs
    · simp
    · simp
    · split
      · split <;> simp [r]
      · simp [r]

@[simp] theorem flagged_fexp2 (ftz : Bool) (w : Word) (x : FVal) : Flagged (fexp2 ftz w x).flags := by
  unfold fexp2
  split
  · simp
  · split <;> simp
  · extract_lets
    split_ifs <;> simp

@[simp] theorem flagged_flog2 (ftz : Bool) (w : Word) (x : FVal) : Flagged (flog2 ftz w x).flags := by
  unfold flog2
  split
  · simp
  · split <;> simp
  · extract_lets
    split_ifs <;> simp

@[simp] theorem flagged_fsin (ftz : Bool) (w : Word) (x : FVal) : Flagged (fsin ftz w x).flags := by
  unfold fsin
  split
  · simp
  · simp
  · extract_lets
    split <;> simp

@[simp] theorem flagged_fcos (ftz : Bool) (w : Word) (x : FVal) : Flagged (fcos ftz w x).flags := by
  unfold fcos
  split
  · simp
  · simp
  · extract_lets
    split <;> simp

@[simp] theorem flagged_ftanh (ftz : Bool) (w : Word) (x : FVal) : Flagged (ftanh ftz w x).flags := by
  unfold ftanh
  split
  · simp
  · simp
  · extract_lets
    split <;> simp

@[simp] theorem flagged_fsigm (ftz : Bool) (w : Word) (x : FVal) : Flagged (fsigm ftz w x).flags := by
  unfold fsigm
  split
  · simp
  · simp
  · extract_lets
    split <;> simp

/-! ## Folds and lattices -/

/-- A fold of lanes raises what its steps raise. -/
theorem flagged_foldLanes {step : FoldStep} (h : ∀ a b, Flagged (step a b).flags) (m : LaneMask) (val : Nat → Nat) (empty lo hi : Nat) :
    Flagged (foldLanes m val step empty lo hi).flags := by
  have hfold (ls : List Nat) (r : FRes) (hr : Flagged r.flags) : Flagged (ls.foldl (fun acc j =>
      let x := step acc.code (val j)
      ({ code := x.code, flags := acc.flags ||| x.flags } : FRes)) r).flags := by
    induction ls generalizing r with
    | nil => exact hr
    | cons l ls ih => exact ih _ (flagged_or.mpr ⟨hr, h ..⟩)
  unfold foldLanes
  split
  · simp
  · exact hfold _ _ flagged_zero

@[simp] theorem flagged_latFlags (xs : List FVal) (y : List Rat) (p : Point) : Flagged (latFlags xs y p) := by
  simp [latFlags]

@[simp] theorem flagged_qlatX2 (xs : List FVal) (e : Nat) : Flagged (qlatX2 xs e).flags := by
  unfold qlatX2
  split <;> simp

@[simp] theorem flagged_qlatX4 (xs : List FVal) (g : Nat) : Flagged (qlatX4 xs g).flags := by
  unfold qlatX4
  split
  · split <;> simp
  · simp

@[simp] theorem flagged_laterrOne (e : FpEnv) (xs : List FVal) (scale : Option Rat) (vs : List (Option Rat)) :
    Flagged (laterrOne e xs scale vs).flags := by
  unfold laterrOne
  extract_lets fl
  split <;> simp [fl]

end Sys2Proof.Laws
end

section
/-! SUPPORT. The frame of the instructions that raise flags (R155, R163, R169). -/

namespace Sys2Proof.Laws

open Sys2Proof.Machine Sys2Proof.Safety

/-! ## FP_CTRL -/

/-- Raising flags clears none (R113). -/
theorem or_or_self (fp x : Word) : fp ||| (fp ||| x) = fp ||| x := by
  rw [← BitVec.or_assoc, BitVec.or_self]

/-- Raising exception flags leaves the rest of FP_CTRL. -/
theorem or_flagged {fp x : Word} (h : Flagged x) : (fp ||| x) &&& ~~~fpFlags = fp &&& ~~~fpFlags := by
  rw [BitVec.and_comm, BitVec.and_or_distrib_left, BitVec.and_comm, BitVec.and_comm _ x, h, BitVec.or_zero]

/-- The flags of a list of results are those of its elements. -/
theorem flagged_foldl {α : Type} {f : α → Word} {xs : List α} (h : ∀ x ∈ xs, Flagged (f x)) {m : Word} (hm : Flagged m) :
    Flagged (xs.foldl (fun m x => m ||| f x) m) := by
  induction xs generalizing m with
  | nil => exact hm
  | cons x xs ih =>
    exact ih (fun y hy => h y (List.mem_cons_of_mem x hy)) (flagged_or.mpr ⟨hm, h x List.mem_cons_self⟩)

/-- The flags that a floating-point write raises. -/
theorem fp_writeF (w : Wave) (d : Nat) (m : LaneMask) (f : Nat → FRes) (hf : ∀ l, Flagged (f l).flags) :
    ∃ x, Flagged x ∧ (w.writeF d m f).fp = w.fp ||| x := by
  refine ⟨(m.lanes.map fun l => (l, f l)).foldl (fun m x => m ||| x.2.flags) 0, flagged_foldl (fun x hx => ?_) flagged_zero, rfl⟩
  obtain ⟨l, -, rfl⟩ := List.mem_map.mp hx
  exact hf l

/-! ## The instructions' own results -/

@[simp] theorem flagged_addF (e : FpEnv) (a b : Nat) : Flagged (addF e a b).flags := flagged_addVal ..
@[simp] theorem flagged_subF (e : FpEnv) (a b : Nat) : Flagged (subF e a b).flags := flagged_addVal ..
@[simp] theorem flagged_mulF (e : FpEnv) (a b : Nat) : Flagged (mulF e a b).flags := flagged_mulRound ..
@[simp] theorem flagged_fmaF (p q : Bool) (e : FpEnv) (a b k : Nat) : Flagged (fmaF p q e a b k).flags := flagged_fmaRound ..
@[simp] theorem flagged_hadd (f : FloatFmt) (e : FpEnv) (a b : Nat) : Flagged (hadd f e a b).flags :=
  flagged_halves (fun _ _ => flagged_addVal ..) a b
@[simp] theorem flagged_hmul (f : FloatFmt) (e : FpEnv) (a b : Nat) : Flagged (hmul f e a b).flags :=
  flagged_halves (fun _ _ => flagged_mulRound ..) a b
@[simp] theorem flagged_hpick (f : FloatFmt) (mx : Bool) (e : FpEnv) (a b : Nat) : Flagged (hpick f mx e a b).flags :=
  flagged_halves (fun _ _ => flagged_pick ..) a b
@[simp] theorem flagged_hfma (f : FloatFmt) (e : FpEnv) (a b k : Nat) : Flagged (hfma f e a b k).flags :=
  flagged_or.mpr ⟨flagged_fmaRound .., flagged_fmaRound ..⟩
@[simp] theorem flagged_hdot (f : FloatFmt) (e : FpEnv) (a b k : Nat) : Flagged (hdot f e a b k).flags := flagged_dotRound ..
@[simp] theorem flagged_cvtNarrow (f : FloatFmt) (sat : Bool) (e : FpEnv) (a : Nat) : Flagged (cvtNarrow f sat e a).flags :=
  flagged_narrow ..
@[simp] theorem flagged_cvtWiden (f : FloatFmt) (e : FpEnv) (a : Nat) : Flagged (cvtWiden f e a).flags := flagged_widen ..
@[simp] theorem flagged_cvtInt (lo hi : Int) (e : FpEnv) (a : Nat) : Flagged (cvtInt lo hi e a).flags := flagged_toInteger ..

/-! ## What the forms write -/

/-- The form writes D in lanes that are active, with results that raise exception flags. -/
def WritesResults (x : Opnd → Instr) : Prop :=
  ∀ o s, ∃ (m : Issue → LaneMask) (f : Issue → Nat → FRes), Writes (x o) s (fun c => c.wave.writeF o.d.toNat (m c) (f c)) ∧
    (∀ c l, l < 96 → (c.active o.ext).getLsbD l = false → (m c).getLsbD l = false) ∧ ∀ c l, Flagged (f c l).flags

section
variable {x : Opnd → Instr}

theorem writesResults_of_laneF (f : Opnd → FpEnv → Wave → Nat → FRes) (he : ∀ o s, exec (x o) s = laneF (x o) o (f o) s)
    (hf : ∀ o e w l, Flagged (f o e w l).flags) : WritesResults x :=
  fun o s => ⟨fun c => c.active o.ext, fun c => f o (fpEnv c.wave o.ext) c.wave, he o s, fun _ _ _ h => h, fun _ _ => hf ..⟩

theorem writesResults_of_laneF2 (f : FpEnv → Nat → Nat → FRes) (he : ∀ o s, exec (x o) s = laneF2 (x o) o f s)
    (hf : ∀ e a b, Flagged (f e a b).flags) : WritesResults x :=
  writesResults_of_laneF _ he fun _ _ _ _ => hf ..

theorem writesResults_of_laneF3 (f : FpEnv → Nat → Nat → Nat → FRes) (he : ∀ o s, exec (x o) s = laneF3 (x o) o f s)
    (hf : ∀ e a b k, Flagged (f e a b k).flags) : WritesResults x :=
  writesResults_of_laneF _ he fun _ _ _ _ => hf ..

theorem writesResults_of_laneCvt (f : Opnd → FpEnv → Nat → FRes) (he : ∀ o s, exec (x o) s = laneCvt (x o) o (f o) s)
    (hf : ∀ o e a, Flagged (f o e a).flags) : WritesResults x :=
  writesResults_of_laneF _ he fun _ _ _ _ => hf ..

theorem writesResults_of_laneSfu (f : FpEnv → Word → FVal → FRes) (he : ∀ o s, exec (x o) s = laneSfu (x o) o f s)
    (hf : ∀ e w v, Flagged (f e w v).flags) : WritesResults x :=
  writesResults_of_laneF _ he fun _ _ _ _ => hf ..

theorem writesResults_of_reduceLanes (val : FpEnv → Nat → Nat) (step : FpEnv → FoldStep)
    (he : ∀ o s, exec (x o) s = reduceLanes (x o) o val step s) (hf : ∀ e a b, Flagged (step e a b).flags) : WritesResults x := by
  refine fun o s => ⟨fun c => c.active o.ext, _, he o s, fun _ _ _ h => h, fun c l => ?_⟩
  split
  next y hy =>
    obtain ⟨k, -, rfl⟩ := List.mem_map.mp (List.mem_of_find?_eq_some hy)
    exact flagged_foldLanes (hf _) ..
  next => exact flagged_zero

theorem writesResults_of_scanLanes (val : FpEnv → Nat → Nat) (step : FpEnv → FoldStep)
    (he : ∀ o s, exec (x o) s = scanLanes (x o) o val step s) (hf : ∀ e a b, Flagged (step e a b).flags) : WritesResults x :=
  fun o s => ⟨fun c => c.active o.ext, _, he o s, fun _ _ _ h => h, fun _ _ => flagged_foldLanes (hf _) ..⟩

/-- An acting octet's leader is active (R28). -/
theorem writesResults_of_latLeader (f : Opnd → FpEnv → Wave → Nat → FRes) (he : ∀ o s, exec (x o) s = latLeader (x o) o (f o) s)
    (hf : ∀ o e w l, Flagged (f o e w l).flags) : WritesResults x := by
  refine fun o s => ⟨fun c => leaders (c.octets o.ext), _, he o s, fun c l hl h => ?_, fun _ _ => hf ..⟩
  change (laneSet _).getLsbD l = false
  rw [getLsbD_laneSet, Bool.and_eq_false_iff]
  refine .inr (decide_eq_false fun hm => ?_)
  obtain ⟨k, hk, rfl⟩ := List.mem_map.mp hm
  obtain ⟨-, -, -, hact⟩ := mem_octets.mp hk
  rw [h] at hact
  cases hact

end

theorem writesResults_of_mem_fpPairs : ∀ x ∈ fpPairs.map Prod.fst, WritesResults x := by
  simp only [fpPairs, List.forall_mem_map, List.forall_mem_cons,
    List.not_mem_nil, false_implies, implies_true, and_true]
  and_intros
  · exact writesResults_of_laneF2 addF (fun _ _ => rfl) fun _ _ _ => by simp
  · exact writesResults_of_laneF2 subF (fun _ _ => rfl) fun _ _ _ => by simp
  · exact writesResults_of_laneF2 mulF (fun _ _ => rfl) fun _ _ _ => by simp
  · exact writesResults_of_laneF2 (fun e => f32.pick e.ftz false false) (fun _ _ => rfl) fun _ _ _ => by simp
  · exact writesResults_of_laneF2 (fun e => f32.pick e.ftz false true) (fun _ _ => rfl) fun _ _ _ => by simp
  · exact writesResults_of_laneF2 (fun e => f32.pick e.ftz true false) (fun _ _ => rfl) fun _ _ _ => by simp
  · exact writesResults_of_laneF2 (fun e => f32.pick e.ftz true true) (fun _ _ => rfl) fun _ _ _ => by simp
  · exact writesResults_of_laneF2 (hadd f16) (fun _ _ => rfl) fun _ _ _ => by simp
  · exact writesResults_of_laneF2 (hmul f16) (fun _ _ => rfl) fun _ _ _ => by simp
  · exact writesResults_of_laneF2 (hpick f16 false) (fun _ _ => rfl) fun _ _ _ => by simp
  · exact writesResults_of_laneF2 (hpick f16 true) (fun _ _ => rfl) fun _ _ _ => by simp
  · exact writesResults_of_laneF2 (hadd bf16) (fun _ _ => rfl) fun _ _ _ => by simp
  · exact writesResults_of_laneF2 (hmul bf16) (fun _ _ => rfl) fun _ _ _ => by simp
  · exact writesResults_of_laneF2 (hpick bf16 false) (fun _ _ => rfl) fun _ _ _ => by simp
  · exact writesResults_of_laneF2 (hpick bf16 true) (fun _ _ => rfl) fun _ _ _ => by simp

theorem writesResults_of_mem_fpTriples : ∀ x ∈ fpTriples.map Prod.fst, WritesResults x := by
  simp only [fpTriples, List.forall_mem_map, List.forall_mem_cons,
    List.not_mem_nil, false_implies, implies_true, and_true]
  and_intros
  · exact writesResults_of_laneF3 (fmaF false false) (fun _ _ => rfl) fun _ _ _ _ => by simp
  · exact writesResults_of_laneF3 (fmaF false true) (fun _ _ => rfl) fun _ _ _ _ => by simp
  · exact writesResults_of_laneF3 (fmaF true false) (fun _ _ => rfl) fun _ _ _ _ => by simp
  · exact writesResults_of_laneF3 (fmaF true true) (fun _ _ => rfl) fun _ _ _ _ => by simp
  · exact writesResults_of_laneF3 (hfma f16) (fun _ _ => rfl) fun _ _ _ _ => by simp
  · exact writesResults_of_laneF3 (hfma bf16) (fun _ _ => rfl) fun _ _ _ _ => by simp
  · exact writesResults_of_laneF3 (hdot f16) (fun _ _ => rfl) fun _ _ _ _ => by simp
  · exact writesResults_of_laneF3 (hdot bf16) (fun _ _ => rfl) fun _ _ _ _ => by simp

theorem writesResults_of_mem_fpSingles : ∀ x ∈ fpSingles.map Prod.fst, WritesResults x := by
  simp only [fpSingles, fpSinglesA, fpSinglesB, List.forall_mem_append, List.forall_mem_map, List.forall_mem_cons,
    List.not_mem_nil, false_implies, implies_true, and_true]
  and_intros
  · exact writesResults_of_laneCvt (fun _ => frnd 0) (fun _ _ => rfl) fun _ _ _ => by simp
  · exact writesResults_of_laneCvt (fun _ => frnd 1) (fun _ _ => rfl) fun _ _ _ => by simp
  · exact writesResults_of_laneCvt (fun _ => frnd 2) (fun _ _ => rfl) fun _ _ _ => by simp
  · exact writesResults_of_laneCvt (fun _ => frnd 3) (fun _ _ => rfl) fun _ _ _ => by simp
  · exact writesResults_of_laneCvt (fun _ => ffract) (fun _ _ => rfl) fun _ _ _ => by simp
  · exact writesResults_of_laneCvt (fun _ e a => f32.roundRat e.mode e.ftz false ((BitVec.ofNat 32 a).toInt : Rat)) (fun _ _ => rfl) fun _ _ _ => by simp
  · exact writesResults_of_laneCvt (fun _ e a => f32.roundRat e.mode e.ftz false (a : Rat)) (fun _ _ => rfl) fun _ _ _ => by simp
  · exact writesResults_of_laneCvt (fun _ => cvtInt (-2147483648) 2147483647) (fun _ _ => rfl) fun _ _ _ => by simp
  · exact writesResults_of_laneCvt (fun _ => cvtInt 0 4294967295) (fun _ _ => rfl) fun _ _ _ => by simp
  · exact writesResults_of_laneCvt (fun _ => cvtNarrow f16 false) (fun _ _ => rfl) fun _ _ _ => by simp
  · exact writesResults_of_laneCvt (fun _ => cvtNarrow bf16 false) (fun _ _ => rfl) fun _ _ _ => by simp
  · exact writesResults_of_laneCvt (fun _ => cvtWiden f16) (fun _ _ => rfl) fun _ _ _ => by simp
  · exact writesResults_of_laneCvt (fun _ => cvtWiden bf16) (fun _ _ => rfl) fun _ _ _ => by simp
  · exact writesResults_of_laneCvt (fun o => cvtNarrow e4m3 (cvtSat o.ext true)) (fun _ _ => rfl) fun _ _ _ => by simp
  · exact writesResults_of_laneCvt (fun o e => cvtNarrow e5m2 (cvtSat o.ext e.e5sat) e) (fun _ _ => rfl) fun _ _ _ => by simp
  · exact writesResults_of_laneCvt (fun _ => cvtWiden e4m3) (fun _ _ => rfl) fun _ _ _ => by simp
  · exact writesResults_of_laneCvt (fun _ => cvtWiden e5m2) (fun _ _ => rfl) fun _ _ _ => by simp
  · exact writesResults_of_laneCvt (fun _ => cvtNarrow e2m1 true) (fun _ _ => rfl) fun _ _ _ => by simp
  · exact writesResults_of_laneCvt (fun _ => cvtWiden e2m1) (fun _ _ => rfl) fun _ _ _ => by simp

theorem writesResults_of_mem_fpSpecials : ∀ x ∈ fpSpecials.map Prod.fst, WritesResults x := by
  simp only [fpSpecials, List.forall_mem_map, List.forall_mem_cons,
    List.not_mem_nil, false_implies, implies_true, and_true]
  and_intros
  · exact writesResults_of_laneSfu (fun e _ x => frcp e.mode e.ftz x) (fun _ _ => rfl) fun _ _ _ => by simp
  · exact writesResults_of_laneSfu (fun e _ x => fsqrt e.mode e.ftz x) (fun _ _ => rfl) fun _ _ _ => by simp
  · exact writesResults_of_laneSfu (fun e w x => frsq e.ftz w x) (fun _ _ => rfl) fun _ _ _ => by simp
  · exact writesResults_of_laneSfu (fun e w x => fexp2 e.ftz w x) (fun _ _ => rfl) fun _ _ _ => by simp
  · exact writesResults_of_laneSfu (fun e w x => flog2 e.ftz w x) (fun _ _ => rfl) fun _ _ _ => by simp
  · exact writesResults_of_laneSfu (fun e w x => fsin e.ftz w x) (fun _ _ => rfl) fun _ _ _ => by simp
  · exact writesResults_of_laneSfu (fun e w x => fcos e.ftz w x) (fun _ _ => rfl) fun _ _ _ => by simp
  · exact writesResults_of_laneSfu (fun e w x => ftanh e.ftz w x) (fun _ _ => rfl) fun _ _ _ => by simp
  · exact writesResults_of_laneSfu (fun e w x => fsigm e.ftz w x) (fun _ _ => rfl) fun _ _ _ => by simp

theorem writesResults_of_mem_laneFolds : ∀ x ∈ laneFolds.map Prod.fst, WritesResults x := by
  simp only [laneFolds, List.forall_mem_map, List.forall_mem_cons,
    List.not_mem_nil, false_implies, implies_true, and_true]
  and_intros
  · exact writesResults_of_reduceLanes valInt stepAddS (fun _ _ => rfl) fun _ _ _ => by simp [stepAddS]
  · exact writesResults_of_reduceLanes valF stepAddF (fun _ _ => rfl) fun _ _ _ => by simp [stepAddF]
  · exact writesResults_of_reduceLanes valInt stepMinS (fun _ _ => rfl) fun _ _ _ => by simp [stepMinS]
  · exact writesResults_of_reduceLanes valInt stepMaxS (fun _ _ => rfl) fun _ _ _ => by simp [stepMaxS]
  · exact writesResults_of_reduceLanes valF stepMinF (fun _ _ => rfl) fun _ _ _ => by simp [stepMinF]
  · exact writesResults_of_reduceLanes valF stepMaxF (fun _ _ => rfl) fun _ _ _ => by simp [stepMaxF]

theorem writesResults_of_mem_laneScans : ∀ x ∈ laneScans.map Prod.fst, WritesResults x := by
  simp only [laneScans, List.forall_mem_map, List.forall_mem_cons,
    List.not_mem_nil, false_implies, implies_true, and_true]
  and_intros
  · exact writesResults_of_scanLanes valInt stepAddS (fun _ _ => rfl) fun _ _ _ => by simp [stepAddS]
  · exact writesResults_of_scanLanes valF stepAddF (fun _ _ => rfl) fun _ _ _ => by simp [stepAddF]

theorem writesResults_of_mem_latticeLeaders : ∀ x ∈ latticeLeaders.map Prod.fst, WritesResults x := by
  refine List.forall_mem_map.mpr fun p hp => writesResults_of_latLeader p.2 ?_ ?_
  all_goals
    simp only [latticeLeaders, List.mem_cons, List.not_mem_nil, or_false] at hp
  · rcases hp with rfl | rfl | rfl <;> exact fun _ _ => rfl
  · rcases hp with rfl | rfl | rfl
    · exact fun _ _ _ _ => flagged_qlatX2 ..
    · exact fun _ _ _ _ => flagged_qlatX4 ..
    · intro o e w k
      dsimp only
      split <;> exact flagged_laterrOne ..

/-- Each form that sets flags writes results in lanes that are active. -/
theorem writesResults_of_mem_flagForms : ∀ x ∈ flagForms, WritesResults x := by
  simp only [flagForms, List.forall_mem_append]
  exact ⟨⟨⟨⟨⟨⟨writesResults_of_mem_fpPairs, writesResults_of_mem_fpTriples⟩, writesResults_of_mem_fpSingles⟩,
    writesResults_of_mem_fpSpecials⟩, writesResults_of_mem_laneFolds⟩, writesResults_of_mem_laneScans⟩,
    writesResults_of_mem_latticeLeaders⟩

/-- A wave after FCMP: the predicate n written, and NV raised or not (R169). -/
def comparedWave (w : Wave) (n : Nat) (m x : LaneMask) (raised : Bool) : Wave :=
  let u := w.writeP n m x
  { u with fp := if raised then u.fp ||| NV else u.fp }

theorem fp_comparedWave (w : Wave) (n : Nat) (m x : LaneMask) (raised : Bool) :
    ∃ y, Flagged y ∧ (comparedWave w n m x raised).fp = w.fp ||| y := by
  cases raised
  · exact ⟨0, flagged_zero, by simp [comparedWave]⟩
  · exact ⟨NV, flagged_NV, by simp [comparedWave]⟩

theorem comparedWave_eq (w : Wave) (n : Nat) (m x : LaneMask) (raised : Bool) : comparedWave w n m x raised =
    { w with p := (comparedWave w n m x raised).p, pInit := (comparedWave w n m x raised).pInit, fp := (comparedWave w n m x raised).fp } := by
  simp only [comparedWave]
  rw [writeP_eq]

/-- The wave that a compare leaves, once its gang has gone on. -/
theorem advance_eq_of_compare {w u : Wave} (h : u = { w with p := u.p, pInit := u.pInit, fp := u.fp }) (g : Gang) (pc : Addr) :
    u.advance g pc = { w with
      p := (u.advance g pc).p, pInit := (u.advance g pc).pInit, fp := (u.advance g pc).fp
      gangs := (u.advance g pc).gangs, issued := (u.advance g pc).issued, roundIssued := (u.advance g pc).roundIssued } := by
  rw [h]; rfl

/-- FCMP writes the predicate D[2:0] in active lanes, and may raise NV (R169). -/
theorem fpCompares_write : ∀ x ∈ fpCompares.map Prod.fst, ∀ o s, ∃ (f : Issue → LaneMask) (raised : Issue → Bool),
    Writes (x o) s fun c => comparedWave c.wave (o.d.toNat % 8) (c.active o.ext) (f c) (raised c) := by
  simp only [fpCompares, List.forall_mem_map, List.forall_mem_cons, List.not_mem_nil, false_implies, implies_true, and_true]
  and_intros <;> exact fun _ _ => ⟨_, _, rfl⟩

/-- Settles O59: each form comes to one write of results, or of a predicate, and the flags raised are exception flags. -/
theorem flaggedInstructionsKeepTheRest : Obligations.FlaggedInstructionsKeepTheRest := by
  refine ⟨fun x hx o s c h => ?_, fun x hx o s c h => ?_⟩
  · obtain ⟨m, f, hw, hm, hf⟩ := writesResults_of_mem_flagForms x hx o s
    obtain ⟨y, hy, hfp⟩ := fp_writeF c.wave o.d.toNat (m c) (f c) (hf c)
    refine ⟨_, exec_of_writes hw h, rfl, ?_, ?_, fun r => readV_writeV_ne, fun r l hl hl' => readV_writeV_out hl (hm c l hl hl'),
      rest_of_advance _ rfl rfl⟩
    · rw [Wave.advance_fp, hfp, or_or_self]
    · rw [Wave.advance_fp, hfp, or_flagged hy]
  · obtain ⟨f, raised, hw⟩ := fpCompares_write x hx o s
    obtain ⟨y, hy, hfp⟩ := fp_comparedWave c.wave (o.d.toNat % 8) (c.active o.ext) (f c) (raised c)
    refine ⟨_, exec_of_writes hw h, advance_eq_of_compare (comparedWave_eq ..) .., ?_, ?_, fun n => readP_writeP_ne,
      fun n l => readP_writeP_out, rest_of_advance _ (Wave.writeP_ref ..) (Wave.writeP_gangs ..)⟩
    · rw [Wave.advance_fp, hfp, or_or_self]
    · rw [Wave.advance_fp, hfp, or_flagged hy]

end Sys2Proof.Laws
end

section
/-! SUPPORT. Placement, aging, pre-emption, saving, resumption and the start of a phase (R38 to R41, R293 to R295). -/

namespace Sys2Proof.Laws

open Sys2Proof.Machine Sys2Proof.Safety

/-! ## Finding works, crews and graphs -/

theorem work?_seq {s : State} {seq : Nat} {w : Work} (h : s.work? seq = some w) : w.seq = seq := by
  simpa using List.find?_some h

theorem crew?_id {s : State} {id : Nat} {c : Crew} (h : s.crew? id = some c) : c.id = id := by
  simpa using List.find?_some h

/-- The crew found after one has been put in its place. -/
theorem crew?_putCrew (s : State) (c : Crew) (id : Nat) :
    (s.putCrew c).crew? id = (s.crew? id).map fun x => if x.id == c.id then c else x := by
  have hk : ((fun x : Crew => x.id == id) ∘ fun x => if x.id == c.id then c else x) = fun x => x.id == id := by
    funext x
    simp only [Function.comp]
    split <;> simp_all
  simp only [State.crew?, State.putCrew, updWhere, List.find?_map, hk]

theorem crew?_putCrew_same {s : State} {c x : Crew} (h : s.crew? c.id = some x) : (s.putCrew c).crew? c.id = some c := by
  simp only [crew?_putCrew, h, Option.map_some, crew?_id h, beq_self_eq_true, if_true]

/-! ## Placement -/

/-- The span's first candidate, with the room that it needs from this core on and no phase queued there that goes ahead. -/
structure HasTurn (s : State) (p : CoreAt) (x : Ranked) : Prop where
  top : s.topWaiting p.span.val = some x
  needs : s.needs x.cand ≠ []
  room : s.fits (12 * p.span.val + p.cluster.val) p.core.val (s.needs x.cand) = true
  ahead : ((List.range (s.needs x.cand).length).any fun k =>
    s.phaseQueued (8 * (12 * p.span.val + p.cluster.val) + p.core.val + k) x.prio) = false

section
variable {p : CoreAt} {s : State} {x : Ranked}

theorem HasTurn.goes (h : HasTurn s p x) : ((s.needs x.cand).isEmpty || !s.fits (12 * p.span.val + p.cluster.val) p.core.val (s.needs x.cand) ||
    (List.range (s.needs x.cand).length).any fun k => s.phaseQueued (8 * (12 * p.span.val + p.cluster.val) + p.core.val + k) x.prio) = false := by
  rw [h.room, h.ahead, List.isEmpty_eq_false_iff.mpr h.needs]
  rfl

/-- A candidate without its room, or behind a phase, stays. -/
theorem exec_crewPlacement_stays (hx : s.topWaiting p.span.val = some x)
    (h : s.fits (12 * p.span.val + p.cluster.val) p.core.val (s.needs x.cand) = false ∨
      ((List.range (s.needs x.cand).length).any fun k =>
        s.phaseQueued (8 * (12 * p.span.val + p.cluster.val) + p.core.val + k) x.prio) = true) :
    exec (.crewPlacement p) s = .next s := by
  change execCrewPlacement p s = _
  simp only [execCrewPlacement, hx]
  refine if_pos ?_
  rcases h with h | h <;> simp only [h, Bool.not_false, Bool.or_true, Bool.true_or]

/-- A crew of a grid in its turn is placed; where the context record is bad, its work fails. -/
theorem exec_crewPlacement_grid {seq i : Nat} {w : Work} (h : HasTurn s p x) (hc : x.cand = .grid seq i) (hw : s.work? seq = some w) :
    (∀ code, s.contextBad w.queue = some code → exec (.crewPlacement p) s = .next (s.failWork seq code)) ∧
    ∀ img, s.contextBad w.queue = none → w.image = some img → exec (.crewPlacement p) s = .next (s.placeGrid w img i p) := by
  have he (t : State) : execCrewPlacement p s = .next t → exec (.crewPlacement p) s = .next t := id
  constructor
  · intro code hb
    refine he _ ?_
    simp only [execCrewPlacement, h.top, h.goes, Bool.false_eq_true, if_false]
    simp only [hc, hw, hb, work?_seq hw]
  · intro img hb hi
    refine he _ ?_
    simp only [execCrewPlacement, h.top, h.goes, Bool.false_eq_true, if_false]
    simp only [hc, hw, hb, hi]

/-- So does a batch. -/
theorem exec_crewPlacement_batch {seq node : Nat} {rs : List Nat} {w : Work} {g : Graph} (h : HasTurn s p x)
    (hc : x.cand = .batch seq node rs) (hw : s.work? seq = some w) (hg : s.graph? seq = some g) :
    (∀ code, s.contextBad w.queue = some code → exec (.crewPlacement p) s = .next (s.failWork seq code)) ∧
    ∀ n, s.contextBad w.queue = none → g.nodes[node]? = some n → exec (.crewPlacement p) s = .next (s.placeBatch w g n node rs p) := by
  have he (t : State) : execCrewPlacement p s = .next t → exec (.crewPlacement p) s = .next t := id
  constructor
  · intro code hb
    refine he _ ?_
    simp only [execCrewPlacement, h.top, h.goes, Bool.false_eq_true, if_false]
    simp only [hc, hw, hg, hb, work?_seq hw]
  · intro n hb hi
    refine he _ ?_
    simp only [execCrewPlacement, h.top, h.goes, Bool.false_eq_true, if_false]
    simp only [hc, hw, hg, hb, hi]

/-- A span with no candidate places nothing. -/
theorem exec_crewPlacement_none (h : s.topWaiting p.span.val = none) : exec (.crewPlacement p) s = .next s := by
  change execCrewPlacement p s = _
  simp only [execCrewPlacement, h]

end

/-! ## Aging -/

theorem exec_priorityAging_work {s : State} {seq : Nat} {w : Work} (h : s.work? seq = some w) : exec (.priorityAging (.work seq)) s = .next
    (if w.aged < (s.tick - w.takenAt) / 100000 ∧ w.prio + w.aged < 7 then s.putWork { w with aged := w.aged + 1 } else s) := by
  change execPriorityAging (.work seq) s = _
  simp only [execPriorityAging, h, Bool.and_eq_true, decide_eq_true_eq]
  split <;> rfl

theorem exec_priorityAging_head (q : Fin 2048) (s : State) : exec (.priorityAging (.queueHead q)) s = .next
    (if (s.queue q.val).en = true ∧ (s.queue q.val).unread ≠ 0 ∧ (s.queue q.val).aged < (s.tick - (s.queue q.val).since) / 100000 ∧
        (s.queue q.val).aged < 7 then s.putQueue { s.queue q.val with aged := (s.queue q.val).aged + 1 } else s) := by
  change execPriorityAging (.queueHead q) s = _
  simp only [execPriorityAging, Bool.and_eq_true, decide_eq_true_eq, bne_iff_ne, and_assoc]
  split <;> rfl

/-! ## A candidate that has waited -/

/-- Withdrawing the BINs of a crew changes the passes alone. -/
theorem withdrawBins_eq (s : State) (c : Crew) : s.withdrawBins c = { s with passes := (s.withdrawBins c).passes } := by
  unfold State.withdrawBins
  split <;> rfl

/-- A request leaves the works, the graphs and, but for its time-out, the crews. -/
theorem size_crew?_requestPreempt (s : State) (id k : Nat) :
    ((s.requestPreempt id).crew? k).map Crew.size = (s.crew? k).map Crew.size := by
  unfold State.requestPreempt
  split
  · rfl
  next c hc =>
    rw [withdrawBins_eq]
    change ((s.putCrew _).crew? k).map Crew.size = _
    rw [crew?_putCrew]
    cases hk : s.crew? k with
    | none => rfl
    | some y =>
      simp only [Option.map_some]
      split
      next he =>
        have : y = c := by
          rw [crew?_id hk, beq_iff_eq] at he
          rw [he, crew?_id hc] at hk
          exact Option.some.inj (hk.symm.trans hc)
        rw [this]
      next => rfl

theorem works_requestPreempt (s : State) (id : Nat) :
    (s.requestPreempt id).works = s.works ∧ (s.requestPreempt id).graphs = s.graphs := by
  unfold State.requestPreempt
  split
  · exact ⟨rfl, rfl⟩
  · rw [withdrawBins_eq]
    exact ⟨rfl, rfl⟩

/-- As many cores as before are needed for a candidate. -/
theorem length_needs_requestPreempt (s : State) (id : Nat) (x : Candidate) :
    ((s.requestPreempt id).needs x).length = (s.needs x).length := by
  obtain ⟨hw, hg⟩ := works_requestPreempt s id
  cases x with
  | saved k =>
    have := size_crew?_requestPreempt s id k
    simp only [State.needs]
    cases h : s.crew? k <;> cases h' : (s.requestPreempt id).crew? k <;> simp_all
  | grid seq i => simp only [State.needs, State.work?, hw]
  | batch seq n rs =>
    simp only [State.needs, State.graph?, hg]

section
variable {span : Fin 8} {s : State} {x : Ranked}

theorem exec_placementWaitTimeout_early (hx : s.topWaiting span.val = some x) (h : s.tick < x.since + 10000) :
    exec (.placementWaitTimeout span) s = .next s := by
  change execPlacementWaitTimeout span s = _
  simp only [execPlacementWaitTimeout, hx]
  exact if_pos (by simp only [h, decide_true, Bool.true_or])

/-- Crew id is pre-empted if it stands on one of the cores j to j + k - 1 of cluster cl. -/
def preemptOn (cl j k : Nat) (s : State) (id : Nat) : State :=
  match s.crew? id with
  | some c => if c.clusterNo = cl && (List.range c.size).any fun r => j ≤ c.core + r && c.core + r < j + k then s.requestPreempt id else s
  | none => s

theorem preemptOn_of_none {cl j k id : Nat} {s : State} (h : s.crew? id = none) : preemptOn cl j k s id = s := by
  simp only [preemptOn, h]

theorem preemptOn_of_some {cl j k id : Nat} {s : State} {c : Crew} (h : s.crew? id = some c) : preemptOn cl j k s id =
    if c.clusterNo = cl ∧ ∃ r, r < c.size ∧ j ≤ c.core + r ∧ c.core + r < j + k then s.requestPreempt id else s := by
  simp only [preemptOn, h, Bool.and_eq_true, decide_eq_true_eq, List.any_eq_true, List.mem_range]

theorem length_needs_preemptOn (cl j k id : Nat) (s : State) (x : Candidate) : ((preemptOn cl j k s id).needs x).length = (s.needs x).length := by
  unfold preemptOn
  split
  · split
    · exact length_needs_requestPreempt ..
    · rfl
  · rfl

/-- The number of cores that a candidate needs may be read again at each request. -/
theorem foldl_preemptOn_needs (cl j : Nat) (x : Candidate) (ids : List Nat) (s : State) :
    ids.foldl (preemptOn cl j (s.needs x).length) s = ids.foldl (fun s id => preemptOn cl j (s.needs x).length s id) s := by
  induction ids generalizing s with
  | nil => rfl
  | cons id ids ih =>
    rw [List.foldl_cons, List.foldl_cons, ← ih, length_needs_preemptOn]

/-- The crews of lower classes than a candidate's, those that would be pre-empted first in front. -/
def victimIds (s : State) (span : Nat) (x : Ranked) : List Nat := (s.victims span x.prio).map fun c => c.id

/-- Where the candidate would fit once the first n of them, and the crews that leave already, are gone. -/
def roomAfter (s : State) (span : Nat) (x : Ranked) (n : Nat) : Option (Nat × Nat) :=
  s.roomWithout span (s.needs x.cand) (((s.crews.filter fun c => c.preempt.isSome).map fun c => c.id) ++ (victimIds s span x).take n)

/-- The crews of lower classes that a candidate's placement needs are pre-empted, where n of them are the fewest. -/
theorem exec_placementWaitTimeout_late {n cl j : Nat} (hx : s.topWaiting span.val = some x) (ht : x.since + 10000 ≤ s.tick)
    (hne : s.needs x.cand ≠ []) (h0 : 0 < n) (hn : n ≤ (victimIds s span.val x).length)
    (hless : ∀ m, m < n → roomAfter s span.val x m = none) (hroom : roomAfter s span.val x n = some (cl, j)) :
    exec (.placementWaitTimeout span) s =
      .next (((victimIds s span.val x).take n).foldl (preemptOn cl j (s.needs x.cand).length) s) := by
  have hfind : (List.range ((victimIds s span.val x).length + 1)).find? (fun n => (roomAfter s span.val x n).isSome) = some n :=
    List.find?_range_eq_some.mpr ⟨by rw [hroom, Option.isSome_some], List.mem_range.mpr (Nat.lt_succ_of_le hn),
      fun m hm => by rw [hless m hm]; rfl⟩
  have hnow := hless 0 h0
  change execPlacementWaitTimeout span s = _
  unfold roomAfter victimIds at *
  rw [List.take_zero, List.append_nil] at hnow
  simp only [execPlacementWaitTimeout, hx, hnow, Nat.not_lt.mpr ht, List.isEmpty_eq_false_iff.mpr hne, Option.isSome_none, decide_false,
    Bool.or_self, Bool.false_eq_true, if_false]
  rw [hfind]
  simp only [hroom, Option.getD_some]
  rfl

end

/-! ## Pre-emption -/

/-- A gang that has stopped stays as it is at another request. -/
theorem gang_isHalted_halt (g : Gang) : g.halt.isHalted = true := by
  have : g.halt.halt = g.halt := by
    cases hw : g.wait <;> simp only [Gang.halt, hw]
  simp only [Gang.isHalted, this, beq_self_eq_true]

/-- A wave all of whose gangs have stopped is halted. -/
theorem wave_isHalted_haltAll (w : Wave) : w.haltAll.isHalted = true := by
  have : w.haltAll.gangs.all Gang.isHalted = true := by
    simp only [Wave.haltAll, Wave.halt, if_true, List.all_map, List.all_eq_true, Function.comp, gang_isHalted_halt, implies_true]
  simp only [Wave.isHalted, this, Bool.or_true]

/-- Once those of a crew's waves that run have stopped, all of them are halted. -/
theorem isHalted_of_mem_stopped {ws : List Wave} {crew : Nat} {w : Wave}
    (h : w ∈ updWhere (fun w => w.ref.crew == crew && !w.hasExited && w.reached.isNone) Wave.haltAll ws) (hc : w.ref.crew = crew) :
    w.isHalted = true := by
  obtain ⟨y, -, rfl⟩ := List.mem_map.mp h
  split
  · exact wave_isHalted_haltAll y
  next hrun =>
    rw [if_neg hrun] at hc
    simp only [hc, beq_self_eq_true, Bool.true_and, Bool.and_eq_true, Bool.not_eq_true', not_and, Option.isNone_iff_eq_none] at hrun
    cases he : y.hasExited with
    | true => simp only [Wave.isHalted, he, Bool.true_or]
    | false => simp [Wave.isHalted, Option.isSome_iff_ne_none.mpr (hrun he)]

theorem exec_preemptionRequest {crew : Nat} {s : State} {c : Crew} (hc : s.crew? crew = some c) (hp : c.mayPreempt = true) :
    ∃ t, exec (.preemptionRequest crew) s = .next t ∧
      t.crew? crew = some { c with preempt := some (s.tick + (s.part c.part).sptmo) } ∧ SameMemory s t ∧
      ((s.part c.part).sptmo = 0 → ∀ w ∈ t.waves, w.ref.crew = crew → w.isHalted = true) := by
  change ∃ t, execPreemptionRequest crew s = .next t ∧ _
  have hid := crew?_id hc
  simp only [execPreemptionRequest, hc, hp, if_true, State.requestPreempt]
  refine ⟨_, rfl, ?_, ?_, fun h0 w hw => ?_⟩
  · rw [withdrawBins_eq]
    subst hid
    exact crew?_putCrew_same (s := s) (c := { c with preempt := some (s.tick + (s.part c.part).sptmo) }) hc
  · rw [withdrawBins_eq]
    exact ⟨rfl, rfl⟩
  · rw [withdrawBins_eq] at hw
    simp only [h0, if_true] at hw
    exact isHalted_of_mem_stopped hw

/-- At the time-out the waves that are left stop (R40). -/
theorem exec_safePointTimeout {crew d : Nat} {s : State} {c : Crew} (hc : s.crew? crew = some c) (hp : c.preempt = some d) :
    (s.tick < d → exec (.safePointTimeout crew) s = .next s) ∧
    (d ≤ s.tick → ∃ t, exec (.safePointTimeout crew) s = .next t ∧ t.crews = s.crews ∧ SameMemory s t ∧
      ∀ w ∈ t.waves, w.ref.crew = crew → w.isHalted = true) := by
  change (_ → execSafePointTimeout crew s = _) ∧ (_ → ∃ t, execSafePointTimeout crew s = _ ∧ _)
  simp only [execSafePointTimeout, hc, hp]
  constructor
  · intro h
    rw [if_pos h]
  · intro h
    rw [if_neg (Nat.not_lt.mpr h)]
    exact ⟨_, rfl, rfl, ⟨rfl, rfl⟩, fun w hw => isHalted_of_mem_stopped hw⟩

/-! ## Saving and resumption -/

theorem exec_crewSave {crew : Nat} {s : State} {c : Crew} (hc : s.crew? crew = some c) :
    (s.maySave c = true → c.isTile = false → exec (.crewSave crew) s = .next (s.saveCrew c)) ∧
    (s.maySave c = false → exec (.crewSave crew) s = .next s) := by
  change (_ → _ → execCrewSave crew s = _) ∧ (_ → execCrewSave crew s = _)
  simp only [execCrewSave, hc]
  exact ⟨fun hm ht => by simp [hm, ht], fun hm => by simp [hm]⟩

section
variable {crew : Nat} {s : State} {c : Crew} {p : CoreAt} (hc : s.crew? crew = some c) (hr : c.resident = false)
  (hm : s.mayResume c p = true) (hb : s.contextBad c.queue = none)
include hc hr hm hb

/-- A saved crew in its turn takes its new cores (R41). -/
theorem exec_crewResume_of_turn (ht : c.isTile = false) (hturn : s.resumeTurn c p = true) :
    exec (.crewResume crew p) s = .next (s.resumeCrew c p) := by
  change execCrewResume crew p s = _
  simp only [execCrewResume, hc, hr, ht, hturn, hm, Bool.and_self, Bool.false_eq_true, if_false, if_true, State.resumeOrFail, hb]

/-- A tile block that left no image takes them when the broker reissues it (R279). -/
theorem exec_crewResume_of_tile {r : RenderPass} {t : TilePass} {b : Block} (ht : c.tile? = some t) (hslot : t.slot = none)
    (hpass : s.passOf c = some r) (hmode : (s.part c.part).modes.getLsbD 4 = false) (hfree : s.brokerFree c.part = true)
    (hsaved : s.savedTile r = some c) (hblock : s.block? c.id 0 = some b) (hspan : (s.part c.part).spans.getLsbD p.span.val = true)
    (hheld : s.spillHeld c.id = false) : exec (.crewResume crew p) s = .next (s.resumeCrew c p) := by
  have htile : c.isTile = true := by
    unfold Crew.tile? at ht
    split at ht
    next hk => simp only [Crew.isTile, hk]
    next => cases ht
  have hissue : s.reissueTile c r p = s.resumeCrew c p := by
    simp only [State.reissueTile, ht, hblock, hslot, hspan, hm, hheld, State.resumeOrFail, hb, Bool.not_true, Bool.or_self,
      Bool.false_eq_true, if_false]
  obtain rfl := crew?_id hc
  change execCrewResume c.id p s = _
  simp only [execCrewResume, hc, hr, htile, hpass, hmode, hfree, hsaved, hissue, Option.map_some, bne_self_eq_false, Bool.not_true,
    Bool.or_self, Bool.false_eq_true, if_false, if_true]

end

/-! ## The start of a phase -/

/-- The waves whose phase is queued, where all that have not exited, or one of a G-buffer step's, have reached a PHASE. -/
theorem phaseWaves_of_reached {s : State} {c : Crew} {rank : Nat}
    (h : ∀ w ∈ (if c.isGbuffer then (((s.wavesOf c.id rank).filter fun w => !w.hasExited).filter fun w => w.reached.isSome).take 1
      else (s.wavesOf c.id rank).filter fun w => !w.hasExited), w.reached.isSome = true) :
    s.phaseWaves c rank = if c.isGbuffer then (((s.wavesOf c.id rank).filter fun w => !w.hasExited).filter fun w => w.reached.isSome).take 1
      else (s.wavesOf c.id rank).filter fun w => !w.hasExited := by
  unfold State.phaseWaves
  by_cases hg : c.isGbuffer = true
  · simp only [hg, if_true]
  · simp only [hg] at h ⊢
    exact if_pos (List.all_eq_true.mpr h)

/-- What the waves of a phase need. -/
def phaseRoom (ws : List Wave) : Room := { slots := ws.length, regs := (ws.map fun w => w.regs + 1).sum, tile := 0, banks := 0 }

theorem exec_phaseStart {crew rank : Nat} {s s1 : State} {c : Crew} {b : Block} {img : Image} (hc : s.crew? crew = some c)
    (hb : s.block? crew rank = some b) (hne : s.phaseWaves c rank ≠ []) (hres : c.resident = true) (hp : c.preempt = none)
    (hcomb : c.isCombiner = false) (hrank : rank < c.size)
    (hroom : s.hasRoom (c.coreOf rank) (phaseRoom (s.phaseWaves c rank)) = true)
    (hturn : s.phaseTurn c (c.coreOf rank) = true) (hbad : s.contextBad c.queue = none)
    (hf : s.refetch (s.rereadContext c) c.part c.image = (img, s1)) :
    exec (.phaseStart crew rank) s = .next ((s.phaseWaves c rank).foldl (fun s' w =>
      (s'.loadLatches (w.atPhaseStart { c with ctx := s.rereadContext c } (s.rereadContext c) b (w.reached.getD 1))
        { c with ctx := s.rereadContext c }).2.putWave
        (s'.loadLatches (w.atPhaseStart { c with ctx := s.rereadContext c } (s.rereadContext c) b (w.reached.getD 1))
          { c with ctx := s.rereadContext c }).1)
      ((s1.putCrew { c with ctx := s.rereadContext c }).putBlock { b with code := img.code })) := by
  change execPhaseStart crew rank s = _
  unfold phaseRoom at hroom
  simp only [execPhaseStart, hc, hb, List.isEmpty_eq_false_iff.mpr hne, hres, hp, hcomb, Nat.not_le.mpr hrank, hroom, hturn, hbad, hf,
    Option.isSome_none, Bool.not_true, decide_false, Bool.or_self, Bool.false_eq_true, if_false]

/-- Settles O50: each event, once what decides it is known; a request leaves the needs of the candidate it is made for. -/
theorem crewsArePlacedAndPreempted : Obligations.CrewsArePlacedAndPreempted := by
  refine ⟨fun p s h => exec_crewPlacement_none h, fun p s x w hx hn => ⟨fun h => exec_crewPlacement_stays hx h,
      fun code hr hq hb => ⟨fun seq i hc hw => ?_, fun seq node rs g hc hw hg => ?_⟩,
      fun hr hq hb => ⟨fun seq i img hc hw hi => ?_, fun seq node rs g n hc hw hg hn' => ?_⟩⟩,
    fun seq s w h => exec_priorityAging_work h, fun q s => exec_priorityAging_head q s,
    fun span s x hx => ⟨fun h => exec_placementWaitTimeout_early hx h,
      fun n cl j ht hne h0 hn hless hroom => ?_⟩,
    fun crew s c => exec_preemptionRequest, fun crew d s c => exec_safePointTimeout,
    fun crew s c hc => ⟨(exec_crewSave hc).1, (exec_crewSave hc).2, fun p hr hm hb => ⟨exec_crewResume_of_turn hc hr hm hb,
      fun r t b => exec_crewResume_of_tile hc hr hm hb⟩⟩, fun crew rank s s1 c b img hc hb => ?_⟩
  · exact (exec_crewPlacement_grid ⟨hx, hn, hr, hq⟩ hc hw).1 code hb
  · exact (exec_crewPlacement_batch ⟨hx, hn, hr, hq⟩ hc hw hg).1 code hb
  · exact (exec_crewPlacement_grid ⟨hx, hn, hr, hq⟩ hc hw).2 img hb hi
  · exact (exec_crewPlacement_batch ⟨hx, hn, hr, hq⟩ hc hw hg).2 n hb hn'
  · rw [exec_placementWaitTimeout_late hx ht hne h0 hn hless hroom, foldl_preemptOn_needs]
    refine congrArg _ (List.foldl_ext _ _ _ fun s' id _ => ?_)
    cases hc : s'.crew? id with
    | none => rw [preemptOn_of_none hc]
    | some c => rw [preemptOn_of_some hc]
  · intro ws ctx hne hall hres hp hcomb hrank hroom hturn hbad hf
    have hws : s.phaseWaves c rank = ws := by
      have := phaseWaves_of_reached (s := s) (c := c) (rank := rank)
      rw [crew?_id hc] at this
      exact this hall
    have := exec_phaseStart hc hb (hws ▸ hne) hres hp hcomb hrank (by rw [hws]; exact hroom) hturn hbad hf
    rw [hws] at this
    exact this

end Sys2Proof.Laws
end

section
/-! SUPPORT. What observing the conditions of a WAIT keeps (R199 to R201). -/

namespace Sys2Proof.Laws

open Sys2Proof.Machine Sys2Proof.Safety

/-- From s to t the time stands and, outside Woad mode, so do the partitions. -/
structure KeepsTime (p : Nat) (s t : State) : Prop where
  tick : t.tick = s.tick
  parts : (s.part p).woad = false → t.parts = s.parts

namespace KeepsTime

variable {p : Nat} {s t u : State}

theorem refl (s : State) : KeepsTime p s s := ⟨rfl, fun _ => rfl⟩

theorem of_eq (ht : t.tick = s.tick) (hp : t.parts = s.parts) : KeepsTime p s t := ⟨ht, fun _ => hp⟩

theorem part (h : KeepsTime p s t) (hw : (s.part p).woad = false) (q : Nat) : t.part q = s.part q := by
  simp only [State.part, h.parts hw]

theorem trans (h : KeepsTime p s t) (h' : KeepsTime p t u) : KeepsTime p s u :=
  ⟨h'.tick.trans h.tick, fun hw => (h'.parts (by rw [h.part hw]; exact hw)).trans (h.parts hw)⟩

theorem foldl {α : Type} {f : State → α → State} (hf : ∀ s a, KeepsTime p s (f s a)) (l : List α) (s : State) :
    KeepsTime p s (l.foldl f s) := by
  induction l generalizing s with
  | nil => exact refl s
  | cons a l ih => exact (hf s a).trans (ih _)

end KeepsTime

/-! ## Strong reads (R97) -/

theorem keepsTime_freeBytes (p n : Nat) (s : State) : KeepsTime p s (s.freeBytes n).2 := by
  induction n generalizing s with
  | zero => exact .refl s
  | succ n ih => exact KeepsTime.trans (t := s.freeWord.2) (.of_eq rfl rfl) (ih s.freeWord.2)

theorem keepsTime_blur (p : Nat) (s : State) (fs : List Footprint) (key : Nat) (bs : List Byte) : KeepsTime p s (s.blur fs key bs).2 := by
  unfold State.blur
  split
  · exact .refl s
  · exact keepsTime_freeBytes ..

theorem keepsTime_smear (p : Nat) (s : State) (fs : List Footprint) (pt place key size : Nat) :
    KeepsTime p s (s.smear fs pt place key size) := by
  refine KeepsTime.foldl (fun s k => ?_) _ s
  have h := keepsTime_freeBytes p 1 s
  split
  next b t hb =>
    rw [hb] at h
    refine h.trans ?_
    split
    · split
      · exact .of_eq rfl rfl
      · exact .refl t
    · exact .of_eq rfl rfl

theorem keepsTime_noteStrong (p : Nat) (s : State) (pt place key size : Nat) (write : Bool) :
    KeepsTime p s (s.noteStrong pt place key size write) := by
  have htag : KeepsTime p s (s.setTag pt place key size write) := by
    unfold State.setTag
    split
    · exact .refl s
    · exact .of_eq rfl rfl
  exact htag.trans (.of_eq rfl rfl)

theorem keepsTime_strongRead (p : Nat) (s : State) (pt place key : Nat) (bs : List Byte) :
    KeepsTime p s (s.strongRead pt place key bs).2 :=
  ((keepsTime_blur ..).trans (keepsTime_smear ..)).trans (keepsTime_noteStrong ..)

theorem keepsTime_condRead (p : Nat) (s : State) (b : Block) (off n : Nat) : KeepsTime p s (s.condRead b off n).2 :=
  keepsTime_strongRead ..

/-! ## External reads of a Woad partition (R408) -/

theorem keepsTime_logEntry (s : State) (p type : Nat) (ws : List Nat) : KeepsTime p s (s.logEntry p type ws) := by
  unfold State.logEntry
  extract_lets x
  split
  next h => exact ⟨rfl, fun hw => absurd h (by simp [x, hw])⟩
  next => exact .refl s

/-- An external read reaches the partition's log in Woad mode alone. -/
theorem keepsTime_woadRead (s : State) (p type : Nat) (ws v : List Nat) : KeepsTime p s (s.woadRead p type ws v).2 := by
  unfold State.woadRead
  extract_lets x mine
  split
  · exact keepsTime_logEntry ..
  · split
    next hr =>
      split
      · exact keepsTime_logEntry ..
      · refine ⟨rfl, fun hw => ?_⟩
        simp [Partition.replays, x, hw] at hr
    next => exact .refl s

/-! ## Observing -/

theorem keepsTime_observeOne (s : State) (w : Wave) (c : Crew) (k : Condition) : KeepsTime c.part s (s.observeOne w c k).2 := by
  unfold State.observeOne
  extract_lets own
  have hown {f : Block → (Bool × Bool) × State} (hf : ∀ b, KeepsTime c.part s (f b).2) : KeepsTime c.part s (own f).2 := by
    simp only [own]
    split
    · exact hf _
    · exact .refl s
  split
  · split
    · exact keepsTime_condRead ..
    · exact .refl s
  · split
    · exact keepsTime_condRead ..
    · exact .refl s
  · exact hown fun b => keepsTime_condRead ..
  · exact hown fun b => keepsTime_condRead ..
  · exact .refl s
  · exact keepsTime_woadRead ..
  · exact .refl s
  · exact .refl s

/-- The observation of one condition of a WAIT, the n-th. -/
def observeStep (w : Wave) (c : Crew) (acc : WaitState × State) (k : Condition × Nat) : WaitState × State :=
  if k.1.kind = 0 || acc.1.seen.getLsbD k.2 then acc
  else
    let ((holds, pois), s) := acc.2.observeOne w c k.1
    if holds then
      ({ acc.1 with seen := acc.1.seen ||| (1#4 <<< k.2), pois := acc.1.pois || pois },
       if k.1.kind ≤ 4 then s.dropL1 (c.coreOf w.ref.rank) else s)
    else (acc.1, s)

theorem observe_eq (s : State) (w : Wave) (c : Crew) (x : WaitState) : s.observe w c x = x.conds.zipIdx.foldl (observeStep w c) (x, s) :=
  rfl

theorem observeStep_keeps (w : Wave) (c : Crew) (acc : WaitState × State) (k : Condition × Nat) :
    (observeStep w c acc k).1.deadline = acc.1.deadline ∧ (observeStep w c acc k).1.dst = acc.1.dst ∧
      KeepsTime c.part acc.2 (observeStep w c acc k).2 := by
  have h := keepsTime_observeOne acc.2 w c k.1
  unfold observeStep
  split
  · exact ⟨rfl, rfl, .refl _⟩
  · split
    next holds pois s ho =>
      rw [ho] at h
      split
      · refine ⟨rfl, rfl, h.trans ?_⟩
        dsimp only
        split
        · exact .of_eq rfl rfl
        · exact .refl s
      · exact ⟨rfl, rfl, h⟩

/-- An observation keeps the deadline and the destination of the WAIT, and the time. -/
theorem observe_keeps (s : State) (w : Wave) (c : Crew) (x : WaitState) :
    (s.observe w c x).1.deadline = x.deadline ∧ (s.observe w c x).1.dst = x.dst ∧ KeepsTime c.part s (s.observe w c x).2 := by
  have hfold (ks : List (Condition × Nat)) (acc : WaitState × State) : (ks.foldl (observeStep w c) acc).1.deadline = acc.1.deadline ∧
      (ks.foldl (observeStep w c) acc).1.dst = acc.1.dst ∧ KeepsTime c.part acc.2 (ks.foldl (observeStep w c) acc).2 := by
    induction ks generalizing acc with
    | nil => exact ⟨rfl, rfl, .refl _⟩
    | cons k ks ih =>
      obtain ⟨hd, hr, ht⟩ := observeStep_keeps w c acc k
      obtain ⟨id, ir, it⟩ := ih (observeStep w c acc k)
      exact ⟨id.trans hd, ir.trans hr, ht.trans it⟩
  exact observe_eq s w c x ▸ hfold _ (x, s)

end Sys2Proof.Laws
end

section
/-! SUPPORT. The events that let a waiting wave go on (R27, R143, R201, R208, R209, R246, R298, R336, R350). -/

namespace Sys2Proof.Laws

open Sys2Proof.Machine Sys2Proof.Safety

/-! ## Landings and regrouping -/

theorem exec_producerLanding {r : WaveRef} {n : Nat} {s : State} {x : Wave} {ld : Landing} (hx : s.wave? r = some x)
    (hld : x.landings[n]? = some ld) : exec (.producerLanding r n) s = .next
      (if ld.pending != 0 then s else ((s.putWave (x.land ld)).phaseCheck r).settle) := by
  change execProducerLanding r n s = _
  simp only [execProducerLanding, hx, hld]
  split <;> rfl

theorem exec_regangBandReady {r : WaveRef} {s : State} {x : Wave} {c : Crew} (hx : s.wave? r = some x) (hc : s.crew? r.crew = some c)
    (hr : s.roundHolds r = false) (hs : x.sup = false) :
    (x.bands = [] → exec (.regangBandReady r) s = .next s) ∧
    (∀ m later, x.bands = m :: later →
      exec (.regangBandReady r) s = .next (s.putWave ({ x with bands := later }.regroup m (s.afterRegang x c)))) := by
  have he (t : State) : execRegangBandReady r s = .next t → exec (.regangBandReady r) s = .next t := id
  refine ⟨fun hb => he _ ?_, fun m later hb => he _ ?_⟩ <;>
    simp only [execRegangBandReady, hr, hx, hc, hb, hs, Bool.false_eq_true, if_false]

/-! ## Queues -/

section
variable {r : WaveRef} {slice : Nat} {s : State} {x : Wave} {g : Gang} {b : Block} (h : WaitsIn s r slice x g)
  (hb : s.block? r.crew r.rank = some b)
include h hb

theorem exec_qpushWait {q a : Nat} (hg : g.wait = .qpush q a) : exec (.queueWaitPerformed r slice) s = .next
    (if b.allowance q r.wave = 0 || !x.isFull .g a || s.mustWait r true true then s
     else (s.putBlock (b.push q r.wave (x.readG a))).putWave (x.advance g (g.pc + 8))) := by
  change execQueueWaitPerformed r slice s = _
  simp only [execQueueWaitPerformed, h.round, h.wave, h.gang, hb, hg, Bool.false_eq_true, if_false]
  split <;> rfl

theorem exec_qpopWait {q d st : Nat} (hg : g.wait = .qpop q d st) : exec (.queueWaitPerformed r slice) s = .next
    (if b.queueCount q = 0 || !x.isFull .g d || s.mustWait r false false || (s.popStamps r.crew r.rank q).any fun t => t < st then s
     else (s.putBlock (b.pop q).2).putWave ((x.writeG g.slices d (b.pop q).1).advance g (g.pc + 8))) := by
  change execQueueWaitPerformed r slice s = _
  simp only [execQueueWaitPerformed, h.round, h.wave, h.gang, hb, hg, Bool.false_eq_true, if_false]
  split <;> rfl

end

/-! ## WAIT -/

/-- A gang in a WAIT is found where the round's commit pass does not keep it. -/
theorem roundHolds_of_waiter {s : State} {r : WaveRef} {slice : Nat} {y : Wave × Crew × Gang × WaitState}
    (h : s.waiter r slice = some y) : s.roundHolds r = false := by
  unfold State.waiter at h
  split at h
  · split at h
    · cases h
    next hr => exact Bool.eq_false_iff.mpr hr
  · cases h

section
variable {r : WaveRef} {slice : Nat} {s : State} {w : Wave} {c : Crew} {g : Gang} {x : WaitState}
  (h : s.waiter r slice = some (w, c, g, x))
include h

theorem exec_waitConditionMet_late (hp : s.pastDeadline c x = true) : exec (.waitConditionMet r slice) s = .next s := by
  change execWaitConditionMet r slice s = _
  simp only [execWaitConditionMet, h, hp, if_true]

theorem exec_waitConditionMet (hp : s.pastDeadline c x = false) : exec (.waitConditionMet r slice) s = .next
    ((s.observe w c x).2.putWave (if (s.observe w c x).1.met then w.endWait g (s.observe w c x).1 false
      else w.park g (.cond (s.observe w c x).1))) := by
  change execWaitConditionMet r slice s = _
  simp only [execWaitConditionMet, h, hp, Bool.false_eq_true, if_false]

theorem exec_waitTimeout : exec (.waitTimeout r slice) s = .next (s.testWait w c g x) := by
  change execWaitTimeout r slice s = _
  simp only [execWaitTimeout, roundHolds_of_waiter h, h, Bool.false_eq_true, if_false]

end

section
variable {s : State} {w : Wave} {c : Crew} {g : Gang} {x : WaitState}

/-- A WAIT whose conditions hold ends with what was seen. -/
theorem testWait_of_met (hm : (s.observe w c x).1.met = true) :
    s.testWait w c g x = (s.observe w c x).2.putWave (w.endWait g (s.observe w c x).1 false) := by
  simp only [State.testWait, hm, if_true]

/-- One whose deadline is reached ends by it, outside a Woad partition. -/
theorem testWait_of_expired (hm : (s.observe w c x).1.met = false) {d : Nat} (hd : x.deadline = some d) (ht : d ≤ s.tick)
    (hw : (s.part c.part).woad = false) :
    s.testWait w c g x = (s.observe w c x).2.putWave (w.endWait g (s.observe w c x).1 true) := by
  obtain ⟨hdead, -, hkeep⟩ := observe_keeps s w c x
  have hexp : (s.observe w c x).1.expired (s.observe w c x).2.tick = true := by
    simp only [WaitState.expired, hdead, hd, hkeep.tick, ht, decide_true]
  simp only [State.testWait, hm, hexp, hkeep.part hw, hw, Bool.not_false, Bool.and_self, Bool.false_eq_true, if_false, if_true]

/-- Before its deadline it waits on. -/
theorem testWait_of_early (hm : (s.observe w c x).1.met = false) (hd : ∀ d, x.deadline = some d → s.tick < d) :
    s.testWait w c g x = (s.observe w c x).2.putWave (w.park g (.cond (s.observe w c x).1)) := by
  obtain ⟨hdead, -, hkeep⟩ := observe_keeps s w c x
  have hexp : (s.observe w c x).1.expired (s.observe w c x).2.tick = false := by
    unfold WaitState.expired
    rw [hdead, hkeep.tick]
    cases hx : x.deadline with
    | none => rfl
    | some d => simpa using hd d hx
  simp only [State.testWait, hm, hexp, Bool.false_and, Bool.false_eq_true, if_false]

/-- The end of a WAIT writes its own destination. -/
theorem endWait_observed (timeout : Bool) : w.endWait g (s.observe w c x).1 timeout =
    ((w.writeG g.slices x.dst ((s.observe w c x).1.result timeout)).setFull .g x.dst).goOn g := by
  obtain ⟨-, hdst, -⟩ := observe_keeps s w c x
  rw [Wave.endWait, hdst]

end

/-! ## Banks and records -/

section
variable {r : WaveRef} {slice : Nat} {s : State} {x : Wave} {g : Gang} {c : Crew} (h : WaitsIn s r slice x g)
  (hc : s.crew? r.crew = some c) (hres : c.resident = true) (hp : c.preempt = none)
include h hc hres hp

theorem exec_acqaccGrant {banks : BitVec 32} {st : Nat} {b : Block} (hg : g.wait = .acqacc banks st) (hb : s.accBlock? c x = some b) :
    exec (.acqaccGrant r slice) s = .next (if s.mayBind c b (banks &&& ~~~b.held) st then
      (s.putBlock (b.bind (banks &&& ~~~b.held) (s.freeAside b))).putWave (x.advance g (g.pc + 8)) else s) := by
  change execAcqaccGrant r slice s = _
  simp only [execAcqaccGrant, h.round, h.wave, h.gang, hc, hb, hg, hres, hp, Option.isNone_none, Bool.true_and, Bool.false_eq_true, if_false]
  split <;> rfl

theorem exec_recallocGrant {n d : Nat} {left : LaneMask} {got : List (Nat × Nat)} {st : Nat} {gr : Graph}
    (hg : g.wait = .recalloc n d left got st) (hgr : s.graph? c.work = some gr) :
    exec (.recallocGrant r slice) s = .next (s.serveRecords x g gr n d left got st) := by
  change execRecallocGrant r slice s = _
  simp only [execRecallocGrant, h.round, h.wave, h.gang, hc, hgr, hg, hres, hp, Option.isNone_none, Bool.and_self, Bool.false_eq_true, if_false,
    if_true]

end

/-! ## Traps -/

section
variable {r : WaveRef} {s : State} {x : Wave} {c : Crew} (hx : s.wave? r = some x) (hc : s.crew? r.crew = some c)
  (hres : c.resident = true)
include hx hc hres

theorem exec_asyncTrapDelivery {t : Trap} {rest : List Trap} (ht : x.traps = t :: rest) : exec (.asyncTrapDelivery r) s = .next
    (if !x.canTrap || !(x.trapFirst (s.ownedEntry x c) && !(t.cause = 0x0E && s.poisonUnposted c.part)) then s
     else s.takeTrap { x with traps := rest } { t with async := true, slices := LaneMask.toSlices t.lanes }) := by
  change execAsyncTrapDelivery r s = _
  simp only [execAsyncTrapDelivery, hx, hc, ht, State.isResident, hres, Option.any_some, Bool.not_true, Bool.or_false]
  split <;> rfl

theorem exec_translationVector {e : Entry} (he : s.ownedEntry x c = some e) (hcan : x.canTrap = true)
    (hfirst : x.trapFirst (some e) = false) : exec (.translationVector r) s =
      .next ((s.updEntry c.clusterNo e.index fun e => { e with state := .handler }).takeTrap x
        { cause := 0x08, sub := e.sub, kind := e.kind, async := e.async, fbi := e.index, pc := e.pc, addr := (s.faulters r e c.clusterNo).2,
          lanes := (s.faulters r e c.clusterNo).1, slices := LaneMask.toSlices (s.faulters r e c.clusterNo).1, cluster := c.clusterNo }
        (some (c.clusterNo, e.index))) := by
  change execTranslationVector r s = _
  simp only [execTranslationVector, hx, hc, he, hcan, hres, hfirst, Bool.not_true, Bool.or_self, Bool.false_eq_true, if_false]

end

/-- Settles O51: each event, and what decides it. -/
theorem waitingWavesGoOn : Obligations.WaitingWavesGoOn := by
  refine ⟨fun r n s x ld hx hld => ⟨fun hp => ?_, fun hp => ?_⟩, fun r s x c hx hc hr hs => exec_regangBandReady hx hc hr hs,
    fun r slice s x g b h hb => ⟨fun q a hg ha hf hm => ?_, fun q a hg hw => ?_, fun q d st hg hn hf hm hu => ?_, fun q d st hg hn => ?_⟩,
    fun r slice s w c g x h => ?_,
    fun r slice s x g c h hc hres hp => ⟨fun banks st b hg hb => exec_acqaccGrant h hc hres hp hg hb,
      fun n d left got st gr hg hgr => exec_recallocGrant h hc hres hp hg hgr⟩,
    fun r s x c hx hc hres => ⟨fun t rest ht => ⟨fun hcan => ?_, fun hfirst => ?_, fun hcan hfirst hpo => ?_⟩,
      fun e he hcan hfirst => exec_translationVector hx hc hres he hcan hfirst⟩⟩
  · rw [exec_producerLanding hx hld, if_pos (bne_iff_ne.mpr hp)]
  · rw [exec_producerLanding hx hld, if_neg (by simp [hp])]
  · rw [exec_qpushWait h hb hg, if_neg (by simp [ha, hf, hm])]
  · rw [exec_qpushWait h hb hg, if_pos (by rcases hw with hw | hw <;> simp [hw])]
  · rw [exec_qpopWait h hb hg, if_neg (by simpa [hn, hf, hm] using hu)]
  · rw [exec_qpopWait h hb hg, if_pos (by simp [hn])]
  · intro y t done
    have hend (timeout : Bool) : w.endWait g y timeout = done (if timeout then 0x10 else 0) := endWait_observed timeout
    refine ⟨fun hp => exec_waitConditionMet_late h hp, fun hm => ⟨?_, fun hp => ?_⟩, fun hm => ⟨fun hp => ?_, fun hd hw => ?_, fun hd => ?_⟩⟩
    · rw [exec_waitTimeout h, testWait_of_met hm, hend]
      rfl
    · rw [exec_waitConditionMet h hp, if_pos hm, hend]
      rfl
    · rw [exec_waitConditionMet h hp, if_neg (Bool.eq_false_iff.mp hm)]
    · obtain ⟨d, hd, ht⟩ := hd
      rw [exec_waitTimeout h, testWait_of_expired hm hd ht hw, hend]
      rfl
    · rw [exec_waitTimeout h, testWait_of_early hm hd]
  · rw [exec_asyncTrapDelivery hx hc hres ht, if_pos (by simp [hcan])]
  · rw [exec_asyncTrapDelivery hx hc hres ht, if_pos (by rcases hfirst with hf | ⟨hf, hp⟩ <;> simp_all)]
  · rw [exec_asyncTrapDelivery hx hc hres ht, if_neg (by simp_all)]

end Sys2Proof.Laws
end

section
/-! SUPPORT. Barriers (R55, R98, R204). -/

namespace Sys2Proof.Laws

open Sys2Proof.Machine Sys2Proof.Safety

variable {i : Instr} {crew waits : Bool} {s : State} {c : Issue} {b : Block}

/-- A BAR outside the handler, in a G-buffer step: its wave is alone (R283). -/
theorem barrier_of_gbuffer (h : Ready s c i) (hs : c.wave.sup = false) (hg : c.crew.isGbuffer = true) : barrier i crew waits s = .next
    (if s.mustWait c.wave.ref true true then s.putWave (c.wave.park c.gang .held) else s.retire c i c.wave) := by
  rw [barrier, issue_outside_handler h hs]
  simp only [hg, if_true]

/-- A BAR outside the handler and a G-buffer step, on its block. -/
theorem barrier_of_block (h : Ready s c i) (hs : c.wave.sup = false) (hg : c.crew.isGbuffer = false)
    (hb : s.block? c.crew.id c.wave.ref.rank = some b) : barrier i crew waits s = .next
    (if bits (b.word 0x800) 5 0 ≠ 0 ∧ b.barCrew = some (!crew) then s.takeTrap c.wave (c.trap 0x12 4 0 c.activeGroup)
     else if s.mustWait c.wave.ref true true then s.putWave (c.wave.park c.gang .held)
     else (if waits then (s.putBlock (b.arrive c.wave.ref.wave crew)).putWave
          { (c.wave.park c.gang (.barrier (barGen (b.word 0x800)) false)) with
            issued := c.wave.issued + 1, roundIssued := c.wave.roundIssued + 1 }
        else (s.putBlock (b.arrive c.wave.ref.wave crew)).retire c i c.wave).checkBlock c.crew c.wave.ref.rank) := by
  rw [barrier, issue_outside_handler h hs]
  simp only [hg, hb, Bool.false_eq_true, if_false, Bool.and_eq_true, bne_iff_ne, beq_iff_eq]

/-- The BAR instructions are one frame, by the kind of their generation and by whether they wait at it. -/
theorem exec_barrier : ∀ p ∈ barriers, ∀ (o : Opnd) (s : State), exec (p.1 o) s = barrier (p.1 o) p.2.1 p.2.2 s := by
  simp only [barriers, List.forall_mem_cons, List.not_mem_nil, false_implies, implies_true, and_true]
  and_intros <;> exact fun _ _ => rfl

/-- A wave of a block that has not exited has not arrived. -/
def MissingAt (c : Crew) (rank : Nat) (b : Block) (w : Wave) : Prop :=
  w.ref.crew = c.id ∧ w.ref.rank = rank ∧ w.hasExited = false ∧ (BitVec.ofNat 32 (b.word 0x804)).getLsbD w.ref.wave = false

/-- The check of a barrier finds such a wave. -/
theorem any_missing {s : State} {c : Crew} {rank : Nat} {b : Block} :
    ((s.wavesOf c.id rank).any fun w => !w.hasExited && !(BitVec.ofNat 32 (b.word 0x804)).getLsbD w.ref.wave) = true ↔
      ∃ w ∈ s.waves, MissingAt c rank b w := by
  simp only [State.wavesOf, List.any_filter, List.any_eq_true, Bool.and_eq_true, beq_iff_eq, Bool.not_eq_true', MissingAt, and_assoc]

/-- While a wave has not arrived, the check of a block changes nothing. -/
theorem checkBlock_of_missing {s : State} {c : Crew} {rank : Nat} {b : Block} (hb : s.block? c.id rank = some b)
    (h : ∃ w ∈ s.waves, MissingAt c rank b w) : s.checkBlock c rank = s := by
  simp only [State.checkBlock, hb, any_missing.mpr h, Bool.or_true, if_true]

/-- Once every wave has arrived, a block generation completes. -/
theorem checkBlock_of_all {s : State} {c : Crew} {rank : Nat} {b : Block} (hb : s.block? c.id rank = some b)
    (hn : bits (b.word 0x800) 5 0 ≠ 0) (h : ∀ w ∈ s.waves, ¬MissingAt c rank b w) (hk : b.barCrew ≠ some true) :
    s.checkBlock c rank = s.completeBlock b := by
  have ha := Bool.eq_false_iff.mpr (mt any_missing.mp (by simpa using h) : _ ≠ true)
  have hc : (b.barCrew != some true) = true := by simpa using hk
  simp only [State.checkBlock, hb, ha, hn, hc, decide_false, Bool.or_self, Bool.false_eq_true, if_false, if_true]

/-- Settles O29: BAR is one frame, and the check of its block turns on the waves that have not arrived. -/
theorem barriersCountAndComplete : Obligations.BarriersCountAndComplete := by
  refine ⟨fun p hp o s c h hs => ?_, fun s c rank b hb hn => ⟨checkBlock_of_missing hb, checkBlock_of_all hb hn⟩⟩
  rw [exec_barrier p hp]
  refine ⟨fun hg hm => ?_, fun hg hm => ?_, fun b hg hb => ?_⟩
  · rw [barrier_of_gbuffer h hs hg, hm]; rfl
  · rw [barrier_of_gbuffer h hs hg, hm]; rfl
  · rw [barrier_of_block h hs hg hb]
    refine ⟨fun hc => ?_, fun hc hm => ?_, fun hc hm hw => ?_, fun hc hm hw => ?_⟩
    · rw [if_pos hc]
    · rw [if_neg hc, hm]; rfl
    · rw [if_neg hc, hm, hw]; rfl
    · rw [if_neg hc, hm, hw]; rfl

end Sys2Proof.Laws
end

section
/-! SUPPORT. Engine commands at their issue (R233, R234, R368). -/

namespace Sys2Proof.Laws

open Sys2Proof.Machine Sys2Proof.Safety

/-- A store in tile memory leaves the commands in flight. -/
@[simp] theorem Block.store_commands (b : Block) (off : Nat) (bs : List Byte) : (b.store off bs).commands = b.commands := rfl

/-- The engine instructions are one frame, by their kind. -/
theorem exec_engine : ∀ p ∈ engineForms, ∀ (o : Opnd) (s : State), exec (p.1 o) s = engineCommand (p.1 o) p.2 o s := by
  simp only [engineForms, List.forall_mem_cons, List.not_mem_nil, false_implies, implies_true, and_true]
  and_intros <;> exact fun _ _ => rfl

/-- A ready engine instruction that is not within itself makes the checks of its descriptor's address, waits for a progress
record and for held accesses, and reads its descriptor. -/
theorem engineCommand_of_ready {i : Instr} {kind : Nat} {o : Opnd} {s : State} {c : Issue} (h : Ready s c i) (hw : c.gang.within = false) :
    engineCommand i kind o s = .next (
      let da := c.wave.readG2 o.a.toNat
      let trap (cause sub : Nat) : State := s.takeTrap c.wave (c.trap cause sub da c.activeGroup 5)
      if da.toNat % 64 != 0 then trap 0x05 0
      else if canonical da && inStack c.wave.segs da then trap 0x06 0
      else match s.reachDesc c.wave c.crew da 64 5 with
      | (.error f, _) => trap f.cause f.sub
      | (.ok ps, s') =>
        if !s.recordFree c.crew.id c.wave.ref.rank then s.putWave (c.wave.park c.gang .record)
        else if (!c.wave.sup && !(s.heldOf c.wave.ref).isEmpty) || s.piecesHeld c.crew.id [(0, ps)] then s.putWave (c.wave.park c.gang .held)
        else match s'.readDesc c.wave c.crew da ps with
        | (.missing p sub, s) => s.holdDesc c 5 da c.activeGroup false p sub
        | (.got got, s) => s.startCommand c i kind got) := by
  rw [engineCommand, issue_plain h]
  split
  next hg => simp [Gang.within, hg] at hw
  next hg => simp [Gang.within, hg] at hw
  next => rfl

/-- The command that an engine instruction starts, with its descriptor's address and bits. -/
def newCommand (s : State) (c : Issue) (kind rec : Nat) (da : BitVec 64) (d : Nat) : Command :=
  { recNo := rec, kind := kind, wave := c.wave.ref.wave, index := c.wave.roundIssued % 1024, pc := c.gang.pc, desc := da.toNat, bits := d
    segs := c.wave.segs, total := totalUnits kind d, done := 0, written := [], held := []
    cur := (List.range c.crew.size).map fun r => match s.block? c.crew.id r with | some b => b.curs | none => 0
    table := [], starts := [((xfmDesc d).init, 0)], fromHandler := c.wave.sup }

/-- A descriptor that passes its checks fills the lowest free progress record, and its command joins the block. -/
theorem startCommand_of_sound {s : State} {c : Issue} {i : Instr} {kind rec d : Nat} {da : BitVec 64} {b : Block}
    (hd : s.descFault c.wave c.crew kind d da = none) (hb : s.block? c.crew.id c.wave.ref.rank = some b) (hr : b.freeRecordNo = some rec) :
    s.startCommand c i kind (.bits da d) =
      let m := newCommand s c kind rec da d
      let t := (s.retire c i c.wave).putBlock
        { b.store (0xA00 + 32 * rec) (leBytes 4 (2 ^ 31 + 2 ^ 28 * kind + 2 ^ 16 * c.wave.ref.wave) ++ leBytes 4 0 ++
            leBytes 8 da.toNat ++ leBytes 4 m.total ++ leBytes 12 0) with commands := b.commands ++ [m] }
      if kind = 4 then t.performUnit c.crew c.wave.ref.rank m m.total fun s m a sub => s.holdUnit c.crew c.wave.ref.rank m m.total a sub
      else if m.total = 0 then t.countUnits c.crew.id c.wave.ref.rank m else t := by
  have hret : (s.retire c i c.wave).block? c.crew.id c.wave.ref.rank = some b := hb
  simp only [State.startCommand, hd, hb, hr, hret, Option.bind_some, newCommand, Block.store_commands]
  rfl

/-- Settles O39: each command is one frame, whose steps the descriptor's address, its record and its checks decide. -/
theorem engineCommandsAreIssued : Obligations.EngineCommandsAreIssued := by
  intro p hp o s c b h hw hb da
  rw [exec_engine p hp, engineCommand_of_ready h hw]
  refine ⟨fun ha => ?_, fun ps s0 ha hst hps => ⟨fun hf => ?_, fun rec d s1 b1 hf hh hl hread hd hb1 hr => ?_⟩⟩
  · simp only [bne_iff_ne, da] at ha ⊢
    rw [if_pos ha]
  · simp only [da] at ha hst hps
    simp only [ha, hst, hps, hf, bne_self_eq_false, Bool.and_false, Bool.not_false, Bool.false_eq_true, if_false, if_true]
  · refine ⟨newCommand s1 c p.2 rec da d, rfl, rfl, rfl, rfl, rfl, rfl, rfl, rfl, rfl, rfl, ?_⟩
    simp only [da] at ha hst hps hread hd
    simp only [ha, hst, hps, hf, hh, hl, hread, bne_self_eq_false, Bool.and_false, Bool.not_true, Bool.or_self, List.isEmpty_nil,
      Bool.false_eq_true, if_false]
    rw [startCommand_of_sound hd hb1 hr]

end Sys2Proof.Laws
end

section
/-! SUPPORT. Bytes of memory and of tile memory, one at a time (R3, R6). -/

namespace Sys2Proof.Laws

open Sys2Proof.Machine Sys2Proof.Safety

/-- The byte that a key reads as: a free value while it is undefined (R6). -/
def byteAt (free : Nat → Byte) (l : Loose) (c : List (Nat × Byte)) (k : Nat) : Byte :=
  match looseAt l k with
  | some i => free i
  | none => cellGet 0 c k

theorem looseAt_eq_none {l : Loose} {k : Nat} : looseAt l k = none ↔ ∀ x ∈ l, k < x.1 ∨ x.1 + x.2.1 ≤ k := by
  simp only [looseAt, Option.map_eq_none_iff, List.find?_eq_none, Bool.and_eq_true, decide_eq_true_eq, not_and_or, not_le, not_lt]

theorem bytesAt_eq_map (c : List (Nat × Byte)) : ∀ (n a : Nat), bytesAt c a n = (List.range n).map fun j => cellGet 0 c (a + j)
  | 0, _ => rfl
  | n + 1, a => by
    rw [bytesAt, bytesAt_eq_map c n (a + 1), List.range_succ_eq_map, List.map_cons, List.map_map]
    exact congrArg _ (List.map_congr_left fun j _ => by simp only [Function.comp]; congr 1; omega)

theorem zipIdx_map_range {α : Type} (f : Nat → α) : ∀ (n i : Nat), ((List.range n).map f).zipIdx i = (List.range n).map fun j => (f j, i + j)
  | 0, _ => rfl
  | n + 1, i => by
    rw [List.range_succ, List.map_append, List.zipIdx_append, zipIdx_map_range f n i]
    simp

/-- A run of bytes reads byte by byte. -/
theorem readBytes_eq_map (free : Nat → Byte) (l : Loose) (c : List (Nat × Byte)) (a n : Nat) :
    readBytes free l c a n = (List.range n).map fun j => byteAt free l c (a + j) := by
  unfold readBytes
  split
  next h =>
    rw [bytesAt_eq_map]
    refine List.map_congr_left fun j hj => ?_
    have hn : looseAt l (a + j) = none := looseAt_eq_none.mpr fun x hx => by
      have := List.all_eq_true.mp h x hx
      simp only [Bool.or_eq_true, decide_eq_true_eq] at this
      have := List.mem_range.mp hj
      omega
    simp only [byteAt, hn]
  next =>
    rw [bytesAt_eq_map, zipIdx_map_range, List.map_map]
    rfl

theorem length_readBytes (free : Nat → Byte) (l : Loose) (c : List (Nat × Byte)) (a n : Nat) : (readBytes free l c a n).length = n := by
  simp [readBytes_eq_map]

/-- What a cut leaves of one undefined range: the part before the bytes that are defined now, and the part after them. -/
theorem find?_cutRange {a n x m i k : Nat} (hk : k < a ∨ a + n ≤ k) :
    ((((if x < a then [(x, min m (a - x), i)] else []) ++
        (if a + n < x + m then [(max x (a + n), x + m - max x (a + n), i + (max x (a + n) - x))] else [])).find?
      fun y : Nat × Nat × Nat => decide (y.1 ≤ k) && decide (k < y.1 + y.2.1)).map fun y => y.2.2 + (k - y.1)) =
    if x ≤ k ∧ k < x + m then some (i + (k - x)) else none := by
  by_cases hx : x ≤ k ∧ k < x + m
  case neg =>
    rw [if_neg hx, Option.map_eq_none_iff, List.find?_eq_none]
    intro y hy
    simp only [List.mem_append, List.mem_ite_nil_right, List.mem_singleton] at hy
    rcases hy with ⟨-, rfl⟩ | ⟨-, rfl⟩ <;> simp only [Bool.and_eq_true, decide_eq_true_eq] <;> omega
  rw [if_pos hx]
  rcases hk with hk | hk
  · have h1 : x < a := by omega
    have h2 : k < x + min m (a - x) := by omega
    simp only [h1, if_true, List.cons_append, List.find?_cons, hx.1, h2, decide_true, Bool.and_self, Option.map_some]
  · have h1 : a + n < x + m := by omega
    have h2 : max x (a + n) ≤ k := by omega
    have h3 : k < max x (a + n) + (x + m - max x (a + n)) := by omega
    have h4 : i + (max x (a + n) - x) + (k - max x (a + n)) = i + (k - x) := by omega
    by_cases hxa : x < a
    · have h5 : ¬k < x + min m (a - x) := by omega
      simp only [hxa, h1, if_true, List.cons_append, List.nil_append, List.find?_cons, h5, h2, h3, decide_true, decide_false,
        Bool.and_false, Bool.and_self, Option.map_some, h4]
    · simp only [hxa, h1, if_true, if_false, List.nil_append, List.find?_cons, h2, h3, decide_true, Bool.and_self, Option.map_some, h4]

/-- Bytes beside those that are defined now stay undefined, with their numbers. -/
theorem looseAt_cutLoose_out {l : Loose} {a n k : Nat} (hk : k < a ∨ a + n ≤ k) : looseAt (cutLoose l a n) k = looseAt l k := by
  unfold cutLoose
  split
  · rfl
  simp only [looseAt]
  induction l with
  | nil => rfl
  | cons y r ih =>
    obtain ⟨x, m, i⟩ := y
    have hy := find?_cutRange (x := x) (m := m) (i := i) hk
    rw [List.flatMap_cons, List.find?_append, Option.map_or, hy, ih, List.find?_cons]
    by_cases hx : x ≤ k ∧ k < x + m
    · simp [hx]
    · have : (decide (x ≤ k) && decide (k < x + m)) = false := by simpa using hx
      simp only [hx, this, if_false, Option.none_or]

/-- The bytes that are defined now are. -/
theorem looseAt_cutLoose_in {l : Loose} {a n k : Nat} (h1 : a ≤ k) (h2 : k < a + n) : looseAt (cutLoose l a n) k = none := by
  refine looseAt_eq_none.mpr fun x hx => ?_
  rcases cutLoose_apart (l := l) (a := a) (n := n) with h | h
  · have := List.all_eq_true.mp h x hx
    simp only [Bool.or_eq_true, decide_eq_true_eq] at this
    omega
  · omega

/-- A byte beside those stored reads as before. -/
theorem byteAt_store_out {free : Nat → Byte} {l : Loose} {c : List (Nat × Byte)} {a k : Nat} {bs : List Byte}
    (h : k < a ∨ a + bs.length ≤ k) : byteAt free (cutLoose l a bs.length) (storeBytes c a bs) k = byteAt free l c k := by
  simp only [byteAt, looseAt_cutLoose_out h, cellGet_storeBytes_ne h]

/-- A stored byte reads back. -/
theorem byteAt_store_in {free : Nat → Byte} {l : Loose} {c : List (Nat × Byte)} {a j : Nat} {bs : List Byte} (hc : cellsWf 0 c = true)
    (h : j < bs.length) : byteAt free (cutLoose l a bs.length) (storeBytes c a bs) (a + j) = bs[j] := by
  have hb : (List.range bs.length).map (fun j => cellGet 0 (storeBytes c a bs) (a + j)) = bs := by
    rw [← bytesAt_eq_map, bytesAt_storeBytes hc]
  simp only [byteAt, looseAt_cutLoose_in (l := l) (show a ≤ a + j by omega) (show a + j < a + bs.length by omega)]
  have := congrArg (fun x => x[j]?) hb
  simpa [h] using this

/-- Bytes that are stored as they read stay as they are. -/
theorem byteAt_store_same {free : Nat → Byte} {l : Loose} {c : List (Nat × Byte)} {a n k : Nat} (hc : cellsWf 0 c = true) :
    byteAt free (cutLoose l a n) (storeBytes c a (readBytes free l c a n)) k = byteAt free l c k := by
  have hl := length_readBytes free l c a n
  by_cases hk : k < a ∨ a + n ≤ k
  · have := byteAt_store_out (free := free) (l := l) (c := c) (bs := readBytes free l c a n) (by rwa [hl])
    rwa [hl] at this
  · obtain ⟨j, rfl⟩ : ∃ j, k = a + j := ⟨k - a, by omega⟩
    have hj : j < n := by omega
    have := byteAt_store_in (free := free) (l := l) (a := a) (j := j) (bs := readBytes free l c a n) hc (by rwa [hl])
    simp only [hl] at this
    rw [this]
    simp [readBytes_eq_map]

/-! ## Memory -/

theorem memBytes_eq_map (s : State) (k n : Nat) :
    s.memBytes k n = (List.range n).map fun j => byteAt Config.freeByte s.loose s.mem (k + j) := readBytes_eq_map ..

@[simp] theorem length_memBytes (s : State) (k n : Nat) : (s.memBytes k n).length = n := length_readBytes ..

/-- Memory and its undefined bytes are all that a read depends on. -/
theorem memBytes_congr {s t : State} (h : SameMemory s t) (k n : Nat) : t.memBytes k n = s.memBytes k n := by
  simp only [State.memBytes, h.1, h.2]

/-- A byte beside those stored reads as before. -/
theorem memBytes_putMem_out {s : State} {a k : Nat} {bs : List Byte} (h : k < a ∨ a + bs.length ≤ k) :
    (s.putMem a bs).memBytes k 1 = s.memBytes k 1 := by
  simp only [memBytes_eq_map, List.range_one, List.map_cons, List.map_nil, Nat.add_zero]
  exact congrArg (fun x => [x]) (byteAt_store_out h)

/-! ## Tile memory -/

theorem block_bytes_eq_map (b : Block) (p n : Nat) :
    b.bytes p n = (List.range n).map fun j => byteAt (Config.freeTile (8 * b.crew + b.rank)) b.loose b.tile (p + j) := readBytes_eq_map ..

@[simp] theorem length_block_bytes (b : Block) (p n : Nat) : (b.bytes p n).length = n := length_readBytes ..

/-- A byte of a block beside those stored reads as before. -/
theorem block_bytes_store_out {b : Block} {a k : Nat} {bs : List Byte} (h : k < a ∨ a + bs.length ≤ k) :
    (b.store a bs).bytes k 1 = b.bytes k 1 := by
  simp only [block_bytes_eq_map, List.range_one, List.map_cons, List.map_nil, Nat.add_zero]
  exact congrArg (fun x => [x]) (byteAt_store_out h)

/-- Bytes of a block that are stored as they read stay as they are. -/
theorem block_bytes_store_same {b : Block} (h : cellsWf 0 b.tile = true) (a n k m : Nat) : (b.store a (b.bytes a n)).bytes k m = b.bytes k m := by
  have hl : (b.store a (b.bytes a n)).loose = cutLoose b.loose a n := by rw [Block.store, length_block_bytes]
  rw [block_bytes_eq_map (b.store a (b.bytes a n)), block_bytes_eq_map b k m, hl]
  exact List.map_congr_left fun j _ => byteAt_store_same h

end Sys2Proof.Laws
end

section
/-! SUPPORT. Gates and PUBLISH (R59, R236, R237, R369). -/

namespace Sys2Proof.Laws

open Sys2Proof.Machine Sys2Proof.Safety

/-! ## GATEINIT and GATEARM -/

section
variable {i : Instr} {o : Opnd} {refuse : Block → Bool} {f : Issue → Block → Nat → Block} {s : State} {c : Issue} {r off : Nat} {b : Block}

/-- A gate instruction on a gate that its locator may name (R344, R369). -/
theorem gateOp_of_gate (h : Ready s c i) (hg : s.gateAt c.wave c.crew (c.wave.readG o.a.toNat) = .ok (r, off))
    (hb : s.block? c.crew.id r = some b) : gateOp i o s refuse f = .next
    (if refuse b then s.takeTrap c.wave (c.trap 0x0B 10 ((c.wave.readG o.a.toNat).setWidth 64) c.activeGroup)
     else if !c.wave.sup && s.mustWait c.wave.ref true false then s.putWave (c.wave.park c.gang .held)
     else (s.gateUpdate b off fun b => f c b off).retire c i c.wave) := by
  rw [gateOp, issue_plain h]
  simp only [hg, hb]

/-- A gate instruction whose locator may not be named traps with the cause of its fault (R363). -/
theorem gateOp_of_fault {cause : Nat} (h : Ready s c i) (hg : s.gateAt c.wave c.crew (c.wave.readG o.a.toNat) = .error cause) :
    gateOp i o s refuse f = .next (s.takeTrap c.wave (c.trap cause 0 ((c.wave.readG o.a.toNat).setWidth 64) c.activeGroup 1)) := by
  rw [gateOp, issue_plain h]
  simp only [hg]

/-- Where nothing keeps it back, it updates its gate. -/
theorem gateOp_updates (h : Ready s c i) (hg : s.gateAt c.wave c.crew (c.wave.readG o.a.toNat) = .ok (r, off))
    (hb : s.block? c.crew.id r = some b) (hr : refuse b = false) (hf : c.wave.sup = true ∨ s.mustWait c.wave.ref true false = false) :
    gateOp i o s refuse f = .next ((s.gateUpdate b off fun b => f c b off).retire c i c.wave) := by
  have hw : (!c.wave.sup && s.mustWait c.wave.ref true false) = false := by rcases hf with hf | hf <;> simp [hf]
  rw [gateOp_of_gate h hg hb, hr, hw]; rfl

/-- It waits for held reads. -/
theorem gateOp_waits (h : Ready s c i) (hg : s.gateAt c.wave c.crew (c.wave.readG o.a.toNat) = .ok (r, off))
    (hb : s.block? c.crew.id r = some b) (hr : refuse b = false) (hf : ¬(c.wave.sup = true ∨ s.mustWait c.wave.ref true false = false)) :
    gateOp i o s refuse f = .next (s.putWave (c.wave.park c.gang .held)) := by
  have hw : (!c.wave.sup && s.mustWait c.wave.ref true false) = true := by simpa [not_or] using hf
  rw [gateOp_of_gate h hg hb, hr, hw]; rfl

/-- It is refused. -/
theorem gateOp_refused (h : Ready s c i) (hg : s.gateAt c.wave c.crew (c.wave.readG o.a.toNat) = .ok (r, off))
    (hb : s.block? c.crew.id r = some b) (hr : refuse b = true) : gateOp i o s refuse f = .next
    (s.takeTrap c.wave (c.trap 0x0B 10 ((c.wave.readG o.a.toNat).setWidth 64) c.activeGroup)) := by
  rw [gateOp_of_gate h hg hb, hr]; rfl

end

/-! ## One update of a gate -/

/-- t is the block of s with bytes of its tile memory stored. -/
structure Stored (b d : Block) : Prop where
  crew : d.crew = b.crew
  rank : d.rank = b.rank
  canonical : cellsWf 0 b.tile = true → cellsWf 0 d.tile = true

theorem stored_store (b : Block) (off : Nat) (bs : List Byte) : Stored b (b.store off bs) := ⟨rfl, rfl, storeBytes_wf⟩

theorem Stored.trans {b d e : Block} (h : Stored b d) (k : Stored d e) : Stored b e :=
  ⟨k.crew.trans h.crew, k.rank.trans h.rank, fun hb => k.canonical (h.canonical hb)⟩

/-- The completion check stores bytes of the gate's block alone. -/
theorem stored_checkGate (b : Block) (off : Nat) (g : Gate) : Stored b (b.checkGate off g) := by
  unfold Block.checkGate
  split
  · extract_lets g' d
    have hd : Stored b d := stored_store ..
    split
    · exact hd.trans (stored_store ..)
    · exact hd
  · exact stored_store ..

/-- Where no strong access is remembered, an update of a gate stores the block that it makes, in 16 bytes. -/
theorem gateUpdate_of_no_strong {s : State} (hs : s.strongs = []) (b : Block) (off : Nat) (f : Block → Block) :
    s.gateUpdate b off f = (s.noteFoot 0 (8 * (f b).crew + (f b).rank) (b.visible off) 16 true true).putBlock
      ((f b).store (b.visible off) ((f b).bytes (b.visible off) 16)) := by
  simp only [State.gateUpdate, State.mixers, hs, List.filter_nil, State.blur, List.isEmpty_nil, if_true]

/-- Tile memory of a block that has been put in its place. -/
theorem tileBytes_putBlock_same {s : State} {b x : Block} (h : s.block? b.crew b.rank = some x) (p n : Nat) :
    tileBytes (s.putBlock b) b.crew (b.rank, p) n = b.bytes p n := by
  obtain ⟨hc, hr⟩ := block?_key h
  simp only [tileBytes, block?_putBlock, h, hc, hr, beq_self_eq_true, Bool.and_self, if_true, Option.map_some]

/-- After an update of a gate, tile memory holds what the update makes, and memory and waves stand (R59, R236). -/
theorem gateUpdate_checkGate {s : State} {b : Block} {off : Nat} {g : Gate} (hs : s.strongs = [])
    (hb : s.block? b.crew b.rank = some b) (hw : cellsWf 0 b.tile = true) (p n : Nat) :
    tileBytes (s.gateUpdate b off fun b => b.checkGate off g) b.crew (b.rank, p) n = (b.checkGate off g).bytes p n := by
  obtain ⟨hc, hr, hk⟩ := stored_checkGate b off g
  rw [gateUpdate_of_no_strong hs]
  rw [← block_bytes_store_same (hk hw) (b.visible off) 16 p n]
  generalize hd : (b.checkGate off g).store (b.visible off) ((b.checkGate off g).bytes (b.visible off) 16) = d
  have hdc : d.crew = b.crew := by rw [← hd]; exact hc
  have hdr : d.rank = b.rank := by rw [← hd]; exact hr
  rw [← hdc, ← hdr]
  exact tileBytes_putBlock_same (x := b) (by rw [hdc, hdr]; exact hb) p n

/-! ## PUBLISH -/

/-- PUBLISH on its block (R237, R344). -/
theorem exec_publish {o : Opnd} {s : State} {c : Issue} {b : Block} (h : Ready s c (.publish o))
    (hb : s.block? c.crew.id c.wave.ref.rank = some b) : exec (.publish o) s = .next
    (if b.doubleBuffered (o.ext.imm.toNat % 16) then
      if !c.wave.sup && s.mustWait c.wave.ref true true then s.putWave (c.wave.park c.gang .held)
      else (s.putBlock (b.publish (o.ext.imm.toNat % 16))).retire c (.publish o) c.wave
     else s.takeTrap c.wave (c.trap 0x0B 10 (BitVec.ofNat 64 (o.ext.imm.toNat % 16)) c.activeGroup)) := by
  refine (issue_plain h).trans ?_
  simp only [hb]
  cases b.doubleBuffered (o.ext.imm.toNat % 16) <;> rfl

/-- Settles O40: a gate's instructions are one frame around one update of 16 bytes, and PUBLISH is a release. -/
theorem gatesAndPublication : Obligations.GatesAndPublication := by
  refine ⟨fun o s c r off b hg hb => ⟨fun h hd hf => ?_, fun h hp hd => ?_, fun h hf => ?_, fun h hf => ?_, fun h hd hf => ?_⟩,
    fun s b off g hs hb hw => ⟨gateUpdate_checkGate hs hb hw, ?_⟩, fun mk hm o s c cause h hg => ?_,
    fun o s c b h hb => ⟨fun hd hs hm => ?_, fun hd hf => ?_, fun hd => ?_⟩⟩
  · exact gateOp_updates h hg hb (by rcases hd with hd | hd <;> simp only [hd, Bool.false_and, Bool.not_true, Bool.and_false]) hf
  · exact gateOp_refused h hg hb (by simp only [hp, hd, Bool.not_false, Bool.and_self])
  · exact gateOp_updates h hg hb rfl hf
  · exact gateOp_waits h hg hb rfl hf
  · exact gateOp_waits h hg hb (by rcases hd with hd | hd <;> simp only [hd, Bool.false_and, Bool.not_true, Bool.and_false]) hf
  · rw [gateUpdate_of_no_strong hs]
    exact ⟨⟨rfl, rfl⟩, rfl⟩
  · simp only [List.mem_cons, List.not_mem_nil, or_false] at hm
    rcases hm with rfl | rfl <;> exact gateOp_of_fault h hg
  · rw [exec_publish h hb, hd, hs, hm]; rfl
  · have hw : (!c.wave.sup && s.mustWait c.wave.ref true true) = false := by rcases hf with hf | hf <;> simp [hf]
    rw [exec_publish h hb, hd, hw]; rfl
  · rw [exec_publish h hb, hd]; rfl

end Sys2Proof.Laws
end

section
/-! SUPPORT. HCALL, and the instructions of a combiner wave (R225, R226, R230, R231, R362). -/

namespace Sys2Proof.Laws

open Sys2Proof.Machine Sys2Proof.Safety

/-! ## HCALL -/

/-- What the checks of an HCALL's lanes give, in lane order, when every one passes. -/
theorem foldl_reachCall {w : Wave} {c : Crew} {f : AccessForm} {addr : Nat → BitVec 64} : ∀ {lanes : List Nat} {s t : State}
    {ps : List (Nat × Piece)} (outs : List (Nat × Except Failure Piece)), callPlaces w c f addr lanes s = some (ps, t) →
    lanes.foldl (fun (acc : List (Nat × Except Failure Piece) × State) l =>
      let (r, s) := acc.2.reachCall w c f l (addr l)
      (acc.1 ++ [(l, r)], s)) (outs, s) = (outs ++ ps.map fun x => (x.1, .ok x.2), t)
  | [], s, t, ps, outs, h => by
    cases h
    simp
  | l :: ls, s, t, ps, outs, h => by
    simp only [callPlaces] at h
    split at h
    next p s1 hp =>
      obtain ⟨⟨qs, u⟩, hq, he⟩ := Option.map_eq_some_iff.mp h
      cases he
      simp only [List.foldl_cons, hp, foldl_reachCall _ hq, List.map_cons, List.append_assoc, List.cons_append, List.nil_append]
    next => cases h

/-- Nothing is picked of lanes whose checks pass, where g picks none of them. -/
theorem filterMap_passed {α : Type} {g : Nat × Except Failure Piece → Option α} {ps : List (Nat × Piece)} (h : ∀ x ∈ ps, g (x.1, .ok x.2) = none) :
    (ps.map fun x => (x.1, (Except.ok x.2 : Except Failure Piece))).filterMap g = [] := by
  rw [List.filterMap_map]
  exact List.filterMap_eq_nil_iff.mpr h

/-- The places stand in lane order. -/
theorem callPlaces_lanes {w : Wave} {c : Crew} {f : AccessForm} {addr : Nat → BitVec 64} : ∀ {lanes : List Nat} {s t : State}
    {ps : List (Nat × Piece)}, callPlaces w c f addr lanes s = some (ps, t) → ps.map Prod.fst = lanes
  | [], s, t, ps, h => by
    cases h
    rfl
  | l :: ls, s, t, ps, h => by
    simp only [callPlaces] at h
    split at h
    next p s1 hp =>
      obtain ⟨⟨qs, u⟩, hq, he⟩ := Option.map_eq_some_iff.mp h
      cases he
      simp only [List.map_cons, callPlaces_lanes hq]
    next => cases h

/-- The needs of an instruction of a combiner wave (R362). -/
theorem needsMet_inCombiner {c : Issue} {o : Nat} (h : c.crew.combines = some o) : NeedsMet (inCombiner c) c.wave :=
  ⟨nofun, nofun, rfl, rfl, by simp only [inCombiner, h, Option.isNone_some, Bool.false_eq_true, if_false], rfl⟩

/-- An instruction of a combiner wave traps ROLE SUB 5 in any other, at its first issue (R362). -/
theorem issue_outside_combiner {i : Instr} {s : State} {c : Issue} {body : Issue → State} (h : Ready s c i) (hc : c.crew.combines = none)
    (hf : FirstIssue c) : issue i inCombiner s body =
      .next (s.takeTrap c.wave (c.trap 0x11 5 (wordsAddr (encode i)) (c.lanesOf i))) := by
  have hw : (c.gang.wait == .registers) = false := by simpa using hf.1
  have hk : c.check i (inCombiner c) = .trap (c.trap 0x11 5 (wordsAddr (encode i)) (c.lanesOf i)) := by
    simp only [Issue.check, hf.2, hw, h.inside, h.role, inCombiner, hc, Option.isNone_none, Bool.false_and, Bool.not_true,
      Bool.false_eq_true, if_false, if_true]
  simp only [issue, h.issuer, hk]

/-- The batch's object of a combiner wave. -/
theorem batchObject_of_kind {s : State} {c : Issue} {id : Nat} {b : Object} (hk : c.crew.kind = .combiner id) (hb : s.object? id = some b) :
    c.crew.combines = some id ∧ s.batchObject c = some b := by
  have h : c.crew.combines = some id := by simp only [Crew.combines, hk]
  exact ⟨h, by simp only [State.batchObject, h, Option.bind_some, hb]⟩

section
variable {o : Opnd} {s s1 : State} {c : Issue} {ps : List (Nat × Piece)} {mt pa lmt lpa : Nat → Nat} {comp : Nat → Bool} {e : Nat → BitVec 64}

/-- The request of one lane of an HCALL, at its place, goes on its way, and the line leaves the core's L1 (R63, R226). -/
def sendRequest (c : Issue) (o : Opnd) (stamp : Nat) (mt pa lmt lpa : Nat → Nat) (comp : Nat → Bool) (e : Nat → BitVec 64) (t : State)
    (l : Nat) : State :=
  { t.dropL1Line (c.crew.coreOf c.wave.ref.rank) (mt l) (pa l) with
    inflight := t.inflight ++ [{ wave := c.wave.ref, lane := l, landing := stamp, method := o.ext.imm.toNat % 256
                                 arg := (c.wave.readV o.b.toNat).at_ l, addr := c.wave.readV2 o.a.toNat l, mt := mt l, pa := pa l
                                 comp := comp l, leaf := e l, leafMt := lmt l, leafPa := lpa l, stamp := stamp, pc := c.gang.pc
                                 context := c.crew.ctx, part := c.crew.part, arrived := 0 }] }

/-- An HCALL all of whose lanes reach device memory sends a request for each (R226). -/
theorem exec_hcall (h : Ready s c (.hcall o)) (hs : c.wave.sup = false) (hc : c.crew.combines = none) (hh : s.heldOf c.wave.ref = [])
    (hp : callPlaces c.wave c.crew { size := if o.ext.imm.toNat % 256 = 2 then 8 else 4, align := if o.ext.imm.toNat % 256 = 2 then 8 else 4
                                     need := { r := true, w := true }, write := true, kind := 2 }
      (fun l => c.wave.readV2 o.a.toNat l) (LaneMask.lanes (c.active o.ext)) s = some (ps, s1))
    (hm : ∀ x ∈ ps, x.2.place = .mem (mt x.1) (pa x.1) (comp x.1) (e x.1) (lmt x.1) (lpa x.1)) :
    exec (.hcall o) s = .next ((LaneMask.lanes (c.active o.ext)).foldl (sendRequest c o s1.stamp mt pa lmt lpa comp e)
      ({ s1 with stamp := s1.stamp + 1 }.retire c (.hcall o) (c.wave.produce
        { id := s1.stamp, file := false, reg := o.d.toNat, lanes := c.active o.ext, data := [Lanes.build fun _ => 0]
          pending := c.active o.ext }))) := by
  refine (issue_of_ready (n := fun c => { notInHandler := true, place := if c.crew.combines.isSome then some 5 else none }) h
    ⟨nofun, fun _ => hs, rfl, rfl, by simp only [hc, Option.isSome_none, Bool.false_eq_true, if_false], rfl⟩).trans ?_
  simp only [foldl_reachCall [] hp, List.nil_append]
  rw [filterMap_passed fun x _ => rfl, filterMap_passed fun x hx => by simp only [hm x hx], ← callPlaces_lanes hp]
  simp only [hh, List.isEmpty_nil, Bool.not_true, Bool.false_eq_true, if_false, State.takeStamp, State.raiseLanes, List.foldl_map]
  exact congrArg _ (List.foldl_ext _ _ _ fun t x hx => by simp only [hm x hx]; rfl)

end

/-! ## Combiner waves -/

section
variable {o : Opnd} {s : State} {c : Issue} {id : Nat} {b : Object}

theorem exec_harg (h : Ready s c (.harg o)) (hk : c.crew.kind = .combiner id) (hb : s.object? id = some b) :
    exec (.harg o) s = .next (s.retire c (.harg o) (c.wave.writeV o.d.toNat (c.active o.ext) fun l =>
      match (b.running.getD [])[l]? with
      | some q => q.field (o.ext.imm.toNat % 4)
      | none => 0)) := by
  obtain ⟨hc, ho⟩ := batchObject_of_kind hk hb
  refine (issue_of_ready h (needsMet_inCombiner hc)).trans ?_
  simp only [ho, Option.bind_some] <;> rfl

theorem exec_hinfo (h : Ready s c (.hinfo o)) (hk : c.crew.kind = .combiner id) (hb : s.object? id = some b) :
    exec (.hinfo o) s = .next (s.retire c (.hinfo o) (c.wave.writeG c.gang.slices o.d.toNat (BitVec.ofNat 32
      ((b.running.getD []).length + 256 * (match b.running.getD [] with | q :: _ => q.method | [] => 0))))) := by
  obtain ⟨hc, ho⟩ := batchObject_of_kind hk hb
  refine (issue_of_ready h (needsMet_inCombiner hc)).trans ?_
  simp only [ho, Option.bind_some]
  cases b.running.getD [] <;> rfl

theorem exec_hreply (h : Ready s c (.hreply o)) (hk : c.crew.kind = .combiner id) (hb : s.object? id = some b) :
    exec (.hreply o) s = .next ((s.putObject { b with
      replies := (b.replies.filter fun (x : Nat × Word) => !(c.active o.ext).getLsbD x.1) ++
        (LaneMask.lanes (c.active o.ext)).map fun l => (l, (c.wave.readV o.a.toNat).at_ l) }).retire c (.hreply o) c.wave) := by
  obtain ⟨hc, ho⟩ := batchObject_of_kind hk hb
  refine (issue_of_ready h (needsMet_inCombiner hc)).trans ?_
  simp only [ho]

theorem exec_hdone (h : Ready s c (.hdone o)) (hk : c.crew.kind = .combiner id) (hb : s.object? id = some b) :
    exec (.hdone o) s = .next (((b.running.getD []).zipIdx.foldl (fun (s : State) x =>
      s.reply x.1 (((b.replies.find? fun y => y.1 == x.2).map fun y => y.2).getD 0))
        ((s.commitBytes (c.crew.coreOf 0) c.crew.part c.crew.ctx.ctag none c.wave.buffer).endBatch b)).tidyObjects) := by
  obtain ⟨hc, ho⟩ := batchObject_of_kind hk hb
  refine (issue_of_ready h (needsMet_inCombiner hc)).trans ?_
  simp only [ho]

end

/-- Settles O44: HCALL sends what its lanes' checks give; the combiner's instructions act on the object of their batch. -/
theorem requestsAndTheirCombiners : Obligations.RequestsAndTheirCombiners := by
  refine ⟨fun o s s1 c ps mt pa lmt lpa comp e h hs hc hh hp hm => exec_hcall h hs hc hh hp hm,
    fun o s c id b hk hb => ⟨fun h => exec_harg h hk hb, fun h => exec_hinfo h hk hb, fun h => exec_hreply h hk hb,
      fun h => exec_hdone h hk hb⟩, fun mk hm o s c h hc hf => ?_⟩
  simp only [List.mem_cons, List.not_mem_nil, or_false] at hm
  rcases hm with rfl | rfl | rfl | rfl <;> exact issue_outside_combiner h hc hf

end Sys2Proof.Laws
end

section
/-! SUPPORT. What one access to memory changes beside the bytes that it stores (R62, R63, R74, R97, R397). -/

namespace Sys2Proof.Laws

open Sys2Proof.Machine Sys2Proof.Safety

/-! ## The caches -/

/-- What a lookup leaves. -/
theorem CachesOnly.keeps {s t : State} (h : CachesOnly s t) : t.waves = s.waves ∧ t.crews = s.crews ∧ t.module = s.module ∧ t.mem = s.mem ∧
    t.loose = s.loose ∧ t.poison = s.poison ∧ t.strongs = s.strongs := by
  obtain ⟨⟨x, rfl⟩, -, -⟩ := h
  exact ⟨rfl, rfl, rfl, rfl, rfl, rfl, rfl⟩

theorem CachesOnly.memory {s t : State} (h : CachesOnly s t) : SameMemory s t :=
  have ⟨_, _, _, hm, hl, _⟩ := h.keeps
  ⟨hm, hl⟩

theorem CachesOnly.linkDown {s t : State} (h : CachesOnly s t) (mt : Nat) : t.linkDown mt = s.linkDown mt := by
  rw [State.linkDown, State.linkDown, h.keeps.2.2.1]

/-- The poison of memory, and the links that are down, are all that a check for poison depends on. -/
theorem memPoisoned_congr {s t : State} (hm : t.module = s.module) (hp : t.poison = s.poison) (mt pa n : Nat) :
    t.memPoisoned mt pa n = s.memPoisoned mt pa n := by
  simp only [State.memPoisoned, State.linkDown, hm, hp]

/-- An access to a line whose link is up changes the caches alone. -/
theorem cachesOnly_touchL2_up {s : State} {mt : Nat} (h : s.linkDown mt = false) (part ctag : Nat) (blk : Option (Nat × Nat)) (pa n : Nat)
    (write comp : Bool) : CachesOnly s (s.touchL2 part ctag blk mt pa n write comp) := by
  cases write with
  | false => exact cachesOnly_touchL2 ..
  | true =>
    unfold State.touchL2
    extract_lets line system t home mark u
    have hu : CachesOnly s u :=
      (cachesOnly_fillL2 ..).trans ((cachesOnly_l2 t _ t.fills).trans (cachesOnly_trimL2 ..))
    have hv : CachesOnly s (if system = true then u.charge blk n else u) := by
      split
      · exact hu.trans (cachesOnly_charge ..)
      · exact hu
    rw [if_pos rfl, if_neg]
    · exact hv
    · rw [hv.linkDown, h]
      exact Bool.false_ne_true

theorem l1_choose (s : State) (n : Nat) : (s.choose n).2.l1 = s.l1 := by
  unfold State.choose; split <;> rfl

theorem l1_charge (s : State) (blk : Option (Nat × Nat)) (n : Nat) : (s.charge blk n).l1 = s.l1 := by
  unfold State.charge; split <;> rfl

theorem l1_evict (s : State) (x : L2Line) : (s.evict x).l1 = s.l1 := by
  have hf (bs : List (Nat × Nat)) (t : State) : (bs.foldl (fun s b => s.charge (some b) 128) t).l1 = t.l1 := by
    induction bs generalizing t with
    | nil => rfl
    | cons b bs ih => exact (ih _).trans (l1_charge ..)
  unfold State.evict
  extract_lets t
  split
  · exact hf ..
  · rfl

theorem l1_trimL2 (home : Nat) : ∀ (n : Nat) (s : State), (s.trimL2 home n).l1 = s.l1
  | 0, _ => rfl
  | n + 1, s => by
    unfold State.trimL2
    split
    · rfl
    · split
      · rfl
      · exact (l1_trimL2 home n _).trans (l1_evict ..)

theorem l1_fillL2 (s : State) (part ctag : Nat) (blk : Option (Nat × Nat)) (mt line : Nat) (through comp : Bool) :
    (s.fillL2 part ctag blk mt line through comp).l1 = s.l1 := by
  unfold State.fillL2
  extract_lets home
  split
  next t here h =>
  have ht : t.l1 = s.l1 := by
    split at h
    · cases h
      rfl
    · split at h
      next k u hk =>
      have hu : u.l1 = s.l1 := by rw [← l1_choose s 2, hk]
      split at h
      · cases h
        exact (l1_evict ..).trans hu
      · cases h
        exact hu
  split
  · exact ht
  · extract_lets new u
    refine (l1_trimL2 ..).trans ?_
    simp only [u]
    split
    · exact ht
    · exact (l1_charge ..).trans ht

/-- The lines that a core's L1 holds are none of those of L2. -/
theorem l1_touchL2 (s : State) (part ctag : Nat) (blk : Option (Nat × Nat)) (mt pa n : Nat) (comp : Bool) :
    (s.touchL2 part ctag blk mt pa n false comp).l1 = s.l1 := l1_fillL2 ..

/-! ## The bits of a leaf -/

theorem and_not_of_and_eq {n : Nat} {e m : BitVec n} (h : e &&& m = m) : m &&& ~~~e = 0 := by
  ext i
  have hi : (e &&& m)[i] = m[i] := by rw [h]
  rw [BitVec.getElem_and, ← hi, BitVec.getElem_and, BitVec.getElem_not]
  cases e[i] <;> simp

/-- Through a leaf whose A and D bits are set nothing is set. -/
theorem touchLeaf_of_ad {e : BitVec 64} (h : e &&& 0x60 = 0x60) (s : State) (cl mt pa : Nat) (write : Bool) : s.touchLeaf cl e mt pa write = s := by
  have ha : e &&& 0x20 = 0x20 := by
    calc e &&& 0x20 = (e &&& 0x60) &&& 0x20 := by rw [BitVec.and_assoc]; rfl
      _ = 0x20 := by rw [h]; rfl
  cases write
  · exact if_pos (and_not_of_and_eq ha)
  · exact if_pos (and_not_of_and_eq h)

/-- Nor is anything for a read through one whose A bit is set. -/
theorem touchLeaf_of_a {e : BitVec 64} (h : e &&& 0x20 = 0x20) (s : State) (cl mt pa : Nat) : s.touchLeaf cl e mt pa false = s :=
  if_pos (and_not_of_and_eq h)

/-! ## Stores -/

/-- t differs from s in memory, caches, tags, remembered accesses and releases, and in poison that has gone, alone, as far as a
later access depends on it. -/
structure StoresOnly (s t : State) : Prop where
  waves : t.waves = s.waves
  parts : t.parts = s.parts
  module : t.module = s.module
  poison : ∀ u ∈ t.poison, u ∈ s.poison
  block : ∀ crew rank, (t.block? crew rank).map uncounted = (s.block? crew rank).map uncounted

theorem StoresOnly.refl (s : State) : StoresOnly s s := ⟨rfl, rfl, rfl, fun _ h => h, fun _ _ => rfl⟩

theorem StoresOnly.trans {s t u : State} (h : StoresOnly s t) (k : StoresOnly t u) : StoresOnly s u :=
  ⟨k.waves.trans h.waves, k.parts.trans h.parts, k.module.trans h.module, fun x hx => h.poison x (k.poison x hx),
    fun c r => (k.block c r).trans (h.block c r)⟩

theorem CachesOnly.storesOnly {s t : State} (h : CachesOnly s t) : StoresOnly s t :=
  have ⟨hw, _, hm, _, _, hp, _⟩ := h.keeps
  ⟨hw, h.parts, hm, fun _ hu => hp ▸ hu, h.block⟩

/-- Where the blocks are the same but for their counts of bytes moved, tile memory reads as before. -/
theorem StoresOnly.tiles {s t : State} (h : StoresOnly s t) : SameTiles s t := by
  intro crew q n
  have hb := h.block crew q.1
  simp only [tileBytes]
  cases hs : s.block? crew q.1 <;> cases ht : t.block? crew q.1 <;> rw [hs, ht] at hb
  · cases hb
  · cases hb
  next b d =>
    have hu : uncounted d = uncounted b := Option.some.inj hb
    have hk (x : Block) : x.bytes q.2 n = (uncounted x).bytes q.2 n := rfl
    exact (hk d).trans ((congrArg (Block.bytes · q.2 n) hu).trans (hk b).symm)

theorem StoresOnly.linkDown {s t : State} (h : StoresOnly s t) (mt : Nat) : t.linkDown mt = s.linkDown mt := by
  rw [State.linkDown, State.linkDown, h.module]

theorem StoresOnly.part {s t : State} (h : StoresOnly s t) (p : Nat) : t.part p = s.part p := by
  rw [State.part, State.part, h.parts]

/-- A piece that is sound stays so. -/
theorem StoresOnly.sound {s t : State} (h : StoresOnly s t) {mt pa n : Nat} (hp : s.memPoisoned mt pa n = false) :
    t.memPoisoned mt pa n = false := by
  simp only [State.memPoisoned, Bool.or_eq_false_iff, List.any_eq_false, h.linkDown] at hp ⊢
  exact ⟨hp.1, fun u hu => hp.2 u (h.poison u hu)⟩

theorem storesOnly_clearTag (s : State) (pt place key n : Nat) : StoresOnly s (s.clearTag pt place key n) :=
  ⟨rfl, rfl, rfl, fun _ h => h, fun _ _ => rfl⟩

/-- Bytes written with no check, where the link is up. -/
theorem rawWrite_up {s : State} {mt : Nat} (h : s.linkDown mt = false) (pa : Nat) (bs : List Byte) :
    StoresOnly s (s.rawWrite mt pa bs) ∧ SameMemory (s.putMem (memKey mt pa) bs) (s.rawWrite mt pa bs) := by
  simp only [State.rawWrite, h, Bool.false_eq_true, if_false]
  split
  · exact ⟨⟨rfl, rfl, rfl, fun u hu => (List.mem_filter.mp hu).1, fun _ _ => rfl⟩, rfl, rfl⟩
  · exact ⟨⟨rfl, rfl, rfl, fun u hu => hu, fun _ _ => rfl⟩, rfl, rfl⟩

/-- A unit of 16 bytes that is written loses its poison (R397). -/
theorem poison_rawWrite {s : State} {mt pa : Nat} {bs : List Byte} (h : s.linkDown mt = false) (hn : bs.length = 16) (ha : pa % 16 = 0) :
    memKey mt pa ∉ (s.rawWrite mt pa bs).poison := by
  have hu : pa / 16 * 16 = pa := by omega
  simp [State.rawWrite, h, hn, ha, State.clearPoison, hu]

/-- Bytes written through a core's L1. -/
theorem writeL1_up {s : State} {mt : Nat} (h : s.linkDown mt = false) (core pa : Nat) (bs : List Byte) :
    StoresOnly s (s.writeL1 core mt pa bs) ∧ SameMemory (s.putMem (memKey mt pa) bs) (s.writeL1 core mt pa bs) := by
  obtain ⟨⟨hw, hp, hm, hu, hb⟩, hk⟩ := rawWrite_up h pa bs
  exact ⟨⟨hw, hp, hm, hu, hb⟩, hk⟩

/-- Memory after bytes are stored in two states whose memory is the same. -/
theorem sameMemory_putMem {s t : State} (h : SameMemory s t) (k : Nat) (bs : List Byte) : SameMemory (s.putMem k bs) (t.putMem k bs) :=
  ⟨by rw [State.putMem, State.putMem, h.1], by rw [State.putMem, State.putMem, h.2]⟩

theorem sameMemory_trans {s t u : State} (h : SameMemory s t) (k : SameMemory t u) : SameMemory s u :=
  ⟨k.1.trans h.1, k.2.trans h.2⟩

/-- What a plain store of one translated piece does, through a leaf whose A and D bits are set. -/
theorem storePiece_mem {s : State} {w : Wave} {c : Crew} {p : Piece} {bs : List Byte} {mt pa : Nat} {comp : Bool} {e : BitVec 64}
    {lmt lpa : Nat} (hp : p.place = .mem mt pa comp e lmt lpa) (he : e &&& 0x60 = 0x60) :
    s.storePiece w c none p bs = (.done, ((s.clearTag 1 (c.coreOf w.ref.rank) (memKey mt pa) p.size).touchL2 c.part c.ctx.ctag
      (some (c.id, w.ref.rank)) mt pa p.size true comp).writeL1 (c.coreOf w.ref.rank) mt pa ((bs.drop p.off).take p.size)) := by
  simp only [State.storePiece, hp, pointOf, Option.getD_none, if_true, touchLeaf_of_ad he]

/-- It is done, and stores its bytes at its place, where no link is down. -/
theorem storePiece_up {s : State} {w : Wave} {c : Crew} {p : Piece} {bs : List Byte} {mt pa : Nat} {comp : Bool} {e : BitVec 64}
    {lmt lpa : Nat} (hp : p.place = .mem mt pa comp e lmt lpa) (he : e &&& 0x60 = 0x60) (hl : s.linkDown mt = false) :
    ∃ t, s.storePiece w c none p bs = (.done, t) ∧ StoresOnly s t ∧
      SameMemory (s.putMem (memKey mt pa) ((bs.drop p.off).take p.size)) t ∧
      (((bs.drop p.off).take p.size).length = 16 → pa % 16 = 0 → memKey mt pa ∉ t.poison) := by
  have hc := storesOnly_clearTag s 1 (c.coreOf w.ref.rank) (memKey mt pa) p.size
  have ht := cachesOnly_touchL2_up ((hc.linkDown mt).trans hl) c.part c.ctx.ctag (some (c.id, w.ref.rank)) pa p.size true comp
  have hd := (ht.linkDown mt).trans ((hc.linkDown mt).trans hl)
  obtain ⟨hs, hm⟩ := writeL1_up hd (c.coreOf w.ref.rank) pa ((bs.drop p.off).take p.size)
  refine ⟨_, storePiece_mem hp he, (hc.trans ht.storesOnly).trans hs, ?_, fun hn ha => poison_rawWrite hd hn ha⟩
  exact sameMemory_trans (sameMemory_putMem (s := s) ⟨ht.memory.1, ht.memory.2⟩ _ _) hm

/-! ## Reads -/

/-- Where a core's L1 holds no copy of the line, a read gives the bytes of memory; else those, or the copy's (R63). -/
theorem readL1_cases (s : State) (core mt pa n : Nat) :
    ((∀ x ∈ s.l1, ¬(x.core = core ∧ x.mt = mt ∧ x.line = pa / 128)) → (s.readL1 core mt pa n).1 = s.memBytes (memKey mt pa) n) ∧
    ((s.readL1 core mt pa n).1 = s.memBytes (memKey mt pa) n ∨
      ∃ x ∈ s.l1, x.core = core ∧ x.mt = mt ∧ x.line = pa / 128 ∧ (s.readL1 core mt pa n).1 = (x.bytes.drop (pa % 128)).take n) := by
  unfold State.readL1
  extract_lets line is now fill
  split
  next => exact ⟨fun _ => rfl, .inl rfl⟩
  next x hx =>
    have hm := List.mem_of_find?_eq_some hx
    obtain ⟨⟨h1, h2⟩, h3⟩ : (x.core = core ∧ x.mt = mt) ∧ x.line = line := by
      have := List.find?_some hx
      simpa [is] using this
    refine ⟨fun h => absurd ⟨h1, h2, h3⟩ (h x hm), ?_⟩
    extract_lets old
    split
    · exact .inl rfl
    · split
      split
      · exact .inr ⟨x, hm, h1, h2, h3, rfl⟩
      · exact .inl rfl

/-- What a plain read of one translated piece gives, through a leaf whose A bit is set, by a wave with no stores held back. -/
theorem readPiece_mem {s : State} {w : Wave} {c : Crew} {p : Piece} {mt pa : Nat} {comp : Bool} {e : BitVec 64} {lmt lpa : Nat}
    (hp : p.place = .mem mt pa comp e lmt lpa) (he : e &&& 0x20 = 0x20) (hb : w.buffer = []) :
    s.readPiece w c none p =
      let t := s.touchL2 c.part c.ctx.ctag (some (c.id, w.ref.rank)) mt pa p.size false comp
      if s.memPoisoned mt pa p.size then (.poison 1, t)
      else (.bytes (t.readL1 (c.coreOf w.ref.rank) mt pa p.size).1, (t.readL1 (c.coreOf w.ref.rank) mt pa p.size).2) := by
  have ht := cachesOnly_touchL2 s c.part c.ctx.ctag (some (c.id, w.ref.rank)) mt pa p.size comp
  obtain ⟨-, -, hm, -, -, hq, -⟩ := ht.keeps
  simp only [State.readPiece, State.refusal?, hp, touchLeaf_of_a he, memPoisoned_congr hm hq, Wave.overlay, hb, List.isEmpty_nil, if_true]

/-- Settles O38: a store clears tags, touches its line and writes; a read touches its line and goes through L1. -/
theorem plainAccessesToMemory : Obligations.PlainAccessesToMemory := by
  constructor
  · intro s w c p bs mt pa comp e lmt lpa hp ho hn he hl hw
    obtain ⟨t, ht, hs, hm, hq⟩ := storePiece_up (w := w) (c := c) (bs := bs) hp he hl
    have hbs : (bs.drop p.off).take p.size = bs := by rw [ho, List.drop_zero, ← hn, List.take_length]
    rw [hbs] at hm hq
    refine ⟨t, ht, ?_, fun k hk => ?_, hs.waves, fun k r => ?_, fun h16 ha => hq (hn.trans h16) ha⟩
    · rw [memBytes_congr hm, ← hn, memBytes_putMem hw]
    · rw [memBytes_congr hm, memBytes_putMem_out (by rwa [hn])]
    · have h := congrArg (Option.map fun b : Block => (b.tile, b.loose)) (hs.block k r)
      rwa [Option.map_map, Option.map_map] at h
  · intro s w c p mt pa comp e lmt lpa hp he hb
    have ht := cachesOnly_touchL2 s c.part c.ctx.ctag (some (c.id, w.ref.rank)) mt pa p.size comp
    have hl1 := l1_touchL2 s c.part c.ctx.ctag (some (c.id, w.ref.rank)) mt pa p.size comp
    obtain ⟨hnone, hsome⟩ := readL1_cases (s.touchL2 c.part c.ctx.ctag (some (c.id, w.ref.rank)) mt pa p.size false comp) (c.coreOf w.ref.rank)
      mt pa p.size
    rw [hl1, memBytes_congr ht.memory] at hnone
    rw [hl1, memBytes_congr ht.memory] at hsome
    rw [readPiece_mem hp he hb]
    refine ⟨?_, fun hpo => ?_, fun hpo => ⟨fun hx => ?_, ?_⟩⟩
    · dsimp only
      split
      · exact ht.memory
      · exact (ht.trans (cachesOnly_readL1 ..)).memory
    · simp only [hpo, if_true]
    · simp only [hpo, Bool.false_eq_true, if_false, hnone hx]
    · simp only [hpo, Bool.false_eq_true, if_false, PieceRead.bytes.injEq]
      exact hsome

end Sys2Proof.Laws
end

section
/-! SUPPORT. The address checks of one lane and the walks of the tables (R47 to R75, R328, R330). -/

namespace Sys2Proof.Laws

open Sys2Proof.Machine Sys2Proof.Safety

/-! ## Fields of a word -/

/-- A field of a number, as bits of a word. -/
theorem bits_eq_extract {n : Nat} (x : BitVec n) (hi lo : Nat) : bits x.toNat hi lo = (x.extractLsb' lo (hi + 1 - lo)).toNat := by
  rw [BitVec.extractLsb'_toNat, Nat.shiftRight_eq_div_pow, bits]

theorem entryFrame_eq (e : BitVec 64) : entryFrame e = frameOf e := bits_eq_extract e 51 17

theorem entryMt_eq (e : BitVec 64) : entryMt e = mtOf e := bits_eq_extract e 15 12

/-- A field is nonzero as a number where it is as a word. -/
theorem bits_ne_zero {n : Nat} (x : BitVec n) (hi lo : Nat) : (bits x.toNat hi lo != 0) = decide (x.extractLsb' lo (hi + 1 - lo) ≠ 0) := by
  rw [bits_eq_extract, Bool.eq_iff_iff, bne_iff_ne, decide_eq_true_iff, ne_eq, ne_eq, ← BitVec.toNat_inj]
  rfl

/-- A field is 0 where each of its bits is. -/
theorem extract_eq_zero {w : Nat} (e : BitVec w) (lo n : Nat) : e.extractLsb' lo n = 0#n ↔ ∀ i < n, e.getLsbD (lo + i) = false := by
  constructor
  · intro h i hi
    have hb := congrArg (·.getLsbD i) h
    simpa only [BitVec.getLsbD_extractLsb', hi, decide_true, Bool.true_and, BitVec.getLsbD_zero] using hb
  · intro h
    refine BitVec.eq_of_getLsbD_eq fun i hi => ?_
    simp only [BitVec.getLsbD_extractLsb', hi, decide_true, Bool.true_and, h i hi, BitVec.getLsbD_zero]

/-- No bit of a mask stands in a word where each of the mask's bits is 0 there. -/
theorem and_eq_zero {w : Nat} (e m : BitVec w) : e &&& m = 0#w ↔ ∀ i < w, m.getLsbD i = true → e.getLsbD i = false := by
  constructor
  · intro h i _ hm
    have hb := congrArg (·.getLsbD i) h
    simpa only [BitVec.getLsbD_and, hm, Bool.and_true, BitVec.getLsbD_zero] using hb
  · intro h
    refine BitVec.eq_of_getLsbD_eq fun i hi => ?_
    rw [BitVec.getLsbD_and, BitVec.getLsbD_zero]
    cases hm : m.getLsbD i
    · exact Bool.and_false _
    · rw [h i hi hm, Bool.false_and]

/-- The reserved fields of a leaf (R69). -/
theorem leafReserved_eq (e : BitVec 64) : leafReserved e = decide (e.extractLsb' 52 4 ≠ 0 ∨ e.getLsbD 16 = true ∨ e.extractLsb' 10 2 ≠ 0) := by
  have hmask : ∀ i : Fin 64, (0x00F0000000010C00#64).getLsbD i = true ↔ (52 ≤ i.val ∧ i.val < 56) ∨ i.val = 16 ∨ i.val = 10 ∨ i.val = 11 := by
    decide
  rw [Bool.eq_iff_iff, leafReserved, bne_iff_ne, decide_eq_true_iff, ← not_iff_not, not_not, not_or, not_or]
  simp only [BitVec.ofNat_eq_ofNat, not_not, and_eq_zero, extract_eq_zero, Bool.not_eq_true]
  constructor
  · intro h
    have hb (i : Nat) (hi : i < 64) (hm : (52 ≤ i ∧ i < 56) ∨ i = 16 ∨ i = 10 ∨ i = 11) : e.getLsbD i = false := h i hi ((hmask ⟨i, hi⟩).mpr hm)
    exact ⟨fun i hi => hb _ (by omega) (by omega), hb _ (by omega) (by omega), fun i hi => hb _ (by omega) (by omega)⟩
  · intro ⟨h4, h1, h2⟩ i hi hm
    obtain ⟨hl, hr⟩ | rfl | rfl | rfl := (hmask ⟨i, hi⟩).mp hm
    · have hl : 52 ≤ i := hl
      have hr : i < 56 := hr
      have := h4 (i - 52) (by omega)
      rwa [Nat.add_sub_cancel' hl] at this
    · exact h1
    · exact h2 0 (by omega)
    · exact h2 1 (by omega)

/-! ## Leaves -/

theorem frameOk_iff (s : State) (part mt frame : Nat) : s.frameOk part mt (frame * 2 ^ 17) = true ↔ FrameAllowed s part mt frame := by
  unfold State.frameOk FrameAllowed
  extract_lets p
  have hd : frame * 2 ^ 17 / 2 ^ 35 = frame / 2 ^ 18 := by
    rw [show (2 : Nat) ^ 35 = 2 ^ 17 * 2 ^ 18 by norm_num, Nat.mul_comm frame, Nat.mul_div_mul_left _ _ (by norm_num)]
  have h36 : frame * 2 ^ 17 < 2 ^ 36 ↔ frame < 2 ^ 19 := by omega
  have h40 : frame * 2 ^ 17 < 2 ^ 40 ↔ frame < 2 ^ 23 := by omega
  split
  next h => simp only [Bool.and_eq_true, decide_eq_true_iff, h36, h, true_imp_iff, show mt ≠ 8 by omega, false_imp_iff, and_true, p]
  next h =>
    split
    next h8 => simp only [Bool.and_eq_true, decide_eq_true_iff, h40, hd, h8, lt_irrefl, false_imp_iff, true_imp_iff, true_and, p]
    next h8 => simp only [h, h8, false_imp_iff, and_true]

theorem judgeLeaf_eq (s : State) (part : Nat) (e : BitVec 64) (frame mt pa : Nat) :
    s.judgeLeaf part e frame mt pa = leafOf s part e frame mt pa := by
  simp only [State.judgeLeaf, leafOf, leafReserved_eq, entryMt_eq, Bool.or_eq_true, decide_eq_true_iff, or_assoc]
  split
  · rfl
  · by_cases h : FrameAllowed s part (mtOf e) frame
    · rw [if_pos h, (frameOk_iff ..).mpr h]
      rfl
    · rw [if_neg h, Bool.eq_false_iff.mpr fun k => h ((frameOk_iff ..).mp k)]
      rfl

/-- A leaf depends on what its partition is given alone. -/
theorem leafOf_congr {s t : State} (h : t.parts = s.parts) (part : Nat) (e : BitVec 64) (frame mt pa : Nat) :
    leafOf t part e frame mt pa = leafOf s part e frame mt pa := by
  have hf : FrameAllowed t = FrameAllowed s := by
    funext
    simp only [FrameAllowed, State.part, h]
  rw [leafOf, leafOf, hf]

theorem rawRead_eq (s : State) (mt pa n : Nat) : s.rawRead mt pa n = leNat (s.memBytes (memKey mt pa) n) := rfl

theorem tableWord_eq (s : State) (mt pa : Nat) : BitVec.ofNat 64 (s.rawRead mt pa 8) = tableWord s mt pa := rfl

theorem tableWord_congr {s t : State} (h : SameMemory s t) (mt pa : Nat) : tableWord t mt pa = tableWord s mt pa := by
  rw [tableWord, memBytes_congr h, tableWord]

theorem judgeLevel3_eq (s : State) (part mt pa : Nat) : s.judgeLevel3 part (tableWord s mt pa) mt pa = levelThree s part mt pa := by
  simp only [State.judgeLevel3, levelThree, entryV, entryL, entryFt, judgeLeaf_eq, entryFrame_eq]
  cases (tableWord s mt pa).getLsbD 0
  · rfl
  · cases (tableWord s mt pa).getLsbD 1 <;> rfl

theorem levelThree_congr {s t : State} (hm : SameMemory s t) (h : t.parts = s.parts) (part mt pa : Nat) :
    levelThree t part mt pa = levelThree s part mt pa := by
  simp only [levelThree, tableWord_congr hm, leafOf_congr h]

/-! ## A walk that nothing disturbs -/

theorem mem_of_mem_keepFirst {α : Type} {p : α → Bool} {x : α} : ∀ {n : Nat} {l : List α}, x ∈ keepFirst p n l → x ∈ l
  | _, [], h => h
  | n, y :: l, h => by
    unfold keepFirst at h
    split at h
    · cases n with
      | zero => exact List.mem_cons_of_mem _ (mem_of_mem_keepFirst h)
      | succ n =>
        obtain rfl | h := List.mem_cons.mp h
        · exact List.mem_cons_self
        · exact List.mem_cons_of_mem _ (mem_of_mem_keepFirst h)
    · obtain rfl | h := List.mem_cons.mp h
      · exact List.mem_cons_self
      · exact List.mem_cons_of_mem _ (mem_of_mem_keepFirst h)

/-- t is s during a walk in which no choice is made, no poison stands and each cached entry is as memory holds it. -/
structure Undisturbed (s t : State) : Prop where
  caches : CachesOnly s t
  oracle : t.oracle = []
  poison : s.poison = []
  links : s.module.down = 0
  tlb : ∀ x ∈ t.tlb, x.value = tableWord s x.mt (if x.range.isSome then x.pa + 16 else x.pa) ∧ (x.range.isSome = true → x.pa % 32 = 0)

theorem choose_none {s : State} (h : s.oracle = []) (n : Nat) : s.choose n = (0, s) := by
  simp only [State.choose, h]

section
variable {s t : State} (h : Undisturbed s t)
include h

theorem Undisturbed.word (mt pa : Nat) : tableWord t mt pa = tableWord s mt pa := tableWord_congr h.caches.memory mt pa

theorem Undisturbed.sound (mt pa n : Nat) : t.memPoisoned mt pa n = false := by
  obtain ⟨-, -, hm, -, -, hp, -⟩ := h.caches.keeps
  simp only [State.memPoisoned, State.linkDown, hm, hp, h.poison, h.links, List.any_nil, Bool.or_false]
  exact (congrArg _ BitVec.getLsbD_zero).trans (Bool.and_false _)

theorem Undisturbed.cacheEntry {x : TlbEntry}
    (hx : x.value = tableWord s x.mt (if x.range.isSome then x.pa + 16 else x.pa) ∧ (x.range.isSome = true → x.pa % 32 = 0)) :
    Undisturbed s (t.cacheEntry x) := by
  refine ⟨h.caches.trans (cachesOnly_cacheEntry ..), h.oracle, h.poison, h.links, fun y hy => ?_⟩
  have hy : y ∈ keepFirst (fun z => z.cluster == x.cluster) tlbSize (x :: t.tlb) := hy
  obtain rfl | hy := List.mem_cons.mp (mem_of_mem_keepFirst hy)
  · exact hx
  · exact h.tlb y hy

/-- A table entry is read as memory holds it. -/
theorem Undisturbed.readEntry (cl ctag part mt pa page pages : Nat) :
    ∃ u, t.readEntry cl ctag part mt pa page pages = (tableWord s mt pa, u) ∧ Undisturbed s u := by
  have hnow : BitVec.ofNat 64 (t.rawRead mt pa 8) = tableWord s mt pa := h.word mt pa
  have hentry {u : State} (hu : Undisturbed s u) : Undisturbed s (if entryV (tableWord s mt pa) then
      u.cacheEntry { ctag := ctag, part := part, mt := mt, pa := pa, value := tableWord s mt pa, range := none, cluster := cl, page := page,
                     pages := pages } else u) := by
    split
    · exact hu.cacheEntry ⟨rfl, nofun⟩
    · exact hu
  simp only [State.readEntry, hnow, choose_none h.oracle]
  split
  next x hx =>
    have hp := List.find?_some hx
    simp only [Bool.and_eq_true, beq_iff_eq] at hp
    obtain ⟨⟨⟨-, hmt⟩, hpa⟩, hr⟩ := hp
    have hv : x.value = tableWord s mt pa := by
      have := (h.tlb x (List.mem_of_find?_eq_some hx)).1
      rwa [hmt, hpa, Option.isNone_iff_eq_none.mp hr] at this
    rw [if_pos (by simp only [hv, decide_true, Bool.true_or]), hv]
    exact ⟨t, rfl, h⟩
  next => exact ⟨_, rfl, hentry h⟩

theorem Undisturbed.leaf (part : Nat) (e : BitVec 64) (frame mt pa : Nat) : t.judgeLeaf part e frame mt pa = leafOf s part e frame mt pa := by
  rw [judgeLeaf_eq, leafOf_congr h.caches.parts]

theorem Undisturbed.level3 (part mt pa : Nat) : t.judgeLevel3 part (tableWord s mt pa) mt pa = levelThree s part mt pa := by
  rw [← h.word, judgeLevel3_eq, levelThree_congr h.caches.memory h.caches.parts]

/-- Nor does a walk take another entry of a group of pages. -/
theorem Undisturbed.chooseGroup (i mt pa : Nat) (own : BitVec 64) : t.chooseGroup i mt pa own = ((own, pa), t) := by
  simp only [State.chooseGroup, h.oracle, List.isEmpty_nil, if_true]

end

/-- The RADIX walk of R70. -/
theorem walkRadix_eq {s t : State} (h : Undisturbed s t) (x : Context) (part cl : Nat) (a : BitVec 64) (hmt : mtOf x.desc1 < 13) :
    (t.walkRadix x part cl a).1 = radixOf s part a (mtOf x.desc1) ((x.desc0.extractLsb' 8 44).toNat * 2 ^ 8) := by
  have hb (hi lo n : Nat) (hn : n = hi + 1 - lo) : bits a.toNat hi lo = (a.extractLsb' lo n).toNat := hn ▸ bits_eq_extract a hi lo
  have hroot : bits x.desc0.toNat 51 8 = (x.desc0.extractLsb' 8 44).toNat := bits_eq_extract ..
  have hrmt : bits x.desc1.toNat 15 12 = mtOf x.desc1 := bits_eq_extract ..
  have hnot : ¬13 ≤ mtOf x.desc1 := by omega
  obtain ⟨e1, he1⟩ : ∃ e, e = tableWord s (mtOf x.desc1) ((x.desc0.extractLsb' 8 44).toNat * 2 ^ 8 + 8 * (a.extractLsb' 45 12).toNat) := ⟨_, rfl⟩
  obtain ⟨e2, he2⟩ : ∃ e, e = tableWord s (mtOf e1) (frameOf e1 * 2 ^ 17 + 8 * (a.extractLsb' 31 14).toNat) := ⟨_, rfl⟩
  obtain ⟨u1, hu1, k1⟩ := h.readEntry cl x.ctag part (mtOf x.desc1) ((x.desc0.extractLsb' 8 44).toNat * 2 ^ 8 + 8 * (a.extractLsb' 45 12).toNat)
    ((a.extractLsb' 45 12).toNat * 2 ^ 28) (2 ^ 28)
  obtain ⟨u2, hu2, k2⟩ := k1.readEntry cl x.ctag part (mtOf e1) (frameOf e1 * 2 ^ 17 + 8 * (a.extractLsb' 31 14).toNat)
    ((a.extractLsb' 31 26).toNat * 2 ^ 14) (2 ^ 14)
  obtain ⟨u3, hu3, k3⟩ := k2.readEntry cl x.ctag part (mtOf e2) (frameOf e2 * 2 ^ 17 + 8 * (a.extractLsb' 17 14).toNat)
    ((a.extractLsb' 17 40).toNat) 1
  rw [← he1] at hu1
  rw [← he2] at hu2
  simp only [State.walkRadix, radixOf, hrmt, hnot, if_false, hroot, hb 56 45 12 rfl, hb 44 31 14 rfl, hb 30 17 14 rfl, hb 56 31 26 rfl,
    hb 56 17 40 rfl, h.sound, hu1, ← he1, entryV, entryL, entryMt_eq, entryFrame_eq, k1.sound, hu2, ← he2, k2.sound, hu3,
    k3.chooseGroup, Bool.false_eq_true, Bool.not_eq_true']
  simp only [apply_ite Prod.fst, k2.leaf, k3.level3, bne_iff_ne]
  cases e2.getLsbD 1 <;> rfl

/-! ## Nodes of a RANGE table -/

theorem leNat_append : ∀ xs ys : List Byte, leNat (xs ++ ys) = leNat xs + 256 ^ xs.length * leNat ys
  | [], ys => by simp [leNat]
  | x :: xs, ys => by
    rw [List.cons_append, leNat, leNat, leNat_append xs ys, List.length_cons, pow_succ]
    ring

theorem leNat_lt : ∀ xs : List Byte, leNat xs < 256 ^ xs.length
  | [] => Nat.one_pos
  | x :: xs => by
    have h := leNat_lt xs
    have hx := x.isLt
    rw [leNat, List.length_cons, pow_succ]
    omega

/-- A word of a table, as a number. -/
theorem rawRead_word (s : State) (mt pa : Nat) : s.rawRead mt pa 8 = (tableWord s mt pa).toNat := by
  have h := leNat_lt (s.memBytes (memKey mt pa) 8)
  rw [length_memBytes] at h
  rw [rawRead_eq, tableWord, BitVec.toNat_ofNat, Nat.mod_eq_of_lt (h.trans_eq (by norm_num))]

/-- A run of bytes is a run and the rest. -/
theorem memBytes_add (s : State) (k n m : Nat) : s.memBytes k (n + m) = s.memBytes k n ++ s.memBytes (k + n) m := by
  simp only [memBytes_eq_map, List.range_add, List.map_append, List.map_map, Function.comp_def, Nat.add_assoc]

theorem rawRead_add (s : State) (mt pa n m : Nat) : s.rawRead mt pa (n + m) = s.rawRead mt pa n + 256 ^ n * s.rawRead mt (pa + n) m := by
  have hk : memKey mt pa + n = memKey mt (pa + n) := by simp only [memKey]; omega
  rw [rawRead_eq, memBytes_add, leNat_append, length_memBytes, hk, rawRead_eq, rawRead_eq]

/-- Word i of entry k of the node at (mt, node); entry 0 is its header (R72). -/
def nodeWord (s : State) (mt node k i : Nat) : BitVec 64 := tableWord s mt (node + 32 * k + 8 * i)

/-- The page that a word of an entry names. -/
def pageOf (w : BitVec 64) : Nat := (w.extractLsb' 17 40).toNat

/-- START, LAST, TARGET and word 3 of entry k. -/
def nodeEntry (s : State) (mt node k : Nat) : Nat × Nat × BitVec 64 × Nat :=
  (pageOf (nodeWord s mt node k 0), pageOf (nodeWord s mt node k 1), nodeWord s mt node k 2, (nodeWord s mt node k 3).toNat)

theorem rangeEntry_eq (s : State) (mt node k : Nat) : s.rangeEntry mt node k = nodeEntry s mt node k := by
  have hb (w : BitVec 64) : bits w.toNat 56 17 = pageOf w := bits_eq_extract w 56 17
  simp only [State.rangeEntry, nodeEntry, rawRead_word, hb, BitVec.ofNat_toNat, BitVec.setWidth_eq]
  rfl

/-- The header's reserved fields (R72). -/
theorem rangeHeaderReserved_eq (s : State) (mt node : Nat) : s.rangeHeaderReserved mt node =
    !((nodeWord s mt node 0 0).extractLsb' 3 61 == 0 && [1, 2, 3].all fun i => nodeWord s mt node 0 i == 0) := by
  have hz {n : Nat} (x : BitVec n) : (x == 0#n) = decide (x.toNat = 0) := by
    rw [Bool.eq_iff_iff, beq_iff_eq, decide_eq_true_iff, ← BitVec.toNat_inj]
    rfl
  have h0 : nodeWord s mt node 0 0 = tableWord s mt node := by simp only [nodeWord, Nat.mul_zero, Nat.add_zero]
  have hi (i : Nat) : nodeWord s mt node 0 i = tableWord s mt (node + 8 * i) := by simp only [nodeWord, Nat.mul_zero, Nat.add_zero]
  have hf := bits_eq_extract (tableWord s mt node) 63 3
  have hlt := (tableWord s mt node).isLt
  have hr : s.rawRead mt node 32 = (tableWord s mt node).toNat + 256 ^ 8 * ((tableWord s mt (node + 8)).toNat +
      256 ^ 8 * ((tableWord s mt (node + 16)).toNat + 256 ^ 8 * (tableWord s mt (node + 24)).toNat)) := by
    simp only [← rawRead_word]
    rw [show (32 : Nat) = 8 + (8 + (8 + 8)) from rfl, rawRead_add, rawRead_add, rawRead_add]
  simp only [State.rangeHeaderReserved, hr, h0, hi, List.all_cons, List.all_nil, Bool.and_true, hz, BitVec.ofNat_eq_ofNat, ← hf, bits,
    Nat.reduceAdd, Nat.reduceMul]
  rw [Bool.eq_iff_iff]
  simp only [bne_iff_ne, Bool.not_eq_true', Bool.and_eq_false_iff, decide_eq_false_iff_not]
  omega

/-- An entry's reserved fields (R72). -/
theorem rangeReserved_eq (s : State) (mt node k : Nat) : s.rangeReserved mt node k =
    !(!((nodeWord s mt node k 0).extractLsb' 57 7 != 0 || (nodeWord s mt node k 0).extractLsb' 0 17 != 0) &&
      !((nodeWord s mt node k 1).extractLsb' 57 7 != 0 || (nodeWord s mt node k 1).extractLsb' 0 17 != 0) &&
      (if ((nodeWord s mt node k 3).extractLsb' 0 2).toNat = 1 then (nodeWord s mt node k 3).extractLsb' 8 44 == 0
       else nodeWord s mt node k 2 == 0)) := by
  have hb (i hi lo n : Nat) (hn : hi + 1 - lo = n) : (bits (nodeWord s mt node k i).toNat hi lo != 0) = ((nodeWord s mt node k i).extractLsb' lo n != 0) := by
    subst hn
    rw [bits_ne_zero, Bool.eq_iff_iff, decide_eq_true_iff, bne_iff_ne]
  have hw (i : Nat) : s.rawRead mt (node + 32 * k + 8 * i) 8 = (nodeWord s mt node k i).toNat := rawRead_word ..
  have h2 : ((nodeWord s mt node k 2).toNat != 0) = (nodeWord s mt node k 2 != 0) := by
    rw [Bool.eq_iff_iff, bne_iff_ne, bne_iff_ne, ne_eq, ne_eq, ← BitVec.toNat_inj]
    rfl
  simp only [State.rangeReserved, hw, hb 0 63 57 7 rfl, hb 0 16 0 17 rfl, hb 1 63 57 7 rfl, hb 1 16 0 17 rfl, hb 3 51 8 44 rfl, h2,
    bits_eq_extract _ 1 0, Nat.reduceAdd, Nat.reduceSub, Bool.not_and, Bool.not_not, Bool.or_assoc]
  split <;> rfl

/-- Entries stand in ascending order and apart where each does, and ends before the next (R72). -/
theorem ascending_map_range' (f : Nat → Nat × Nat × BitVec 64 × Nat) : ∀ n i : Nat, ascending ((List.range' i n).map f) =
    (List.range' i n).all fun k => (f k).1 ≤ (f k).2.1 && (k + 1 == i + n || (f k).2.1 < (f (k + 1)).1)
  | 0, _ => rfl
  | 1, i => by simp [ascending]
  | n + 2, i => by
    have ih := ascending_map_range' f (n + 1) (i + 1)
    have hne : (i + 1 == i + (n + 2)) = false := by rw [beq_eq_false_iff_ne]; omega
    rw [show i + 1 + (n + 1) = i + (n + 2) by omega] at ih
    rw [List.range'_succ, List.map_cons, List.all_cons, hne, Bool.false_or, ← ih]
    rfl

theorem ascending_map_range (f : Nat → Nat × Nat × BitVec 64 × Nat) (n : Nat) : ascending ((List.range n).map f) =
    (List.range n).all fun k => (f k).1 ≤ (f k).2.1 && (k + 1 == n || (f k).2.1 < (f (k + 1)).1) := by
  have h := ascending_map_range' f n 0
  rwa [← List.range_eq_range', Nat.zero_add] at h

/-- A cached entry of a node covers the page that it was found for, and lies in the node. -/
theorem heldRange_some {s : State} {cl ctag part mt pa v : Nat} {x : Nat × Nat × BitVec 64 × Nat} {k : Nat}
    (h : s.heldRange cl ctag part mt pa v = some (x, k)) :
    ∃ t ∈ s.tlb, t.range.isSome = true ∧ t.mt = mt ∧ pa < t.pa ∧ t.value = x.2.2.1 ∧ k = (t.pa - pa) / 32 - 1 := by
  obtain ⟨t, ht, hx⟩ := List.exists_of_findSome?_eq_some h
  split at hx
  next start last w3 hr =>
    split at hx
    next hc =>
      simp only [Bool.and_eq_true, beq_iff_eq, decide_eq_true_iff] at hc
      obtain ⟨⟨⟨⟨⟨-, hmt⟩, hpa⟩, -⟩, -⟩, -⟩ := hc
      cases hx
      exact ⟨t, ht, by rw [hr]; rfl, hmt, hpa, rfl, rfl⟩
    · cases hx
  · cases hx

/-- In a walk that nothing disturbs the entry of a node is as memory holds it. -/
theorem Undisturbed.findRange {s t : State} (h : Undisturbed s t) (cl ctag part mt node v n : Nat) (hn : node % 32 = 0) :
    let p (k : Nat) : Bool := (nodeEntry s mt node (k + 1)).1 ≤ v && v ≤ (nodeEntry s mt node (k + 1)).2.1
    ∃ u, t.findRange cl ctag part mt node v ((List.range n).map fun k => nodeEntry s mt node (k + 1)) =
      (((List.range n).find? p).map fun k => (nodeEntry s mt node (k + 1), k), u) ∧ Undisturbed s u := by
  intro p
  have hnow : (((List.range n).map fun k => nodeEntry s mt node (k + 1)).zipIdx.find? fun x => x.1.1 ≤ v && v ≤ x.1.2.1) =
      ((List.range n).find? p).map fun k => (nodeEntry s mt node (k + 1), k) := by
    simp only [zipIdx_map_range, Nat.zero_add, List.find?_map]
    rfl
  simp only [State.findRange, hnow, choose_none h.oracle]
  cases hf : (List.range n).find? p with
  | none =>
    simp only [Option.map_none]
    split
    · exact ⟨t, rfl, h⟩
    · simp only [Bool.or_false, decide_eq_true_iff, reduceCtorEq, if_false]
      exact ⟨t, rfl, h⟩
  | some k =>
    have hx (b c : Prop) [Decidable b] [Decidable c] (start pages last w3 : Nat) : Undisturbed s (if b then t else if c then t else
        t.cacheEntry { ctag := ctag, part := part, mt := mt, pa := node + 32 * (k + 1), value := nodeWord s mt node (k + 1) 2,
                       range := some (start, last, w3), cluster := cl, page := start, pages := pages }) := by
      split
      · exact h
      · split
        · exact h
        · exact h.cacheEntry ⟨rfl, fun _ => by dsimp only; omega⟩
    simp only [Option.map_some]
    split
    · exact ⟨_, rfl, hx ..⟩
    next old hold =>
      obtain ⟨y, hy, hr, hymt, hypa, hv, hk⟩ := heldRange_some (x := old.1) (k := old.2) hold
      obtain ⟨hval, hal⟩ := h.tlb y hy
      have hclear (hkk : k = old.2) : clearedBits old.1.2.2.1 (nodeWord s mt node (k + 1) 2) = false := by
        have hpa : y.pa = node + 32 * (k + 1) := by have := hal hr; omega
        have : old.1.2.2.1 = nodeWord s mt node (k + 1) 2 := by
          rw [← hv, hval, if_pos hr, hymt, hpa]
          rfl
        simp only [clearedBits, this, bne_self_eq_false, Bool.and_false, Bool.false_and]
      split
      next hc =>
        obtain hc | hc := Bool.or_eq_true_iff.mp hc
        · exact ⟨t, congrArg (·, t) (of_decide_eq_true hc), h⟩
        · simp only [Bool.and_eq_true, beq_iff_eq] at hc
          obtain ⟨⟨⟨⟨hkk, -⟩, -⟩, -⟩, hcl⟩ := hc
          exact absurd hcl (Bool.eq_false_iff.mp (hclear hkk))
      · simp only [Nat.zero_ne_one, if_false]
        exact ⟨_, rfl, hx ..⟩

/-- The RANGE walk of R73. -/
theorem walkRange_eq {s : State} (x : Context) (part cl : Nat) (a : BitVec 64) : ∀ (depths : Nat) (t : State) (mt node : Nat), Undisturbed s t →
    node % 32 = 0 → (t.walkRange x part cl a depths mt node).1 = rangeOf s part a depths mt node
  | 0, _, _, _, _, _ => rfl
  | depths + 1, t, mt, node, h, hn => by
    have hv : bits a.toNat 56 17 = (a.extractLsb' 17 40).toNat := bits_eq_extract ..
    have hcount : bits (t.rawRead mt node 8) 2 0 = ((nodeWord s mt node 0 0).extractLsb' 0 3).toNat := by
      rw [rawRead_word, h.word, bits_eq_extract]
      rfl
    have hent (k : Nat) : t.rangeEntry mt node k = nodeEntry s mt node k := by
      rw [rangeEntry_eq]
      simp only [nodeEntry, nodeWord, h.word]
    have hword (k i : Nat) : nodeWord t mt node k i = nodeWord s mt node k i := h.word ..
    obtain ⟨u, hu, hk⟩ := h.findRange cl x.ctag part mt node (pageOf a) ((nodeWord s mt node 0 0).extractLsb' 0 3).toNat hn
    have hw (k i : Nat) : tableWord s mt (node + 32 * k + 8 * i) = nodeWord s mt node k i := rfl
    have hp (w : BitVec 64) : (w.extractLsb' 17 40).toNat = pageOf w := rfl
    have hs (k : Nat) : nodeEntry s mt node k =
        (pageOf (nodeWord s mt node k 0), pageOf (nodeWord s mt node k 1), nodeWord s mt node k 2, (nodeWord s mt node k 3).toNat) := rfl
    simp only [State.walkRange, rangeOf, h.sound, hv, hcount, hent, rangeHeaderReserved_eq, rangeReserved_eq, hword, hu, Bool.false_eq_true, if_false,
      hw, hp, List.all_map, List.find?_map, Function.comp_def, ascending_map_range, Bool.not_and, List.not_all_eq_any_not, Bool.not_not, Bool.not_or,
      Bool.or_assoc]
    generalize ((nodeWord s mt node 0 0).extractLsb' 0 3).toNat = n
    simp only [hs]
    split
    · rfl
    · split
      · rfl
      · cases (List.range n).find? fun k => decide (pageOf (nodeWord s mt node (k + 1) 0) ≤ pageOf a) &&
            decide (pageOf a ≤ pageOf (nodeWord s mt node (k + 1) 1)) with
        | none => rfl
        | some k =>
          simp only [Option.map_some]
          generalize pageOf (nodeWord s mt node (k + 1) 0) = start
          generalize pageOf (nodeWord s mt node (k + 1) 1) = last
          generalize nodeWord s mt node (k + 1) 2 = target
          generalize nodeWord s mt node (k + 1) 3 = w3
          have hkind : bits w3.toNat 1 0 = (w3.extractLsb' 0 2).toNat := bits_eq_extract ..
          have hcmt : bits w3.toNat 7 4 = (w3.extractLsb' 4 4).toNat := bits_eq_extract ..
          have hchild : bits w3.toNat 51 8 = (w3.extractLsb' 8 44).toNat := bits_eq_extract ..
          obtain ⟨u3, hu3, k3⟩ := hk.readEntry cl x.ctag part (w3.extractLsb' 4 4).toNat ((w3.extractLsb' 8 44).toNat * 2 ^ 8 + 8 * (pageOf a - start))
            (pageOf a) 1
          have h4 := (w3.extractLsb' 0 2).isLt
          rw [hkind, hcmt, hchild]
          generalize (w3.extractLsb' 0 2).toNat = kind at h4 ⊢
          obtain rfl | rfl | rfl | rfl : kind = 0 ∨ kind = 1 ∨ kind = 2 ∨ kind = 3 := by omega
          · rfl
          · simp only [entryV, entryL, entryFrame_eq, hk.leaf]
            cases target.getLsbD 0
            · rfl
            · cases target.getLsbD 1 <;> rfl
          · have hchild := walkRange_eq x part cl a depths u (w3.extractLsb' 4 4).toNat ((w3.extractLsb' 8 44).toNat * 2 ^ 8) hk (by omega)
            simp only [apply_ite Prod.fst, hchild]
          · simp only [hk.sound, hu3, k3.level3, Bool.false_eq_true, if_false, apply_ite Prod.fst]

/-- The walk of a table that memory holds, where nothing is cached. -/
theorem walk_eq {s : State} (x : Context) (part cl : Nat) (a : BitVec 64) (htlb : s.tlb = []) (hp : s.poison = []) (hd : s.module.down = 0)
    (ho : s.oracle = []) :
    let root := (x.desc0.extractLsb' 8 44).toNat * 2 ^ 8
    let rmt := mtOf x.desc1
    let reserved := x.desc0.extractLsb' 52 12 ≠ 0 ∨ x.desc0.extractLsb' 0 8 ≠ 0 ∨ x.desc1.extractLsb' 48 16 ≠ 0 ∨
      x.desc1.extractLsb' 16 16 ≠ 0 ∨ x.desc1.extractLsb' 1 11 ≠ 0
    (reserved ∨ 13 ≤ rmt → (s.walk x part cl a).1 = .malformed 6) ∧
    (¬(reserved ∨ 13 ≤ rmt) → (s.walk x part cl a).1 =
      if x.desc1.getLsbD 0 then rangeOf s part a 6 rmt root else radixOf s part a rmt root) := by
  intro root rmt reserved
  have h : Undisturbed s s := ⟨.refl s, ho, hp, hd, by simp [htlb]⟩
  have hres : descReserved x.desc0.toNat x.desc1.toNat = true ↔ reserved := by
    simp only [descReserved, bits_ne_zero, Bool.or_eq_true, decide_eq_true_iff, reserved, or_assoc]
  have hrmt : bits x.desc1.toNat 15 12 = rmt := bits_eq_extract ..
  have hroot : bits x.desc0.toNat 51 8 * 2 ^ 8 = root := congrArg (· * 2 ^ 8) (bits_eq_extract ..)
  unfold State.walk
  refine ⟨fun hr => ?_, fun hr => ?_⟩
  · split
    · rfl
    next hn =>
      have h13 : 13 ≤ rmt := hr.resolve_left fun k => hn (hres.mpr k)
      split
      · rw [hrmt, if_pos h13]
      · rw [State.walkRadix, hrmt, if_pos h13]
  · obtain ⟨hn, h13⟩ := not_or.mp hr
    rw [if_neg fun k => hn (hres.mp k)]
    split
    · rw [hrmt, if_neg h13, hroot]
      exact walkRange_eq x part cl a 6 s rmt root h (by simp only [root]; omega)
    · exact walkRadix_eq h x part cl a (by omega)

/-! ## One piece -/

/-- The permissions that an access needs of its leaf (R74). -/
theorem allowed_iff (need : Perm) (e : BitVec 64) : need.allowed e = true ↔
    (need.r = true → e.getLsbD 2 = true) ∧ (need.w = true → e.getLsbD 3 = true) ∧ (need.x = true → e.getLsbD 4 = true) := by
  simp only [Perm.allowed, entryR, entryW, entryX, Bool.and_eq_true, Bool.or_eq_true, Bool.not_eq_true', and_assoc, ← Bool.not_eq_true,
    ← imp_iff_not_or]

section
variable {s : State} {c : Crew} {need : Perm} {off size : Nat} {a : BitVec 64}

theorem reachPiece_leaf {e : BitVec 64} {frame mt pa : Nat} (h : (s.walk c.ctx c.part c.clusterNo a).1 = .leaf e frame mt pa) :
    s.reachPiece c need off size a = (if need.allowed e
      then .ok ⟨off, size, a, .mem (mtOf e) (frame * 2 ^ 17 + (a.extractLsb' 0 17).toNat) (e.getLsbD 7) e mt pa⟩
      else .error { step := 5, cause := 0x09, sub := 0 }, (s.walk c.ctx c.part c.clusterNo a).2) := by
  have hb : bits a.toNat 16 0 = (a.extractLsb' 0 17).toNat := bits_eq_extract a 16 0
  obtain ⟨t, ht⟩ : ∃ t, s.walk c.ctx c.part c.clusterNo a = (.leaf e frame mt pa, t) := ⟨_, Prod.ext h rfl⟩
  simp only [State.reachPiece, State.translate, ht, entryMt_eq, hb]
  cases need.allowed e <;> rfl

theorem reachPiece_missing {e : BitVec 64} {sub mt pa : Nat} (h : (s.walk c.ctx c.part c.clusterNo a).1 = .missing sub e mt pa) :
    s.reachPiece c need off size a = (if sub = 1 ∧ need.allowed e = false then .error { step := 5, cause := 0x09, sub := 0 }
      else .ok { off := off, size := size, addr := a, place := .missing sub }, (s.walk c.ctx c.part c.clusterNo a).2) := by
  obtain ⟨t, ht⟩ : ∃ t, s.walk c.ctx c.part c.clusterNo a = (.missing sub e mt pa, t) := ⟨_, Prod.ext h rfl⟩
  simp only [State.reachPiece, State.translate, ht]
  by_cases h1 : sub = 1
  · cases need.allowed e <;> simp [h1]
  · simp [h1]

theorem reachPiece_malformed {sub : Nat} (h : (s.walk c.ctx c.part c.clusterNo a).1 = .malformed sub) :
    s.reachPiece c need off size a = (.error { step := 4, cause := 0x14, sub := sub }, (s.walk c.ctx c.part c.clusterNo a).2) := by
  obtain ⟨t, ht⟩ : ∃ t, s.walk c.ctx c.part c.clusterNo a = (.malformed sub, t) := ⟨_, Prod.ext h rfl⟩
  simp only [State.reachPiece, State.translate, ht]

theorem reachPiece_poisoned (h : (s.walk c.ctx c.part c.clusterNo a).1 = .poisoned) :
    s.reachPiece c need off size a = (.ok { off := off, size := size, addr := a, place := .lost }, (s.walk c.ctx c.part c.clusterNo a).2) := by
  obtain ⟨t, ht⟩ : ∃ t, s.walk c.ctx c.part c.clusterNo a = (.poisoned, t) := ⟨_, Prod.ext h rfl⟩
  simp only [State.reachPiece, State.translate, ht]

/-- A piece that is found has the bytes and the address that were asked for. -/
theorem reachPiece_shape {p : Piece} {t : State} (h : s.reachPiece c need off size a = (.ok p, t)) : p.off = off ∧ p.size = size ∧ p.addr = a := by
  unfold State.reachPiece at h
  split at h <;> cases h <;> exact ⟨rfl, rfl, rfl⟩

end

/-! ## One lane -/

/-- The address passes steps 1 and 2 of R328. -/
def Sound (f : AccessForm) (a : BitVec 64) : Prop :=
  a.toNat % f.align = 0 ∧ canonical a = true ∧ canonical (a + BitVec.ofNat 64 (f.size - 1)) = true

section
variable {s : State} {w : Wave} {c : Crew} {f : AccessForm} {l : Nat} {a : BitVec 64}

/-- A check that fails changes nothing. -/
abbrev laneFails (s : State) (step cause : Nat) : Except Failure (List Piece) × State := (.error { step := step, cause := cause, sub := 0 }, s)

theorem reachLane_misaligned (h : a.toNat % f.align ≠ 0) : s.reachLane w c f l a = laneFails s 1 0x05 := by
  unfold State.reachLane
  exact if_pos (bne_iff_ne.mpr h)

theorem reachLane_noncanonical (h : a.toNat % f.align = 0) (hc : canonical a = false ∨ canonical (a + BitVec.ofNat 64 (f.size - 1)) = false) :
    s.reachLane w c f l a = laneFails s 2 0x07 := by
  have hb : (!(canonical a && canonical (a + BitVec.ofNat 64 (f.size - 1)))) = true := by
    rw [Bool.not_eq_true', Bool.and_eq_false_iff]
    exact hc
  unfold State.reachLane
  exact (if_neg (by rw [bne_iff_ne, not_not]; exact h)).trans (if_pos hb)

theorem reachLane_global (h : Sound f a) (hs : steer w.segs a = .global) : s.reachLane w c f l a =
    if a < w.segs.globalBase ∨ w.segs.globalLimit < a + BitVec.ofNat 64 (f.size - 1) then laneFails s 3 0x06
    else ((s.reachPiece c f.need 0 f.size a).1.map fun p => [p], (s.reachPiece c f.need 0 f.size a).2) := by
  obtain ⟨hal, hca, hcl⟩ := h
  simp only [State.reachLane, hal, hca, hcl, hs, bne_self_eq_false, Bool.false_eq_true, if_false, Bool.and_self, Bool.not_true, Bool.or_eq_true,
    decide_eq_true_iff]
  split
  · rfl
  · cases hr : s.reachPiece c f.need 0 f.size a with
    | mk r t => cases r <;> rfl

theorem reachLane_tile {core off : Nat} (h : Sound f a) (hs : steer w.segs a = .tile core off) : s.reachLane w c f l a =
    if c.isCombiner = true then laneFails s 3 0x06 else
    match (c.rankOf w.ref.rank core).bind fun r => (s.block? c.id r).map fun b => (r, b) with
    | some (r, b) =>
      if s.tileOk c b w.segs.tileLimit.toNat off f.size f.write then
        (.ok [{ off := 0, size := f.size, addr := a, place := .tile r (b.visible off) }], s)
      else laneFails s 3 0x06
    | none => laneFails s 3 0x06 := by
  obtain ⟨hal, hca, hcl⟩ := h
  simp only [State.reachLane, hal, hca, hcl, hs, bne_self_eq_false, Bool.false_eq_true, if_false, Bool.and_self, Bool.not_true]
  refine if_congr Iff.rfl rfl ?_
  cases c.rankOf w.ref.rank core with
  | none => rfl
  | some r =>
    simp only [Option.bind_some]
    cases s.block? c.id r <;> rfl

theorem tileOk_true {b : Block} {limit off n : Nat} {write : Bool} (hlim : off + n ≤ limit + 1) (hsh : b.inShadow off = false)
    (hw : write = true → 0x1000 ≤ off ∧ ∀ lo hi, s.planeRange c = some (lo, hi) → off + n ≤ lo ∨ hi ≤ off) :
    s.tileOk c b limit off n write = true := by
  simp only [State.tileOk, hlim, hsh, decide_true, Bool.not_false, Bool.and_self, Bool.true_and, Bool.or_eq_true, Bool.not_eq_true']
  cases write with
  | false => exact .inl rfl
  | true =>
    obtain ⟨h1, hp⟩ := hw rfl
    refine .inr (Bool.and_eq_true_iff.mpr ⟨decide_eq_true h1, ?_⟩)
    split
    next lo hi h => simpa only [Bool.or_eq_true, decide_eq_true_iff] using hp lo hi h
    · rfl

theorem tileOk_false {b : Block} {limit off n : Nat} {write : Bool} (h : limit + 1 < off + n ∨ (write = true ∧ off < 0x1000)) :
    s.tileOk c b limit off n write = false := by
  unfold State.tileOk
  obtain h | ⟨rfl, h⟩ := h
  · rw [decide_eq_false (by omega), Bool.false_and, Bool.false_and]
  · rw [decide_eq_false (p := 0x1000 ≤ off) (by omega), Bool.false_and, Bool.not_true, Bool.false_or, Bool.and_false]

/-- The next unit of a STACK access, unless one before it has failed a check. -/
def stackStep (w : Wave) (c : Crew) (f : AccessForm) (l off : Nat) (acc : Except Failure (List Piece) × State) (k : Nat) :
    Except Failure (List Piece) × State :=
  match acc with
  | (.error e, s) => (.error e, s)
  | (.ok ps, s) =>
    ((s.reachPiece c f.need (4 * k) (min 4 f.size) (stackBacking w.segs l (off + 4 * k))).1.map fun p => ps ++ [p],
     (s.reachPiece c f.need (4 * k) (min 4 f.size) (stackBacking w.segs l (off + 4 * k))).2)

theorem reachLane_stack {off : Nat} (h : Sound f a) (hs : steer w.segs a = .stack off) : s.reachLane w c f l a =
    if c.isCombiner = true ∨ w.segs.stackLimit.toNat < off + f.size - 1 then laneFails s 3 0x06
    else (List.range ((f.size + 3) / 4)).foldl (stackStep w c f l off) (.ok [], s) := by
  obtain ⟨hal, hca, hcl⟩ := h
  simp only [State.reachLane, hal, hca, hcl, hs, bne_self_eq_false, Bool.false_eq_true, if_false, Bool.and_self, Bool.not_true, Bool.or_eq_true,
    decide_eq_true_iff]
  refine if_congr Iff.rfl rfl (congrArg (fun g => List.foldl g _ _) ?_)
  funext acc k
  obtain ⟨r, t⟩ := acc
  cases r with
  | error e => rfl
  | ok ps =>
    simp only [stackStep]
    cases hr : t.reachPiece c f.need (4 * k) (min 4 f.size) (stackBacking w.segs l (off + 4 * k)) with
    | mk r u => cases r <;> rfl

end

/-- The units of a STACK access, as far as they are found. -/
theorem stackStep_shape {w : Wave} {c : Crew} {f : AccessForm} {l off : Nat} {s t : State} : ∀ {n : Nat} {ps : List Piece},
    (List.range n).foldl (stackStep w c f l off) (.ok [], s) = (.ok ps, t) →
    ps.map (fun p => (p.off, p.size, p.addr)) = (List.range n).map fun k => (4 * k, min 4 f.size, stackBacking w.segs l (off + 4 * k))
  | 0, ps, h => by cases h; rfl
  | n + 1, ps, h => by
    rw [List.range_succ, List.foldl_append, List.foldl_cons, List.foldl_nil] at h
    cases hr : (List.range n).foldl (stackStep w c f l off) (.ok [], s) with
    | mk r u =>
      rw [hr] at h
      cases r with
      | error e => cases h
      | ok qs =>
        simp only [stackStep] at h
        cases hp : u.reachPiece c f.need (4 * n) (min 4 f.size) (stackBacking w.segs l (off + 4 * n)) with
        | mk p v =>
          rw [hp] at h
          cases p with
          | error e => cases h
          | ok p =>
            cases h
            obtain ⟨ho, hs, ha⟩ := reachPiece_shape hp
            rw [List.map_append, stackStep_shape hr, List.range_succ, List.map_append, List.map_singleton, List.map_singleton, ho, hs, ha]

/-! ## A and D -/

/-- What an access sets in a leaf that lacks it (R75). -/
theorem touchLeaf_word {s : State} (hm : cellsWf 0 s.mem = true) (cl : Nat) (e : BitVec 64) (mt pa : Nat) (write : Bool) :
    let want : BitVec 64 := (if write then 0x60 else 0x20) &&& ~~~e
    let t := s.touchLeaf cl e mt pa write
    (want = 0 → t = s) ∧ tableWord t mt pa = tableWord s mt pa ||| want ∧
    ∀ k, k < memKey mt pa ∨ memKey mt pa + 8 ≤ k → t.memBytes k 1 = s.memBytes k 1 := by
  intro want t
  by_cases hw : want = 0
  · have ht : t = s := if_pos hw
    refine ⟨fun _ => ht, ?_, fun k _ => by rw [ht]⟩
    rw [ht, hw]
    exact BitVec.or_zero.symm
  · have ht : SameMemory (s.putMem (memKey mt pa) (leBytes 8 (tableWord s mt pa ||| want).toNat)) t := by
      have he : t = s.touchLeaf cl e mt pa write := rfl
      rw [he, State.touchLeaf, if_neg hw]
      exact ⟨rfl, rfl⟩
    have hl : (leBytes 8 (tableWord s mt pa ||| want).toNat).length = 8 := rfl
    refine ⟨fun h => absurd h hw, ?_, fun k hk => ?_⟩
    · rw [tableWord_congr ht, tableWord]
      have hb := memBytes_putMem hm (memKey mt pa) (leBytes 8 (tableWord s mt pa ||| want).toNat)
      rw [hl] at hb
      rw [hb, leNat_leBytes ((tableWord s mt pa ||| want).isLt.trans_eq (by norm_num)), BitVec.ofNat_toNat, BitVec.setWidth_eq]
    · rw [memBytes_congr ht, memBytes_putMem_out]
      rwa [hl]

/-- Settles O36: the checks of a lane in their order, the walk of each piece, and the leaf that an access touches. -/
theorem addressesAreCheckedAndTranslated : Obligations.AddressesAreCheckedAndTranslated := by
  refine ⟨?_, ?_, fun s x part cl a htlb hp hd ho => walk_eq x part cl a htlb hp hd ho,
    fun s cl e mt pa write hm => touchLeaf_word hm cl e mt pa write⟩
  · intro s w c f l a fails last
    refine ⟨reachLane_misaligned, reachLane_noncanonical, fun hal hca hcl => ?_⟩
    have h : Sound f a := ⟨hal, hca, hcl⟩
    refine ⟨fun hs hlim => ?_, fun off hs hlim => ?_, fun core off hs => ⟨fun hlim => ?_, fun r b hk hr hb hlim hsh hwr => ?_⟩,
      fun ps s1 hs hlo hhi => ?_, fun off ps s1 hs hk hlim => ?_⟩
    · exact (reachLane_global h hs).trans (if_pos hlim)
    · exact (reachLane_stack h hs).trans (if_pos (.inr hlim))
    · rw [show fails 3 0x06 = (_ = laneFails s 3 0x06) from rfl, reachLane_tile h hs]
      split
      · rfl
      · split
        next r b hrb =>
          obtain ⟨r', hr, hb⟩ := Option.bind_eq_some_iff.mp hrb
          rw [hr] at hlim
          exact if_neg (by rw [tileOk_false (hlim.resolve_left nofun)]; exact Bool.false_ne_true)
        · rfl
    · rw [reachLane_tile h hs, if_neg (by rw [hk]; exact Bool.false_ne_true), hr, Option.bind_some, hb, Option.map_some]
      exact if_pos (tileOk_true hlim hsh hwr)
    · have hnot : ¬(a < w.segs.globalBase ∨ w.segs.globalLimit < last) := by
        rw [not_or, BitVec.not_lt, BitVec.not_lt]
        exact ⟨hlo, hhi⟩
      have hg := (reachLane_global (s := s) (w := w) (c := c) (l := l) h hs).trans (if_neg hnot)
      exact ⟨fun hp => hg.trans (by rw [hp]; rfl), fun e hp => hg.trans (by rw [hp]; rfl)⟩
    have hin : ¬(c.isCombiner = true ∨ w.segs.stackLimit.toNat < off + f.size - 1) :=
      not_or.mpr ⟨by rw [hk]; exact Bool.false_ne_true, Nat.not_lt.mpr hlim⟩
    have hunit (k : Nat) : stackBacking w.segs l (off + 4 * k) =
        w.segs.stackBack + BitVec.ofNat 64 ((off + 4 * k) / 4 * 384 + 4 * l + off % 4) := by
      rw [stackBacking, Nat.add_mul_mod_self_left]
    refine ⟨fun h4 h0 hp => ?_, fun qs hq => ?_⟩
    · have hone : (f.size + 3) / 4 = 1 := by omega
      rw [reachLane_stack h hs, if_neg hin, hone, List.range_one, List.foldl_cons, List.foldl_nil]
      simp only [stackStep, hunit, Nat.min_eq_right h4]
      rw [Nat.mul_zero, hp]
      rfl
    · rw [reachLane_stack h hs, if_neg hin] at hq
      simpa only [hunit] using stackStep_shape hq
  · intro s c need off size a got permits gives fails
    refine ⟨fun e frame mt pa hg => ?_, fun sub e mt pa hg => ?_, fun sub hg => reachPiece_malformed hg, fun hg => reachPiece_poisoned hg⟩
    · have hp := allowed_iff need e
      refine ⟨fun h => ?_, fun h => ?_⟩
      · exact (reachPiece_leaf hg).trans (by rw [if_pos (hp.mpr h)])
      · exact (reachPiece_leaf hg).trans (by rw [if_neg fun k => h (hp.mp k)])
    · have hp := allowed_iff need e
      refine ⟨fun ⟨h1, h⟩ => ?_, fun h => ?_⟩
      · exact (reachPiece_missing hg).trans (by rw [if_pos ⟨h1, Bool.eq_false_iff.mpr fun k => h (hp.mp k)⟩])
      · have hn : ¬(sub = 1 ∧ need.allowed e = false) := fun ⟨h1, hn⟩ => Bool.eq_false_iff.mp hn (hp.mpr (h.resolve_left fun k => k h1))
        exact (reachPiece_missing hg).trans (by rw [if_neg hn])

end Sys2Proof.Laws
end

section
/-! SUPPORT. The frame of a lane access, and its lanes one after another (R84, R95, R328, R344). -/

namespace Sys2Proof.Laws

open Sys2Proof.Machine Sys2Proof.Safety

/-! ## The frame -/

/-- Where every lane passes its checks and nothing holds the access back, it is made. -/
theorem lanesAccess_free {s t : State} {c : Issue} {f : AccessForm} {release remote : Bool} {active : LaneMask} {addr : Nat → BitVec 64}
    {ok : List (Nat × List Piece)} {k : State → List (Nat × List Piece) → State}
    (hr : s.reachLanes c.wave c.crew f addr active.lanes = (ok, [], t)) (hf : s.heldOf c.wave.ref = [])
    (hp : s.piecesHeld c.crew.id ok = false) (ha : s.awaitsPromotion remote ok = false) :
    s.lanesAccess c f release remote active addr k = k t ok := by
  simp only [State.lanesAccess, hr, State.mustWait, State.samePageHeld, hf, hp, ha, List.isEmpty_nil, List.any_nil, Bool.not_true, Bool.and_false,
    Bool.or_false, Bool.false_eq_true, if_false]

/-- The one piece of a lane that reaches tile memory at a place. -/
def tilePiece (f : AccessForm) (a : BitVec 64) (p : Nat × Nat) : Piece := { off := 0, size := f.size, addr := a, place := .tile p.1 p.2 }

section
variable {s : State} {c : Issue} {f : AccessForm} {active : LaneMask} {addr : Nat → BitVec 64} {place : Nat → Nat × Nat}

theorem reachLanes_tile {lanes : List Nat}
    (h : ∀ l ∈ lanes, s.reachLane c.wave c.crew f l (addr l) = (.ok [tilePiece f (addr l) (place l)], s)) :
    s.reachLanes c.wave c.crew f addr lanes = (lanes.map fun l => (l, [tilePiece f (addr l) (place l)]), [], s) := by
  suffices ∀ (ls : List Nat) (acc : List (Nat × List Piece)), (∀ l ∈ ls, l ∈ lanes) →
      ls.foldl (fun (ok, bad, s) l =>
        match s.reachLane c.wave c.crew f l (addr l) with
        | (.ok ps, s) => (ok ++ [(l, ps)], bad, s)
        | (.error e, s) => (ok, bad ++ [(l, e)], s)) (acc, ([] : List (Nat × Failure)), s) =
      (acc ++ ls.map fun l => (l, [tilePiece f (addr l) (place l)]), [], s) from this lanes [] fun _ h => h
  intro ls
  induction ls with
  | nil => intro acc _; rw [List.map_nil, List.append_nil]; rfl
  | cons l ls ih =>
    intro acc hm
    rw [List.foldl_cons]
    simp only [h l (hm l List.mem_cons_self)]
    rw [ih _ fun k hk => hm k (List.mem_cons_of_mem _ hk), List.map_cons, List.append_assoc, List.singleton_append]

/-- An access whose lanes all reach tile memory is made, on the state as it stands. -/
theorem lanesAccess_tile (h : TileAccess s c f active addr place) (release remote : Bool) (k : State → List (Nat × List Piece) → State) :
    s.lanesAccess c f release remote active addr k = k s (active.lanes.map fun l => (l, [tilePiece f (addr l) (place l)])) := by
  refine lanesAccess_free (reachLanes_tile h.reach) h.free ?_ ?_
  · simp only [State.piecesHeld, Bool.and_eq_false_iff, List.any_eq_false]
    refine .inr fun x hx hp => ?_
    obtain ⟨l, -, rfl⟩ := List.mem_map.mp hx
    simp [tilePiece] at hp
  · have hl (line : Nat) : ((active.lanes.map fun l => (l, [tilePiece f (addr l) (place l)])).any fun x => x.2.any fun p => p.inLine line) = false := by
      simp [List.any_map, Function.comp_def, tilePiece, Piece.inLine]
    simp only [State.awaitsPromotion, hl, State.promotes, Bool.false_and, Bool.and_eq_false_iff, List.any_eq_false]
    exact .inr fun _ _ => Bool.false_ne_true

/-- An access whose lanes all reach mapped memory is made, on the state after its walks. -/
theorem lanesAccess_memory {s1 : State} {ad : BitVec 64} {ok : List (Nat × List Piece)} (h : MemoryAccess s s1 c f ad active addr ok)
    (release remote : Bool) (k : State → List (Nat × List Piece) → State) : s.lanesAccess c f release remote active addr k = k s1 ok := by
  refine lanesAccess_free h.reach h.free h.unheld (Bool.and_eq_false_iff.mpr (.inr ?_))
  have hc := h.calm
  simp only [State.promotes, List.any_eq_false, Bool.and_eq_true, Bool.true_and] at hc ⊢
  exact fun x hx hp => hc x hx hp.2

end

/-! ## What a lane finds in memory -/

/-- The pieces of an access are whole units of one size, and no two of them lie in one 16-byte unit of memory (R61, R62). -/
structure Apart (size : Nat) (ps : List Piece) : Prop where
  inside : ∀ p ∈ ps, p.off + p.size ≤ size
  sizes : ∀ p ∈ ps, ∀ q ∈ ps, p.size = q.size
  units : ∀ p ∈ ps, ∀ q ∈ ps, pieceKey p / 16 = pieceKey q / 16 → p = q
  one : ∀ p, ps = [p] → p.off = 0 ∧ p.size = size
  small : size ≤ 4 → ∃ p, ps = [p]

theorem apart_singleton {size : Nat} {p : Piece} (ho : p.off = 0) (hs : p.size = size) : Apart size [p] := by
  refine ⟨fun q hq => ?_, fun q hq r hr => ?_, fun q hq r hr _ => ?_, fun q hq => ?_, fun _ => ⟨p, rfl⟩⟩
  · rw [List.mem_singleton.mp hq, ho, hs, Nat.zero_add]
  · rw [List.mem_singleton.mp hq, List.mem_singleton.mp hr]
  · rw [List.mem_singleton.mp hq, List.mem_singleton.mp hr]
  · cases hq
    exact ⟨ho, hs⟩

/-- Translation keeps the place within a page. -/
theorem reachPiece_key {s t : State} {c : Crew} {need : Perm} {off size : Nat} {a : BitVec 64} {p : Piece}
    (h : s.reachPiece c need off size a = (.ok p, t)) (hm : ∃ mt pa comp e lmt lpa, p.place = .mem mt pa comp e lmt lpa) :
    pieceKey p % 2 ^ 17 = a.toNat % 2 ^ 17 := by
  obtain ⟨mt, pa, comp, e, lmt, lpa, hm⟩ := hm
  cases hw : (s.walk c.ctx c.part c.clusterNo a).1 with
  | leaf e frame mt pa =>
    rw [reachPiece_leaf hw] at h
    split at h
    · cases h
      simp only [pieceKey, memKey, BitVec.extractLsb'_toNat, Nat.shiftRight_zero]
      omega
    · cases h
  | missing sub e mt pa =>
    rw [reachPiece_missing hw] at h
    split at h <;> cases h
    cases hm
  | malformed sub =>
    rw [reachPiece_malformed hw] at h
    cases h
  | poisoned =>
    rw [reachPiece_poisoned hw] at h
    cases h
    cases hm

/-- The units of a STACK access, with where they are found. -/
theorem stackStep_key {w : Wave} {c : Crew} {f : AccessForm} {l off : Nat} {s t : State} : ∀ {n : Nat} {ps : List Piece},
    (List.range n).foldl (stackStep w c f l off) (.ok [], s) = (.ok ps, t) →
    (∀ p ∈ ps, ∃ mt pa comp e lmt lpa, p.place = .mem mt pa comp e lmt lpa) → ps.length = n ∧ ∀ k (hk : k < ps.length),
      ps[k].off = 4 * k ∧ ps[k].size = min 4 f.size ∧ pieceKey ps[k] % 2 ^ 17 = (stackBacking w.segs l (off + 4 * k)).toNat % 2 ^ 17
  | 0, ps, h, _ => by cases h; exact ⟨rfl, nofun⟩
  | n + 1, ps, h, hm => by
    rw [List.range_succ, List.foldl_append, List.foldl_cons, List.foldl_nil] at h
    cases hr : (List.range n).foldl (stackStep w c f l off) (.ok [], s) with
    | mk r u =>
      rw [hr] at h
      cases r with
      | error e => cases h
      | ok qs =>
        simp only [stackStep] at h
        cases hp : u.reachPiece c f.need (4 * n) (min 4 f.size) (stackBacking w.segs l (off + 4 * n)) with
        | mk p v =>
          rw [hp] at h
          cases p with
          | error e => cases h
          | ok p =>
            cases h
            obtain ⟨hl, hq⟩ := stackStep_key hr fun q hq => hm q (List.mem_append_left _ hq)
            obtain ⟨ho, hs, -⟩ := reachPiece_shape hp
            refine ⟨by rw [List.length_append, hl]; rfl, fun k hk => ?_⟩
            rw [List.length_append, List.length_singleton] at hk
            by_cases hkn : k < qs.length
            · rw [List.getElem_append_left hkn]
              exact hq k hkn
            · obtain rfl : k = qs.length := by omega
              rw [List.getElem_append_right (Nat.le_refl _)]
              simp only [Nat.sub_self, List.getElem_cons_zero, ho, hs, hl, true_and]
              exact reachPiece_key hp (hm p (List.mem_append_right _ List.mem_cons_self))

/-- Where the units of a STACK access lie in their pages: 384 bytes apart (R61). -/
theorem stackBacking_mod (g : Segs) (l off k : Nat) : (stackBacking g l (off + 4 * k)).toNat % 2 ^ 17 =
    (g.stackBack.toNat + off / 4 * 384 + 4 * l + off % 4 + 384 * k) % 2 ^ 17 := by
  have hd : (off + 4 * k) / 4 * 384 + 4 * l + (off + 4 * k) % 4 = off / 4 * 384 + 4 * l + off % 4 + 384 * k := by omega
  rw [stackBacking, hd, BitVec.toNat_add, BitVec.toNat_ofNat, Nat.add_mod_mod, Nat.mod_mod_of_dvd _ (pow_dvd_pow 2 (by norm_num))]
  simp only [Nat.add_assoc]

/-- Two of the first units of a STACK access that share 16 bytes are the same. -/
theorem unit_eq_of_mod {x i j p q : Nat} (hi : i < 4) (hj : j < 4) (hp : p % 2 ^ 17 = (x + 384 * i) % 2 ^ 17)
    (hq : q % 2 ^ 17 = (x + 384 * j) % 2 ^ 17) (hpq : p / 16 = q / 16) : i = j := by
  norm_num at hp hq
  omega

/-- What a lane that reaches memory finds there. -/
theorem reachLane_apart {s t : State} {w : Wave} {c : Crew} {f : AccessForm} {l : Nat} {a : BitVec 64} {ps : List Piece}
    (h : s.reachLane w c f l a = (.ok ps, t)) (hm : ∀ p ∈ ps, ∃ mt pa comp e lmt lpa, p.place = .mem mt pa comp e lmt lpa)
    (hn : f.size = 1 ∨ f.size = 2 ∨ f.size = 4 ∨ f.size = 8) : Apart f.size ps := by
  by_cases h1 : a.toNat % f.align = 0
  swap
  · rw [reachLane_misaligned h1] at h
    cases h
  by_cases h2 : canonical a = true ∧ canonical (a + BitVec.ofNat 64 (f.size - 1)) = true
  swap
  · rw [reachLane_noncanonical h1 (by rwa [← Bool.not_eq_true, ← Bool.not_eq_true, ← not_and_or])] at h
    cases h
  have hs : Sound f a := ⟨h1, h2⟩
  cases hst : steer w.segs a with
  | tile core off =>
    rw [reachLane_tile hs hst] at h
    split at h
    · cases h
    · split at h
      · split at h <;> cases h
        exact apart_singleton rfl rfl
      · cases h
  | global =>
    rw [reachLane_global hs hst] at h
    split at h
    · cases h
    · cases hr : s.reachPiece c f.need 0 f.size a with
      | mk r u =>
        rw [hr] at h
        cases r with
        | error e => cases h
        | ok p =>
          cases h
          obtain ⟨ho, hs, -⟩ := reachPiece_shape hr
          exact apart_singleton ho hs
  | stack off =>
    rw [reachLane_stack hs hst] at h
    split at h
    · cases h
    · obtain ⟨hl, hk⟩ := stackStep_key h hm
      refine ⟨fun p hp => ?_, fun p hp q hq => ?_, fun p hp q hq hpq => ?_, fun p hp => ?_, fun h4 => ?_⟩
      · obtain ⟨i, hi, rfl⟩ := List.getElem_of_mem hp
        obtain ⟨ho, hs, -⟩ := hk i hi
        omega
      · obtain ⟨i, hi, rfl⟩ := List.getElem_of_mem hp
        obtain ⟨j, hj, rfl⟩ := List.getElem_of_mem hq
        rw [(hk i hi).2.1, (hk j hj).2.1]
      · obtain ⟨i, hi, rfl⟩ := List.getElem_of_mem hp
        obtain ⟨j, hj, rfl⟩ := List.getElem_of_mem hq
        have hi4 : i < 4 := by omega
        have hj4 : j < 4 := by omega
        obtain ⟨-, -, hi17⟩ := hk i hi
        obtain ⟨-, -, hj17⟩ := hk j hj
        rw [stackBacking_mod] at hi17 hj17
        obtain rfl : i = j := unit_eq_of_mod hi4 hj4 hi17 hj17 hpq
        rfl
      · subst hp
        obtain ⟨ho, hs, -⟩ := hk 0 Nat.one_pos
        have h1 : 1 = (f.size + 3) / 4 := hl
        exact ⟨ho, hs.trans (by omega)⟩
      · exact List.length_eq_one_iff.mp (by omega)

/-- What the lanes of an access find, and what their walks change. -/
theorem reachLanes_found {w : Wave} {c : Crew} {f : AccessForm} {addr : Nat → BitVec 64} {s t : State} {lanes : List Nat}
    {ok : List (Nat × List Piece)} (h : s.reachLanes w c f addr lanes = (ok, [], t)) :
    ok.map Prod.fst = lanes ∧ CachesOnly s t ∧ ∀ x ∈ ok, ∃ u v : State, u.reachLane w c f x.1 (addr x.1) = (.ok x.2, v) := by
  induction lanes using List.reverseRecOn generalizing ok t with
  | nil =>
    cases h
    exact ⟨rfl, .refl s, nofun⟩
  | append_singleton ls l ih =>
    cases hr : s.reachLanes w c f addr ls with
    | mk ok' r =>
      obtain ⟨bad, u⟩ := r
      have hl : s.reachLanes w c f addr (ls ++ [l]) = match u.reachLane w c f l (addr l) with
          | (.ok ps, s) => (ok' ++ [(l, ps)], bad, s)
          | (.error e, s) => (ok', bad ++ [(l, e)], s) := by
        rw [State.reachLanes, List.foldl_append, ← State.reachLanes, hr]
        rfl
      rw [hl] at h
      cases hu : u.reachLane w c f l (addr l) with
      | mk r v =>
        rw [hu] at h
        cases r with
        | error e =>
          have := congrArg (fun x => x.2.1) h
          simp at this
        | ok ps =>
          cases h
          obtain ⟨hm, hc, hx⟩ := ih hr
          refine ⟨by rw [List.map_append, hm]; rfl, hc.trans ((cachesOnly_reachLane u w c f l (addr l)).of_eq hu), fun x hxm => ?_⟩
          obtain hxm | hxm := List.mem_append.mp hxm
          · exact hx x hxm
          · rw [List.mem_singleton.mp hxm]
            exact ⟨u, _, hu⟩

/-! ## Lanes one after another -/

/-- Lanes that each give the same outcome, of which g makes what `next` says, as far as R tells two states apart. -/
theorem foldl_lanes {α β : Type} {R : State → State → Prop} {g : State → Nat × α → β × State} {r : β} {next : State → Nat × α → State} :
    ∀ (xs : List (Nat × α)) (acc : List (Nat × β)) (m u : State), R m u →
      (∀ x ∈ xs, ∀ m u, R m u → ∃ u', g u x = (r, u') ∧ R (next m x) u') →
      ∃ u', xs.foldl (fun (acc : List (Nat × β) × State) x => (acc.1 ++ [(x.1, (g acc.2 x).1)], (g acc.2 x).2)) (acc, u) =
        (acc ++ xs.map fun x => (x.1, r), u') ∧ R (xs.foldl next m) u'
  | [], acc, m, u, h, _ => ⟨u, by simp, h⟩
  | x :: xs, acc, m, u, h, hg => by
    obtain ⟨v, hv, hr⟩ := hg x List.mem_cons_self m u h
    obtain ⟨u', hu, hR⟩ := foldl_lanes xs (acc ++ [(x.1, r)]) _ v hr fun y hy => hg y (List.mem_cons_of_mem _ hy)
    refine ⟨u', ?_, hR⟩
    rw [List.foldl_cons, hv, hu, List.map_cons, List.append_assoc, List.singleton_append]

end Sys2Proof.Laws
end

section
/-! SUPPORT. Stores of lanes to tile memory and to memory (R84, R214, R217 to R220). -/

namespace Sys2Proof.Laws

open Sys2Proof.Machine Sys2Proof.Safety

/-! ## Around the lanes -/

theorem combines_of_alone {c : Crew} (h : c.isCombiner = false) : c.combines = none := by
  unfold Crew.combines
  split
  next o hk =>
    rw [Crew.isCombiner, hk] at h
    cases h
  · rfl

/-- Outside a combiner wave and a Woad partition no store is held back. -/
theorem buffers_of_alone {s : State} {c : Crew} (h : c.isCombiner = false) (hr : (s.part c.part).woad = false) (strong : Option Nat) :
    s.buffers? c strong = false := by
  unfold State.buffers?
  split
  next o hk =>
    rw [Crew.isCombiner, hk] at h
    cases h
  · rw [hr, Bool.false_and, Bool.false_and]

/-- Outside a combiner wave no batch is discarded. -/
theorem unlessDiscarded_alone {s k : State} {c : Issue} {ok : List (Nat × List Piece)} (h : c.crew.combines = none) :
    s.unlessDiscarded c ok k = k := by
  simp only [State.unlessDiscarded, h]

/-- No lanes, no trap. -/
theorem raiseLanes_nil (s : State) (c : Issue) (cause sub kind : Nat) (addr : Nat → BitVec 64) (id : Option Nat) :
    s.raiseLanes c cause sub kind [] addr id = s := rfl

theorem lanesWhere_none {α : Type} {outs : List (Nat × α)} {r : α} {p : α → Bool} (h : ∀ x ∈ outs, x.2 = r) (hp : p r = false) :
    lanesWhere outs p = [] := by
  rw [lanesWhere, List.map_eq_nil_iff, List.filter_eq_nil_iff]
  intro x hx
  rw [h x hx, hp]
  exact Bool.false_ne_true

/-- The end of a store whose lanes are all done. -/
theorem endStore_done {u : State} {c : Issue} {i : Instr} {o : Order} {kind : Nat} {outs : List (Nat × LaneWrite)} {addr : Nat → BitVec 64}
    (hw : u.wave? c.wave.ref = some c.wave) (hr : (u.part c.crew.part).woad = false) (hc : c.crew.combines = none)
    (h : ∀ x ∈ outs, x.2 = .done 0 false) : u.endStore c i o kind outs addr = u.retire c i c.wave := by
  have hn : u.nowWave c = c.wave := by rw [State.nowWave, hw]; rfl
  have hl (k : LaneWrite) (hk : k ≠ .done 0 false) : (lanesWhere outs fun r => r == k) = [] :=
    lanesWhere_none h (beq_eq_false_iff_ne.mpr hk.symm)
  simp only [State.endStore, hn, hr, Bool.and_false, Bool.false_eq_true, if_false, hl (.poison 2) nofun, hl (.poison 5) nofun,
    hl (.refused 1) nofun, hl (.refused 2) nofun, raiseLanes_nil, State.checkBatchBuffer, hc]

/-- A store: its lanes, each done, one after another. -/
theorem store_of_lanes {R : State → State → Prop} {g : State → Nat × List Piece → LaneWrite × State} {next : State → Nat × List Piece → State}
    {s : State} {c : Issue} {i : Instr} {o : Order} {kind : Nat} {addr : Nat → BitVec 64} {ok : List (Nat × List Piece)} {m u : State}
    (hc : c.crew.combines = none) (hm : R m u) (hg : ∀ x ∈ ok, ∀ m u, R m u → ∃ u', g u x = (.done 0 false, u') ∧ R (next m x) u')
    (hR : ∀ m u, R m u → u.wave? c.wave.ref = some c.wave ∧ (u.part c.crew.part).woad = false) :
    ∃ u', s.unlessDiscarded c ok (
      let (outs, s) := ok.foldl (fun (acc : List (Nat × LaneWrite) × State) x => (acc.1 ++ [(x.1, (g acc.2 x).1)], (g acc.2 x).2)) ([], u)
      s.endStore c i o kind outs addr) = u'.retire c i c.wave ∧ R (ok.foldl next m) u' := by
  obtain ⟨u', hu, hR'⟩ := foldl_lanes ok [] m u hm hg
  obtain ⟨hw, hp⟩ := hR _ _ hR'
  refine ⟨u', ?_, hR'⟩
  rw [unlessDiscarded_alone hc, hu]
  refine endStore_done hw hp hc fun x hx => ?_
  rw [List.nil_append] at hx
  obtain ⟨y, -, rfl⟩ := List.mem_map.mp hx
  rfl

/-- A store without an order, of C a multiple of 4, is plain (R215). -/
theorem ofC_plain {c : BitVec 6} (h : c.toNat % 4 = 0) : (Order.ofC c).strong = none ∧ (Order.ofC c).release = false ∧ (Order.ofC c).acquire = false := by
  simp [Order.ofC, h]

/-! ## Tile memory -/

/-- t differs from s in bytes of tile memory, its poison that has gone, tags and remembered accesses alone. -/
structure TilesOnly (s t : State) : Prop where
  waves : t.waves = s.waves
  parts : t.parts = s.parts
  memory : SameMemory s t
  blocks : ∀ crew rank b, s.block? crew rank = some b → ∃ d, t.block? crew rank = some d ∧ ∀ u ∈ d.tilePoison, u ∈ b.tilePoison

theorem TilesOnly.refl (s : State) : TilesOnly s s := ⟨rfl, rfl, ⟨rfl, rfl⟩, fun _ _ b hb => ⟨b, hb, fun _ h => h⟩⟩

theorem TilesOnly.trans {s t u : State} (h : TilesOnly s t) (k : TilesOnly t u) : TilesOnly s u := by
  refine ⟨k.waves.trans h.waves, k.parts.trans h.parts, sameMemory_trans h.memory k.memory, fun c r b hb => ?_⟩
  obtain ⟨d, hd, hp⟩ := h.blocks c r b hb
  obtain ⟨e, he, hq⟩ := k.blocks c r d hd
  exact ⟨e, he, fun x hx => hp x (hq x hx)⟩

theorem TilesOnly.wave {s t : State} (h : TilesOnly s t) (r : WaveRef) : t.wave? r = s.wave? r := by rw [State.wave?, State.wave?, h.waves]

theorem TilesOnly.part {s t : State} (h : TilesOnly s t) (p : Nat) : t.part p = s.part p := by rw [State.part, State.part, h.parts]

/-- A block put in its place, with no poison that it had not. -/
theorem tilesOnly_putBlock {s : State} {b d : Block} (hb : s.block? b.crew b.rank = some b) (hc : d.crew = b.crew) (hr : d.rank = b.rank)
    (hp : ∀ u ∈ d.tilePoison, u ∈ b.tilePoison) : TilesOnly s (s.putBlock d) := by
  refine ⟨rfl, rfl, ⟨rfl, rfl⟩, fun crew rank x hx => ?_⟩
  rw [block?_putBlock, hx, Option.map_some]
  refine ⟨_, rfl, fun u hu => ?_⟩
  split at hu
  next h =>
    simp only [Bool.and_eq_true, beq_iff_eq, hc, hr] at h
    obtain ⟨hxc, hxr⟩ := block?_key hx
    rw [← hxc, ← hxr, h.1, h.2, hb] at hx
    cases hx
    exact hp u hu
  · exact hu

theorem tilesOnly_tileWrite (s : State) (crew : Nat) (p : Nat × Nat) (n : Nat) (f : List Byte → List Byte) : TilesOnly s (tileWrite s crew p n f) := by
  have h1 : TilesOnly s (s.clearTag 0 (8 * crew + p.1) p.2 n) := ⟨rfl, rfl, ⟨rfl, rfl⟩, fun _ _ b hb => ⟨b, hb, fun _ h => h⟩⟩
  unfold tileWrite
  extract_lets s1
  split
  next b hb =>
    obtain ⟨hc, hr⟩ := block?_key hb
    refine h1.trans (tilesOnly_putBlock (b := b) (by rw [hc, hr]; exact hb) ?_ ?_ ?_)
    · split <;> rfl
    · split <;> rfl
    · split
      · exact fun u hu => (List.mem_filter.mp hu).1
      · exact fun u hu => hu
  · exact h1

section
variable {s : State} {w : Wave} {c : Crew} {f : AccessForm} {a : BitVec 64} {p : Nat × Nat}

/-- A plain store of one piece of tile memory. -/
theorem writePiece_tile (hb : s.buffers? c none = false) {bs : List Byte} (hn : bs.length = f.size) :
    s.writePiece w c none (tilePiece f a p) bs = (.done, tileWrite s c.id p f.size fun _ => bs) := by
  have hbs : (bs.drop 0).take f.size = bs := by rw [List.drop_zero, ← hn, List.take_length]
  simp only [State.writePiece, tilePiece, hb, Bool.false_eq_true, if_false, State.storePiece, pointOf, hbs, tileWrite]
  cases (s.clearTag 0 (8 * c.id + p.1) p.2 f.size).block? c.id p.1 <;> rfl

/-- A plain read-modify-write of one sound piece of tile memory, by a store. -/
theorem rmwPiece_tile {inp : State → Piece → List Byte → List Byte × State} {g : List Byte → List Byte} {b : Block}
    (hi : ∀ s bs, inp s (tilePiece f a p) bs = (bs, s)) (hb : s.block? c.id p.1 = some b) (hp : b.tilePoison.contains (p.2 / 16 * 16) = false)
    (h16 : f.size ≠ 16) :
    s.rmwPiece w c none true (tilePiece f a p) inp (fun bs => some (g bs)) = (.old (b.bytes p.2 f.size), tileWrite s c.id p f.size g) := by
  have hi' (s : State) (bs : List Byte) : inp s { off := 0, size := f.size, addr := a, place := .tile p.1 p.2 } bs = (bs, s) := hi s bs
  have hb' : (s.clearTag 0 (8 * c.id + p.1) p.2 f.size).block? c.id p.1 = some b := hb
  simp only [State.rmwPiece, tilePiece, State.refusal?, hb, hp, Bool.false_eq_true, if_false, hi', Piece.barred, pointOf, hb', tileWrite, h16]

end

/-- A plain store of a lane to tile memory. -/
theorem writeLane_tile {s : State} {c : Issue} {o : Order} {f : AccessForm} {a : BitVec 64} {p : Nat × Nat} {bs : List Byte} (l : Nat)
    (ho : o.strong = none) (hrel : o.release = false) (hb : s.buffers? c.crew none = false) (hn : bs.length = f.size) :
    s.writeLane c o l [tilePiece f a p] bs = (.done 0 false, tileWrite s c.crew.id p f.size fun _ => bs) := by
  simp only [State.writeLane, ho, State.refusal?, List.findSome?_cons, List.findSome?_nil, List.foldl_cons, List.foldl_nil, writePiece_tile hb hn,
    hrel, State.noteRelease]

/-- A store of a nibble of tile memory. -/
theorem nibbleLane_tile {s : State} {c : Issue} {o : Order} {f : AccessForm} {a : BitVec 64} {p : Nat × Nat} {b : Block} (l half v : Nat)
    (ho : o.strong = none) (hrel : o.release = false) (hb : s.buffers? c.crew none = false) (hk : s.block? c.crew.id p.1 = some b)
    (hp : b.tilePoison.contains (p.2 / 16 * 16) = false) (h1 : f.size = 1) :
    s.nibbleLane c o l half v (tilePiece f a p) = (.done 0 false, tileWrite s c.crew.id p 1 (nibbleBytes half v)) := by
  have hr := rmwPiece_tile (w := c.wave) (f := f) (a := a) (g := nibbleBytes half v)
    (inp := fun s p bs => s.portRead c.wave c.crew c.wave.roundIssued l p bs) (fun _ _ => rfl) hk hp (by omega)
  rw [h1] at hr
  simp only [State.nibbleLane, ho, hb, Bool.false_eq_true, if_false, hr, hrel, State.noteRelease]

/-- A plain store whose lanes all reach tile memory. -/
theorem storeLanes_tile {s : State} {c : Issue} {i : Instr} {o : Order} {n : Nat} {active : LaneMask} {addr : Nat → BitVec 64}
    {place : Nat → Nat × Nat} {bytes : Nat → List Byte} (hw : s.wave? c.wave.ref = some c.wave) (ho : o.strong = none) (hrel : o.release = false)
    (h : TileAccess s c { size := n, align := n, need := { w := true }, write := true, kind := 1 } active addr place)
    (hn : ∀ l, (bytes l).length = n) : s.storeLanes c i o n active addr bytes =
    (active.lanes.foldl (fun s l => tileWrite s c.crew.id (place l) n fun _ => bytes l) s).retire c i c.wave := by
  rw [State.storeLanes]
  dsimp only
  rw [lanesAccess_tile h]
  refine Exists.elim (store_of_lanes (R := fun m u => u = m ∧ TilesOnly s m) (s := s) (c := c) (i := i) (o := o) (kind := 1) (addr := addr)
    (g := fun u x => u.writeLane c o x.1 x.2 (bytes x.1)) (next := fun m x => tileWrite m c.crew.id (place x.1) n fun _ => bytes x.1)
    (ok := active.lanes.map fun l => (l, [tilePiece { size := n, align := n, need := { w := true }, write := true, kind := 1 } (addr l) (place l)]))
    (combines_of_alone h.alone) ⟨rfl, .refl s⟩ ?_ ?_) ?_
  · rintro x hx m u ⟨rfl, ht⟩
    obtain ⟨l, -, rfl⟩ := List.mem_map.mp hx
    have hb : u.buffers? c.crew none = false := buffers_of_alone h.alone (by rw [ht.part]; exact h.rounds) none
    exact ⟨_, writeLane_tile l ho hrel hb (hn l), rfl, ht.trans (tilesOnly_tileWrite ..)⟩
  · rintro m u ⟨rfl, ht⟩
    exact ⟨(ht.wave _).trans hw, by rw [ht.part]; exact h.rounds⟩
  · rintro u ⟨hu, rfl, -⟩
    refine hu.trans ?_
    rw [List.foldl_map]

theorem length_leBytes (n v : Nat) : (leBytes n v).length = n := by
  induction n generalizing v with
  | zero => rfl
  | succ n ih => rw [leBytes, List.length_cons, ih]

/-- The bytes of a store are as many as its element's. -/
theorem storeForms_length {fmt size : BitVec 6} {p : (Opnd → Instr) × Nat × (Wave → Opnd → Nat → BitVec 64) × (Wave → Opnd → Nat → List Byte)}
    (hp : p ∈ storeForms fmt size) (hs : size.toNat ≤ 2) (w : Wave) (o : Opnd) (l : Nat) : (p.2.2.2 w o l).length = p.2.1 := by
  simp only [storeForms, List.mem_cons, List.not_mem_nil, or_false] at hp
  obtain rfl | rfl := hp
  · exact length_leBytes ..
  · have h3 : size.toNat = 0 ∨ size.toNat = 1 ∨ size.toNat = 2 := by omega
    simp only [List.length_flatMap, length_leBytes, List.map_const', List.sum_replicate, List.length_range, smul_eq_mul]
    obtain h | h | h := h3 <;> rw [h] <;> rfl

/-- A store other than that to an e2m1 array is one frame around its lanes (R217, R220). -/
theorem exec_store {fmt size : BitVec 6} {p : (Opnd → Instr) × Nat × (Wave → Opnd → Nat → BitVec 64) × (Wave → Opnd → Nat → List Byte)}
    (hp : p ∈ storeForms fmt size) (hf : fmt ≠ 13) {o : Opnd} {s : State} {c : Issue} (h : Ready s c (p.1 o)) :
    exec (p.1 o) s = .next (s.storeLanes c (p.1 o) (Order.ofC o.ext.c) p.2.1 (c.active o.ext) (p.2.2.1 c.wave o) (p.2.2.2 c.wave o)) := by
  simp only [storeForms, List.mem_cons, List.not_mem_nil, or_false] at hp
  obtain rfl | rfl := hp
  · have h13 : fmt.toNat ≠ 13 := fun k => hf (BitVec.eq_of_toNat_eq k)
    exact (issue_plain h).trans (congrArg _ (if_neg h13))
  · exact issue_plain h

/-- The lanes of a store to an e2m1 array: its nibble and value in each. -/
def nibbleLanes (s : State) (c : Issue) (o : Order) (half v : Nat → Nat) (ok : List (Nat × List Piece)) : List (Nat × LaneWrite) × State :=
  ok.foldl (fun acc x => x.2.foldl (fun acc p =>
    (acc.1 ++ [(x.1, (acc.2.nibbleLane c o x.1 (half x.1) (v x.1) p).1)], (acc.2.nibbleLane c o x.1 (half x.1) (v x.1) p).2)) acc) ([], s)

/-- Byte and nibble of a lane's element of an e2m1 array that it stores to (R218). -/
def storedNibble (w : Wave) (o : Opnd) (l : Nat) : BitVec 64 × Nat :=
  e2m1Place (w.readV2 o.a.toNat l + o.ext.imm.signExtend 64) ((w.readV o.d.toNat).at_ l).toNat

/-- The store to an e2m1 array, whose bases are aligned (R218). -/
theorem exec_nibbles {o : Opnd} {s : State} {c : Issue} (h : Ready s c (.st 13 o))
    (ha : ∀ l ∈ LaneMask.lanes (c.active o.ext), (c.wave.readV2 o.a.toNat l + o.ext.imm.signExtend 64).toNat % 16 = 0) :
    exec (.st 13 o) s = .next (s.lanesAccess c { size := 1, align := 1, need := { w := true }, write := true, kind := 2 }
      (Order.ofC o.ext.c).release false (c.active o.ext) (fun l => (storedNibble c.wave o l).1) fun s ok =>
        s.unlessDiscarded c ok (
          let (outs, s) := nibbleLanes s c (Order.ofC o.ext.c) (fun l => (storedNibble c.wave o l).2)
            (fun l => stValue 13 [(c.wave.readV o.b.toNat).at_ l]) ok
          s.endStore c (.st 13 o) (Order.ofC o.ext.c) 2 outs fun l => (storedNibble c.wave o l).1)) := by
  have hbad : (LaneMask.lanes (c.active o.ext)).filter (fun l => (laneAddr c.wave o.a.toNat o.ext.imm l).toNat % 16 != 0) = [] := by
    rw [List.filter_eq_nil_iff]
    exact fun l hl => by rw [bne_iff_ne, not_not]; exact ha l hl
  refine (issue_plain h).trans (congrArg _ ?_)
  dsimp only
  rw [if_pos (show (13 : BitVec 6).toNat = 13 from rfl), hbad]
  rfl

/-- The lanes of a store to an e2m1 array, where each finds one byte: its pieces, of which the last gives its outcome. -/
def nibbleOf (c : Issue) (o : Order) (half v : Nat → Nat) (s : State) (x : Nat × List Piece) : LaneWrite × State :=
  x.2.foldl (fun acc p => acc.2.nibbleLane c o x.1 (half x.1) (v x.1) p) (.done 0 false, s)

theorem nibbleLanes_eq {s : State} {c : Issue} {o : Order} {half v : Nat → Nat} {ok : List (Nat × List Piece)} (h : ∀ x ∈ ok, ∃ p, x.2 = [p]) :
    nibbleLanes s c o half v ok = ok.foldl (fun (acc : List (Nat × LaneWrite) × State) x =>
      (acc.1 ++ [(x.1, (nibbleOf c o half v acc.2 x).1)], (nibbleOf c o half v acc.2 x).2)) ([], s) := by
  refine List.foldl_ext _ _ _ fun acc x hx => ?_
  obtain ⟨p, hp⟩ := h x hx
  rw [hp, nibbleOf, hp]
  rfl

/-- A store to an e2m1 array whose lanes each find one byte and are done (R218). -/
theorem exec_nibbles_done {R : State → State → Prop} {next : State → Nat × List Piece → State} {o : Opnd} {s m u : State} {c : Issue}
    {ok : List (Nat × List Piece)} (h : Ready s c (.st 13 o))
    (ha : ∀ l ∈ LaneMask.lanes (c.active o.ext), (c.wave.readV2 o.a.toNat l + o.ext.imm.signExtend 64).toNat % 16 = 0)
    (hacc : ∀ k, s.lanesAccess c { size := 1, align := 1, need := { w := true }, write := true, kind := 2 }
      (Order.ofC o.ext.c).release false (c.active o.ext) (fun l => (storedNibble c.wave o l).1) k = k u ok)
    (hone : ∀ x ∈ ok, ∃ p, x.2 = [p]) (hc : c.crew.combines = none) (hm : R m u)
    (hg : ∀ x ∈ ok, ∀ m u, R m u → ∃ u', nibbleOf c (Order.ofC o.ext.c) (fun l => (storedNibble c.wave o l).2)
      (fun l => stValue 13 [(c.wave.readV o.b.toNat).at_ l]) u x = (.done 0 false, u') ∧ R (next m x) u')
    (hR : ∀ m u, R m u → u.wave? c.wave.ref = some c.wave ∧ (u.part c.crew.part).woad = false) :
    ∃ u', exec (.st 13 o) s = .next (u'.retire c (.st 13 o) c.wave) ∧ R (ok.foldl next m) u' := by
  obtain ⟨u', hu, hR'⟩ := store_of_lanes (s := u) (i := .st 13 o) (o := Order.ofC o.ext.c) (kind := 2)
    (addr := fun l => (storedNibble c.wave o l).1) hc hm hg hR
  refine ⟨u', ?_, hR'⟩
  rw [exec_nibbles h ha, hacc, nibbleLanes_eq hone]
  exact congrArg _ hu

/-! ## Memory -/

/-- A piece that a store or an atomic may write: mapped, with A, D and W set, sound, and no link down. -/
def Writable (s : State) (p : Piece) : Prop :=
  ∃ mt pa comp e lmt lpa, p.place = .mem mt pa comp e lmt lpa ∧ e &&& 0x60 = 0x60 ∧ entryW e = true ∧
    s.memPoisoned mt pa p.size = false ∧ s.linkDown mt = false

/-- u is s after stores, and memory is there as in m. -/
structure After (s m u : State) : Prop where
  stores : StoresOnly s u
  memory : SameMemory m u

/-- A store of one piece in memory. -/
theorem writePiece_memory {s m u : State} {w : Wave} {c : Crew} {p : Piece} (h : After s m u) (hb : u.buffers? c none = false) (hp : Writable s p)
    (bs : List Byte) : ∃ u', u.writePiece w c none p bs = (.done, u') ∧ After s (m.putMem (pieceKey p) ((bs.drop p.off).take p.size)) u' := by
  obtain ⟨mt, pa, comp, e, lmt, lpa, hm, he, -, -, hl⟩ := hp
  obtain ⟨t, ht, hs, hmem, -⟩ := storePiece_up (w := w) (c := c) (bs := bs) hm he ((h.stores.linkDown mt).trans hl)
  refine ⟨t, ?_, h.stores.trans hs, ?_⟩
  · rw [← ht]
    simp only [State.writePiece, hm, hb, Bool.false_eq_true, if_false]
  · rw [pieceKey, hm]
    exact sameMemory_trans (sameMemory_putMem h.memory _ _) hmem

/-- A plain store of a lane to memory. -/
theorem writeLane_memory {s : State} {c : Issue} {o : Order} {bs : List Byte} (l : Nat) (ho : o.strong = none) (hrel : o.release = false)
    (hb : ∀ u, StoresOnly s u → u.buffers? c.crew none = false) {ps : List Piece} {m u : State} (h : After s m u) (hp : ∀ p ∈ ps, Writable s p) :
    ∃ u', u.writeLane c o l ps bs = (.done 0 false, u') ∧
      After s (ps.foldl (fun t p => t.putMem (pieceKey p) ((bs.drop p.off).take p.size)) m) u' := by
  have hno (u : State) (ps : List Piece) : ps.findSome? (u.refusal? c.wave c.crew none true) = none :=
    List.findSome?_eq_none_iff.mpr fun _ _ => rfl
  simp only [State.writeLane, ho, hno, hrel, State.noteRelease]
  induction ps generalizing m u with
  | nil => exact ⟨u, rfl, h⟩
  | cons p ps ih =>
    obtain ⟨v, hv, hA⟩ := writePiece_memory (w := c.wave) h (hb u h.stores) (hp p List.mem_cons_self) bs
    simp only [List.foldl_cons, hv]
    exact ih hA fun q hq => hp q (List.mem_cons_of_mem _ hq)

/-- A plain read-modify-write of one piece of memory, by a store. -/
theorem rmwPiece_memory {s m u : State} {w : Wave} {c : Crew} {p : Piece} {inp : State → Piece → List Byte → List Byte × State}
    (h : After s m u) (hp : Writable s p) (hi : ∀ u bs, StoresOnly s u → inp u p bs = (bs, u)) (g : List Byte → List Byte) :
    ∃ u' old, u.rmwPiece w c none true p inp (fun bs => some (g bs)) = (.old old, u') ∧
      After s (m.putMem (pieceKey p) (g (m.memBytes (pieceKey p) p.size))) u' := by
  obtain ⟨mt, pa, comp, e, lmt, lpa, hm, he, hw, hs, hl⟩ := hp
  have ha : e &&& 0x20 = 0x20 := by
    calc e &&& 0x20 = (e &&& 0x60) &&& 0x20 := by rw [BitVec.and_assoc]; rfl
      _ = 0x20 := by rw [he]; rfl
  have hr := cachesOnly_touchL2 u c.part c.ctx.ctag (some (c.id, w.ref.rank)) mt pa p.size comp
  generalize hv : u.touchL2 c.part c.ctx.ctag (some (c.id, w.ref.rank)) mt pa p.size false comp = v at hr
  have hsv := h.stores.trans hr.storesOnly
  have hold : v.rawBytes mt pa p.size = m.memBytes (pieceKey p) p.size := by
    rw [pieceKey, hm]
    exact memBytes_congr (sameMemory_trans h.memory hr.memory) _ _
  have hc := storesOnly_clearTag v 1 (c.coreOf w.ref.rank) (memKey mt pa) p.size
  have hld := (hsv.trans hc).linkDown mt |>.trans hl
  have ht := cachesOnly_touchL2_up hld c.part c.ctx.ctag (some (c.id, w.ref.rank)) pa p.size true comp
  have hld' := ((hsv.trans hc).trans ht.storesOnly).linkDown mt |>.trans hl
  obtain ⟨hst, hmem⟩ := writeL1_up hld' (c.coreOf w.ref.rank) pa (g (v.rawBytes mt pa p.size))
  refine ⟨_, v.rawBytes mt pa p.size, ?_, ((hsv.trans hc).trans ht.storesOnly).trans hst, ?_⟩
  · simp only [State.rmwPiece, State.refusal?, hm, touchLeaf_of_a ha, hv, if_true, hsv.sound hs, Bool.false_eq_true, if_false, hi _ _ hsv,
      Piece.barred, hw, Bool.not_true, pointOf, Option.getD_none, touchLeaf_of_ad he]
  · rw [← hold, pieceKey, hm]
    refine sameMemory_trans (sameMemory_putMem ?_ _ _) hmem
    exact sameMemory_trans (sameMemory_trans h.memory hr.memory) (sameMemory_trans ⟨rfl, rfl⟩ ht.memory)

/-! ## The lanes of an access to memory -/

section
variable {s s1 : State} {c : Issue} {f : AccessForm} {active : LaneMask} {addr : Nat → BitVec 64} {ok : List (Nat × List Piece)}

theorem access_writable (h : MemoryAccess s s1 c f 0x60 active addr ok) (hw : f.write = true) : ∀ x ∈ ok, ∀ p ∈ x.2, Writable s p := by
  intro x hx p hp
  obtain ⟨mt, pa, comp, e, lmt, lpa, hm, he, hwr, hs, hl⟩ := h.sound x hx p hp
  exact ⟨mt, pa, comp, e, lmt, lpa, hm, he, hwr hw, hs, hl⟩

variable {ad : BitVec 64} (h : MemoryAccess s s1 c f ad active addr ok)
include h

theorem access_caches : CachesOnly s s1 := (reachLanes_found h.reach).2.1

theorem access_start : After s s s1 := ⟨(access_caches h).storesOnly, (access_caches h).memory⟩

/-- Of the pieces that an access finds, those of a lane are found by its number. -/
theorem access_find {x : Nat × List Piece} (hx : x ∈ ok) : ok.find? (fun y => y.1 == x.1) = some x := by
  have hm := (reachLanes_found h.reach).1
  have hn : (ok.map Prod.fst).Nodup := by
    rw [hm]
    exact List.nodup_range.filter _
  cases hf : ok.find? fun y => y.1 == x.1 with
  | none => exact absurd (beq_self_eq_true x.1) (List.find?_eq_none.mp hf x hx)
  | some y => rw [List.inj_on_of_nodup_map hn (List.mem_of_find?_eq_some hf) hx (beq_iff_eq.mp (List.find?_some (p := fun y : Nat × List Piece => y.1 == x.1) hf))]

/-- The bytes of memory at a lane's pieces. -/
theorem access_laneBytes {x : Nat × List Piece} (hx : x ∈ ok) (t : State) :
    laneBytes t ok x.1 = x.2.flatMap fun p => t.memBytes (pieceKey p) p.size := by
  rw [laneBytes, access_find h hx]

theorem access_apart (hn : f.size = 1 ∨ f.size = 2 ∨ f.size = 4 ∨ f.size = 8) {x : Nat × List Piece} (hx : x ∈ ok) : Apart f.size x.2 := by
  obtain ⟨u, v, hu⟩ := (reachLanes_found h.reach).2.2 x hx
  refine reachLane_apart hu (fun p hp => ?_) hn
  obtain ⟨mt, pa, comp, e, lmt, lpa, hm, -⟩ := h.sound x hx p hp
  exact ⟨mt, pa, comp, e, lmt, lpa, hm⟩

theorem access_buffers {u : State} (k : StoresOnly s u) (strong : Option Nat) : u.buffers? c.crew strong = false :=
  buffers_of_alone h.alone (by rw [k.part]; exact h.rounds) strong

theorem access_issuer (hw : s.wave? c.wave.ref = some c.wave) {u : State} (k : StoresOnly s u) :
    u.wave? c.wave.ref = some c.wave ∧ (u.part c.crew.part).woad = false :=
  ⟨by rw [State.wave?, k.waves]; exact hw, by rw [k.part]; exact h.rounds⟩

/-- Outside a Woad partition a read of system memory is no external input. -/
theorem access_portRead {u : State} (k : StoresOnly s u) (index l : Nat) (p : Piece) (bs : List Byte) :
    u.portRead c.wave c.crew index l p bs = (bs, u) := by
  unfold State.portRead
  split
  · rw [k.part, h.rounds, Bool.and_false]
    rfl
  · rfl

end

/-- A plain store whose lanes all reach memory. -/
theorem storeLanes_memory {s s1 : State} {c : Issue} {i : Instr} {o : Order} {n : Nat} {active : LaneMask} {addr : Nat → BitVec 64}
    {ok : List (Nat × List Piece)} {bytes : Nat → List Byte} (hw : s.wave? c.wave.ref = some c.wave) (ho : o.strong = none)
    (hrel : o.release = false)
    (h : MemoryAccess s s1 c { size := n, align := n, need := { w := true }, write := true, kind := 1 } 0x60 active addr ok) :
    ∃ u, s.storeLanes c i o n active addr bytes = u.retire c i c.wave ∧ After s (storedAt s ok fun _ l => bytes l) u := by
  have hg : ∀ x ∈ ok, ∀ m u, After s m u → ∃ u', u.writeLane c o x.1 x.2 (bytes x.1) = (.done 0 false, u') ∧
      After s (x.2.foldl (fun t p => t.putMem (pieceKey p) (((bytes x.1).drop p.off).take p.size)) m) u' :=
    fun x hx m u hA => writeLane_memory x.1 ho hrel (fun v hv => access_buffers h hv none) hA (access_writable h rfl x hx)
  obtain ⟨u, hu, hA⟩ := store_of_lanes (s := s1) (i := i) (o := o) (kind := 1) (addr := addr) (combines_of_alone h.alone) (access_start h) hg
    fun m u hA => access_issuer h hw hA.stores
  refine ⟨u, ?_, hA⟩
  rw [State.storeLanes]
  dsimp only
  rw [lanesAccess_memory h]
  exact hu

/-- A plain store to an e2m1 array of one piece of memory. -/
theorem nibbleLane_memory {s m u : State} {c : Issue} {o : Order} {p : Piece} (l half v : Nat) (ho : o.strong = none) (hrel : o.release = false)
    (hb : u.buffers? c.crew none = false) (h : After s m u) (hp : Writable s p)
    (hi : ∀ u bs, StoresOnly s u → u.portRead c.wave c.crew c.wave.roundIssued l p bs = (bs, u)) :
    ∃ u', u.nibbleLane c o l half v p = (.done 0 false, u') ∧
      After s (m.putMem (pieceKey p) (nibbleBytes half v (m.memBytes (pieceKey p) p.size))) u' := by
  obtain ⟨u', old, hu, hA⟩ := rmwPiece_memory (w := c.wave) (c := c.crew) (inp := fun s p bs => s.portRead c.wave c.crew c.wave.roundIssued l p bs)
    h hp hi (nibbleBytes half v)
  refine ⟨u', ?_, hA⟩
  simp only [State.nibbleLane, ho, hb, Bool.false_eq_true, if_false, hu, hrel, State.noteRelease]

/-- A plain store to an e2m1 array whose lanes all reach tile memory (R218). -/
theorem exec_nibbles_tile {o : Opnd} {s : State} {c : Issue} {place : Nat → Nat × Nat} (h : Ready s c (.st 13 o)) (hc : o.ext.c.toNat % 4 = 0)
    (hal : ∀ l ∈ LaneMask.lanes (c.active o.ext), (c.wave.readV2 o.a.toNat l + o.ext.imm.signExtend 64).toNat % 16 = 0)
    (hacc : TileAccess s c { size := 1, align := 1, need := { w := true }, write := true, kind := 2 } (c.active o.ext)
      (fun l => (storedNibble c.wave o l).1) place) :
    exec (.st 13 o) s = .next (((LaneMask.lanes (c.active o.ext)).foldl (fun s l => tileWrite s c.crew.id (place l) 1
      (nibbleBytes (storedNibble c.wave o l).2 (stValue 13 [(c.wave.readV o.b.toNat).at_ l]))) s).retire c (.st 13 o) c.wave) := by
  obtain ⟨ho, hrel, -⟩ := ofC_plain hc
  have hg : ∀ x ∈ (c.active o.ext).lanes.map (fun l =>
      (l, [tilePiece { size := 1, align := 1, need := { w := true }, write := true, kind := 2 } (storedNibble c.wave o l).1 (place l)])),
      ∀ m u : State, u = m ∧ TilesOnly s m → ∃ u', nibbleOf c (Order.ofC o.ext.c) (fun l => (storedNibble c.wave o l).2)
        (fun l => stValue 13 [(c.wave.readV o.b.toNat).at_ l]) u x = (.done 0 false, u') ∧
        (u' = tileWrite m c.crew.id (place x.1) 1 (nibbleBytes (storedNibble c.wave o x.1).2 (stValue 13 [(c.wave.readV o.b.toNat).at_ x.1])) ∧
          TilesOnly s (tileWrite m c.crew.id (place x.1) 1
            (nibbleBytes (storedNibble c.wave o x.1).2 (stValue 13 [(c.wave.readV o.b.toNat).at_ x.1])))) := by
    rintro x hx m u ⟨rfl, ht⟩
    obtain ⟨l, hl, rfl⟩ := List.mem_map.mp hx
    obtain ⟨b, hb, hp⟩ := hacc.sound l hl
    obtain ⟨d, hd, hdp⟩ := ht.blocks _ _ b hb
    have hdp' : d.tilePoison.contains ((place l).2 / 16 * 16) = false := by
      rw [← Bool.not_eq_true, List.contains_iff_mem] at hp ⊢
      exact fun k => hp (hdp _ k)
    have hbuf : u.buffers? c.crew none = false := buffers_of_alone hacc.alone (by rw [ht.part]; exact hacc.rounds) none
    exact ⟨_, nibbleLane_tile l _ _ ho hrel hbuf hd hdp' rfl, rfl, ht.trans (tilesOnly_tileWrite ..)⟩
  obtain ⟨u, hu, rfl, -⟩ := exec_nibbles_done h hal (fun k => lanesAccess_tile hacc _ _ k) (fun x hx => by
    obtain ⟨l, -, rfl⟩ := List.mem_map.mp hx
    exact ⟨_, rfl⟩) (combines_of_alone hacc.alone) (R := fun m u => u = m ∧ TilesOnly s m) (m := s) ⟨rfl, .refl s⟩ hg fun m u ⟨hum, ht⟩ =>
      hum ▸ ⟨(ht.wave _).trans (issuerParts h.issuer).wave, by rw [ht.part]; exact hacc.rounds⟩
  rw [hu, List.foldl_map]

/-- A plain store to an e2m1 array whose lanes all reach memory (R218). -/
theorem exec_nibbles_memory {o : Opnd} {s s1 : State} {c : Issue} {ok : List (Nat × List Piece)} (h : Ready s c (.st 13 o))
    (hc : o.ext.c.toNat % 4 = 0)
    (hal : ∀ l ∈ LaneMask.lanes (c.active o.ext), (c.wave.readV2 o.a.toNat l + o.ext.imm.signExtend 64).toNat % 16 = 0)
    (hacc : MemoryAccess s s1 c { size := 1, align := 1, need := { w := true }, write := true, kind := 2 } 0x60 (c.active o.ext)
      (fun l => (storedNibble c.wave o l).1) ok) :
    ∃ u, exec (.st 13 o) s = .next (u.retire c (.st 13 o) c.wave) ∧ After s (storedAt s ok fun t l =>
      nibbleBytes (storedNibble c.wave o l).2 (stValue 13 [(c.wave.readV o.b.toNat).at_ l]) (laneBytes t ok l)) u := by
  obtain ⟨ho, hrel, -⟩ := ofC_plain hc
  have hone : ∀ x ∈ ok, ∃ p, x.2 = [p] := fun x hx => (access_apart hacc (.inl rfl) hx).small (by norm_num)
  obtain ⟨u, hu, hA⟩ := exec_nibbles_done h hal (fun k => lanesAccess_memory hacc _ _ k) hone (combines_of_alone hacc.alone) (access_start hacc)
    (next := fun m x => x.2.foldl (fun t p => t.putMem (pieceKey p) (((nibbleBytes (storedNibble c.wave o x.1).2
      (stValue 13 [(c.wave.readV o.b.toNat).at_ x.1]) (laneBytes m ok x.1)).drop p.off).take p.size)) m)
    (fun x hx m u hA => by
      obtain ⟨p, hp⟩ := hone x hx
      obtain ⟨hoff, hsize⟩ := (access_apart hacc (.inl rfl) hx).one p hp
      have hw := access_writable hacc rfl x hx p (by rw [hp]; exact List.mem_cons_self)
      obtain ⟨u', hu', hA'⟩ := nibbleLane_memory x.1 (storedNibble c.wave o x.1).2 (stValue 13 [(c.wave.readV o.b.toNat).at_ x.1]) ho hrel
        (access_buffers hacc hA.stores none) hA hw fun v bs hv => access_portRead hacc hv ..
      refine ⟨u', ?_, ?_⟩
      · rw [nibbleOf, hp]
        exact hu'
      · have hlen (k w : Nat) (bs : List Byte) : ((nibbleBytes k w bs).drop 0).take 1 = nibbleBytes k w bs := rfl
        rw [access_laneBytes hacc hx, hp, List.foldl_cons, List.foldl_nil, List.flatMap_cons, List.flatMap_nil, List.append_nil, hoff, hsize, hlen]
        rw [hsize] at hA'
        exact hA') fun m u hA => access_issuer hacc (issuerParts h.issuer).wave hA.stores
  exact ⟨u, hu, hA⟩

/-- Settles O33: the lanes of a store are written one after another, each by one store of its pieces or of its byte. -/
theorem storesWriteMemory : Obligations.StoresWriteMemory := by
  refine ⟨fun fmt size p hp o s c place hs hf h hc hacc => ?_, fun o s c place h hc hal hacc => ?_,
    fun fmt size p hp o s s1 c ok hs hf h hc hacc => ?_, fun o s s1 c ok h hc hal hacc => ?_⟩
  · obtain ⟨ho, hrel, -⟩ := ofC_plain hc
    rw [exec_store hp hf h, storeLanes_tile (issuerParts h.issuer).wave ho hrel hacc (storeForms_length hp hs c.wave o)]
  · exact exec_nibbles_tile h hc hal hacc
  · obtain ⟨ho, hrel, -⟩ := ofC_plain hc
    obtain ⟨u, hu, hA⟩ := storeLanes_memory (i := p.1 o) (bytes := p.2.2.2 c.wave o) (issuerParts h.issuer).wave ho hrel hacc
    exact ⟨u, by rw [exec_store hp hf h, hu], hA.stores.waves, hA.stores.tiles, hA.memory⟩
  · obtain ⟨u, hu, hA⟩ := exec_nibbles_memory h hc hal hacc
    exact ⟨u, hu, hA.stores.waves, hA.stores.tiles, hA.memory⟩

end Sys2Proof.Laws
end

section
/-! SUPPORT. Read-modify-writes of one lane (R90, R95, R97, R222 to R224). -/

namespace Sys2Proof.Laws

open Sys2Proof.Machine Sys2Proof.Safety

/-! ## The end of an atomic -/

/-- The frame of an atomic whose one active lane finds no missing page and reads its old value. -/
theorem rmwLanes_one {s u v : State} {c : Issue} {i : Instr} {ord : List (Nat × LaneWrite) → Order} {most : Order} {f : AccessForm}
    {kind : HeldKind} {code : Nat} {dst : Option (Nat × Nat)} {active : LaneMask} {addr : Nat → BitVec 64} {data : Nat → BitVec 128}
    {data2 : Nat → BitVec 64} {new : Nat → List Byte → Option (List Byte)} {l : Nat} {ps : List Piece} {old : List Byte}
    (hacc : ∀ k, s.lanesAccess c f most.release most.remote active addr k = k u [(l, ps)]) (hmiss : missingOf ps = [])
    (hr : ({ u with stamp := u.stamp + 1 } : State).rmw c.wave c.crew most.strong ps
      (fun s p bs => s.portRead c.wave c.crew c.wave.roundIssued l p bs) (new l) = (.old old, v)) :
    s.rmwLanes c i ord most f kind code dst active addr data data2 new =
      (ps.foldl (fun s p => s.noteRelease (c.crew.coreOf c.wave.ref.rank) (most.release && (new l old).isSome) p) v).endRmw c i
        (ord [(l, .done (leNat old) false)]) f.kind active (dst.map fun x => (u.stamp, x.1, x.2)) [(l, .done (leNat old) false)] addr := by
  simp only [State.rmwLanes, hacc, State.takeStamp, List.foldl_cons, List.foldl_nil, hmiss, hr, List.nil_append, rmwOutcome]

/-- The producer of an atomic whose one lane read its old value. -/
def oldLanding (id d n : Nat) (active : LaneMask) (l old : Nat) : Landing :=
  { id := id, file := false, reg := d, lanes := active, pending := 0
    data := (List.range n).map fun k => Lanes.build fun j => if j = l then BitVec.ofNat 32 (old / 2 ^ (32 * k)) else 0 }

/-- The end of an atomic whose one lane is done. -/
theorem endRmw_one {v : State} {c : Issue} {i : Instr} {o : Order} {kind l old : Nat} {active : LaneMask} {landing : Option (Nat × Nat × Nat)}
    {addr : Nat → BitVec 64} (hw : v.wave? c.wave.ref = some c.wave) :
    v.endRmw c i o kind active landing [(l, .done old false)] addr = (v.acquire c.crew c.wave.ref.rank o).retire c i
      (match landing with
       | none => c.wave
       | some (id, d, n) => c.wave.produce (oldLanding id d n active l old)) := by
  have hn : v.nowWave c = c.wave := by rw [State.nowWave, hw]; rfl
  have hl (p : LaneWrite → Bool) (hp : p (.done old false) = false) : lanesWhere [(l, .done old false)] p = [] :=
    lanesWhere_none (r := .done old false) (fun x hx => by rw [List.mem_singleton.mp hx]) hp
  have ha (w : Wave) : (v.retire c i w).acquire c.crew c.wave.ref.rank o = (v.acquire c.crew c.wave.ref.rank o).retire c i w := by
    unfold State.acquire
    split <;> rfl
  have hb (k : Nat) : (Lanes.build fun j => match [(l, LaneWrite.done old false)].find? fun x => x.1 == j with
      | some (_, .done old _) => BitVec.ofNat 32 (old / 2 ^ (32 * k))
      | _ => 0) = Lanes.build fun j => if j = l then BitVec.ofNat 32 (old / 2 ^ (32 * k)) else 0 := by
    refine congrArg _ (funext fun j => ?_)
    by_cases hj : j = l
    · rw [if_pos hj, List.find?_cons_of_pos (by rw [hj]; exact beq_self_eq_true l)]
    · rw [if_neg hj, List.find?_cons_of_neg (by rw [beq_iff_eq]; exact fun h => hj h.symm)]
      rfl
  unfold State.endRmw
  simp only [hn, hl (fun r => r == .held) rfl, hl (fun r => r == .poison 2) rfl, hl (fun r => r == .poison 5) rfl, hl (fun r => r == .refused 1) rfl,
    hl (fun r => r == .refused 2) rfl, raiseLanes_nil, List.isEmpty_nil, if_true, ha]
  cases landing with
  | none => exact raiseLanes_nil ..
  | some x =>
    obtain ⟨id, d, n⟩ := x
    refine (raiseLanes_nil _ _ _ _ _ _ _).trans ?_
    exact congrArg (fun data => (v.acquire c.crew c.wave.ref.rank o).retire c i (c.wave.produce
      { id := id, file := false, reg := d, lanes := active, pending := 0, data := data })) (List.map_congr_left fun k _ => hb k)

/-! ## Tile memory -/

/-- Where no strong access to tile memory is remembered, one to it is neither refused nor mixed with another (R97, R392). -/
theorem mixTag_tile {s : State} (h : NoStrongInTiles s) (place key n : Nat) (write : Bool) : s.mixTag? 0 place key n write = none := by
  refine List.find?_eq_none.mpr fun t ht => ?_
  have hp : (t.point == 0) = false := beq_eq_false_iff_ne.mpr (h.1 t ht)
  rw [hp, Bool.false_and, Bool.false_and, Bool.false_and, Bool.false_and, Bool.false_and]
  exact Bool.false_ne_true

theorem mixers_tile {s : State} (h : NoStrongInTiles s) (place key n : Nat) (write : Bool) : s.mixers 0 place key n write = [] := by
  refine List.filter_eq_nil_iff.mpr fun f hf => ?_
  have hp : (f.place == footPlace 0 place) = false := by
    rw [h.2 f hf, beq_eq_false_iff_ne]
    exact (Nat.succ_ne_zero place).symm
  rw [hp]
  simp only [Bool.false_and, Bool.false_eq_true, not_false_iff]

theorem blur_nil (s : State) (key : Nat) (bs : List Byte) : s.blur [] key bs = (bs, s) := rfl

theorem smear_nil (s : State) (pt place key n : Nat) : s.smear [] pt place key n = s := by
  have hf : (List.range n).filter (fun k => ([] : List Footprint).any fun f => f.left.contains (key + k)) = [] :=
    List.filter_eq_nil_iff.mpr fun _ _ => Bool.false_ne_true
  rw [State.smear, hf]
  rfl

/-- A strong read-modify-write of one sound piece of tile memory. -/
theorem rmwPiece_strong_tile {s : State} {w : Wave} {c : Crew} {f : AccessForm} {a : BitVec 64} {p : Nat × Nat} {b : Block} {k : Nat}
    {inp : State → Piece → List Byte → List Byte × State} {g : List Byte → Option (List Byte)} (hs : NoStrongInTiles s)
    (hi : ∀ s bs, inp s (tilePiece f a p) bs = (bs, s)) (hb : s.block? c.id p.1 = some b) (hp : b.tilePoison.contains (p.2 / 16 * 16) = false)
    (hg : ∀ bs new, g bs = some new → new.length = f.size) :
    s.rmwPiece w c (some k) false (tilePiece f a p) inp g =
      (.old (b.bytes p.2 f.size), tileAtomic s c.id p f.size fun _ => g (b.bytes p.2 f.size)) := by
  have hi' (s : State) (bs : List Byte) : inp s { off := 0, size := f.size, addr := a, place := .tile p.1 p.2 } bs = (bs, s) := hi s bs
  have href (write : Bool) : s.refusal? w c (some k) write { off := 0, size := f.size, addr := a, place := .tile p.1 p.2 } = none := by
    simp only [State.refusal?, pointOf, mixTag_tile hs, Option.map_none, ite_self]
  have hb' (t : Bool) : (s.noteStrong 0 (8 * c.id + p.1) p.2 f.size t).block? c.id p.1 = some b := hb
  simp only [State.rmwPiece, tilePiece, href, hb, hp, Bool.false_eq_true, if_false, hi', Piece.barred, pointOf, mixers_tile hs, blur_nil, smear_nil,
    tileAtomic, hb', State.strongWrite]
  cases hgb : g (b.bytes p.2 f.size) with
  | none => rfl
  | some new =>
    simp only [hg _ _ hgb, hb', Option.isSome_some]


/-! ## The tags of an access -/

/-- The strong accesses that are remembered are those of pieces of this access (R97, R391). -/
structure OwnTags (ps : List Piece) (u : State) : Prop where
  tags : ∀ t ∈ u.mixTags, ∃ q ∈ ps, t.unit = pieceKey q / 16 ∧ t.off = pieceKey q % 16 ∧ t.size = q.size
  feet : ∀ f ∈ u.strongs, ∃ q ∈ ps, f.size = q.size

theorem OwnTags.mono {ps : List Piece} {u v : State} (h : OwnTags ps u) (ht : ∀ t ∈ v.mixTags, t ∈ u.mixTags) (hf : v.strongs = u.strongs) :
    OwnTags ps v := ⟨fun t k => h.tags t (ht t k), fun f k => h.feet f (hf ▸ k)⟩

section
variable {n : Nat} {ps : List Piece} {u : State} (ha : Apart n ps) (h : OwnTags ps u) {p : Piece} (hp : p ∈ ps)
include ha h hp

/-- Two pieces of one access do not mix. -/
theorem mixTag_own (pt place : Nat) (write : Bool) : u.mixTag? pt place (pieceKey p) p.size write = none := by
  refine List.find?_eq_none.mpr fun t ht hk => ?_
  obtain ⟨q, hq, hu, ho, hs⟩ := h.tags t ht
  simp only [Bool.and_eq_true, beq_iff_eq, hu] at hk
  obtain ⟨⟨⟨⟨-, hunit⟩, -⟩, hdiff⟩, -⟩ := hk
  have hqp : q = p := ha.units q hq p hp hunit
  simp [hs, ho, hqp] at hdiff

theorem mixers_own (pt place : Nat) (write : Bool) : u.mixers pt place (pieceKey p) p.size write = [] := by
  refine List.filter_eq_nil_iff.mpr fun f hf => ?_
  obtain ⟨q, hq, hs⟩ := h.feet f hf
  have hd : (f.size != p.size) = false := by rw [hs, ha.sizes q hq p hp, bne_self_eq_false]
  rw [hd]
  simp only [Bool.and_false, Bool.false_and, Bool.false_eq_true, not_false_iff]

omit ha in
/-- A piece's own access, once made, is one of them. -/
theorem ownTags_noteStrong (pt place : Nat) (write : Bool) : OwnTags ps (u.noteStrong pt place (pieceKey p) p.size write) := by
  have hlose (x : Footprint) : (Footprint.lose (footPlace pt place) (pieceKey p) p.size x).size = x.size := by
    unfold Footprint.lose
    split <;> rfl
  refine ⟨fun t ht => ?_, fun f hf => ?_⟩
  · have ht : t ∈ (u.setTag pt place (pieceKey p) p.size write).mixTags := ht
    unfold State.setTag at ht
    split at ht
    · exact h.tags t ht
    · obtain rfl | ht := List.mem_cons.mp ht
      · exact ⟨p, hp, rfl, rfl, rfl⟩
      · exact h.tags t (List.mem_filter.mp ht).1
  · have hst : (u.setTag pt place (pieceKey p) p.size write).strongs = u.strongs := by
      unfold State.setTag
      split <;> rfl
    unfold State.noteStrong State.noteFoot at hf
    simp only [hst] at hf
    obtain rfl | hf := List.mem_cons.mp hf
    · exact ⟨p, hp, rfl⟩
    · split at hf
      · obtain ⟨x, hx, rfl⟩ := List.mem_map.mp hf
        rw [hlose]
        exact h.feet x (List.mem_filter.mp hx).1
      · exact h.feet f (List.mem_filter.mp hf).1

end

theorem storesOnly_noteStrong (u : State) (pt place key n : Nat) (write : Bool) :
    StoresOnly u (u.noteStrong pt place key n write) ∧ SameMemory u (u.noteStrong pt place key n write) := by
  unfold State.noteStrong State.setTag
  split <;> exact ⟨⟨rfl, rfl, rfl, fun _ h => h, fun _ _ => rfl⟩, rfl, rfl⟩

/-! ## The tags that the caches keep -/

theorem tags_choose (s : State) (n : Nat) : (s.choose n).2.mixTags = s.mixTags := by
  unfold State.choose; split <;> rfl

theorem tags_charge (s : State) (blk : Option (Nat × Nat)) (n : Nat) : (s.charge blk n).mixTags = s.mixTags := by
  unfold State.charge; split <;> rfl

theorem tags_evict {s : State} {x : L2Line} {t : MixTag} (h : t ∈ (s.evict x).mixTags) : t ∈ s.mixTags := by
  have hf (bs : List (Nat × Nat)) (u : State) : (bs.foldl (fun s b => s.charge (some b) 128) u).mixTags = u.mixTags := by
    induction bs generalizing u with
    | nil => rfl
    | cons b bs ih => exact (ih _).trans (tags_charge ..)
  unfold State.evict at h
  extract_lets u at h
  split at h
  · rw [hf] at h
    exact (List.mem_filter.mp h).1
  · exact (List.mem_filter.mp h).1

theorem tags_trimL2 {home : Nat} {t : MixTag} : ∀ {n : Nat} {s : State}, t ∈ (s.trimL2 home n).mixTags → t ∈ s.mixTags
  | 0, _, h => h
  | n + 1, s, h => by
    unfold State.trimL2 at h
    split at h
    · exact h
    · split at h
      · exact h
      · exact tags_evict (tags_trimL2 h)

theorem tags_fillL2 {s : State} {part ctag : Nat} {blk : Option (Nat × Nat)} {mt line : Nat} {through comp : Bool} {x : MixTag}
    (h : x ∈ (s.fillL2 part ctag blk mt line through comp).mixTags) : x ∈ s.mixTags := by
  unfold State.fillL2 at h
  extract_lets home at h
  split at h
  next t here he =>
  have ht (k : x ∈ t.mixTags) : x ∈ s.mixTags := by
    split at he
    · cases he
      exact k
    · split at he
      next j u hj =>
      have hu : u.mixTags = s.mixTags := by rw [← tags_choose s 2, hj]
      split at he
      · cases he
        exact hu ▸ tags_evict k
      · cases he
        exact hu ▸ k
  split at h
  · exact ht h
  · extract_lets new u at h
    have hu : x ∈ u.mixTags := tags_trimL2 h
    simp only [u] at hu
    split at hu
    · exact ht hu
    · exact ht (tags_charge t blk 128 ▸ hu)

theorem tags_touchL2 {s : State} {mt : Nat} (hd : s.linkDown mt = false) {part ctag : Nat} {blk : Option (Nat × Nat)} {pa n : Nat}
    {write comp : Bool} {x : MixTag} (h : x ∈ (s.touchL2 part ctag blk mt pa n write comp).mixTags) : x ∈ s.mixTags := by
  cases write with
  | false => exact tags_fillL2 h
  | true =>
    unfold State.touchL2 at h
    extract_lets line system t home mark u at h
    have hu : CachesOnly s u :=
      (cachesOnly_fillL2 ..).trans ((cachesOnly_l2 t _ t.fills).trans (cachesOnly_trimL2 ..))
    have hv : CachesOnly s (if system = true then u.charge blk n else u) := by
      split
      · exact hu.trans (cachesOnly_charge ..)
      · exact hu
    rw [if_pos rfl, if_neg] at h
    · have h : x ∈ (if system = true then u.charge blk n else u).mixTags := h
      have hx : x ∈ u.mixTags := by
        split at h
        · exact tags_charge u blk n ▸ h
        · exact h
      exact tags_fillL2 (tags_trimL2 (home := home) (s := { t with l2 := updWhere (fun x => x.at_ home mt line) mark t.l2 }) hx)
    · rw [hv.linkDown, hd]
      exact Bool.false_ne_true

/-! ## Memory -/

/-- A piece's bytes after an access that writes them or not. -/
def written (m : State) (p : Piece) : Option (List Byte) → State
  | some bs => m.putMem (pieceKey p) bs
  | none => m

theorem pointOf_memory {c : Crew} {w : Wave} {p : Piece} (k : Nat) (h : ∃ mt pa comp e lmt lpa, p.place = .mem mt pa comp e lmt lpa) :
    ∃ pt place, pointOf c w k p.place = (pt, place, pieceKey p) := by
  obtain ⟨mt, pa, comp, e, lmt, lpa, h⟩ := h
  rw [pieceKey, h]
  unfold pointOf
  dsimp only
  split
  · exact ⟨_, _, rfl⟩
  · split
    · exact ⟨_, _, rfl⟩
    · split <;> exact ⟨_, _, rfl⟩

/-- A read past L1 leaves memory, tags and remembered accesses. -/
theorem readPast {s m u : State} {ps : List Piece} {c : Crew} {w : Wave} {mt pa n : Nat} {comp : Bool} (h : After s m u) (ht : OwnTags ps u)
    (hl : s.linkDown mt = false) :
    After s m ((u.touchL2 c.part c.ctx.ctag (some (c.id, w.ref.rank)) mt pa n false comp).dropL1Line (c.coreOf w.ref.rank) mt pa) ∧
    OwnTags ps ((u.touchL2 c.part c.ctx.ctag (some (c.id, w.ref.rank)) mt pa n false comp).dropL1Line (c.coreOf w.ref.rank) mt pa) := by
  have hr := cachesOnly_touchL2 u c.part c.ctx.ctag (some (c.id, w.ref.rank)) mt pa n comp
  have hd : CachesOnly u ((u.touchL2 c.part c.ctx.ctag (some (c.id, w.ref.rank)) mt pa n false comp).dropL1Line (c.coreOf w.ref.rank) mt pa) :=
    hr.trans (cachesOnly_l1 ..)
  obtain ⟨-, -, -, -, -, -, hst⟩ := hd.keeps
  refine ⟨⟨h.stores.trans hd.storesOnly, sameMemory_trans h.memory hd.memory⟩, ht.mono (fun t k => ?_) hst⟩
  exact tags_touchL2 ((h.stores.linkDown mt).trans hl) k

/-- A write past L1 stores its bytes, and leaves tags and remembered accesses. -/
theorem writePast {s m u : State} {ps : List Piece} {c : Crew} {w : Wave} {mt pa n : Nat} {comp : Bool} (h : After s m u) (ht : OwnTags ps u)
    (hl : s.linkDown mt = false) (bs : List Byte) :
    After s (m.putMem (memKey mt pa) bs) ((u.touchL2 c.part c.ctx.ctag (some (c.id, w.ref.rank)) mt pa n true comp).rawWrite mt pa bs) ∧
    OwnTags ps ((u.touchL2 c.part c.ctx.ctag (some (c.id, w.ref.rank)) mt pa n true comp).rawWrite mt pa bs) := by
  have hlu := (h.stores.linkDown mt).trans hl
  have hr := cachesOnly_touchL2_up hlu c.part c.ctx.ctag (some (c.id, w.ref.rank)) pa n true comp
  generalize hv : u.touchL2 c.part c.ctx.ctag (some (c.id, w.ref.rank)) mt pa n true comp = v at hr
  obtain ⟨hs, hm⟩ := rawWrite_up ((hr.linkDown mt).trans hlu) pa bs
  obtain ⟨-, -, -, -, -, -, hst⟩ := hr.keeps
  have hk : (v.rawWrite mt pa bs).mixTags = v.mixTags ∧ (v.rawWrite mt pa bs).strongs = v.strongs := by
    unfold State.rawWrite
    split
    · exact ⟨rfl, rfl⟩
    · split <;> exact ⟨rfl, rfl⟩
  refine ⟨⟨(h.stores.trans hr.storesOnly).trans hs, ?_⟩, ht.mono (fun t k => ?_) (hk.2.trans hst)⟩
  · exact sameMemory_trans (sameMemory_putMem (sameMemory_trans h.memory hr.memory) _ _) hm
  · rw [hk.1, ← hv] at k
    exact tags_touchL2 hlu k

theorem refusal_own {n : Nat} {ps : List Piece} {u : State} {p : Piece} (ha : Apart n ps) (h : OwnTags ps u) (hp : p ∈ ps)
    (hm : ∃ mt pa comp e lmt lpa, p.place = .mem mt pa comp e lmt lpa) (w : Wave) (c : Crew) (strong : Option Nat) (write : Bool) :
    u.refusal? w c strong write p = none := by
  cases strong with
  | none => rfl
  | some k =>
    obtain ⟨pt, place, hpt⟩ := pointOf_memory (c := c) (w := w) k hm
    simp only [State.refusal?, hpt, mixTag_own ha h hp, Option.map_none, ite_self]

theorem Writable.memory {s : State} {p : Piece} (h : Writable s p) : ∃ mt pa comp e lmt lpa, p.place = .mem mt pa comp e lmt lpa := by
  obtain ⟨mt, pa, comp, e, lmt, lpa, hm, -⟩ := h
  exact ⟨mt, pa, comp, e, lmt, lpa, hm⟩

/-- A strong read-modify-write of one piece of memory. -/
theorem rmwPiece_strong_memory {s m u : State} {w : Wave} {c : Crew} {n k : Nat} {ps : List Piece} {p : Piece}
    {inp : State → Piece → List Byte → List Byte × State} {g : List Byte → Option (List Byte)} (ha : Apart n ps) (h : After s m u)
    (ht : OwnTags ps u) (hp : p ∈ ps) (hw : Writable s p) (hi : ∀ u bs, StoresOnly s u → inp u p bs = (bs, u))
    (hg : ∀ bs new, g bs = some new → new.length = p.size) :
    ∃ u', u.rmwPiece w c (some k) false p inp g = (.old (m.memBytes (pieceKey p) p.size), u') ∧
      After s (written m p (g (m.memBytes (pieceKey p) p.size))) u' ∧ OwnTags ps u' := by
  obtain ⟨pt, place, hpt⟩ := pointOf_memory (c := c) (w := w) k hw.memory
  have href (write : Bool) := refusal_own ha ht hp hw.memory w c (some k) write
  obtain ⟨mt, pa, comp, e, lmt, lpa, hm, he, hwr, hs, hl⟩ := hw
  have hkey : pieceKey p = memKey mt pa := by rw [pieceKey, hm]
  have hx : e &&& 0x20 = 0x20 := by
    calc e &&& 0x20 = (e &&& 0x60) &&& 0x20 := by rw [BitVec.and_assoc]; rfl
      _ = 0x20 := by rw [he]; rfl
  obtain ⟨hv, htv⟩ := readPast (c := c) (w := w) (pa := pa) (n := p.size) (comp := comp) h ht hl
  generalize hvd : (u.touchL2 c.part c.ctx.ctag (some (c.id, w.ref.rank)) mt pa p.size false comp).dropL1Line (c.coreOf w.ref.rank) mt pa = v at hv htv
  have hold : v.rawBytes mt pa p.size = m.memBytes (pieceKey p) p.size := by
    rw [hkey]
    exact memBytes_congr hv.memory _ _
  have hmix (write : Bool) := mixers_own ha htv hp pt place write
  simp only [State.rmwPiece, href, hm, touchLeaf_of_a hx, hvd, Bool.false_eq_true, if_false, hv.stores.sound hs, hi _ _ hv.stores, Piece.barred, hwr,
    Bool.not_true, hold, Option.getD_some]
  rw [hm] at hpt
  simp only [hpt, hmix, blur_nil, smear_nil, State.strongWrite, touchLeaf_of_ad he]
  cases hgb : g (m.memBytes (pieceKey p) p.size) with
  | none =>
    obtain ⟨hso, hsm⟩ := storesOnly_noteStrong v pt place (pieceKey p) p.size false
    exact ⟨_, rfl, ⟨hv.stores.trans hso, sameMemory_trans hv.memory hsm⟩, ownTags_noteStrong htv hp pt place false⟩
  | some new =>
    obtain ⟨hso, hsm⟩ := storesOnly_noteStrong v pt place (pieceKey p) p.size true
    have hA : After s m (v.noteStrong pt place (pieceKey p) p.size true) := ⟨hv.stores.trans hso, sameMemory_trans hv.memory hsm⟩
    obtain ⟨hA', hT'⟩ := writePast (c := c) (w := w) (pa := pa) (n := p.size) (comp := comp) hA (ownTags_noteStrong htv hp pt place true) hl new
    rw [← hkey] at hA'
    simp only [hg _ _ hgb, hmix, blur_nil]
    exact ⟨_, rfl, hA', hT'⟩

/-! ## A whole access to memory -/

/-- Memory after an access's bytes are stored at its pieces. -/
def storedPieces (m : State) (ps : List Piece) (bs : List Byte) : State :=
  ps.foldl (fun t p => t.putMem (pieceKey p) ((bs.drop p.off).take p.size)) m

/-- The bytes of memory at the pieces of an access, in order. -/
def piecesBytes (m : State) (ps : List Piece) : List Byte := ps.flatMap fun p => m.memBytes (pieceKey p) p.size

/-- The next unit of an access is read. -/
def readUnit (w : Wave) (c : Crew) (k : Nat) (inp : State → Piece → List Byte → List Byte × State) (acc : List Byte × State) (p : Piece) :
    List Byte × State :=
  match acc.2.rmwPiece w c (some k) false p inp fun _ => none with
  | (.old bs, s) => (acc.1 ++ bs, s)
  | (_, s) => (acc.1, s)

section
variable {s : State} {w : Wave} {c : Crew} {n k : Nat} {ps : List Piece} {inp : State → Piece → List Byte → List Byte × State}
  (ha : Apart n ps) (hw : ∀ p ∈ ps, Writable s p)
include ha hw

/-- The units of an access are read one after another. -/
theorem readUnits (hi : ∀ u p bs, StoresOnly s u → inp u p bs = (bs, u)) {m : State} : ∀ (qs : List Piece) (acc : List Byte) (u : State),
    (∀ q ∈ qs, q ∈ ps) → After s m u → OwnTags ps u →
    ∃ u', qs.foldl (readUnit w c k inp) (acc, u) = (acc ++ piecesBytes m qs, u') ∧ After s m u' ∧ OwnTags ps u'
  | [], acc, u, _, h, ht => ⟨u, by rw [piecesBytes, List.flatMap_nil, List.append_nil]; rfl, h, ht⟩
  | q :: qs, acc, u, hq, h, ht => by
    have hqp := hq q List.mem_cons_self
    obtain ⟨v, hv, hA, hT⟩ := rmwPiece_strong_memory (w := w) (c := c) (k := k) (g := fun _ => none) ha h ht hqp (hw q hqp) (fun u bs => hi u q bs) nofun
    obtain ⟨u', hu, hA', hT'⟩ := readUnits hi qs (acc ++ m.memBytes (pieceKey q) q.size) v (fun x hx => hq x (List.mem_cons_of_mem _ hx)) hA hT
    refine ⟨u', ?_, hA', hT'⟩
    rw [List.foldl_cons, readUnit, hv]
    refine hu.trans ?_
    rw [piecesBytes, piecesBytes, List.flatMap_cons, List.append_assoc]
    rfl

/-- The units of an access are written one after another. -/
theorem writeUnits {new : List Byte} (hn : new.length = n) : ∀ (qs : List Piece) (m u : State),
    (∀ q ∈ qs, q ∈ ps) → After s m u → OwnTags ps u →
    After s (storedPieces m qs new) (qs.foldl (fun s p =>
      (s.rmwPiece w c (some k) false p ownBytes fun _ => some ((new.drop p.off).take p.size)).2) u) ∧
    OwnTags ps (qs.foldl (fun s p => (s.rmwPiece w c (some k) false p ownBytes fun _ => some ((new.drop p.off).take p.size)).2) u)
  | [], m, u, _, h, ht => ⟨h, ht⟩
  | q :: qs, m, u, hq, h, ht => by
    have hqp := hq q List.mem_cons_self
    have hin := ha.inside q hqp
    have hlen : ∀ bs x, (fun _ : List Byte => some ((new.drop q.off).take q.size)) bs = some x → x.length = q.size := by
      intro bs x hx
      cases hx
      rw [List.length_take, List.length_drop]
      omega
    obtain ⟨v, hv, hA, hT⟩ := rmwPiece_strong_memory (w := w) (c := c) (k := k) (inp := ownBytes) ha h ht hqp (hw q hqp) (fun _ _ _ => rfl) hlen
    rw [List.foldl_cons, hv]
    exact writeUnits hn qs _ v (fun x hx => hq x (List.mem_cons_of_mem _ hx)) hA hT

omit ha in
/-- The first look at a unit finds its bytes. -/
theorem probeUnit {m u : State} (h : After s m u) (ht : OwnTags ps u) {p : Piece} (hp : p ∈ ps) :
    ∃ bs, (u.rmwPiece w c none false p ownBytes fun _ => none).1 = .old bs := by
  obtain ⟨mt, pa, comp, e, lmt, lpa, hm, he, -, hs, hl⟩ := hw p hp
  have hx : e &&& 0x20 = 0x20 := by
    calc e &&& 0x20 = (e &&& 0x60) &&& 0x20 := by rw [BitVec.and_assoc]; rfl
      _ = 0x20 := by rw [he]; rfl
  obtain ⟨hv, -⟩ := readPast (c := c) (w := w) (pa := pa) (n := p.size) (comp := comp) h ht hl
  simp only [State.rmwPiece, State.refusal?, hm, touchLeaf_of_a hx, Bool.false_eq_true, if_false, hv.stores.sound hs, ownBytes]
  exact ⟨_, rfl⟩

/-- A strong read-modify-write of an access to memory. -/
theorem rmw_memory {m u : State} {g : List Byte → Option (List Byte)} (h : After s m u) (ht : OwnTags ps u)
    (hi : ∀ u p bs, StoresOnly s u → inp u p bs = (bs, u)) (hg : ∀ bs new, g bs = some new → new.length = n) :
    ∃ u', u.rmw w c (some k) ps inp g = (.old (piecesBytes m ps), u') ∧
      After s (match g (piecesBytes m ps) with | some new => storedPieces m ps new | none => m) u' := by
  by_cases hone : ∃ p, ps = [p]
  · obtain ⟨p, rfl⟩ := hone
    obtain ⟨hoff, hsize⟩ := ha.one p rfl
    have hb : piecesBytes m [p] = m.memBytes (pieceKey p) p.size := by rw [piecesBytes, List.flatMap_cons, List.flatMap_nil, List.append_nil]
    obtain ⟨u', hu, hA, -⟩ := rmwPiece_strong_memory (w := w) (c := c) (k := k) (g := g) ha h ht List.mem_cons_self (hw p List.mem_cons_self)
      (fun u bs => hi u p bs) (fun bs new hn => (hg bs new hn).trans hsize.symm)
    refine ⟨u', hu.trans (by rw [hb]), ?_⟩
    rw [hb]
    cases hgb : g (m.memBytes (pieceKey p) p.size) with
    | none =>
      rw [hgb] at hA
      exact hA
    | some new =>
      rw [hgb] at hA
      have hnew : (new.drop p.off).take p.size = new := by rw [hoff, List.drop_zero, hsize, ← hg _ _ hgb, List.take_length]
      simp only [storedPieces, List.foldl_cons, List.foldl_nil, hnew]
      exact hA
  · obtain ⟨v, hv, hA, hT⟩ := readUnits (w := w) (c := c) (k := k) ha hw hi ps [] u (fun _ h => h) h ht
    have href (write : Bool) : ps.findSome? (u.refusal? w c (some k) write) = none :=
      List.findSome?_eq_none_iff.mpr fun p hp => refusal_own ha ht hp (hw p hp).memory w c (some k) write
    have hbar : ps.any Piece.barred = false := by
      refine List.any_eq_false.mpr fun p hp => ?_
      obtain ⟨mt, pa, comp, e, lmt, lpa, hm, -, hwr, -⟩ := hw p hp
      simp only [Piece.barred, hm, hwr, Bool.not_true, Bool.false_eq_true, not_false_iff]
    rw [List.nil_append] at hv
    unfold State.rmw
    split
    next _ p => exact absurd ⟨p, rfl⟩ hone
    next =>
      dsimp only
      rw [href]
      dsimp only
      split
      next r hr =>
        obtain ⟨p, hp, rfl⟩ := List.mem_map.mp (List.mem_of_find?_eq_some hr)
        obtain ⟨bs, hbs⟩ := probeUnit (w := w) (c := c) hw h ht hp
        have := List.find?_some hr
        rw [hbs] at this
        cases this
      next =>
        generalize hF : ps.foldl _ (([] : List Byte), u) = F
        obtain rfl : F = (piecesBytes m ps, v) := hF.symm.trans hv
        dsimp only
        cases hgb : g (piecesBytes m ps) with
        | none => exact ⟨v, rfl, hA⟩
        | some new =>
          obtain ⟨hA', -⟩ := writeUnits (w := w) (c := c) (k := k) ha hw (hg _ _ hgb) ps m v (fun _ h => h) hA hT
          refine ⟨_, ?_, hA'⟩
          rw [hbar]
          rfl

end

/-! ## ATOM and CAS -/

/-- A form of ATOM, with what it does (R222). -/
structure AtomForm (order : BitVec 2) (p : (Opnd → Instr) × Nat × (BitVec 64 → BitVec 64 → Nat)) (op : AtomOp) : Prop where
  size : p.2.1 = op.size
  apply : ∀ x y, p.2.2 x y = (op.apply x y).toNat
  exec : ∀ o s, exec (p.1 o) s = atomic (p.1 o) op order o s

theorem toNat_setWidth_word (x : Word) : (x.setWidth 64).toNat = x.toNat := by
  rw [BitVec.toNat_setWidth, Nat.mod_eq_of_lt (x.isLt.trans (by norm_num))]

theorem atomForm_of_mem {order : BitVec 2} {p : (Opnd → Instr) × Nat × (BitVec 64 → BitVec 64 → Nat)} (hp : p ∈ atomForms order) :
    ∃ op, AtomForm order p op := by
  simp only [atomForms, List.mem_cons, List.not_mem_nil, or_false] at hp
  obtain rfl | rfl | rfl | rfl | rfl | rfl | rfl | rfl | rfl | rfl | rfl | rfl := hp
  · exact ⟨.addS32, rfl, fun x y => by simp only [AtomOp.apply, toNat_setWidth_word, BitVec.toNat_add], fun _ _ => rfl⟩
  · exact ⟨.addS64, rfl, fun x y => by simp only [AtomOp.apply, BitVec.toNat_add], fun _ _ => rfl⟩
  · exact ⟨.addF32, rfl, fun x y => by simp only [AtomOp.apply, toNat_setWidth_word], fun _ _ => rfl⟩
  · refine ⟨.minS32, rfl, fun x y => ?_, fun _ _ => rfl⟩
    simp only [AtomOp.apply, toNat_setWidth_word, BitVec.slt_iff_toInt_lt, apply_ite BitVec.toNat]
    split_ifs <;> omega
  · refine ⟨.maxS32, rfl, fun x y => ?_, fun _ _ => rfl⟩
    simp only [AtomOp.apply, toNat_setWidth_word, BitVec.slt_iff_toInt_lt, apply_ite BitVec.toNat]
    split_ifs with hle hlt
    · rfl
    · rw [BitVec.eq_of_toInt_eq (Int.le_antisymm hle (Int.not_lt.mp hlt))]
    · omega
    · rfl
  · refine ⟨.minN32, rfl, fun x y => ?_, fun _ _ => rfl⟩
    simp only [AtomOp.apply, toNat_setWidth_word, BitVec.lt_def, apply_ite BitVec.toNat]
    split_ifs <;> omega
  · refine ⟨.maxN32, rfl, fun x y => ?_, fun _ _ => rfl⟩
    simp only [AtomOp.apply, toNat_setWidth_word, BitVec.lt_def, apply_ite BitVec.toNat]
    split_ifs <;> omega
  · exact ⟨.and, rfl, fun x y => by simp only [AtomOp.apply, toNat_setWidth_word], fun _ _ => rfl⟩
  · exact ⟨.or, rfl, fun x y => by simp only [AtomOp.apply, toNat_setWidth_word], fun _ _ => rfl⟩
  · exact ⟨.xor, rfl, fun x y => by simp only [AtomOp.apply, toNat_setWidth_word], fun _ _ => rfl⟩
  · exact ⟨.exch, rfl, fun x y => by simp only [AtomOp.apply, toNat_setWidth_word], fun _ _ => rfl⟩
  · refine ⟨.inc, rfl, fun x y => ?_, fun _ _ => rfl⟩
    have hy := (y.extractLsb' 0 32).isLt
    simp only [AtomOp.apply, toNat_setWidth_word, BitVec.le_def]
    split_ifs with h
    · rfl
    · rw [BitVec.toNat_add, show BitVec.toNat (1 : Word) = 1 from rfl, Nat.mod_eq_of_lt (by omega)]

theorem operand_eq (op : AtomOp) (w : Wave) (r l : Nat) :
    (if op = .addS64 then w.readV2 r l else ((w.readV r).at_ l).setWidth 64) = laneOperand w op.size r l := by
  unfold laneOperand AtomOp.size
  split
  · rfl
  · rfl

/-- What an ATOM writes is what its operation gives (R222). -/
theorem AtomForm.bytes {order : BitVec 2} {p : (Opnd → Instr) × Nat × (BitVec 64 → BitVec 64 → Nat)} {op : AtomOp} (h : AtomForm order p op)
    (x : BitVec 64) (bs : List Byte) : op.bytes x bs = leBytes p.2.1 (p.2.2 (BitVec.ofNat 64 (leNat bs)) x) := by
  rw [AtomOp.bytes, h.size, h.apply]

/-- What an ATOM writes in a lane. -/
def atomWrites (w : Wave) (p : (Opnd → Instr) × Nat × (BitVec 64 → BitVec 64 → Nat)) (o : Opnd) (l : Nat) (bs : List Byte) : Option (List Byte) :=
  some (leBytes p.2.1 (p.2.2 (BitVec.ofNat 64 (leNat bs)) (laneOperand w p.2.1 o.b.toNat l)))

/-- An ATOM is one frame around its lanes (R222, R223). -/
theorem exec_atom {order : BitVec 2} {p : (Opnd → Instr) × Nat × (BitVec 64 → BitVec 64 → Nat)} {op : AtomOp} (hp : AtomForm order p op)
    {o : Opnd} {s : State} {c : Issue} (h : Ready s c (p.1 o)) :
    exec (p.1 o) s = .next (s.rmwLanes c (p.1 o) (fun _ => Order.ofAtom order o.ext.mod) (Order.ofAtom order o.ext.mod)
      { size := p.2.1, align := p.2.1, need := { r := true, w := true }, write := true, kind := 2 } .atomic op.code
      (if o.ext.c = 0 then some (o.d.toNat, p.2.1 / 4) else none) (c.active o.ext)
      (fun l => c.wave.readV2 o.a.toNat l + o.ext.imm.signExtend 64)
      (fun l => (laneOperand c.wave p.2.1 o.b.toNat l).setWidth 128) (fun _ => 0) (atomWrites c.wave p o)) := by
  rw [hp.exec, atomic, issue_plain h]
  simp only [operand_eq, hp.bytes, ← hp.size]
  rfl

/-- The order of a CAS: that of its success, with an acquire for either outcome (R224). -/
def casOrder (o : Opnd) : Order :=
  { strong := some (o.ext.mod.toNat % 4), acquire := decide (o.ext.imm.toNat % 4 % 2 = 1) || o.ext.imm.getLsbD 2,
    release := decide (2 ≤ o.ext.imm.toNat % 4), remote := o.ext.mod.getLsbD 2 }

/-- Whether a CAS acquires, by the old values of its lanes (R224). -/
def casAcquires (w : Wave) (n : Nat) (o : Opnd) (outs : List (Nat × LaneWrite)) : Bool :=
  outs.any fun x => match x.2 with
    | .done old _ => if decide (old = (laneOperand w n o.b.toNat x.1).toNat) then decide (o.ext.imm.toNat % 4 % 2 = 1) else o.ext.imm.getLsbD 2
    | _ => false

/-- What a CAS of n bytes writes in a lane. -/
def casWrites (w : Wave) (n : Nat) (o : Opnd) (l : Nat) (bs : List Byte) : Option (List Byte) :=
  if decide (leNat bs = (laneOperand w n o.b.toNat l).toNat) then some (leBytes n (laneOperand w n o.ext.c.toNat l).toNat) else none

theorem cas_eq {p : (Opnd → Instr) × Nat} (hp : p ∈ casForms) {o : Opnd} {s : State} {c : Issue} (h : Ready s c (p.1 o)) :
    exec (p.1 o) s = .next (s.rmwLanes c (p.1 o) (fun outs => { casOrder o with acquire := casAcquires c.wave p.2 o outs }) (casOrder o)
      { size := p.2, align := p.2, need := { r := true }, write := true, kind := 3 } .cas 0 (some (o.d.toNat, p.2 / 4)) (c.active o.ext)
      (fun l => c.wave.readV2 o.a.toNat l) (fun l => (laneOperand c.wave p.2 o.b.toNat l).setWidth 128)
      (fun l => laneOperand c.wave p.2 o.ext.c.toNat l) (casWrites c.wave p.2 o)) := by
  simp only [casForms, List.mem_cons, List.not_mem_nil, or_false] at hp
  obtain rfl | rfl := hp
  · exact issue_plain h
  · exact issue_plain h

/-- The bytes that a read-modify-write leaves are as many as it read. -/
theorem length_casWrites {w : Wave} {n : Nat} {o : Opnd} {l : Nat} {bs new : List Byte} (h : casWrites w n o l bs = some new) : new.length = n := by
  unfold casWrites at h
  split at h <;> cases h
  exact length_leBytes ..

/-! ## One active lane -/

theorem missingOf_tile (f : AccessForm) (a : BitVec 64) (p : Nat × Nat) : missingOf [tilePiece f a p] = [] := rfl

theorem missingOf_memory {s : State} {ps : List Piece} (h : ∀ p ∈ ps, Writable s p) : missingOf ps = [] := by
  refine List.filterMap_eq_nil_iff.mpr fun p hp => ?_
  obtain ⟨mt, pa, comp, e, lmt, lpa, hm⟩ := (h p hp).memory
  rw [hm]

theorem tilesOnly_tileAtomic (s : State) (crew : Nat) (p : Nat × Nat) (n : Nat) (f : List Byte → Option (List Byte)) :
    TilesOnly s (tileAtomic s crew p n f) := by
  have hn (w : Bool) : TilesOnly s (s.noteStrong 0 (8 * crew + p.1) p.2 n w) := ⟨rfl, rfl, ⟨rfl, rfl⟩, fun _ _ b hb => ⟨b, hb, fun _ h => h⟩⟩
  unfold tileAtomic
  extract_lets writes s1
  split
  next b new hb _ =>
    obtain ⟨hc, hr⟩ := block?_key hb
    exact (hn writes).trans (tilesOnly_putBlock (b := b) (by rw [hc, hr]; exact hb) rfl rfl fun _ h => h)
  · exact hn writes

theorem acquire_none {s : State} {c : Crew} {rank : Nat} {o : Order} (h : o.acquire = false) : s.acquire c rank o = s := by
  rw [State.acquire, h, Bool.false_and]
  rfl

/-- A read-modify-write of one lane in tile memory. -/
theorem rmwLanes_tile {s : State} {c : Issue} {i : Instr} {ord : List (Nat × LaneWrite) → Order} {most : Order} {f : AccessForm}
    {kind : HeldKind} {code k : Nat} {dst : Option (Nat × Nat)} {active : LaneMask} {addr : Nat → BitVec 64} {data : Nat → BitVec 128}
    {data2 : Nat → BitVec 64} {new : Nat → List Byte → Option (List Byte)} {l : Nat} {place : Nat → Nat × Nat} {old : List Byte}
    (hw : s.wave? c.wave.ref = some c.wave) (hl : LaneMask.lanes active = [l]) (hs : NoStrongInTiles s) (h : TileAccess s c f active addr place)
    (hstrong : most.strong = some k) (hrel : most.release = false) (hacq : (ord [(l, .done (leNat old) false)]).acquire = false)
    (hold : old = tileBytes s c.crew.id (place l) f.size) (hn : ∀ bs x, new l bs = some x → x.length = f.size) :
    s.rmwLanes c i ord most f kind code dst active addr data data2 new =
      (tileAtomic { s with stamp := s.stamp + 1 } c.crew.id (place l) f.size fun _ => new l old).retire c i
        (match dst with
         | none => c.wave
         | some (d, n) => c.wave.produce (oldLanding s.stamp d n active l (leNat old))) := by
  obtain ⟨b, hb, hp⟩ := h.sound l (by rw [hl]; exact List.mem_cons_self)
  have hob : old = b.bytes (place l).2 f.size := by rw [hold, tileBytes, hb]
  have hacc (g : State → List (Nat × List Piece) → State) : s.lanesAccess c f most.release most.remote active addr g =
      g s [(l, [tilePiece f (addr l) (place l)])] := by
    rw [lanesAccess_tile h, hl]
    rfl
  have hr := rmwPiece_strong_tile (s := { s with stamp := s.stamp + 1 }) (w := c.wave) (k := k) (a := addr l) (g := new l)
    (inp := fun s p bs => s.portRead c.wave c.crew c.wave.roundIssued l p bs) hs (fun _ _ => rfl) hb hp hn
  rw [← hob, ← hstrong] at hr
  have hA := tilesOnly_tileAtomic { s with stamp := s.stamp + 1 } c.crew.id (place l) f.size fun _ => new l old
  rw [rmwLanes_one hacc (missingOf_tile ..) hr, hrel, Bool.false_and]
  refine (endRmw_one ((hA.wave _).trans hw)).trans ?_
  rw [acquire_none hacq]
  cases dst <;> rfl

section
variable {s m u : State} (h : After s m u)
include h

/-- What a later access depends on does not change with the stamp. -/
theorem After.stamp : After s m { u with stamp := u.stamp + 1 } :=
  have ⟨⟨hw, hp, hm, hq, hb⟩, hk⟩ := h
  ⟨⟨hw, hp, hm, hq, hb⟩, hk⟩

/-- Nor where a release is noted. -/
theorem After.releases (core : Nat) (r : Bool) (qs : List Piece) : After s m (qs.foldl (fun s p => s.noteRelease core r p) u) := by
  induction qs generalizing u with
  | nil => exact h
  | cons q qs ih =>
    refine ih ?_
    obtain ⟨⟨hw, hp, hm, hq, hb⟩, hk⟩ := h
    dsimp only [State.noteRelease]
    split <;> exact ⟨⟨hw, hp, hm, hq, hb⟩, hk⟩

/-- Nor where an acquire drops L1. -/
theorem After.acquires (c : Crew) (rank : Nat) (o : Order) : After s m (u.acquire c rank o) := by
  obtain ⟨⟨hw, hp, hm, hq, hb⟩, hk⟩ := h
  unfold State.acquire
  split <;> exact ⟨⟨hw, hp, hm, hq, hb⟩, hk⟩

end

/-- A read-modify-write of one lane in memory. -/
theorem rmwLanes_memory {s s1 : State} {c : Issue} {i : Instr} {ord : List (Nat × LaneWrite) → Order} {most : Order} {f : AccessForm}
    {kind : HeldKind} {code k : Nat} {dst : Option (Nat × Nat)} {active : LaneMask} {addr : Nat → BitVec 64} {data : Nat → BitVec 128}
    {data2 : Nat → BitVec 64} {new : Nat → List Byte → Option (List Byte)} {l : Nat} {ok : List (Nat × List Piece)} {old : List Byte}
    (hw : s.wave? c.wave.ref = some c.wave) (hl : LaneMask.lanes active = [l]) (hf : s1.strongs = []) (ht : s1.mixTags = [])
    (h : MemoryAccess s s1 c f 0x60 active addr ok) (hwr : f.write = true) (hsize : f.size = 4 ∨ f.size = 8) (hstrong : most.strong = some k)
    (hold : old = laneBytes s ok l) (hn : ∀ bs x, new l bs = some x → x.length = f.size) :
    ∃ u, s.rmwLanes c i ord most f kind code dst active addr data data2 new = u.retire c i
        (match dst with
         | none => c.wave
         | some (d, n) => c.wave.produce (oldLanding s1.stamp d n active l (leNat old))) ∧
      After s (match new l old with | some x => storedAt s ok fun _ _ => x | none => s) u := by
  obtain ⟨ps, rfl⟩ : ∃ ps, ok = [(l, ps)] := by
    have hm := (reachLanes_found h.reach).1
    rw [hl] at hm
    obtain ⟨x, rfl, hx⟩ := List.map_eq_singleton_iff.mp hm
    exact ⟨x.2, by rw [← hx]⟩
  have hwp := access_writable h hwr (l, ps) List.mem_cons_self
  have hb : old = piecesBytes s ps := by rw [hold, access_laneBytes h List.mem_cons_self, piecesBytes]
  have htags : OwnTags ps s1 := ⟨fun t k => absurd (ht ▸ k) List.not_mem_nil, fun x k => absurd (hf ▸ k) List.not_mem_nil⟩
  obtain ⟨v, hv, hA⟩ := rmw_memory (w := c.wave) (c := c.crew) (k := k) (g := new l)
    (inp := fun s p bs => s.portRead c.wave c.crew c.wave.roundIssued l p bs) (access_apart h (by omega) List.mem_cons_self) hwp (access_start h).stamp ⟨htags.tags, htags.feet⟩
    (fun u p bs hu => access_portRead h hu ..) hn
  rw [← hb, ← hstrong] at hv
  rw [← hb] at hA
  have hA' := hA.releases (c.crew.coreOf c.wave.ref.rank) (most.release && (new l old).isSome) ps
  refine ⟨_, ?_, hA'.acquires c.crew c.wave.ref.rank (ord [(l, .done (leNat old) false)])⟩
  rw [rmwLanes_one (lanesAccess_memory h _ _) (missingOf_memory hwp) hv]
  refine (endRmw_one (access_issuer h hw hA'.stores).1).trans ?_
  cases dst <;> rfl

theorem length_atomWrites {w : Wave} {p : (Opnd → Instr) × Nat × (BitVec 64 → BitVec 64 → Nat)} {o : Opnd} {l : Nat} {bs new : List Byte}
    (h : atomWrites w p o l bs = some new) : new.length = p.2.1 := by
  cases h
  exact length_leBytes ..

theorem atomForms_size {order : BitVec 2} {p : (Opnd → Instr) × Nat × (BitVec 64 → BitVec 64 → Nat)} {op : AtomOp} (h : AtomForm order p op) :
    p.2.1 = 4 ∨ p.2.1 = 8 := by
  rw [h.size, AtomOp.size]
  split
  · exact .inr rfl
  · exact .inl rfl

theorem casForms_size {p : (Opnd → Instr) × Nat} (hp : p ∈ casForms) : p.2 = 4 ∨ p.2 = 8 := by
  simp only [casForms, List.mem_cons, List.not_mem_nil, or_false] at hp
  obtain rfl | rfl := hp
  · exact .inl rfl
  · exact .inr rfl

/-- A CAS whose order is all zero does not acquire. -/
theorem casAcquires_relaxed {w : Wave} {n : Nat} {o : Opnd} (h : o.ext.imm = 0) (l old : Nat) : casAcquires w n o [(l, .done old false)] = false := by
  simp only [casAcquires, h, List.any_cons, List.any_nil, Bool.or_false]
  split <;> rfl

/-- Settles O34: an atomic of one lane is one read-modify-write of its pieces, whose old value lands. -/
theorem atomicsReadModifyWriteMemory : Obligations.AtomicsReadModifyWriteMemory := by
  refine ⟨fun p hp o s c l place h hl hs hacc => ?_, fun p hp o s c l place h hl hs h0 hacc => ?_,
    fun order p hp o s s1 c l ok h hl hf ht hacc => ?_, fun p hp o s s1 c l ok h hl hf ht hacc => ?_⟩
  · obtain ⟨op, hop⟩ := atomForm_of_mem hp
    have hrun := (exec_atom hop h).trans (congrArg _ (rmwLanes_tile (issuerParts h.issuer).wave hl hs hacc rfl rfl rfl rfl
      fun bs x hx => length_atomWrites hx))
    refine ⟨fun hc => ?_, fun hc => ?_⟩
    · rw [if_pos hc] at hrun
      exact hrun
    · rw [if_neg hc] at hrun
      exact hrun
  · have hrun := (cas_eq hp h).trans (congrArg _ (rmwLanes_tile (issuerParts h.issuer).wave hl hs hacc rfl (by rw [casOrder, h0]; rfl)
      (casAcquires_relaxed h0 _ _) rfl fun bs x hx => length_casWrites hx))
    simp only [casWrites, decide_eq_true_iff] at hrun
    exact hrun
  · obtain ⟨op, hop⟩ := atomForm_of_mem hp
    obtain ⟨u, hu, hA⟩ := rmwLanes_memory (i := p.1 o) (ord := fun _ => Order.ofAtom order o.ext.mod) (most := Order.ofAtom order o.ext.mod)
      (kind := .atomic) (code := op.code) (dst := if o.ext.c = 0 then some (o.d.toNat, p.2.1 / 4) else none)
      (data := fun l => (laneOperand c.wave p.2.1 o.b.toNat l).setWidth 128) (data2 := fun _ => 0) (new := atomWrites c.wave p o)
      (issuerParts h.issuer).wave hl hf ht hacc rfl (atomForms_size hop) rfl rfl fun bs x hx => length_atomWrites hx
    refine ⟨u, ((exec_atom hop h).trans (congrArg _ hu)).trans ?_, hA.stores.waves, hA.stores.tiles, hA.memory⟩
    by_cases hc : o.ext.c = 0
    · rw [if_pos hc, if_pos hc]
      rfl
    · rw [if_neg hc, if_neg hc]
  · obtain ⟨u, hu, hA⟩ := rmwLanes_memory (i := p.1 o) (ord := fun outs => { casOrder o with acquire := casAcquires c.wave p.2 o outs })
      (most := casOrder o) (kind := .cas) (code := 0) (dst := some (o.d.toNat, p.2 / 4))
      (data := fun l => (laneOperand c.wave p.2 o.b.toNat l).setWidth 128) (data2 := fun l => laneOperand c.wave p.2 o.ext.c.toNat l)
      (new := casWrites c.wave p.2 o) (issuerParts h.issuer).wave hl hf ht hacc rfl (casForms_size hp) rfl rfl fun bs x hx => length_casWrites hx
    refine ⟨u, (cas_eq hp h).trans (congrArg _ hu), hA.stores.waves, hA.stores.tiles, ?_⟩
    have hm := hA.memory
    by_cases he : leNat (laneBytes s ok l) = (laneOperand c.wave p.2 o.b.toNat l).toNat
    · rw [casWrites, if_pos (decide_eq_true he)] at hm
      rw [if_pos he]
      exact hm
    · rw [casWrites, if_neg (by rw [decide_eq_true_iff]; exact he)] at hm
      rw [if_neg he]
      exact hm

end Sys2Proof.Laws
end

section
/-! SUPPORT. What stores and atomics leave as it was (R61, R62, R84, R90). -/

namespace Sys2Proof.Laws

open Sys2Proof.Machine Sys2Proof.Safety

/-! ## The wave -/

/-- A producer of lane registers empties them, and waits to land. -/
theorem produce_eq {w : Wave} {ld : Landing} (h : ld.file = false) :
    w.produce ld = { w with vFull := (w.produce ld).vFull, landings := (w.produce ld).landings } := by
  have hf (ks : List Nat) (w : Wave) : ks.foldl (fun w k => w.setEmpty .v (ld.reg + k)) w =
      { w with vFull := (ks.foldl (fun w k => w.setEmpty .v (ld.reg + k)) w).vFull } := by
    induction ks generalizing w with
    | nil => rfl
    | cons k ks ih =>
      rw [List.foldl_cons, ih]
      rfl
  simp only [Wave.produce, h, Bool.false_eq_true, if_false]
  rw [hf]

/-- A wave that goes on after a producer of lane registers. -/
theorem advance_produce_eq (w : Wave) {ld : Landing} (h : ld.file = false) (g : Gang) (pc : Addr) :
    (w.produce ld).advance g pc =
      { w with vFull := ((w.produce ld).advance g pc).vFull, landings := ((w.produce ld).advance g pc).landings,
               gangs := ((w.produce ld).advance g pc).gangs, issued := ((w.produce ld).advance g pc).issued,
               roundIssued := ((w.produce ld).advance g pc).roundIssued } := by
  rw [Wave.advance, produce_eq h]

theorem produce_gangs {w : Wave} {ld : Landing} (h : ld.file = false) : (w.produce ld).gangs = w.gangs := by
  rw [produce_eq h]

/-! ## Bytes beside those stored -/

theorem tileBytes_congr {s t : State} (h : t.blocks = s.blocks) (crew : Nat) (q : Nat × Nat) (n : Nat) : tileBytes t crew q n = tileBytes s crew q n := by
  rw [tileBytes, tileBytes, State.block?, State.block?, h]

/-- A byte of tile memory beside those stored reads as before. -/
theorem tileBytes_putBlock_out {s : State} {b d : Block} {crew : Nat} {p q : Nat × Nat} {n : Nat} (hb : s.block? crew p.1 = some b)
    (hc : d.crew = b.crew) (hr : d.rank = b.rank) (hd : ∀ k, k < p.2 ∨ p.2 + n ≤ k → d.bytes k 1 = b.bytes k 1) {crew' : Nat}
    (hq : crew' = crew → q.1 = p.1 → q.2 < p.2 ∨ p.2 + n ≤ q.2) : tileBytes (s.putBlock d) crew' q 1 = tileBytes s crew' q 1 := by
  obtain ⟨hbc, hbr⟩ := block?_key hb
  rw [tileBytes, tileBytes, block?_putBlock]
  cases hx : s.block? crew' q.1 with
  | none => rfl
  | some x =>
    obtain ⟨hxc, hxr⟩ := block?_key hx
    rw [Option.map_some]
    dsimp only
    split
    next h =>
      simp only [Bool.and_eq_true, beq_iff_eq, hc, hr, hbc, hbr, hxc, hxr] at h
      obtain ⟨h1, h2⟩ := h
      rw [h1, h2, hb] at hx
      cases hx
      exact hd _ (hq h1 h2)
    · rfl

theorem tileBytes_tileWrite_out (s : State) {crew crew' n : Nat} {p q : Nat × Nat} {f : List Byte → List Byte} (hf : ∀ bs, (f bs).length = n)
    (hq : crew' = crew → q.1 = p.1 → q.2 < p.2 ∨ p.2 + n ≤ q.2) : tileBytes (tileWrite s crew p n f) crew' q 1 = tileBytes s crew' q 1 := by
  have h1 : tileBytes (s.clearTag 0 (8 * crew + p.1) p.2 n) crew' q 1 = tileBytes s crew' q 1 := rfl
  unfold tileWrite
  extract_lets s1
  split
  next b hb =>
    refine (tileBytes_putBlock_out (b := b) hb ?_ ?_ (fun k hk => ?_) hq).trans h1
    · split <;> rfl
    · split <;> rfl
    · have ho := block_bytes_store_out (b := b) (a := p.2) (k := k) (bs := f (b.bytes p.2 n)) (by rwa [hf])
      split
      · exact ho
      · exact ho
  · exact h1

theorem tileBytes_tileAtomic_out (s : State) {crew crew' n : Nat} {p q : Nat × Nat} {f : List Byte → Option (List Byte)}
    (hf : ∀ bs x, f bs = some x → x.length = n) (hq : crew' = crew → q.1 = p.1 → q.2 < p.2 ∨ p.2 + n ≤ q.2) :
    tileBytes (tileAtomic s crew p n f) crew' q 1 = tileBytes s crew' q 1 := by
  have h1 (w : Bool) : tileBytes (s.noteStrong 0 (8 * crew + p.1) p.2 n w) crew' q 1 = tileBytes s crew' q 1 := rfl
  unfold tileAtomic
  extract_lets writes s1
  split
  next b new hb hn =>
    exact (tileBytes_putBlock_out (b := b) (d := b.store p.2 new) hb rfl rfl (fun k hk => block_bytes_store_out (by rwa [hf _ _ hn])) hq).trans (h1 writes)
  · exact h1 writes

/-- A byte of memory outside every piece reads as before. -/
theorem storedAt_out {k : Nat} {bytes : State → Nat → List Byte} : ∀ (ok : List (Nat × List Piece)) (s : State), Outside ok k →
    (storedAt s ok bytes).memBytes k 1 = s.memBytes k 1 := by
  have hp (bs : List Byte) : ∀ (ps : List Piece) (s : State), (∀ p ∈ ps, k < pieceKey p ∨ pieceKey p + p.size ≤ k) →
      (ps.foldl (fun t p => t.putMem (pieceKey p) ((bs.drop p.off).take p.size)) s).memBytes k 1 = s.memBytes k 1 := by
    intro ps
    induction ps with
    | nil => exact fun _ _ => rfl
    | cons p ps ih =>
      intro s h
      have hl : ((bs.drop p.off).take p.size).length ≤ p.size := List.length_take_le ..
      have hk := h p List.mem_cons_self
      rw [List.foldl_cons, ih _ fun q hq => h q (List.mem_cons_of_mem _ hq)]
      exact memBytes_putMem_out (by omega)
  intro ok
  induction ok with
  | nil => exact fun _ _ => rfl
  | cons x ok ih =>
    intro s h
    exact (ih _ fun y hy => h y (List.mem_cons_of_mem _ hy)).trans (hp _ _ s (h x List.mem_cons_self))

/-! ## The frame -/

/-- After a fold of stores to tile memory each byte outside them reads as before. -/
theorem foldl_tileWrite_out {crew crew' n : Nat} {q : Nat × Nat} {place : Nat → Nat × Nat} {bytes : Nat → List Byte}
    (hn : ∀ l, (bytes l).length = n) : ∀ (ls : List Nat) (s : State),
    (crew' = crew → ∀ l ∈ ls, q.1 = (place l).1 → q.2 < (place l).2 ∨ (place l).2 + n ≤ q.2) →
    tileBytes (ls.foldl (fun s l => tileWrite s crew (place l) n fun _ => bytes l) s) crew' q 1 = tileBytes s crew' q 1
  | [], _, _ => rfl
  | l :: ls, s, h => (foldl_tileWrite_out hn ls _ fun hc k hk => h hc k (List.mem_cons_of_mem _ hk)).trans
      (tileBytes_tileWrite_out s (fun _ => hn l) fun hc => h hc l List.mem_cons_self)

theorem tilesOnly_foldl {crew n : Nat} {place : Nat → Nat × Nat} {bytes : Nat → List Byte} : ∀ (ls : List Nat) (s : State),
    TilesOnly s (ls.foldl (fun s l => tileWrite s crew (place l) n fun _ => bytes l) s)
  | [], s => .refl s
  | _ :: ls, _ => (tilesOnly_tileWrite ..).trans (tilesOnly_foldl ls _)

/-- A wave that goes on leaves the wave's other gangs. -/
theorem otherGangs_advance {c : Issue} {w : Wave} (hg : w.gangs = c.wave.gangs) (pc : Addr) : OtherGangs c (w.advance c.gang pc) :=
  fun _ hx => hg ▸ mem_gangs_advance hx

/-- The wave of an atomic that goes on: where its old value is to land, the registers of that are empty. -/
theorem frame_of_retire {s u : State} {c : Issue} {i : Instr} {w : Wave} (hw : u.waves = s.waves)
    (h : w = c.wave ∨ ∃ ld : Landing, ld.file = false ∧ w = c.wave.produce ld) :
    ∃ x, (u.retire c i w).waves = (s.putWave x).waves ∧
      x = { c.wave with vFull := x.vFull, landings := x.landings, gangs := x.gangs, issued := x.issued, roundIssued := x.roundIssued } ∧
      OtherGangs c x := by
  refine ⟨w.advance c.gang (c.nextPc i), ?_, ?_, ?_⟩
  · rw [State.retire, State.putWave, hw]
    rfl
  · obtain rfl | ⟨ld, hf, rfl⟩ := h
    · rfl
    · exact advance_produce_eq c.wave hf ..
  · obtain rfl | ⟨ld, hf, rfl⟩ := h
    · exact otherGangs_advance rfl _
    · exact otherGangs_advance (produce_gangs hf) _

/-- An atomic of one lane in tile memory, beside its bytes. -/
theorem frame_of_tileAtomic {s : State} {c : Issue} {i : Instr} {w : Wave} {n : Nat} {p : Nat × Nat} {f : List Byte → Option (List Byte)}
    (hf : ∀ bs x, f bs = some x → x.length = n) (h : w = c.wave ∨ ∃ ld : Landing, ld.file = false ∧ w = c.wave.produce ld)
    (he : exec i s = .next ((tileAtomic { s with stamp := s.stamp + 1 } c.crew.id p n f).retire c i w)) :
    ∃ t w, exec i s = .next t ∧ t.waves = (s.putWave w).waves ∧ SameMemory s t ∧
      w = { c.wave with vFull := w.vFull, landings := w.landings, gangs := w.gangs, issued := w.issued, roundIssued := w.roundIssued } ∧
      OtherGangs c w ∧ ∀ crew q, (crew = c.crew.id → q.1 = p.1 → q.2 < p.2 ∨ p.2 + n ≤ q.2) → tileBytes t crew q 1 = tileBytes s crew q 1 := by
  have hA := tilesOnly_tileAtomic { s with stamp := s.stamp + 1 } c.crew.id p n f
  obtain ⟨x, hx, hxw, hxg⟩ := frame_of_retire (s := s) (i := i) hA.waves h
  exact ⟨_, x, he, hx, hA.memory, hxw, hxg, fun crew q hq => tileBytes_tileAtomic_out _ hf hq⟩

/-- An atomic of one lane in memory, beside its pieces. -/
theorem frame_of_memoryAtomic {s u : State} {c : Issue} {i : Instr} {w : Wave} {ok : List (Nat × List Piece)}
    (h : w = c.wave ∨ ∃ ld : Landing, ld.file = false ∧ w = c.wave.produce ld) (he : exec i s = .next (u.retire c i w)) (hw : u.waves = s.waves)
    (ht : SameTiles s u) (hm : ∀ k, Outside ok k → u.memBytes k 1 = s.memBytes k 1) :
    ∃ t w, exec i s = .next t ∧ t.waves = (s.putWave w).waves ∧ SameTiles s t ∧
      w = { c.wave with vFull := w.vFull, landings := w.landings, gangs := w.gangs, issued := w.issued, roundIssued := w.roundIssued } ∧
      OtherGangs c w ∧ ∀ k, Outside ok k → t.memBytes k 1 = s.memBytes k 1 := by
  obtain ⟨x, hx, hxw, hxg⟩ := frame_of_retire (i := i) hw h
  exact ⟨_, x, he, hx, ht, hxw, hxg, hm⟩

/-- Settles O60: what O33 and O34 say of each, read beside its bytes. -/
theorem storesKeepEveryOtherByte : Obligations.StoresKeepEveryOtherByte := by
  obtain ⟨hst, -, hsm, -⟩ := storesWriteMemory
  obtain ⟨hat, hct, ham, hcm⟩ := atomicsReadModifyWriteMemory
  refine ⟨fun fmt size p hp o s c place hs hf h hc hacc => ?_, fun x k hx o s c l place h hl hs h0 hacc => ?_,
    fun fmt size p hp o s s1 c ok hs hf h hc hacc => ?_, fun order x k hx o s s1 c l ok h hl hf ht hacc => ?_⟩
  · have hA := tilesOnly_foldl (crew := c.crew.id) (n := p.2.1) (place := place) (bytes := p.2.2.2 c.wave o) (LaneMask.lanes (c.active o.ext)) s
    refine ⟨_, c.wave.advance c.gang (c.nextPc (p.1 o)), hst fmt size p hp o s c place hs hf h hc hacc, ?_, hA.memory, rfl,
      otherGangs_advance rfl _, fun crew q hq => ?_⟩
    · rw [State.retire, State.putWave, hA.waves]
      rfl
    · exact foldl_tileWrite_out (storeForms_length hp hs c.wave o) _ s hq
  · obtain ⟨hx, rfl⟩ | ⟨hx, rfl⟩ := hx
    · obtain ⟨p, hp, rfl⟩ := List.mem_map.mp hx
      obtain ⟨hnew, hno⟩ := hat p hp o s c l place h hl hs hacc
      have hlen : ∀ bs x, (fun _ : List Byte => some (leBytes p.2.1 (p.2.2 (BitVec.ofNat 64 (leNat (tileBytes s c.crew.id (place l) p.2.1)))
          (laneOperand c.wave p.2.1 o.b.toNat l)))) bs = some x → x.length = p.2.1 := by
        rintro bs x ⟨⟩
        exact length_leBytes ..
      by_cases hc : o.ext.c = 0
      · exact frame_of_tileAtomic hlen (.inr ⟨_, rfl, rfl⟩) (hnew hc)
      · exact frame_of_tileAtomic hlen (.inl rfl) (hno hc)
    · have hadd : (fun l => c.wave.readV2 o.a.toNat l + (if (3 : BitVec 6) = 2 then o.ext.imm.signExtend 64 else 0)) =
          fun l => c.wave.readV2 o.a.toNat l := funext fun l => BitVec.add_zero _
      have hrun := hct x hx o s c l place h hl hs (h0 rfl) (hadd ▸ hacc)
      refine frame_of_tileAtomic (fun bs new hb => ?_) (.inr ⟨_, rfl, rfl⟩) hrun
      split at hb <;> cases hb
      exact length_leBytes ..
  · obtain ⟨u, hu, hw, ht, hm⟩ := hsm fmt size p hp o s s1 c ok hs hf h hc hacc
    refine ⟨_, c.wave.advance c.gang (c.nextPc (p.1 o)), hu, ?_, ht, rfl, otherGangs_advance rfl _, fun k hk => ?_⟩
    · rw [State.retire, State.putWave, hw]
      rfl
    · exact (memBytes_congr (s := storedAt s ok _) hm k 1).trans (storedAt_out ok s hk)
  · obtain ⟨hx, rfl⟩ | ⟨hx, rfl⟩ := hx
    · obtain ⟨p, hp, rfl⟩ := List.mem_map.mp hx
      obtain ⟨u, hu, hw, htiles, hm⟩ := ham order p hp o s s1 c l ok h hl hf ht hacc
      refine frame_of_memoryAtomic ?_ hu hw htiles fun k hk => (memBytes_congr (s := storedAt s ok _) hm k 1).trans (storedAt_out ok s hk)
      split
      · exact .inr ⟨_, rfl, rfl⟩
      · exact .inl rfl
    · have hadd : (fun l => c.wave.readV2 o.a.toNat l + (if (3 : BitVec 6) = 2 then o.ext.imm.signExtend 64 else 0)) =
          fun l => c.wave.readV2 o.a.toNat l := funext fun l => BitVec.add_zero _
      obtain ⟨u, hu, hw, htiles, hm⟩ := hcm x hx o s s1 c l ok h hl hf ht (hadd ▸ hacc)
      refine frame_of_memoryAtomic (.inr ⟨_, rfl, rfl⟩) hu hw htiles fun k hk => (memBytes_congr hm k 1).trans ?_
      split
      · exact storedAt_out ok s hk
      · rfl

end Sys2Proof.Laws
end

section
/-! SUPPORT. A load from STACK over a backing address that is no multiple of 4: SEG_STACK_BACK holds what its context record says,
as it stands (assumption log 84), and then a unit of R61 may cross the lines of L1 (R63). Two lanes read such a page: the first
fills the line, the second finds half of its unit there, and is given that half. -/

namespace Sys2Proof.Laws

open Sys2Proof.Machine Sys2Proof.Safety

/-- The one wave of the machine below. -/
def crossingRef : WaveRef := { crew := 0, rank := 0, wave := 0 }

/-- A crew of one wave, whose tables lie at 0x01000000 of span 0. -/
def crossingCrew : Crew := { probeCrew 0 [] with ctx := { (probeCrew 0 []).ctx with desc0 := 0x01000000 } }

/-- Lanes 0 and 1, each with the first address of its STACK window in v4 and v5; lane l's bytes lie at 0x4007A + 4 × l of GLOBAL. -/
def crossingWave : Wave :=
  { launchWave crossingRef 64 0 0 1 0 crossingCrew.ctx (segsOf crossingCrew.ctx 0x2000 0) 3 0x10000 with
    v := List.replicate 4 [] ++ [Lanes.build fun _ => 0, Lanes.build fun _ => 0x00FD0000]
    segs := { segsOf crossingCrew.ctx 0x2000 0 with stackBack := 0x4007A } }

/-- GLOBAL is mapped at 0x80000000 by one leaf of level 2, with A set; the third byte of lane 1's unit, at 0x80040080, is 7. The
line that lane 0 fills stays in L2, and the copy in L1 is the one that answers lane 1 (R63, R65). -/
def crossingState : State :=
  { State.reset with
    parts := (List.range 8).map fun k => { Partition.initial k with spans := 1 }
    crews := [crossingCrew], waves := [crossingWave], cur := some (crossingRef, 0), oracle := [0, 1]
    mem := storeBytes (storeBytes (storeBytes [] 0x01000000 (leBytes 8 0x01040001)) 0x01040000 (leBytes 8 0x8000006F)) 0x80040080 [7] }

def crossingIssue : Issue := { wave := crossingWave, gang := { slices := 1, pc := 0x10000, wait := .ready }, crew := crossingCrew }

/-- LD of 32 bits from v4 and v5 to v8. -/
def crossingLoad : Opnd := { d := 8, a := 4, b := 0, x := none }

def crossingForm : AccessForm := { size := 4, align := 4, need := { r := true }, write := false, kind := 0 }

def crossingAddr (l : Nat) : BitVec 64 := crossingWave.readV2 4 l + crossingLoad.ext.imm.signExtend 64

/-- The unit of a lane. -/
def crossingPiece (l : Nat) : Piece :=
  { off := 0, size := 4, addr := 0x4007A + BitVec.ofNat 64 (4 * l), place := .mem 0 (0x8004007A + 4 * l) false 0x8000006F 0 0x01040000 }

def crossingOk : List (Nat × List Piece) := [(0, [crossingPiece 0]), (1, [crossingPiece 1])]

/-- The state after the walks of both lanes. -/
def crossingWalked : State :=
  (crossingState.reachLanes crossingWave crossingCrew crossingForm crossingAddr (LaneMask.lanes (crossingIssue.active crossingLoad.ext))).2.2

theorem crossing_ready : Ready crossingState crossingIssue (.ld 4 crossingLoad) :=
  ⟨by decide +kernel, by decide +kernel, by decide +kernel, by decide +kernel, .inl (by decide +kernel), .inl (by decide +kernel)⟩

theorem crossing_reach :
    crossingState.reachLanes crossingWave crossingCrew crossingForm crossingAddr (LaneMask.lanes (crossingIssue.active crossingLoad.ext)) =
      (crossingOk, [], crossingWalked) :=
  Prod.ext (by decide +kernel) (Prod.ext (by decide +kernel) rfl)

theorem crossing_access : MemoryAccess crossingState crossingWalked crossingIssue crossingForm 0x20 (crossingIssue.active crossingLoad.ext)
    crossingAddr crossingOk := by
  refine ⟨crossing_reach, fun x hx p hp => ?_, by decide +kernel, by decide +kernel, by decide +kernel, by decide +kernel, by decide +kernel,
    by decide +kernel⟩
  have hl : ∃ l, p = crossingPiece l := by
    simp only [crossingOk, List.mem_cons, List.not_mem_nil, or_false] at hx
    obtain rfl | rfl := hx
    · exact ⟨0, List.mem_singleton.mp hp⟩
    · exact ⟨1, List.mem_singleton.mp hp⟩
  obtain ⟨l, rfl⟩ := hl
  exact ⟨0, _, false, _, 0, _, rfl, by decide +kernel, nofun, rfl, rfl⟩

/-- The first word of lane 1 that waits to land in a wave. -/
def landingWord (w : Wave) : Option Word := w.landings.head?.bind fun ld => ld.data.head?.map fun x => x.at_ 1

/-- The same, of the wave after an instruction. -/
def landsIn (r : Host.Outcome State Fault Refusal) : Option Word :=
  match r with
  | .next t => (t.wave? crossingRef).bind landingWord
  | _ => none

/-- The model gives lane 1 the half of its unit that the line of L1 holds. -/
theorem crossing_lands : landsIn (exec (.ld 4 crossingLoad) crossingState) = some 0 := by decide +kernel

/-- What LoadsReadMemory says lands: each lane's own bytes. -/
def crossingLanding : Landing :=
  { id := crossingWalked.stamp, file := false, reg := 8, lanes := crossingIssue.active crossingLoad.ext,
    data := (List.range 1).map fun k => Lanes.build fun l =>
      if (crossingIssue.active crossingLoad.ext).getLsbD l then (ldWords 4 0 (laneBytes crossingState crossingOk l)).getD k 0 else 0
    pending := 0 }

/-- The wave after the load, by the statement. -/
def crossingRetired : Wave :=
  (crossingWave.produce crossingLanding).advance crossingIssue.gang (crossingIssue.nextPc (.ld 4 crossingLoad))

/-- The memory of lane 1's unit holds 7 in its third byte, beyond the line's end. -/
theorem crossing_owed : landingWord crossingRetired = some 0x70000 := by decide +kernel

/-- Refutes O32: of two lanes whose units lie in one line of L1, the second's crosses the line's end, and the copy that the first
has brought into L1 answers it with two bytes of four. -/
theorem not_loadsReadMemory : ¬ Obligations.LoadsReadMemory := by
  rintro ⟨-, -, h, -⟩
  obtain ⟨u, hu, hw, -, -⟩ := h 4 0 _ List.mem_cons_self crossingLoad crossingState crossingWalked crossingIssue crossingOk (by decide) (by decide)
    crossing_ready (by decide) crossing_access (by rw [show crossingWalked.l1 = [] by decide +kernel]; exact nofun)
  have hwave : u.wave? crossingWave.ref = some crossingWave := by
    rw [State.wave?, hw]
    exact (issuerParts crossing_ready.issuer).wave
  have hretired : (u.putWave crossingRetired).wave? crossingRetired.ref = some crossingRetired := wave?_putWave_same hwave
  have hlands : landsIn (.next (u.putWave crossingRetired)) = landingWord crossingRetired := congrArg (·.bind landingWord) hretired
  have hmodel : landsIn (.next (u.putWave crossingRetired)) = some 0 := (congrArg landsIn hu).symm.trans crossing_lands
  exact absurd (hmodel.symm.trans (hlands.trans crossing_owed)) (by decide)

end Sys2Proof.Laws
end

section
/-! SUPPORT. The commit pass of a partition that runs in rounds (R107, R108, R407 to R410): each event makes one move. -/

namespace Sys2Proof.Laws

open Sys2Proof.Machine Sys2Proof.Safety

/-! ## The order of a pass -/

/-- Inserting in key order adds the wave and changes none. -/
theorem insertKey_perm (x : Wave × Crew) : ∀ l : List (Wave × Crew), (insertKey x l).Perm (x :: l)
  | [] => .refl _
  | y :: r => by
    unfold insertKey
    split
    · exact .refl _
    · exact ((insertKey_perm x r).cons y).trans (.swap x y r)

/-- The waves of a pass are those of the partition's rounds. -/
theorem passOrder_perm (s : State) (p : Nat) : (s.passOrder p).Perm ((s.roundWaves p).map fun y => y.1.ref) := by
  refine List.Perm.map _ ?_
  induction s.roundWaves p with
  | nil => exact .refl _
  | cons y r ih => exact (insertKey_perm y _).trans (ih.cons y)

/-! ## An event of a partition -/

section
variable {p : Fin 8} {s : State}

/-- The event changes nothing where the partition does not run in rounds, diverges or has failed. -/
theorem exec_woadRoundCommit_idle (h : (s.part p.val).woad = false ∨ (s.part p.val).div = true ∨ (s.part p.val).state = 4) :
    exec (.woadRoundCommit p) s = .next s := by
  have hc : (!(s.part p.val).woad || (s.part p.val).div || decide ((s.part p.val).state = 4)) = true := by
    rcases h with h | h | h <;> simp [h]
  exact if_pos hc

variable (hw : (s.part p.val).woad = true) (hd : (s.part p.val).div = false) (hf : (s.part p.val).state ≠ 4)
include hw hd hf

/-- Else it begins a pass, or makes the next move of the one that runs. -/
theorem exec_woadRoundCommit_runs : exec (.woadRoundCommit p) s =
    match (s.part p.val).pass with
    | some ps => .next (s.movePass p.val ps)
    | none =>
      if (s.part p.val).stall || !(s.roundWaves p.val).all fun y => s.waveStopped y.1 y.2 then .next s
      else .next (s.putPart { s.part p.val with
        pass := some { left := s.passOrder p.val, wanted := [], granted := none, stores := 0, syncs := 0, ended := false, taken := 0 } }) := by
  have hc : (!(s.part p.val).woad || (s.part p.val).div || decide ((s.part p.val).state = 4)) = false := by simp [hw, hd, hf]
  exact (if_neg (by rw [hc]; decide)).trans rfl

theorem exec_woadRoundCommit_moves {ps : CommitPass} (hp : (s.part p.val).pass = some ps) :
    exec (.woadRoundCommit p) s = .next (s.movePass p.val ps) := by
  rw [exec_woadRoundCommit_runs hw hd hf, hp]

end

/-! ## The next move of a pass -/

section
variable {p : Nat} {s : State} {ps : CommitPass}

theorem movePass_of_granted {g : Grant} (hg : ps.granted = some g) : s.movePass p ps = if s.grantOver g then
    s.updPass p fun y => { y with granted := none, syncs := y.syncs + (if s.movedOn g.wave g.slice g.pc then 1 else 0) } else s := by
  rw [State.movePass, hg]

/-- While a command, a request or a batch can still move, the pass stays. -/
theorem movePass_of_busy (hg : ps.granted = none) (hb : s.passBusy p = true) : s.movePass p ps = s := by
  unfold State.movePass
  rw [hg]
  rcases ps.wanted with _ | ⟨_, _⟩
  · cases ps.left <;> exact if_pos hb
  · exact if_pos hb

variable (hg : ps.granted = none) (hb : s.passBusy p = false)
include hg hb

theorem movePass_of_wanted {r : WaveRef} {sl : Nat} {rest : List (WaveRef × Nat)} (hw : ps.wanted = (r, sl) :: rest) :
    s.movePass p ps = (s.updPass p fun x => { x with wanted := rest }).grantIssue p r sl := by
  simp only [State.movePass, hg, hw, hb, Bool.false_eq_true, if_false]

theorem movePass_of_left {r : WaveRef} {rest : List WaveRef} (hw : ps.wanted = []) (hl : ps.left = r :: rest) :
    s.movePass p ps = (s.updPass p fun x => { x with left := rest }).visitWave p r := by
  simp only [State.movePass, hg, hw, hl, hb, Bool.false_eq_true, if_false]

theorem movePass_of_visited (hw : ps.wanted = []) (hl : ps.left = []) : s.movePass p ps = s.closePass p ps := by
  simp only [State.movePass, hg, hw, hl, hb, Bool.false_eq_true, if_false]

end

/-! ## The end of a pass -/

section
variable {p : Nat} {s : State} {ps : CommitPass}

theorem closePass_of_ended (h : ps.ended = true) : s.closePass p ps = s.flushLog p := if_pos h

section
variable (he : ps.ended = false)
include he

theorem closePass_of_handlers (hh : s.handlersRun p = true) : s.closePass p ps = s := by
  simp only [State.closePass, he, hh, Bool.false_eq_true, if_false, if_true]

variable (hh : s.handlersRun p = false)
include hh

theorem closePass_of_sweep (hs : s.sweepAgain p = true) : s.closePass p ps = s.updPass p fun y => { y with left := s.passOrder p } := by
  simp only [State.closePass, he, hh, hs, Bool.false_eq_true, if_false, if_true]

/-- With nothing left over, a recording takes its inputs, and a replay the entries of its log. -/
theorem closePass_of_inputs (hs : s.sweepAgain p = false) :
    s.closePass p ps = if (s.part p).wctl.getLsbD 1 then s.replayNext p ps else s.recordNext p ps := by
  simp only [State.closePass, he, hh, hs, Bool.false_eq_true, if_false]

end

theorem recordNext_of_input {i : Instr} {rest : List Instr} (hi : (s.part p).inputs = i :: rest) :
    s.recordNext p ps = (s.putPart { s.part p with inputs := rest }).applyInput p i := by
  simp only [State.recordNext, hi]

theorem recordNext_of_waits (hi : (s.part p).inputs = []) (hw : s.passWaits p = true) : s.recordNext p ps = s := by
  simp only [State.recordNext, hi, hw, if_true]

theorem recordNext_of_done (hi : (s.part p).inputs = []) (hw : s.passWaits p = false) : s.recordNext p ps =
    ((s.logEntry p 9 [ps.stores, ps.syncs]).updPass p fun y => { y with ended := true }).flushLog p := by
  simp only [State.recordNext, hi, hw, Bool.false_eq_true, if_false]

theorem replayNext_of_short (h : s.replayEntries (s.part p) = none) : s.replayNext p ps = s.putPart { s.part p with stall := true } := by
  simp only [State.replayNext, h]

section
variable {es : List LogEntry} (h : s.replayEntries (s.part p) = some es)
include h

theorem replayNext_of_walk {t : State} (hw : s.walkUnlogged p (es.drop ps.taken) = some t) : s.replayNext p ps = t := by
  simp only [State.replayNext, h, hw]

theorem replayNext_of_entry {e : LogEntry} (hw : s.walkUnlogged p (es.drop ps.taken) = none) (he : es[ps.taken]? = some e) :
    s.replayNext p ps = (s.updPass p fun y => { y with taken := y.taken + 1 }).applyEntry p e := by
  simp only [State.replayNext, h, hw, he]

theorem replayNext_of_done (hd : (s.part p).div = false) (hw : s.walkUnlogged p (es.drop ps.taken) = none) (he : es[ps.taken]? = none) :
    s.replayNext p ps = (s.putPart { s.part p with
      wrd := (s.part p).wrd + BitVec.ofNat 32 (es.map fun e => 8 * (e.words.length + 1)).sum }).nextRound p := by
  simp only [State.replayNext, h, hw, he, hd, Bool.false_eq_true, if_false]

end
end

/-! ## Inputs -/

/-- An input of a partition that runs in rounds waits for the round's end; a replay's own inputs are dropped (R408, R409). -/
theorem asInput_of_woad {s : State} {p : Nat} {i : Instr} {k : State → State} (h : (s.part p).woad = true) : s.asInput p i k =
    .next (if (s.part p).wctl.getLsbD 1 then s else s.putPart { s.part p with inputs := (s.part p).inputs ++ [i] }) := by
  simp only [State.asInput, h, Bool.not_true, Bool.false_eq_true, if_false]
  split <;> rfl

/-- Each TAKE event is an input of its queue's partition. -/
theorem exec_take : ∀ t ∈ takeForms, ∀ (q : Fin 2048) (s : State), exec (t.1 q) s =
    s.asInput (s.queue q.val).part (t.1 q) fun s => s.takeHead q.val t.2 := by
  simp only [takeForms, List.forall_mem_cons, List.not_mem_nil, false_implies, implies_true, and_true]
  and_intros <;> exact fun _ _ => rfl

/-- Settles O57: the event, by what its partition is and by what its pass has left to do. -/
theorem roundsCommitInOrder : Obligations.RoundsCommitInOrder := by
  refine ⟨fun p s => ⟨exec_woadRoundCommit_idle, fun hw hd hf => ?_⟩, fun p s => passOrder_perm s p.val, ?takes⟩
  case takes =>
    intro t ht q s hw
    rw [exec_take t ht, asInput_of_woad hw]
  have moves {ps : CommitPass} := exec_woadRoundCommit_moves (ps := ps) hw hd hf
  refine ⟨fun hp h => ?stays, fun hp hs h => ?begins, fun ps g hp hg => by rw [moves hp, movePass_of_granted hg],
    fun ps hp hg hb => ?next, fun ps hp hg hb => by rw [moves hp, movePass_of_busy hg hb]⟩
  case stays =>
    rw [exec_woadRoundCommit_runs hw hd hf, hp]
    refine if_pos ?_
    rcases h with h | ⟨y, hy, h⟩
    · simp [h]
    · have : ((s.roundWaves p.val).all fun y => s.waveStopped y.1 y.2) = false := List.all_eq_false.mpr ⟨y, hy, by simp [h]⟩
      simp [this]
  case begins =>
    rw [exec_woadRoundCommit_runs hw hd hf, hp]
    exact if_neg (by simp [hs, List.all_eq_true.mpr h])
  case next =>
    refine ⟨fun r sl rest hq => by rw [moves hp, movePass_of_wanted hg hb hq], fun r rest hq hl => by rw [moves hp, movePass_of_left hg hb hq hl],
      fun hq hl he => by rw [moves hp, movePass_of_visited hg hb hq hl, closePass_of_ended he], fun hq hl he => ?_⟩
    have closes : exec (.woadRoundCommit p) s = .next (s.closePass p.val ps) := by rw [moves hp, movePass_of_visited hg hb hq hl]
    refine ⟨fun hh => by rw [closes, closePass_of_handlers he hh], fun hh hs => by rw [closes, closePass_of_sweep he hh hs],
      fun hh hs hr => ?_, fun hh hs hr => ?_⟩
    · have records : exec (.woadRoundCommit p) s = .next (s.recordNext p.val ps) := by
        rw [closes, closePass_of_inputs he hh hs, hr]; rfl
      exact ⟨fun i rest hi => by rw [records, recordNext_of_input hi], fun hi hv => by rw [records, recordNext_of_waits hi hv],
        fun hi hv => by rw [records, recordNext_of_done hi hv]⟩
    · have replays : exec (.woadRoundCommit p) s = .next (s.replayNext p.val ps) := by
        rw [closes, closePass_of_inputs he hh hs, hr]; rfl
      exact ⟨fun h => by rw [replays, replayNext_of_short h], fun es t h hv => by rw [replays, replayNext_of_walk h hv],
        fun es e h hv hx => by rw [replays, replayNext_of_entry h hv hx], fun es h hv hx => by rw [replays, replayNext_of_done h hd hv hx]⟩

end Sys2Proof.Laws
end

section
/-! SUPPORT. Errors, links and ports (R305, R393 to R405): what a failing context and a partition's reset leave, where
poison goes, and what one event of each kind comes to. -/

namespace Sys2Proof.Laws

open Sys2Proof.Machine Sys2Proof.Safety

/-! ## The partitions' states -/

/-- A partition found by number carries that number. -/
theorem part_num {s : State} (h : PartsNumbered s) (p : Nat) : (s.part p).num = p := by
  by_cases hp : p < s.parts.length
  · exact h p hp
  · rw [State.part, List.getD_eq_default _ _ (not_lt.mp hp)]
    rfl

theorem length_setAt {α : Type} (n : Nat) (v : α) : ∀ l : List α, (setAt l n v).length = l.length := by
  intro l
  induction l generalizing n with
  | nil => rfl
  | cons x r ih => cases n with
    | zero => rfl
    | succ n => simp only [setAt, List.length_cons, ih]

theorem part_putPart_same {s : State} {x : Partition} (h : x.num < s.parts.length) : (s.putPart x).part x.num = x :=
  getD_setAt_same h

theorem part_putPart_ne {s : State} {x : Partition} {k : Nat} (h : k ≠ x.num) : (s.putPart x).part k = s.part k := getD_setAt_ne h

/-- What work that ends leaves: memory, the partitions' numbers, and which of them are OFF. -/
structure EndsWork (s t : State) : Prop where
  memory : SameMemory s t
  length : t.parts.length = s.parts.length
  numbered : PartsNumbered s → PartsNumbered t
  off : PartsNumbered s → ∀ p, (t.part p).state = 0 ↔ (s.part p).state = 0

theorem EndsWork.refl (s : State) : EndsWork s s := ⟨⟨rfl, rfl⟩, rfl, id, fun _ _ => .rfl⟩

theorem EndsWork.trans {s t u : State} (h : EndsWork s t) (k : EndsWork t u) : EndsWork s u :=
  ⟨sameMemory_trans h.memory k.memory, k.length.trans h.length, fun n => k.numbered (h.numbered n),
    fun n p => (k.off (h.numbered n) p).trans (h.off n p)⟩

theorem EndsWork.foldl {α : Type} {f : State → α → State} (hf : ∀ s a, EndsWork s (f s a)) (l : List α) (s : State) :
    EndsWork s (l.foldl f s) := by
  induction l generalizing s with
  | nil => exact .refl s
  | cons a l ih => exact (hf s a).trans (ih _)

/-- A change of neither memory nor partitions. -/
theorem EndsWork.of_eq {s t : State} (hm : t.mem = s.mem) (hl : t.loose = s.loose) (hp : t.parts = s.parts) : EndsWork s t :=
  ⟨⟨hm, hl⟩, by rw [hp], fun n k hk => by rw [State.part, hp] at *; exact n k hk, fun _ k => by rw [State.part, hp]; rfl⟩

/-- The partition that is put where it belongs is found there, and every other one as before. -/
theorem part_putPart {s : State} {p : Nat} {x : Partition} (n : PartsNumbered s) (hn : x.num = (s.part p).num) (hp : p < s.parts.length) (k : Nat) :
    (s.putPart x).part k = if k = p then x else s.part k := by
  have hx : x.num = p := hn.trans (part_num n p)
  split
  next h => rw [h, ← hx, part_putPart_same (by omega)]
  next h => exact part_putPart_ne (by omega)

theorem numbered_putPart {s : State} {p : Nat} {x : Partition} (n : PartsNumbered s) (hn : x.num = (s.part p).num) :
    PartsNumbered (s.putPart x) := by
  intro k hk
  by_cases hp : p < s.parts.length
  · rw [part_putPart n hn hp]
    split
    next h => rw [hn, part_num n, h]
    next => exact part_num n k
  · rw [State.putPart, hn, part_num n, setAt_eq_self (by omega)]
    exact part_num n k

/-- A partition changes that stays OFF, or stays not OFF. -/
theorem endsWork_putPart {s : State} {p : Nat} {x : Partition} (hn : x.num = (s.part p).num) (hx : x.state = 0 ↔ (s.part p).state = 0) :
    EndsWork s (s.putPart x) := by
  refine ⟨⟨rfl, rfl⟩, length_setAt .., fun n => numbered_putPart n hn, fun n k => ?_⟩
  by_cases hp : p < s.parts.length
  · rw [part_putPart n hn hp]
    split
    next h => rw [h, hx]
    next => rfl
  · rw [State.putPart, hn, part_num n, setAt_eq_self (by omega)]

theorem endsWork_putQueue (s : State) (q : Queue) : EndsWork s (s.putQueue q) := by
  unfold State.putQueue
  split <;> exact .of_eq rfl rfl rfl

theorem endsWork_postRecord (s : State) (p : Nat) (r : Record) : EndsWork s (s.postRecord p r) := endsWork_putPart (p := p) rfl .rfl

theorem endsWork_setEvent (s : State) (p e : Nat) (v : BitVec 64) : EndsWork s (s.setEvent p e v) := by
  unfold State.setEvent
  extract_lets x t
  have ht : EndsWork s t := endsWork_putPart (p := p) rfl .rfl
  exact ht.trans (.of_eq rfl rfl rfl)

theorem endsWork_settleQueue (s : State) (q : Nat) : EndsWork s (s.settleQueue q) := by
  unfold State.settleQueue
  extract_lets x t
  have ht : EndsWork s t := endsWork_putQueue ..
  split
  · exact .refl s
  · split
    · exact .refl s
    · split
      · exact ht.trans (endsWork_setEvent ..)
      · exact ht

theorem endsWork_idleRunning (s : State) (p : Nat) : EndsWork s (s.idleRunning p) := by
  unfold State.idleRunning
  extract_lets x enabled
  split
  next h =>
    have hs : x.state = 2 := by simpa using (Bool.and_eq_true_iff.mp h).1
    exact endsWork_putPart (p := p) rfl (iff_of_false (Nat.succ_ne_zero 2) (by rw [show (s.part p).state = 2 from hs]; decide))
  next =>
    split
    next h =>
      have hs : x.state = 3 := by simp at h; exact h.1.1.1
      exact endsWork_putPart (p := p) rfl (iff_of_false (Nat.succ_ne_zero 1) (by rw [show (s.part p).state = 3 from hs]; decide))
    next => exact .refl s

theorem endsWork_workInError (s : State) (seq : Nat) : EndsWork s (s.workInError seq) := by
  unfold State.workInError
  split
  · exact .refl s
  next w _ =>
    extract_lets q t u
    have ht : EndsWork s u := (endsWork_putQueue ..).trans (.of_eq rfl rfl rfl)
    exact (ht.trans (endsWork_settleQueue ..)).trans (endsWork_idleRunning ..)

theorem endsWork_failPass (s : State) (p tile code : Nat) : EndsWork s (s.failPass p tile code) := by
  unfold State.failPass
  split
  · exact .refl s
  next r _ =>
    extract_lets t u v
    have hu : EndsWork s u := .of_eq rfl rfl rfl
    exact (hu.trans (endsWork_workInError ..)).trans (endsWork_postRecord ..)

/-- A failing context (R401). -/
theorem endsWork_failContext (s : State) (p ctag code place : Nat) : EndsWork s (s.failContext p ctag code place) := by
  unfold State.failContext
  extract_lets mine s1 s2 s3 qs s4 s5 seqs s6 s7
  have h4 : EndsWork s s4 := .of_eq rfl rfl rfl
  have h5 : EndsWork s4 s5 := by
    simp only [s5]
    split
    · split
      · exact endsWork_failPass ..
      · exact .refl _
    · exact .refl _
  have h6 : EndsWork s5 s6 := .foldl endsWork_workInError seqs s5
  have h7 : EndsWork s6 s7 := .foldl (fun s n => endsWork_putQueue ..) qs s6
  exact ((((h4.trans h5).trans h6).trans h7).trans (endsWork_postRecord ..)).trans (endsWork_idleRunning ..)

theorem endsWork_failContexts (code : Nat) (l : List (Nat × Nat)) (s : State) :
    EndsWork s (l.foldl (fun s x => s.failContext x.1 x.2 code) s) := by
  refine EndsWork.foldl (fun s x => ?_) l s
  exact endsWork_failContext s x.1 x.2 code 0

/-! ## Module errors (R404) -/

/-- The partition is in RESET, with no crew and no work. -/
structure Emptied (p : Nat) (s : State) : Prop where
  state : (s.part p).state = 1
  crews : ∀ c ∈ s.crews, c.part ≠ p
  works : ∀ w ∈ s.works, w.part ≠ p

section
variable {s : State} (n : PartsNumbered s) (p : Nat)

theorem resetPartition_crews : (s.resetPartition p).crews = s.crews.filter fun c => !(c.part == p) := rfl

theorem resetPartition_works : (s.resetPartition p).works = s.works.filter fun w => w.part != p := rfl

theorem resetPartition_length : (s.resetPartition p).parts.length = s.parts.length := length_setAt ..

include n

theorem resetPartition_numbered : PartsNumbered (s.resetPartition p) := by
  unfold State.resetPartition
  extract_lets t u x
  have hu : PartsNumbered u := n
  exact numbered_putPart (p := p) hu rfl

theorem resetPartition_part {q : Nat} (h : q ≠ p) : (s.resetPartition p).part q = s.part q := by
  unfold State.resetPartition
  extract_lets t u x
  have hn : x.num = p := part_num (s := u) n p
  exact part_putPart_ne (s := u) (show q ≠ x.num by rwa [hn])

theorem emptied_resetPartition (hp : p < s.parts.length) : Emptied p (s.resetPartition p) := by
  refine ⟨?_, fun c hc => ?_, fun w hw => ?_⟩
  · unfold State.resetPartition
    extract_lets t u x
    have hx {y : Partition} (hy : y.num = x.num) : (u.putPart y).part p = y := by rw [part_putPart (s := u) (p := p) n hy hp, if_pos rfl]
    rw [hx]
    rfl
  · rw [resetPartition_crews, List.mem_filter] at hc
    simpa using hc.2
  · rw [resetPartition_works, List.mem_filter] at hw
    simpa using hw.2

end

/-- One that has been emptied stays so while another is reset. -/
theorem Emptied.reset {s : State} (n : PartsNumbered s) {q p : Nat} (h : Emptied q s) (hp : q ≠ p) : Emptied q (s.resetPartition p) :=
  ⟨by rw [resetPartition_part n p hp]; exact h.state, fun c hc => h.crews c (List.mem_filter.mp (resetPartition_crews p ▸ hc)).1,
    fun w hw => h.works w (List.mem_filter.mp (resetPartition_works p ▸ hw)).1⟩

/-- All the partitions of a list, once each has been reset; memory stands. -/
theorem foldl_resetPartition : ∀ (l : List Nat) {s : State}, PartsNumbered s → let t := l.foldl (fun s p => s.resetPartition p) s
    SameMemory s t ∧ ∀ q, q < s.parts.length → q ∈ l ∨ Emptied q s → Emptied q t
  | [], s, _ => ⟨⟨rfl, rfl⟩, fun q _ h => h.resolve_left List.not_mem_nil⟩
  | p :: l, s, n => by
    obtain ⟨hm, he⟩ := foldl_resetPartition l (resetPartition_numbered n p)
    refine ⟨sameMemory_trans ⟨rfl, rfl⟩ hm, fun q hq h => he q (by rwa [resetPartition_length]) ?_⟩
    by_cases hqp : q = p
    · exact .inr (hqp ▸ emptied_resetPartition n p (hqp ▸ hq))
    · rcases h with h | h
      · exact .inl ((List.mem_cons.mp h).resolve_left hqp)
      · exact .inr (h.reset n hqp)

/-- A module error ends every context and empties every partition that is not OFF. -/
theorem moduleError_empties {s : State} (n : PartsNumbered s) (therm : Bool) : SameMemory s (s.moduleError therm) ∧
    ∀ p, p < s.parts.length → (s.part p).state ≠ 0 → Emptied p (s.moduleError therm) := by
  unfold State.moduleError
  extract_lets t u
  have ht : EndsWork s t := endsWork_failContexts 0x85 s.runningContexts s
  obtain ⟨hm, he⟩ := foldl_resetPartition ((t.parts.filter fun x => x.state != 0).map fun x => x.num) (ht.numbered n)
  refine ⟨sameMemory_trans ht.memory hm, fun p hp hs => ?_⟩
  have hp' : p < t.parts.length := by rwa [ht.length]
  have hin : p ∈ (t.parts.filter fun x => x.state != 0).map fun x => x.num := by
    refine List.mem_map.mpr ⟨t.part p, List.mem_filter.mpr ⟨?_, ?_⟩, part_num (ht.numbered n) p⟩
    · rw [State.part, List.getD_eq_getElem _ _ hp']
      exact List.getElem_mem hp'
    · simpa using mt (ht.off n p).mp hs
  obtain ⟨h1, h2, h3⟩ := he p hp' (.inl hin)
  exact ⟨h1, h2, h3⟩

/-! ## Poison -/

/-- t differs from s in its partitions and in units newly poisoned alone. -/
structure Poisons (s t : State) : Prop where
  fields : t = { s with parts := t.parts, poison := t.poison }
  kept : ∀ u ∈ s.poison, u ∈ t.poison

theorem Poisons.refl (s : State) : Poisons s s := ⟨rfl, fun _ h => h⟩

theorem Poisons.trans {s t u : State} (h : Poisons s t) (k : Poisons t u) : Poisons s u :=
  ⟨by rw [k.fields, h.fields], fun x hx => k.kept x (h.kept x hx)⟩

theorem Poisons.foldl {α : Type} {f : State → α → State} (hf : ∀ s a, Poisons s (f s a)) (l : List α) (s : State) :
    Poisons s (l.foldl f s) := by
  induction l generalizing s with
  | nil => exact .refl s
  | cons a l ih => exact (hf s a).trans (ih _)

theorem Poisons.memory {s t : State} (h : Poisons s t) : SameMemory s t := by
  rw [h.fields]
  exact ⟨rfl, rfl⟩

/-- A range is poisoned by its link, or by a unit that it touches (R396, R403). -/
theorem memPoisoned_iff {s : State} {mt pa n : Nat} : s.memPoisoned mt pa n = true ↔
    s.linkDown mt = true ∨ ∃ u ∈ s.poison, memKey mt (pa / 16 * 16) ≤ u ∧ u < memKey mt (pa + n) := by
  simp only [State.memPoisoned, Bool.or_eq_true, List.any_eq_true, Bool.and_eq_true, decide_eq_true_eq]

/-- A poisoned range stays so. -/
theorem Poisons.memPoisoned {s t : State} (h : Poisons s t) {mt pa n : Nat} (hp : s.memPoisoned mt pa n = true) :
    t.memPoisoned mt pa n = true := by
  have hm : t.linkDown mt = s.linkDown mt := by rw [h.fields]; rfl
  rw [memPoisoned_iff, hm]
  exact (memPoisoned_iff.mp hp).imp id fun ⟨u, hu, hr⟩ => ⟨u, h.kept u hu, hr⟩

theorem poisons_logEntry (s : State) (p type : Nat) (ws : List Nat) : Poisons s (s.logEntry p type ws) := by
  unfold State.logEntry
  extract_lets x
  split
  · exact ⟨rfl, fun _ h => h⟩
  · exact .refl s

theorem poisons_postError (s : State) (p sub kind place val ctag code units : Nat) :
    Poisons s (s.postError p sub kind place val ctag code units) := ⟨rfl, fun _ h => h⟩

theorem poisons_addPoison (s : State) (mt pa : Nat) : Poisons s (s.addPoison mt pa) := by
  unfold State.addPoison
  extract_lets u
  split
  · exact .refl s
  · exact ⟨rfl, fun _ h => List.mem_cons_of_mem _ h⟩

theorem mem_addPoison (s : State) (mt pa : Nat) : memKey mt (pa / 16 * 16) ∈ (s.addPoison mt pa).poison := by
  unfold State.addPoison
  extract_lets u
  split
  next h => simpa using h
  next => exact List.mem_cons_self

theorem poisons_createPoison (s : State) (p mt pa n : Nat) : Poisons s (s.createPoison p mt pa n) :=
  (poisons_logEntry ..).trans (.foldl (fun _ _ => poisons_addPoison ..) _ _)

/-- A codeword is two units. -/
theorem createPoison_codeword (s : State) (p mt pa : Nat) : s.createPoison p mt pa 32 =
    ((s.logEntry p 7 [memKey mt pa, 2]).addPoison mt pa).addPoison mt (pa + 16) := by
  simp [State.createPoison, List.range_succ]

/-- A codeword whose two units are poisoned reads as poisoned. -/
theorem memPoisoned_createPoison (s : State) (p mt pa : Nat) : (s.createPoison p mt pa 32).memPoisoned mt pa 32 = true := by
  have hu : memKey mt (pa / 16 * 16) ∈ (s.createPoison p mt pa 32).poison := by
    rw [createPoison_codeword]
    exact (poisons_addPoison _ mt (pa + 16)).kept _ (mem_addPoison ..)
  have hlt : pa / 16 * 16 < pa + 32 := by omega
  have hk : memKey mt (pa / 16 * 16) < memKey mt (pa + 32) := by
    rw [memKey, memKey]
    exact Nat.add_lt_add_left hlt _
  exact memPoisoned_iff.mpr (.inr ⟨_, hu, le_rfl, hk⟩)

/-! ## A line that is written back (R400) -/

/-- The line once it is written back. -/
def cleanLine (x : L2Line) : L2Line := { x with dirty := false, blocks := [] }

/-- The lines of the slices once one of them is clean. -/
def cleanedLines (s : State) (x : L2Line) : List L2Line := updWhere (fun y => y.at_ x.home x.mt x.line) cleanLine s.l2

/-- Where a change of members keeps what is looked for, the same member is found, changed. -/
theorem find?_updWhere {α : Type} {p q : α → Bool} {f : α → α} (h : ∀ y, p (f y) = p y) (l : List α) :
    (updWhere q f l).find? p = (l.find? p).map fun y => if q y then f y else y := by
  have hk : (p ∘ fun y => if q y then f y else y) = p := by
    funext y
    rw [Function.comp_apply]
    split
    · exact h y
    · rfl
  rw [updWhere, List.find?_map, hk]

/-- A line that is cleaned is found where it was. -/
theorem l2Line_cleaned {s : State} {line : Nat} {x : L2Line} (h : s.l2Line line = some x) :
    { s with l2 := cleanedLines s x }.l2Line line = some (cleanLine x) := by
  have hx : x.at_ x.home x.mt x.line = true := by simp [L2Line.at_]
  unfold State.l2Line at h ⊢
  refine (find?_updWhere (f := cleanLine) (fun _ => rfl) s.l2).trans ?_
  rw [h, Option.map_some, if_pos hx]

/-- The bytes of a line count for a block that dirtied it. -/
theorem block?_charge {s : State} {k r n : Nat} {b : Block} (h : s.block? k r = some b) (x : Nat × Nat) :
    (s.charge (some x) n).block? k r = some { b with dramBytes := b.dramBytes + if x = (k, r) then n else 0 } := by
  obtain ⟨rfl, rfl⟩ := block?_key h
  unfold State.charge
  rw [Option.bind_some]
  split
  next hx =>
    have hne : x ≠ (b.crew, b.rank) := fun e => by rw [e, h] at hx; cases hx
    rw [if_neg hne, h]
    rfl
  next d hd =>
    obtain ⟨hc, hr⟩ := block?_key hd
    rw [block?_putBlock, h, Option.map_some]
    by_cases hx : x = (b.crew, b.rank)
    · have hdb : d = b := Option.some.inj (by rw [← hd, ← h, hx])
      simp [hx, hdb]
    · have hkey : ¬(b.crew = d.crew ∧ b.rank = d.rank) := fun ⟨e1, e2⟩ => hx (Prod.ext (by rw [← hc, e1]) (by rw [← hr, e2]))
      simp [hx, hkey]

theorem charge_eq (s : State) (x : Nat × Nat) (n : Nat) : s.charge (some x) n = { s with blocks := (s.charge (some x) n).blocks } := by
  unfold State.charge
  split <;> rfl

/-- The bytes of a line that is written back count once for each block that dirtied it. -/
theorem foldl_charge : ∀ (l : List (Nat × Nat)) (s : State), let t := l.foldl (fun s b => s.charge (some b) 128) s
    t = { s with blocks := t.blocks } ∧ ∀ (k r : Nat) (b : Block), s.block? k r = some b →
      t.block? k r = some { b with dramBytes := b.dramBytes + 128 * l.count (k, r) }
  | [], s => ⟨rfl, fun _ _ _ h => h⟩
  | x :: l, s => by
    obtain ⟨he, hb⟩ := foldl_charge l (s.charge (some x) 128)
    refine ⟨by rw [List.foldl_cons, he, charge_eq s x 128], fun k r b h => ?_⟩
    rw [List.foldl_cons, hb k r _ (block?_charge h x)]
    congr 2
    by_cases hx : x = (k, r)
    · simp only [hx, if_true, List.count_cons_self]; omega
    · simp only [hx, if_false, List.count_cons_of_ne hx]; omega

theorem poisons_sectorError (s : State) (x : L2Line) (bad : BitVec 4) (sub kind ctag : Nat) : Poisons s (s.sectorError x bad sub kind ctag) :=
  (Poisons.foldl (fun _ _ => poisons_createPoison ..) _ _).trans (poisons_postError ..)

/-- Each bad sector is poisoned. -/
theorem memPoisoned_sectorError (s : State) (x : L2Line) (bad : BitVec 4) (sub kind ctag : Nat) {k : Nat} (hk : k ∈ x.poisoned bad) :
    (s.sectorError x bad sub kind ctag).memPoisoned x.mt (x.line * 128 + 32 * k) 32 = true := by
  have hf : ∀ (ks : List Nat) (s : State), k ∈ ks →
      (ks.foldl (fun s k => s.createPoison x.part x.mt (x.line * 128 + 32 * k) 32) s).memPoisoned x.mt (x.line * 128 + 32 * k) 32 = true := by
    intro ks
    induction ks with
    | nil => exact fun _ h => absurd h List.not_mem_nil
    | cons j ks ih =>
      intro s h
      rcases List.mem_cons.mp h with rfl | h
      · exact Poisons.memPoisoned (.foldl (fun _ _ => poisons_createPoison ..) ks _) (memPoisoned_createPoison ..)
      · exact ih _ h
  exact (poisons_postError ..).memPoisoned (hf _ s hk)

/-- An input of a partition that does not run in rounds takes effect at once. -/
theorem asInput_of_plain {s : State} {p : Nat} {i : Instr} {k : State → State} (h : (s.part p).woad = false) : s.asInput p i k = .next (k s) := by
  simp only [State.asInput, h, Bool.not_false, if_true]

/-- A dirty line is written back: it is clean, its bytes count for the blocks that dirtied it, and its bad sectors are poisoned. -/
theorem exec_l2Writeback {line : Nat} {bad : BitVec 4} {s : State} {x : L2Line} (h : s.l2Line line = some x) (hd : x.dirty = true)
    (hw : (s.part x.part).woad = false) :
    let t := x.blocks.foldl (fun s b => s.charge (some b) 128) { s with l2 := cleanedLines s x }
    exec (.l2Writeback line bad) s = .next (if bad = 0 then t else t.sectorError (cleanLine x) bad 2 0 x.owner) := by
  intro t
  have ht := (foldl_charge x.blocks { s with l2 := cleanedLines s x }).1
  have hl : t.l2Line line = some (cleanLine x) := by
    rw [show t = _ from ht]
    exact l2Line_cleaned h
  have hp : (t.part x.part).woad = false := by
    rw [show t = _ from ht]
    exact hw
  have he : exec (.l2Writeback line bad) s = if bad = 0 then .next t
      else t.asInput x.part (.l2Writeback line bad) fun s => s.writebackError line bad := by
    change execL2Writeback line bad s = _
    simp only [execL2Writeback, h, hd, Bool.not_true, Bool.false_eq_true, if_false]
    rfl
  rw [he]
  split
  · rfl
  · rw [asInput_of_plain hp, State.writebackError, hl]
    rfl

/-! ## Links and ports (R305, R403) -/

/-- PORTROLE after the field of one port is cleared: that field reads 0, and every other as before. -/
theorem bits_portRole_cleared (v : BitVec 8) (port k : Fin 4) : bits (v &&& ~~~(3#8 <<< (2 * port.val))).toNat (2 * k.val + 1) (2 * k.val) =
    if k = port then 0 else bits v.toNat (2 * k.val + 1) (2 * k.val) := by
  have h3 (n : Nat) : (3#8).getLsbD n = decide (n < 2) := by
    rcases n with _ | _ | n
    · rfl
    · rfl
    · simp [BitVec.getLsbD, Nat.testBit_succ]
  have hx : (v &&& ~~~(3#8 <<< (2 * port.val))).extractLsb' (2 * k.val) 2 = if k = port then 0 else v.extractLsb' (2 * k.val) 2 := by
    refine BitVec.eq_of_getLsbD_eq fun i hi => ?_
    simp only [BitVec.getLsbD_extractLsb', hi, BitVec.getLsbD_and, BitVec.getLsbD_not, BitVec.getLsbD_shiftLeft, h3, decide_true, Bool.true_and]
    have h8 : 2 * k.val + i < 8 := by omega
    split
    next h =>
      subst h
      have hin : 2 * k.val + i - 2 * k.val < 2 := by omega
      simp only [h8, hin, Nat.not_lt.mpr (Nat.le_add_right _ i), decide_true, decide_false, Bool.not_false, Bool.and_self, Bool.not_true, Bool.and_false]
      simp
    next h =>
      have hkp : k.val ≠ port.val := fun e => h (Fin.ext e)
      have hout : 2 * k.val + i < 2 * port.val ∨ ¬2 * k.val + i - 2 * port.val < 2 := by omega
      rw [BitVec.getLsbD_extractLsb']
      rcases hout with hout | hout <;> simp [h8, hi, hout]
  rw [bits_eq_extract, bits_eq_extract, show 2 * k.val + 1 + 1 - 2 * k.val = 2 by omega, hx]
  split <;> rfl

/-- The role of a port through which an access of a target comes (R305). -/
def targetRole : PortTarget → Nat
  | .phys _ _ => 1
  | .global _ _ _ _ => 2

section
variable {port : Fin 4} {a : PortAccess} {s s1 : State} {xs : List PortSpan} (h : s.portReach a = (some xs, s1))
include h

/-- An access through a port of another role changes nothing. -/
theorem exec_portIncomingAccess_other (hr : bits s.module.portRole.toNat (2 * port.val + 1) (2 * port.val) ≠ targetRole a.target) :
    exec (.portIncomingAccess port a) s = .next s := by
  change execPortIncomingAccess port a s = _
  rcases a with ⟨t, op⟩
  cases t <;> simp only [targetRole] at hr <;> simp [execPortIncomingAccess, h, hr]

/-- One through a port of its role, aligned and clear of every batch, is performed. -/
theorem exec_portIncomingAccess (hr : bits s.module.portRole.toNat (2 * port.val + 1) (2 * port.val) = targetRole a.target)
    (ha : ∀ op v, a.op = .atomic op v → ∀ x ∈ xs, x.pa % op.size = 0)
    (hb : ∀ x ∈ xs, ∀ o ∈ s.objects, o.crew.isSome = true → o.mt = x.mt → ∀ k, k ≤ x.size → o.pa ≠ (x.pa + k) / 128 * 128)
    (hw : ∀ p, xs.findSome? (fun x => x.part) = some p → (s1.part p).woad = false) :
    exec (.portIncomingAccess port a) s = .next (s1.portPerform a.op xs) := by
  have hheld : (xs.any fun x => (List.range (x.size + 1)).any fun k => s.objects.any fun o =>
      o.crew.isSome && o.mt == x.mt && o.pa == (x.pa + k) / 128 * 128) = false := by
    refine Bool.eq_false_iff.mpr fun hc => ?_
    simp only [List.any_eq_true, List.mem_range, Bool.and_eq_true, beq_iff_eq] at hc
    obtain ⟨x, hx, k, hk, o, ho, ⟨hcrew, hmt⟩, hpa⟩ := hc
    exact hb x hx o ho hcrew hmt k (Nat.lt_succ_iff.mp hk) hpa
  change execPortIncomingAccess port a s = _
  simp only [execPortIncomingAccess, h]
  rw [if_neg ?_]
  · split
    · rfl
    next p hp _ => exact asInput_of_plain (hw p hp)
    · rfl
  · rw [hheld, hr, Bool.or_false]
    rcases a with ⟨t, op⟩
    cases op with
    | read n => cases t <;> simp [targetRole]
    | write d p => cases t <;> simp [targetRole]
    | atomic op v => cases t <;> simpa [targetRole] using ha op v rfl

end

/-- A link that goes down: its users are told, its PORTROLE reads 0, and memory stands. -/
theorem exec_portLinkDown (port : Fin 4) (s : State) : ∃ t, exec (.portLinkDown port) s = .next t ∧ SameMemory s t ∧
    t.module.portRole = s.module.portRole &&& ~~~(3#8 <<< (2 * port.val)) ∧ t.module.down = s.module.down ||| (1#4 <<< port.val) := by
  change ∃ t, execPortLinkDown port s = .next t ∧ _
  unfold execPortLinkDown
  extract_lets users t
  have ht : Poisons s t := .foldl (fun _ _ => poisons_postError ..) users s
  have hm : t.module = s.module := by rw [ht.fields]
  exact ⟨_, rfl, ht.memory, by rw [hm], by rw [hm]⟩

/-! ## The events -/

theorem exec_patrolRead_corrected {k p : Nat} {s : State} (hp : s.memPart (codewordPlace k).1 (codewordPlace k).2 = some p) :
    exec (.patrolRead k .corrected) s = .next (s.countCorrected p) := by
  change execPatrolRead k .corrected s = _
  simp only [execPatrolRead, hp]

theorem exec_patrolRead_uncorrectable {k p : Nat} {s : State} (hp : s.memPart (codewordPlace k).1 (codewordPlace k).2 = some p) :
    exec (.patrolRead k .uncorrectable) s = .next
      (s.postError p 3 0 (memoryPlace (codewordPlace k).1) (memKey (codewordPlace k).1 (codewordPlace k).2) 0xFFFF 0 0) := by
  change execPatrolRead k .uncorrectable s = _
  simp only [execPatrolRead, hp]

/-- An uncorrectable codeword of memory that a partition owns poisons both its units (R393). -/
theorem exec_memoryError {k p : Nat} {s : State} (hp : s.memPart (codewordPlace k).1 (codewordPlace k).2 = some p) (hw : (s.part p).woad = false)
    (ctag : BitVec 16) (kind : Fin 6) : ∃ t, exec (.arrayError (.memory k ctag kind)) s = .next t ∧ SameMemory s t ∧
      t.memPoisoned (codewordPlace k).1 (codewordPlace k).2 32 = true := by
  have he : exec (.arrayError (.memory k ctag kind)) s = s.asInput p (.arrayError (.memory k ctag kind)) fun s =>
      s.arrayError (.memory k ctag kind) := by
    change execArrayError (.memory k ctag kind) s = _
    simp only [execArrayError, State.poisonedPart, hp]
  have ht : s.arrayError (.memory k ctag kind) = (s.createPoison p (codewordPlace k).1 (codewordPlace k).2 32).postError p 3 kind.val
      (memoryPlace (codewordPlace k).1) (memKey (codewordPlace k).1 (codewordPlace k).2) ctag.toNat 0 2 := by
    simp only [State.arrayError, State.memoryError, hp]
  refine ⟨_, by rw [he, asInput_of_plain hw, ht], ?_, ?_⟩
  · exact ((poisons_createPoison ..).trans (poisons_postError ..)).memory
  · exact (poisons_postError ..).memPoisoned (memPoisoned_createPoison ..)

/-- An array error that poisons nothing of a partition in rounds takes effect at once. -/
theorem exec_arrayError {e : ArrayErr} {s : State} (h : ∀ p, s.poisonedPart e = some p → (s.part p).woad = false) :
    exec (.arrayError e) s = .next (s.arrayError e) := by
  change execArrayError e s = _
  unfold execArrayError
  split
  next p hp => exact asInput_of_plain (h p hp)
  next => rfl

/-- Settles O53: each event, by what it finds; what it changes beside lies in partitions, counts and poison. -/
theorem errorsAndPortsTakeEffect : Obligations.ErrorsAndPortsTakeEffect := by
  refine ⟨fun port a s s1 xs h => ⟨exec_portIncomingAccess_other h, exec_portIncomingAccess h⟩, fun port s => ?link, fun therm s n => ?module,
    fun e s => exec_arrayError, fun p s => rfl, fun at_ s => rfl, fun k s p hp => ⟨?corrected, ?patrol, exec_memoryError hp⟩,
    fun line bad s x h => ⟨fun hd => ?clean, fun hd hw => ?dirty⟩⟩
  case link =>
    obtain ⟨t, he, hm, hr, hd⟩ := exec_portLinkDown port s
    refine ⟨t, he, hm, ?_, ?_, fun k hk => ?_⟩
    · rw [hr, bits_portRole_cleared, if_pos rfl]
    · simp [hd, port.isLt]
    · rw [hr, bits_portRole_cleared, if_neg hk]
  case module =>
    obtain ⟨hm, he⟩ := moduleError_empties n therm
    exact ⟨_, rfl, rfl, rfl, rfl, hm, fun p hp hs => ⟨(he p hp hs).state, (he p hp hs).crews, (he p hp hs).works⟩⟩
  case corrected => exact exec_patrolRead_corrected hp
  case patrol => exact ⟨_, exec_patrolRead_uncorrectable hp, rfl, (poisons_postError ..).memory⟩
  case clean =>
    change execL2Writeback line bad s = _
    simp only [execL2Writeback, h, hd, Bool.not_false, if_true]
  case dirty =>
    obtain ⟨ht, hb⟩ := foldl_charge x.blocks { s with l2 := cleanedLines s x }
    refine ⟨_, exec_l2Writeback h hd hw, ?_⟩
    generalize x.blocks.foldl (fun s b => s.charge (some b) 128) { s with l2 := cleanedLines s x } = t at ht hb
    have hp : Poisons t (if bad = 0 then t else t.sectorError (cleanLine x) bad 2 0 x.owner) := by
      split
      · exact .refl t
      · exact poisons_sectorError ..
    have hl : t.l2 = cleanedLines s x := by rw [ht]
    refine ⟨?_, sameMemory_trans (by rw [ht]; exact ⟨rfl, rfl⟩) hp.memory, fun hz => ?_, fun k hk => ?_⟩
    · have hl' : (if bad = 0 then t else t.sectorError (cleanLine x) bad 2 0 x.owner).l2 = cleanedLines s x := by rw [hp.fields, hl]
      rw [hl']
      exact l2Line_cleaned h
    · rw [if_pos hz]
      exact ⟨by rw [hl]; exact ht, hb⟩
    · have hz : bad ≠ 0 := by
        rintro rfl
        simp [L2Line.poisoned] at hk
      rw [if_neg hz]
      exact memPoisoned_sectorError t (cleanLine x) bad 2 0 x.owner hk

end Sys2Proof.Laws
end

section
/-! SUPPORT. The SYS group (R148, R211 to R213, R333, R340): what each register reads and what a write of it keeps. -/

namespace Sys2Proof.Laws

open Sys2Proof.Machine Sys2Proof.Safety

/-! ## Fields of a word -/

/-- A word put together of three fields of 2, 1 and 29 bits. -/
theorem getLsbD_fields (x : BitVec 2) (b : Bool) (y : BitVec 29) (i : Nat) : (x ++ BitVec.ofBool b ++ y).getLsbD i =
    if i < 29 then y.getLsbD i else if i = 29 then b else x.getLsbD (i - 30) := by
  rw [BitVec.getLsbD_append, BitVec.getLsbD_append]
  split
  · rfl
  · split
    next h1 h2 => simp [show i = 29 by omega]
    next h1 h2 => rw [if_neg (show i ≠ 29 by omega), show i - 29 - 1 = i - 30 by omega]

/-- The bit of DROPPED alone is set in its mask. -/
theorem getLsbD_dropped (i : Nat) : (0x20000000 : Word).getLsbD i = decide (i = 29) := by
  rw [show (0x20000000 : Word) = 1#32 <<< 29 from rfl, BitVec.getLsbD_shiftLeft, BitVec.getLsbD_one]
  by_cases h : i = 29
  · simp [h]
  · simp only [h, decide_false]
    by_cases h29 : i < 29
    · simp [h29]
    · simp [show ¬i - 29 = 0 by omega]

/-- TRAP_CAUSE reads as it stands, but for the flag of the cluster (R333). -/
theorem trapCauseOf_eq (s : State) (w : Wave) (c : Crew) : s.trapCauseOf w c =
    w.trapCause.extractLsb' 30 2 ++ BitVec.ofBool (s.buffer c.clusterNo).dropped ++ w.trapCause.extractLsb' 0 29 := by
  refine BitVec.eq_of_getLsbD_eq fun i hi => ?_
  have hd : ((if (s.buffer c.clusterNo).dropped then 0x20000000 else 0 : Word)).getLsbD i =
      (decide (i = 29) && (s.buffer c.clusterNo).dropped) := by
    split
    next h => rw [getLsbD_dropped, h, Bool.and_true]
    next h => simp [h]
  rw [getLsbD_fields, State.trapCauseOf, BitVec.getLsbD_or, hd, BitVec.getLsbD_and, BitVec.getLsbD_not, getLsbD_dropped]
  simp only [hi, BitVec.getLsbD_extractLsb']
  split
  next h => simp [h, show i ≠ 29 by omega]
  next h =>
    split
    next he => simp [he]
    next he => simp [he, show 30 + (i - 30) = i by omega, show i - 30 < 2 by omega]

/-- A write of TRAP_CAUSE changes ACT alone (R333). -/
theorem writeAct_trapCause (x v : Word) : (x &&& 0x3FFFFFFF) ||| (v &&& 0xC0000000) = v.extractLsb' 30 2 ++ x.extractLsb' 0 30 := by
  have hm (i : Nat) : (0x3FFFFFFF : Word).getLsbD i = decide (i < 30) := by
    rw [show (0x3FFFFFFF : Word) = (BitVec.allOnes 30).setWidth 32 from rfl, BitVec.getLsbD_setWidth, BitVec.getLsbD_allOnes]
    by_cases h : i < 30
    · simp [h]; omega
    · simp [h]
  refine BitVec.eq_of_getLsbD_eq fun i hi => ?_
  rw [show (0xC0000000 : Word) = ~~~0x3FFFFFFF from rfl, BitVec.getLsbD_append]
  simp only [BitVec.getLsbD_or, BitVec.getLsbD_and, BitVec.getLsbD_not, hm, hi, BitVec.getLsbD_extractLsb', decide_true, Bool.true_and]
  split
  next h => simp [h]
  next h => simp [h, show 30 + (i - 30) = i by omega, show i - 30 < 2 by omega]

/-! ## What GSYS reads -/

/-- A register of one word. -/
theorem sysRead_word : ∀ r ∈ systemWords, isTimer r.1 = false ∧ ∀ (s : State) (w : Wave) (c : Crew), s.sysRead w c r.1 = (r.2 s w c, w, s) := by
  have mode (s : State) (w : Wave) (c : Crew) : s.sysRead w c 0x011 =
      ((0 : BitVec 30) ++ BitVec.ofBool (s.part c.part).woad ++ BitVec.ofBool w.sup, w, s) := by
    have h : ∀ a b : Bool, ((if a then 1 else 0 : Word) ||| if b then 2 else 0) = (0 : BitVec 30) ++ BitVec.ofBool b ++ BitVec.ofBool a := by decide
    exact congrArg (·, w, s) (h w.sup (s.part c.part).woad)
  have cause (s : State) (w : Wave) (c : Crew) : s.sysRead w c 0x020 = (w.trapCause.extractLsb' 30 2 ++
      BitVec.ofBool (s.buffer c.clusterNo).dropped ++ w.trapCause.extractLsb' 0 29, w, s) := congrArg (·, w, s) (trapCauseOf_eq s w c)
  simp only [systemWords, List.forall_mem_cons, List.not_mem_nil, false_implies, implies_true, and_true]
  refine ⟨?_, ?_, ?_, ?_, ?_, ?_, ?_, ⟨rfl, mode⟩, ?_, ⟨rfl, cause⟩, ?_, ?_, ?_⟩
  all_goals exact ⟨rfl, fun _ _ _ => rfl⟩

/-- The two words of a register of 64 bits. -/
theorem sysRead_pair : ∀ r ∈ systemPairs, isTimer r.1 = false ∧ isTimer (r.1 + 1) = false ∧ ∀ (s : State) (w : Wave) (c : Crew),
    s.sysRead w c r.1 = ((r.2 w c).extractLsb' 0 32, w, s) ∧ s.sysRead w c (r.1 + 1) = ((r.2 w c).extractLsb' 32 32, w, s) := by
  simp only [systemPairs, List.forall_mem_cons, List.not_mem_nil, false_implies, implies_true, and_true]
  refine ⟨?_, ?_, ?_, ?_, ?_, ?_, ?_, ?_, ?_, ?_, ?_, ?_⟩
  all_goals exact ⟨rfl, rfl, fun _ _ _ => ⟨rfl, rfl⟩⟩

/-- A register marked L: its latch, and its value (R148, R150). -/
theorem latched_eq : ∀ r ∈ latchedPairs, r.1 % 2 = 0 ∧ latchOf r.1 = some r.2.1 ∧
    ∀ (s : State) (w : Wave) (c : Crew), s.latched w c r.2.1 = (r.2.2 s w c, s) := by
  have moved (s : State) (w : Wave) (c : Crew) : s.latched w c 3 =
      (BitVec.ofNat 64 (((s.block? c.id w.ref.rank).map fun b => b.dramBytes).getD 0), s) := by
    simp only [State.latched, State.perf]
    cases s.block? c.id w.ref.rank <;> rfl
  have partly (s : State) (w : Wave) (c : Crew) : s.latched w c 6 =
      (BitVec.ofNat 64 (((s.l2.filter fun x => x.home == c.clusterNo).filter fun x => x.sectors != 4).length), s) := by
    simp only [List.filter_filter, State.latched, State.perf, Bool.and_comm]
  simp only [latchedPairs, List.forall_mem_cons, List.not_mem_nil, false_implies, implies_true, and_true]
  refine ⟨?_, ?_, ?_, ⟨trivial, rfl, moved⟩, ?_, ?_, ⟨trivial, rfl, partly⟩⟩
  all_goals exact ⟨trivial, rfl, fun _ _ _ => rfl⟩

/-- A register marked L, whose low word loads the latch that its high word returns (R148). -/
theorem sysRead_latched {r : Nat × Nat × (State → Wave → Crew → BitVec 64)} (hr : r ∈ latchedPairs) (s : State) (w : Wave) (c : Crew) :
    s.sysRead w c r.1 = ((r.2.2 s w c).extractLsb' 0 32, { w with latches := setAt w.latches r.2.1 ((r.2.2 s w c).extractLsb' 32 32) }, s) ∧
      s.sysRead w c (r.1 + 1) = (w.latches.getD r.2.1 0, w, s) := by
  obtain ⟨heven, hof, hval⟩ := latched_eq r hr
  have hodd : (r.1 + 1) % 2 ≠ 0 := by omega
  simp only [State.sysRead, show r.1 / 2 * 2 = r.1 by omega, show (r.1 + 1) / 2 * 2 = r.1 by omega, hof, heven, hodd, hval, if_true, if_false]
  exact ⟨rfl, trivial⟩

section
variable {o : Opnd} {s : State} {c : Issue}

/-- A permitted GSYS gives what it reads, where the log of a partition in rounds has no part in it. -/
theorem exec_gsys {n : Nat} {x : Word} {w : Wave} (h : Ready s c (.gsys o)) (hn : o.ext.imm.toNat % 4096 = n)
    (hp : supervisorOnly n = false ∨ c.wave.sup = true) (hr : s.sysRead c.wave c.crew n = (x, w, s))
    (ht : (s.part c.crew.part).woad = false ∨ isTimer n = false ∨ n % 2 = 1) :
    exec (.gsys o) s = .next (s.retire c (.gsys o) (w.writeG c.gang.slices o.d.toNat x)) := by
  have hneeds : NeedsMet { denied := supervisorOnly (o.ext.imm.toNat % 4096) && !c.wave.sup } c.wave :=
    ⟨nofun, nofun, by rcases hp with hp | hp <;> simp [hn, hp], rfl, rfl, rfl⟩
  have hlog : ((s.part c.crew.part).woad && isTimer n && decide (n % 2 = 0)) = false := by
    rcases ht with ht | ht | ht <;> simp [ht]
  refine (issue_of_ready h hneeds).trans ?_
  simp only [hn, hr, hlog, Bool.false_eq_true, if_false]

/-! ## What SSYS writes -/

/-- What a write of each register changes. -/
theorem sysWrite_eq : ∀ r ∈ systemWrites, ∀ (w : Wave) (v : Word), w.sysWrite r.1 v = r.2 w v := by
  have act (w : Wave) (v : Word) : w.sysWrite 0x020 v = { w with trapCause := v.extractLsb' 30 2 ++ w.trapCause.extractLsb' 0 30 } :=
    congrArg (fun x => { w with trapCause := x }) (writeAct_trapCause w.trapCause v)
  simp only [systemWrites, List.forall_mem_cons, List.not_mem_nil, false_implies, implies_true, and_true]
  refine ⟨?_, ?_, ?_, ?_, ?_, ?_, act, ?_, ?_, ?_, ?_, ?_, ?_, ?_⟩
  all_goals exact fun _ _ => rfl

/-- Beside FP_CTRL, a supervisor may write them all. -/
theorem systemWrites_permitted : ∀ n ∈ systemWrites.map Prod.fst, (decide (n = 0x010) || supervisorOnly n || supervisorWritten n) = true := by
  decide

/-- A permitted SSYS writes its register. -/
theorem exec_ssys {r : Nat × (Wave → Word → Wave)} (h : Ready s c (.ssys o)) (hr : r ∈ systemWrites) (hn : o.ext.imm.toNat % 4096 = r.1)
    (hp : r.1 = 0x010 ∨ c.wave.sup = true) : exec (.ssys o) s = .next (s.retire c (.ssys o) (r.2 c.wave (c.wave.readG o.a.toNat))) := by
  have hok := systemWrites_permitted r.1 (List.mem_map_of_mem hr)
  have hneeds : NeedsMet { denied := !(decide (o.ext.imm.toNat % 4096 = 0x010) || (c.wave.sup &&
      (supervisorOnly (o.ext.imm.toNat % 4096) || supervisorWritten (o.ext.imm.toNat % 4096)))) } c.wave := by
    refine ⟨nofun, nofun, ?_, rfl, rfl, rfl⟩
    rw [hn]
    rcases hp with hp | hp
    · simp [hp]
    · rw [Bool.or_assoc] at hok
      rw [hp, Bool.true_and, hok, Bool.not_true]
  refine (issue_of_ready h hneeds).trans ?_
  rw [hn, sysWrite_eq r hr]

/-- An instruction of the handler alone, in the handler, has its own effect (R361). -/
theorem issue_in_handler {i : Instr} {body : Issue → State} (h : Ready s c i) (hs : c.wave.sup = true) :
    issue i (fun _ => { privileged := true }) s body = .next (body c) :=
  issue_of_ready h ⟨fun _ => hs, nofun, rfl, rfl, rfl, rfl⟩

end

/-- Settles O31: GSYS reads, and SSYS writes, what the tables of R148 say, register by register; the others are themselves. -/
theorem systemRegisterInstructions : Obligations.SystemRegisterInstructions := by
  refine ⟨fun o s c h hp => ⟨fun r hr hn => ?_, fun r hr => ⟨fun hn => ?_, fun hn => ?_⟩, fun r hr => ⟨fun hw hn => ?_, fun hn => ?_⟩⟩,
    fun o s c h r hr hn hp => exec_ssys h hr hn (hn ▸ hp), fun o s c h hs => issue_in_handler h hs, fun o s c h hs hr => ?_, fun o s c h hs => issue_in_handler h hs⟩
  · obtain ⟨ht, hv⟩ := sysRead_word r hr
    exact exec_gsys h hn (hn ▸ hp) (hv s c.wave c.crew) (.inr (.inl ht))
  · obtain ⟨ht, -, hv⟩ := sysRead_pair r hr
    exact exec_gsys h hn (hn ▸ hp) (hv s c.wave c.crew).1 (.inr (.inl ht))
  · obtain ⟨-, ht, hv⟩ := sysRead_pair r hr
    exact exec_gsys h hn (hn ▸ hp) (hv s c.wave c.crew).2 (.inr (.inl ht))
  · refine exec_gsys h hn (hn ▸ hp) (sysRead_latched hr s c.wave c.crew).1 (hw.imp_right fun he => .inl ?_)
    rw [he]; rfl
  · obtain ⟨heven, -, -⟩ := latched_eq r hr
    exact exec_gsys h hn (hn ▸ hp) (sysRead_latched hr s c.wave c.crew).2 (.inr (.inr (by omega)))
  · refine (issue_in_handler h hs).trans ?_
    simp only [hr, Bool.false_eq_true, if_false]

end Sys2Proof.Laws
end

section
/-! SUPPORT. MXM (R104, R133, R134, R247 to R250): the octets that act, and the elements of the tile that each replaces. -/

namespace Sys2Proof.Laws

open Sys2Proof.Machine Sys2Proof.Safety

/-! ## The elements of a tile -/

/-- A run of cells written one after another. -/
theorem cellGet_foldl_cellSet {β : Type} [DecidableEq β] {d : β} {c : List (Nat × β)} (hc : cellsWf d c = true) (base : Nat) (f : Nat → β) :
    ∀ n : Nat, let e := (List.range n).foldl (fun a k => cellSet d a (base + k) (f k)) c
      cellsWf d e = true ∧ ∀ key, cellGet d e key = if base ≤ key ∧ key < base + n then f (key - base) else cellGet d c key
  | 0 => ⟨hc, fun key => (if_neg (by omega)).symm⟩
  | n + 1 => by
    obtain ⟨hw, hg⟩ := cellGet_foldl_cellSet hc base f n
    simp only [List.range_succ, List.foldl_append, List.foldl_cons, List.foldl_nil]
    refine ⟨cellSet_wf hw, fun key => ?_⟩
    rw [cellGet_cellSet hw]
    by_cases hk : key = base + n
    · rw [if_pos hk, if_pos (by omega), hk, Nat.add_sub_cancel_left]
    · rw [if_neg hk, hg]
      exact if_congr (by omega) rfl rfl

/-- A tile that is replaced: its own elements are the new ones, and those of every other tile stand. -/
theorem accAt_putTileAcc {b : Block} (h : cellsWf 0 b.acc = true) (t0 : Nat) (f : Nat → Nat → Word) (t : Nat) {i j : Nat} (hi : i < 8) (hj : j < 32) :
    (b.putTileAcc t0 f).accAt t i j = if t = t0 then f i j else b.accAt t i j := by
  obtain ⟨-, hg⟩ := cellGet_foldl_cellSet h (256 * t0) (fun k => f (k / 32) (k % 32)) 256
  rw [Block.accAt, Block.putTileAcc, hg]
  by_cases ht : t = t0
  · rw [if_pos ht, if_pos (by omega)]
    congr 1 <;> omega
  · rw [if_neg ht, if_neg (by omega)]
    rfl

theorem putTileAcc_eq (b : Block) (t : Nat) (f : Nat → Nat → Word) : b.putTileAcc t f = { b with acc := (b.putTileAcc t f).acc } := by
  rw [Block.putTileAcc]

/-- A place of a list that is built place by place. -/
theorem getD_map_range {α : Type} {d : α} (f : Nat → α) {n k : Nat} (h : k < n) : ((List.range n).map f).getD k d = f k := by
  simp [List.getD, h]

/-! ## The tile of an octet -/

section
variable {s : State} {c : Issue} {fmts : BitVec 6} {o : Opnd} {b : Block} {oc : Nat} {ps : List Panel}

/-- Panel n of those that a leader names. -/
def panelAt (ps : List Panel) (n : Nat) : Panel := ps.getD n { loc := 0, rows := 0, pitch := 0, bytes := 0 }

/-- The value that an element is accumulated on: 0 where ZERO is set (R247). -/
def accBefore (b : Block) (x : Ext) (oc i j : Nat) : Word := if x.mod.getLsbD 0 then 0 else b.accAt (tileIndex x oc) i j

/-- The values of a row of a panel, under its scales (R248). -/
def rowValues (s : State) (c : Issue) (k f : Nat) (scaled : Bool) (d side : Panel) (i : Nat) : List FVal :=
  (List.range k).map (mxmElement f scaled (s.panelRow c d i) (if scaled then s.panelRow c side i else []))

/-- The tile of an s8 MXM (R134). -/
theorem mxmTile_of_s8 (h : mxmA fmts = 5) : s.mxmTile c fmts o b oc ps = b.putTileAcc (tileIndex o.ext oc) fun i j =>
    accumulateS8 (accBefore b o.ext oc i j) (((List.range 8).map fun i => s.panelRow c (panelAt ps 0) i).getD i [])
      (((List.range 32).map fun j => s.panelRow c (panelAt ps 1) j).getD j []) := by
  rw [State.mxmTile, if_pos h]
  rfl

/-- The tile of an MXM of any other format (R133). -/
theorem mxmTile_of_float (h : mxmA fmts ≠ 5) : s.mxmTile c fmts o b oc ps = b.putTileAcc (tileIndex o.ext oc) fun i j =>
    accumulate (accBefore b o.ext oc i j)
      (((List.range 8).map (rowValues s c (mxmDepth fmts o.ext) (mxmA fmts) (mxmScaleA fmts o.ext) (panelAt ps 0) (panelAt ps 2))).getD i [])
      (((List.range 32).map (rowValues s c (mxmDepth fmts o.ext) (mxmB fmts) (mxmScaleB fmts o.ext) (panelAt ps 1)
        (panelAt ps (if mxmScaleA fmts o.ext then 3 else 2)))).getD j []) := by
  rw [State.mxmTile, if_neg h]
  rfl

/-- An MXM changes nothing of its block but accumulator elements. -/
theorem mxmTile_eq : s.mxmTile c fmts o b oc ps = { b with acc := (s.mxmTile c fmts o b oc ps).acc } := by
  by_cases h : mxmA fmts = 5
  · rw [mxmTile_of_s8 h]
    exact putTileAcc_eq ..
  · rw [mxmTile_of_float h]
    exact putTileAcc_eq ..

variable (hw : cellsWf 0 b.acc = true) {i j : Nat} (hi : i < 8) (hj : j < 32)
include hw hi hj

theorem accAt_mxmTile_ne {t : Nat} (ht : t ≠ tileIndex o.ext oc) : (s.mxmTile c fmts o b oc ps).accAt t i j = b.accAt t i j := by
  by_cases h : mxmA fmts = 5
  · rw [mxmTile_of_s8 h, accAt_putTileAcc hw _ _ _ hi hj, if_neg ht]
  · rw [mxmTile_of_float h, accAt_putTileAcc hw _ _ _ hi hj, if_neg ht]

theorem accAt_mxmTile_s8 (h : mxmA fmts = 5) : (s.mxmTile c fmts o b oc ps).accAt (tileIndex o.ext oc) i j =
    accumulateS8 (accBefore b o.ext oc i j) (s.panelRow c (panelAt ps 0) i) (s.panelRow c (panelAt ps 1) j) := by
  rw [mxmTile_of_s8 h, accAt_putTileAcc hw _ _ _ hi hj, if_pos rfl, getD_map_range _ hi, getD_map_range _ hj]

theorem accAt_mxmTile_float (h : mxmA fmts ≠ 5) : (s.mxmTile c fmts o b oc ps).accAt (tileIndex o.ext oc) i j =
    accumulate (accBefore b o.ext oc i j)
      (rowValues s c (mxmDepth fmts o.ext) (mxmA fmts) (mxmScaleA fmts o.ext) (panelAt ps 0) (panelAt ps 2) i)
      (rowValues s c (mxmDepth fmts o.ext) (mxmB fmts) (mxmScaleB fmts o.ext) (panelAt ps 1)
        (panelAt ps (if mxmScaleA fmts o.ext then 3 else 2)) j) := by
  rw [mxmTile_of_float h, accAt_putTileAcc hw _ _ _ hi hj, if_pos rfl, getD_map_range _ hi, getD_map_range _ hj]

end

/-! ## The instruction -/

/-- An octet-wide matrix instruction whose octets' tiles are held has its own effect (R142). -/
theorem tiled_of_held {i : Instr} {o : Opnd} {s : State} {c : Issue} {b : Block} {k : Issue → Block → List Nat → State} (h : Ready s c i)
    (hb : s.accBlock? c.crew c.wave = some b) (ht : badTiles b o.ext (c.octets o.ext) = []) :
    tiled i o s k = .next (k c b (c.octets o.ext)) := by
  refine (issue_plain h).trans ?_
  simp only [hb, ht]

section
variable {fmts : BitVec 6} {o : Opnd} {s : State} {c : Issue} {b : Block}

/-- The work of an MXM: each octet that acts, with its panels (R247). -/
def mxmWork (c : Issue) (fmts : BitVec 6) (o : Opnd) : List (Nat × List Panel) :=
  (c.octets o.ext).map fun oc => (oc, mxmPanels c.wave fmts o (8 * oc))

/-- One octet's tile is replaced. -/
def mxmOctet (c : Issue) (fmts : BitVec 6) (o : Opnd) (s : State) (x : Nat × List Panel) : State :=
  match s.accBlock? c.crew c.wave with
  | none => s
  | some b => s.putBlock (s.mxmTile c fmts o b x.1 x.2)

variable (h : Ready s c (.mxm fmts o)) (hb : s.accBlock? c.crew c.wave = some b) (ht : badTiles b o.ext (c.octets o.ext) = [])
  (hf : ∀ oc ∈ c.octets o.ext, ∀ p ∈ mxmPanels c.wave fmts o (8 * oc), s.panelFault c p = none)

include hf in
/-- Where every panel may be read, none is reported. -/
theorem panelFaults_nil : ((mxmWork c fmts o).flatMap fun x => x.2.filterMap fun p => (s.panelFault c p).map fun f => (x.1, p, f)) = [] := by
  simp only [mxmWork, List.flatMap_eq_nil_iff, List.mem_map, List.filterMap_eq_nil_iff]
  rintro _ ⟨oc, hoc, rfl⟩ p hp
  rw [hf oc hoc p hp]
  rfl

include h hb ht hf

/-- An MXM waits for an acquire that is held (R104, R344). -/
theorem exec_mxm_waits (hs : c.wave.sup = false) (hm : s.mustWait c.wave.ref false false = true) :
    exec (.mxm fmts o) s = .next (s.putWave (c.wave.park c.gang .held)) := by
  have hbad := panelFaults_nil hf
  refine (show exec (.mxm fmts o) s = execMxm fmts o s from rfl).trans ((tiled_of_held h hb ht).trans ?_)
  rw [mxmWork] at hbad
  simp only [hbad, hs, hm, List.isEmpty_nil, Bool.not_true, Bool.false_eq_true, if_false, Bool.not_false, Bool.and_self, if_true]

/-- Else, with no poison among its panels, it replaces its tiles and goes on. -/
theorem exec_mxm (hm : c.wave.sup = true ∨ s.mustWait c.wave.ref false false = false)
    (hp : ∀ oc ∈ c.octets o.ext, ∀ p ∈ mxmPanels c.wave fmts o (8 * oc), s.panelPoison c p = none) :
    exec (.mxm fmts o) s = .next (((mxmWork c fmts o).foldl (mxmOctet c fmts o) s).retire c (.mxm fmts o) c.wave) := by
  have hbad := panelFaults_nil hf
  have hwait : (!c.wave.sup && s.mustWait c.wave.ref false false) = false := by rcases hm with hm | hm <;> simp [hm]
  have hlost : ((mxmWork c fmts o).filterMap fun x => (x.2.filterMap (s.panelPoison c)).head?.map fun a => (x.1, a)) = [] := by
    simp only [mxmWork, List.filterMap_eq_nil_iff, List.mem_map]
    rintro _ ⟨oc, hoc, rfl⟩
    rw [List.filterMap_eq_nil_iff.mpr (hp oc hoc)]
    rfl
  refine (show exec (.mxm fmts o) s = execMxm fmts o s from rfl).trans ((tiled_of_held h hb ht).trans ?_)
  rw [mxmWork] at hbad hlost
  simp only [hbad, hwait, hlost, List.isEmpty_nil, Bool.not_true, Bool.false_eq_true, if_false, List.any_nil, List.map_nil, raiseLanes_nil]
  rfl

end

/-- Settles O42: the octets' tiles are replaced one after another, and the elements of each are those of its rows. -/
theorem matrixProducts : Obligations.MatrixProducts := by
  refine ⟨fun fmts o s c b h hb ht hf => ⟨exec_mxm_waits h hb ht hf, fun hm hp => ?_⟩, fun fmts o s c b oc ps t i j hw hi hj =>
    ⟨mxmTile_eq, accAt_mxmTile_ne hw hi hj, ?_, ?_⟩⟩
  · rw [exec_mxm h hb ht hf hm hp, mxmWork, List.foldl_map]
    rfl
  · rintro rfl hs
    exact accAt_mxmTile_s8 hw hi hj hs
  · rintro rfl hs
    exact accAt_mxmTile_float hw hi hj hs

end Sys2Proof.Laws
end

section
/-! SUPPORT. WAIT (R199 to R203): what one observation of its conditions sees, and what it leaves. -/

namespace Sys2Proof.Laws

open Sys2Proof.Machine Sys2Proof.Safety

/-! ## What any observation leaves: whether the partition is in Woad mode, and no new line in an L1 -/

/-- From s to t the partition stays in Woad mode or out of it, and no line enters an L1. -/
structure Observes (p : Nat) (s t : State) : Prop where
  woad : (t.part p).woad = (s.part p).woad
  l1 : ∀ y ∈ t.l1, y ∈ s.l1

namespace Observes

variable {p : Nat} {s t u : State}

theorem of_eq (hp : t.parts = s.parts) (hl : t.l1 = s.l1) : Observes p s t := ⟨by simp only [State.part, hp], fun _ h => hl ▸ h⟩

theorem refl (s : State) : Observes p s s := of_eq rfl rfl

theorem trans (h : Observes p s t) (k : Observes p t u) : Observes p s u := ⟨k.woad.trans h.woad, fun y hy => h.l1 y (k.l1 y hy)⟩

theorem foldl {α : Type} {f : State → α → State} (hf : ∀ s a, Observes p s (f s a)) (l : List α) (s : State) :
    Observes p s (l.foldl f s) :=
  l.foldlRecOn f (refl s) fun _ h a _ => h.trans (hf _ a)

end Observes

theorem observes_dropL1 (p : Nat) (s : State) (core : Nat) : Observes p s (s.dropL1 core) :=
  ⟨rfl, fun _ hy => List.mem_of_mem_filter hy⟩

theorem observes_freeBytes (p n : Nat) (s : State) : Observes p s (s.freeBytes n).2 := by
  induction n generalizing s with
  | zero => exact .refl s
  | succ n ih => exact Observes.trans (t := s.freeWord.2) (.of_eq rfl rfl) (ih s.freeWord.2)

theorem observes_blur (p : Nat) (s : State) (fs : List Footprint) (key : Nat) (bs : List Byte) : Observes p s (s.blur fs key bs).2 := by
  unfold State.blur
  split
  · exact .refl s
  · exact observes_freeBytes ..

theorem observes_smear (p : Nat) (s : State) (fs : List Footprint) (pt place key size : Nat) :
    Observes p s (s.smear fs pt place key size) := by
  refine Observes.foldl (fun s k => ?_) _ s
  have h := observes_freeBytes p 1 s
  split
  next b t hb =>
    rw [hb] at h
    split
    · split
      · exact h.trans (.of_eq rfl rfl)
      · exact h
    · exact h.trans (.of_eq rfl rfl)

theorem observes_noteStrong (p : Nat) (s : State) (pt place key size : Nat) (write : Bool) :
    Observes p s (s.noteStrong pt place key size write) := by
  have htag : Observes p s (s.setTag pt place key size write) := by
    unfold State.setTag
    split
    · exact .refl s
    · exact .of_eq rfl rfl
  exact htag.trans (.of_eq rfl rfl)

theorem observes_condRead (p : Nat) (s : State) (b : Block) (off n : Nat) : Observes p s (s.condRead b off n).2 :=
  ((observes_blur ..).trans (observes_smear ..)).trans (observes_noteStrong ..)

/-- A partition's record is replaced by one with the same mode. -/
theorem observes_putPart {s : State} {p : Nat} {x : Partition} (hx : x.woad = (s.part p).woad) : Observes p s (s.putPart x) := by
  refine ⟨?_, fun _ h => h⟩
  by_cases hn : p = x.num
  · by_cases hl : x.num < s.parts.length
    · rw [State.part, State.putPart, hn, getD_setAt_same hl, hx, hn]
    · rw [State.part, State.putPart, setAt_eq_self (Nat.le_of_not_lt hl)]
      rfl
  · rw [State.part, State.putPart, getD_setAt_ne hn]
    rfl

theorem observes_logEntry (s : State) (p type : Nat) (ws : List Nat) : Observes p s (s.logEntry p type ws) := by
  unfold State.logEntry
  extract_lets x
  split
  · exact observes_putPart rfl
  · exact .refl s

theorem observes_woadRead (s : State) (p type : Nat) (ws v : List Nat) : Observes p s (s.woadRead p type ws v).2 := by
  unfold State.woadRead
  extract_lets x mine
  split
  · exact observes_logEntry ..
  · split
    · split
      · exact observes_logEntry ..
      · exact observes_putPart rfl
    · exact .refl s

/-- An observation makes one strong read, reads the clock, or changes nothing. -/
theorem observeOne_state (s : State) (w : Wave) (c : Crew) (k : Condition) :
    (s.observeOne w c k).2 = s ∨ (1 ≤ k.kind ∧ k.kind ≤ 4 ∧ ∃ b off n, (s.observeOne w c k).2 = (s.condRead b off n).2) ∨
      (k.kind = 6 ∧ (s.observeOne w c k).2 = (s.condClock w c).2) := by
  unfold State.observeOne
  extract_lets own
  have hown {f : Block → (Bool × Bool) × State} (hf : ∀ b, ∃ off n, (f b).2 = (s.condRead b off n).2) :
      (own f).2 = s ∨ ∃ b off n, (own f).2 = (s.condRead b off n).2 := by
    simp only [own]
    split
    next b _ => exact .inr ⟨b, hf b⟩
    · exact .inl rfl
  split
  next hk =>
    split
    next b _ => exact .inr (.inl ⟨by omega, by omega, b, _, _, rfl⟩)
    · exact .inl rfl
  next hk =>
    split
    next b _ => exact .inr (.inl ⟨by omega, by omega, b, _, _, rfl⟩)
    · exact .inl rfl
  next hk => exact (hown fun b => ⟨_, _, rfl⟩).imp_right fun h => .inl ⟨by omega, by omega, h⟩
  next hk => exact (hown fun b => ⟨_, _, rfl⟩).imp_right fun h => .inl ⟨by omega, by omega, h⟩
  · exact .inl rfl
  next hk => exact .inr (.inr ⟨hk, rfl⟩)
  · exact .inl rfl
  · exact .inl rfl

theorem observes_observeOne (s : State) (w : Wave) (c : Crew) (k : Condition) : Observes c.part s (s.observeOne w c k).2 := by
  obtain h | ⟨-, -, b, off, n, h⟩ | ⟨-, h⟩ := observeOne_state s w c k <;> rw [h]
  · exact .refl s
  · exact observes_condRead ..
  · exact observes_woadRead ..

/-! ## The observation of one condition -/

theorem observeStep_skip {w : Wave} {c : Crew} {acc : WaitState × State} {k : Condition × Nat}
    (h : k.1.kind = 0 ∨ acc.1.seen.getLsbD k.2 = true) : observeStep w c acc k = acc :=
  if_pos (by simpa using h)

/-- One that is still to be seen: whether it holds decides what is seen, and whether it acquires. -/
theorem observeStep_look {w : Wave} {c : Crew} {acc : WaitState × State} {k : Condition × Nat}
    (hk : k.1.kind ≠ 0) (hs : acc.1.seen.getLsbD k.2 = false) :
    let y := acc.2.observeOne w c k.1
    observeStep w c acc k = if y.1.1 then
      ({ acc.1 with seen := acc.1.seen ||| (1#4 <<< k.2), pois := acc.1.pois || y.1.2 },
        if k.1.kind ≤ 4 then y.2.dropL1 (c.coreOf w.ref.rank) else y.2) else (acc.1, y.2) :=
  if_neg (by simp [hk, hs])

theorem getLsbD_or_bit {n : Nat} (hn : n < 4) (x : BitVec 4) (m : Nat) : (x ||| 1#4 <<< n).getLsbD m = (x.getLsbD m || decide (m = n)) := by
  simp only [BitVec.getLsbD_or, BitVec.getLsbD_shiftLeft, BitVec.getLsbD_one]
  congr 1
  by_cases h : m = n
  · simp [h, hn]
  · have : ¬(n ≤ m ∧ m - n = 0) := by omega
    simp [h]
    omega

/-- A step keeps the conditions and the mode of the WAIT. -/
theorem observeStep_conds (w : Wave) (c : Crew) (acc : WaitState × State) (k : Condition × Nat) :
    (observeStep w c acc k).1.conds = acc.1.conds ∧ (observeStep w c acc k).1.all = acc.1.all := by
  by_cases h : k.1.kind = 0 ∨ acc.1.seen.getLsbD k.2 = true
  · rw [observeStep_skip h]
    exact ⟨rfl, rfl⟩
  · obtain ⟨hk, hs⟩ := not_or.mp h
    rw [observeStep_look hk (Bool.eq_false_iff.mpr hs)]
    split <;> exact ⟨rfl, rfl⟩

theorem observe_conds (s : State) (w : Wave) (c : Crew) (x : WaitState) :
    (s.observe w c x).1.conds = x.conds ∧ (s.observe w c x).1.all = x.all := by
  rw [observe_eq]
  refine List.foldlRecOn (motive := fun y : WaitState × State => y.1.conds = x.conds ∧ y.1.all = x.all) _ _ ⟨rfl, rfl⟩ fun y ⟨hc, ha⟩ k _ => ?_
  obtain ⟨hc', ha'⟩ := observeStep_conds w c y k
  exact ⟨hc'.trans hc, ha'.trans ha⟩

theorem observes_observeStep (w : Wave) (c : Crew) (acc : WaitState × State) (k : Condition × Nat) :
    Observes c.part acc.2 (observeStep w c acc k).2 := by
  by_cases h : k.1.kind = 0 ∨ acc.1.seen.getLsbD k.2 = true
  · rw [observeStep_skip h]
    exact .refl _
  · obtain ⟨hk, hs⟩ := not_or.mp h
    rw [observeStep_look hk (Bool.eq_false_iff.mpr hs)]
    have hone := observes_observeOne acc.2 w c k.1
    split
    · dsimp only
      split
      · exact hone.trans (observes_dropL1 ..)
      · exact hone
    · exact hone

theorem observes_observe (s : State) (w : Wave) (c : Crew) (x : WaitState) : Observes c.part s (s.observe w c x).2 := by
  rw [observe_eq]
  refine List.foldlRecOn (motive := fun y : WaitState × State => Observes c.part s y.2) _ _ ?_ fun y h k _ => h.trans (observes_observeStep w c y k)
  exact .refl s

/-! ## Acquiring, and changing nothing -/

/-- Once a tile word, a gate or a queue has been seen, no line is left in the core's L1 (R89, R98). -/
def Acquired (w : Wave) (c : Crew) (ks : List Condition) (y : WaitState × State) : Prop :=
  ∀ n k, ks[n]? = some k → 1 ≤ k.kind → k.kind ≤ 4 → y.1.seen.getLsbD n = true → ∀ l ∈ y.2.l1, l.core ≠ c.coreOf w.ref.rank

theorem observeStep_acquired {w : Wave} {c : Crew} {ks : List Condition} {y : WaitState × State} {k : Condition × Nat}
    (hks : ks.length ≤ 4) (hk : ks[k.2]? = some k.1) (h : Acquired w c ks y) : Acquired w c ks (observeStep w c y k) := by
  by_cases hskip : k.1.kind = 0 ∨ y.1.seen.getLsbD k.2 = true
  · rw [observeStep_skip hskip]
    exact h
  obtain ⟨h0, hs⟩ := not_or.mp hskip
  intro n k' hk' h1 h4 hn l hl
  have hsub := (observes_observeStep w c y k).l1 l hl
  rw [observeStep_look h0 (Bool.eq_false_iff.mpr hs)] at hn hl
  split at hn
  next hold =>
    have hn4 : k.2 < 4 := (List.getElem?_eq_some_iff.mp hk).1.trans_le hks
    rw [if_pos hold] at hl
    rw [getLsbD_or_bit hn4, Bool.or_eq_true, decide_eq_true_eq] at hn
    obtain hn | rfl := hn
    · exact h n k' hk' h1 h4 hn l hsub
    · obtain rfl : k.1 = k' := Option.some.inj (hk.symm.trans hk')
      rw [if_pos h4] at hl
      simpa using (List.mem_filter.mp hl).2
  · exact h n k' hk' h1 h4 hn l hsub

theorem observe_acquired {s : State} {w : Wave} {c : Crew} {x : WaitState} (hx : x.conds.length ≤ 4) (h0 : x.seen = 0) :
    Acquired w c x.conds (s.observe w c x) := by
  rw [observe_eq]
  refine List.foldlRecOn (motive := Acquired w c x.conds) _ _ (fun n k _ _ _ hn => ?_) fun y h k hk => ?_
  · simp [h0] at hn
  · exact observeStep_acquired hx (List.mem_zipIdx_iff_getElem?.mp hk) h

/-- A WAIT.all that is met has seen each of its used conditions. -/
theorem seen_of_met {x : WaitState} (ha : x.all = true) (hm : x.met = true) {n : Nat} {k : Condition} (hk : x.conds[n]? = some k)
    (h0 : k.kind ≠ 0) : x.seen.getLsbD n = true := by
  simp only [WaitState.met, ha, if_true, Bool.and_eq_true] at hm
  exact List.all_eq_true.mp hm.2 (k, n) (List.mem_filter.mpr ⟨List.mem_zipIdx_iff_getElem?.mpr hk, by simpa using h0⟩)

theorem condClock_of_plain {s : State} {w : Wave} {c : Crew} (hw : (s.part c.part).woad = false) :
    s.condClock w c = (BitVec.ofNat 32 s.tick, s) := by
  have hrec : (s.part c.part).recording = false := by simp [Partition.recording, hw]
  have hrep : (s.part c.part).replays = false := by simp [Partition.replays, hw]
  simp only [State.condClock, State.woadRead, hrec, hrep, Bool.false_eq_true, if_false, List.headD_cons]

/-- Conditions on registers, events and, outside Woad mode, the clock are observed without a trace. -/
theorem observe_pure {s : State} {w : Wave} {c : Crew} {x : WaitState} (hr : ¬∃ k ∈ x.conds, 1 ≤ k.kind ∧ k.kind ≤ 4)
    (hc : (s.part c.part).woad = false ∨ ∀ k ∈ x.conds, k.kind ≠ 6) : (s.observe w c x).2 = s := by
  rw [observe_eq]
  refine List.foldlRecOn (motive := fun y : WaitState × State => y.2 = s) _ _ rfl fun y hy ⟨k, n⟩ hk => ?_
  have hmem : k ∈ x.conds := (List.mem_zipIdx' hk).2 ▸ List.getElem_mem _
  have hno : ¬(1 ≤ k.kind ∧ k.kind ≤ 4) := fun h => hr ⟨k, hmem, h⟩
  by_cases hskip : k.kind = 0 ∨ y.1.seen.getLsbD n = true
  · rw [observeStep_skip hskip, hy]
  obtain ⟨h0, hs⟩ := not_or.mp hskip
  have hone : (y.2.observeOne w c k).2 = s := by
    rw [hy]
    obtain h | ⟨h1, h4, -⟩ | ⟨h6, h⟩ := observeOne_state s w c k
    · exact h
    · exact absurd ⟨h1, h4⟩ hno
    · rw [h, condClock_of_plain (hc.resolve_right fun h => h k hmem h6)]
  rw [observeStep_look h0 (Bool.eq_false_iff.mpr hs)]
  have h4 : ¬k.kind ≤ 4 := by omega
  dsimp only
  split <;> exact hone

/-! ## What is seen where no strong write is remembered -/

/-- From s to t strong reads alone were made, with no strong write remembered: what they read stands. -/
structure StrongReadsOnly (s t : State) : Prop where
  rest : t = { s with mixTags := t.mixTags, strongs := t.strongs, l1 := t.l1 }
  read : ∀ f ∈ t.strongs, f.wrote = false

namespace StrongReadsOnly

variable {s t : State} (h : StrongReadsOnly s t)
include h

theorem tick : t.tick = s.tick := by rw [h.rest]

theorem part (p : Nat) : t.part p = s.part p := by rw [h.rest]; rfl

theorem block? (crew rank : Nat) : t.block? crew rank = s.block? crew rank := by rw [h.rest]; rfl

theorem condBlock (w : Wave) (c : Crew) (k : Condition) : t.condBlock w c k = s.condBlock w c k := by rw [h.rest]; rfl

theorem dropL1 (core : Nat) : StrongReadsOnly s (t.dropL1 core) := ⟨by rw [h.rest]; rfl, h.read⟩

theorem mixers (pt place key size : Nat) : t.mixers pt place key size false = [] :=
  List.filter_eq_nil_iff.mpr fun f hf => by simp [h.read f hf]

/-- A strong read finds what is there. -/
theorem condRead_fst (b : Block) (off n : Nat) : (t.condRead b off n).1 = leNat (b.bytes off n) := by
  simp only [State.condRead, State.strongRead, h.mixers, blur_nil]

theorem condRead_snd (b : Block) (off n : Nat) : StrongReadsOnly s (t.condRead b off n).2 := by
  simp only [State.condRead, State.strongRead, h.mixers, blur_nil, smear_nil]
  have htag (pt place key size : Nat) : StrongReadsOnly s (t.setTag pt place key size false) := by
    unfold State.setTag
    split
    · exact h
    · exact ⟨by rw [h.rest], h.read⟩
  have hnote : ∀ {u : State} (pt place key size : Nat), StrongReadsOnly s u → StrongReadsOnly s (u.noteFoot pt place key size false false) := by
    intro u pt place key size hu
    refine ⟨by rw [hu.rest]; rfl, fun f hf => ?_⟩
    simp only [State.noteFoot, Bool.false_eq_true, if_false, Bool.false_or, List.mem_cons] at hf
    obtain rfl | hf := hf
    · dsimp only
      split
      next old ho => exact hu.read old (List.mem_of_find?_eq_some ho)
      · rfl
    · exact hu.read f (List.mem_of_mem_filter hf)
  exact hnote _ _ _ _ (htag ..)

theorem observeOne_state (w : Wave) (c : Crew) (k : Condition) (hw : (s.part c.part).woad = false) :
    StrongReadsOnly s (t.observeOne w c k).2 := by
  obtain hs | ⟨-, -, b, off, n, hs⟩ | ⟨-, hs⟩ := Laws.observeOne_state t w c k <;> rw [hs]
  · exact h
  · exact h.condRead_snd ..
  · rw [condClock_of_plain (by rw [h.part]; exact hw)]
    exact h

end StrongReadsOnly

theorem condCompare_iff (op : Nat) (x v : Word) : condCompare op x v = true ↔
    (match op with
     | 0 => x = v
     | 1 => x ≠ v
     | 2 => x.toInt < v.toInt
     | 3 => v.toInt ≤ x.toInt
     | 4 => x.toNat < v.toNat
     | _ => v.toNat ≤ x.toNat) := by
  unfold condCompare
  split <;> simp [BitVec.slt, BitVec.sle, BitVec.lt_def, BitVec.le_def]

theorem not_msb_iff {n : Nat} (x : BitVec n) : (!x.msb) = true ↔ 0 ≤ x.toInt := by
  simp [BitVec.msb_eq_toInt]

theorem getLsbD_word (n : Nat) {i : Nat} (hi : i < 32) : (BitVec.ofNat 32 n).getLsbD i = decide (n / 2 ^ i % 2 = 1) := by
  rw [BitVec.getLsbD_ofNat, Nat.testBit_eq_decide_div_mod_eq, decide_eq_true hi, Bool.true_and]

theorem gate_poisoned_iff (g : Nat) : bits g 1 1 = 1 ↔ (BitVec.ofNat 32 g).getLsbD 1 = true := by
  rw [getLsbD_word g (by omega), decide_eq_true_eq, bits, Nat.add_sub_cancel, Nat.pow_one]

/-- A gate's PHASE is not the operand's, or its POISON is set. -/
theorem gate_holds_iff (g : Nat) (v : Word) : (g % 2 != v.toNat % 2 || decide (bits g 1 1 = 1)) = true ↔
    (BitVec.ofNat 32 g).getLsbD 0 ≠ v.getLsbD 0 ∨ (BitVec.ofNat 32 g).getLsbD 1 = true := by
  have hv : v.getLsbD 0 = decide (v.toNat % 2 = 1) := Nat.testBit_zero _
  rw [Bool.or_eq_true, decide_eq_true_eq, gate_poisoned_iff, bne_iff_ne, getLsbD_word g (i := 0) (by omega), hv, Nat.pow_zero, Nat.div_one,
    ne_eq, ne_eq, decide_eq_decide]
  refine or_congr_left (not_congr ?_)
  omega

theorem bits_low (n k : Nat) : bits n k 0 = n % 2 ^ (k + 1) := by simp [bits]

/-- Where no strong write is remembered, an observation tells whether the condition holds, and whether its gate is poisoned (R200). -/
theorem observeOne_holds {s t : State} {w : Wave} {c : Crew} {k : Condition} (h : StrongReadsOnly s t) (hw : (s.part c.part).woad = false)
    (h7 : k.kind = 7 → k.loc ≤ 65535) :
    ((t.observeOne w c k).1.1 = true ↔ Holds s w c k) ∧ ((t.observeOne w c k).1.2 = true ↔ GatePoisoned s w c k) := by
  have hgate : k.kind ≠ 2 → ¬GatePoisoned s w c k := fun hk hp => hk hp.1
  unfold State.observeOne
  extract_lets own
  split
  next hk =>
    refine ⟨?_, by split <;> simpa using hgate (by omega)⟩
    simp only [Holds, hk, h.condBlock]
    cases hb : s.condBlock w c k with
    | none => simp
    | some b =>
      simp only [h.condRead_fst, bits_low, Option.some.injEq, exists_eq_left']
      exact condCompare_iff ..
  next hk =>
    simp only [Holds, GatePoisoned, hk, h.condBlock]
    cases hb : s.condBlock w c k with
    | none => simp
    | some b =>
      simp only [h.condRead_fst, bits_low, Option.some.injEq, exists_eq_left', true_and]
      exact ⟨gate_holds_iff .., decide_eq_true_iff.trans (gate_poisoned_iff _)⟩
  next hk =>
    simp only [own, h.block?, Holds, hk]
    cases hb : s.block? c.id w.ref.rank with
    | none => simpa using hgate (by omega)
    | some b => simpa [h.condRead_fst, Block.queueCount, Block.queueWord, Block.word] using hgate (by omega)
  next hk =>
    simp only [own, h.block?, Holds, hk]
    cases hb : s.block? c.id w.ref.rank with
    | none => simpa using hgate (by omega)
    | some b => simpa [h.condRead_fst, Block.allowance] using hgate (by omega)
  next hk => exact ⟨by simp only [Holds, hk], by simpa using hgate (by omega)⟩
  next hk =>
    refine ⟨?_, by simpa using hgate (by omega)⟩
    rw [condClock_of_plain (by rw [h.part]; exact hw), h.tick]
    simpa only [Holds, hk] using not_msb_iff _
  next hk =>
    refine ⟨?_, by simpa using hgate (by omega)⟩
    rw [h.part, Nat.mod_eq_of_lt (by have := h7 hk; omega)]
    simpa only [Holds, hk, State.eventCount] using not_msb_iff _
  next h1 h2 h3 h4 h5 h6 h7 =>
    refine ⟨?_, by simpa using hgate h2⟩
    unfold Holds
    split <;> first | contradiction | simp

/-- What one step sees, where the condition is still to be seen. -/
theorem observeStep_sees {s : State} {w : Wave} {c : Crew} {y : WaitState × State} {k : Condition} {n : Nat} (h : StrongReadsOnly s y.2)
    (hw : (s.part c.part).woad = false) (h7 : k.kind = 7 → k.loc ≤ 65535) (hn : n < 4) (hs : y.1.seen.getLsbD n = false) :
    let z := observeStep w c y (k, n)
    StrongReadsOnly s z.2 ∧ (∀ m, z.1.seen.getLsbD m = true ↔ y.1.seen.getLsbD m = true ∨ m = n ∧ k.kind ≠ 0 ∧ Holds s w c k) ∧
      (z.1.pois = true ↔ y.1.pois = true ∨ GatePoisoned s w c k) := by
  by_cases h0 : k.kind = 0
  · rw [observeStep_skip (.inl h0)]
    exact ⟨h, fun m => by simp [h0], by simp [GatePoisoned, h0]⟩
  obtain ⟨hholds, hpois⟩ := observeOne_holds (w := w) h hw h7
  have hstate := h.observeOne_state w c k hw
  rw [observeStep_look h0 hs]
  dsimp only
  split
  next hy =>
    refine ⟨?_, fun m => ?_, ?_⟩
    · dsimp only
      split
      · exact hstate.dropL1 _
      · exact hstate
    · simp [getLsbD_or_bit hn, h0, hholds.mp hy]
    · simp [hpois]
  next hy =>
    have hno : ¬GatePoisoned s w c k := fun ⟨hk, b, hb, hp⟩ => hy (hholds.mpr (by
      simp only [Holds, hk]
      exact ⟨b, hb, .inr hp⟩))
    exact ⟨hstate, fun m => by simp [mt hholds.mpr hy], by simp [hno]⟩

/-- What an observation of conditions from the i-th on sees, with none of these seen before. -/
theorem foldl_observeStep_sees {s : State} {w : Wave} {c : Crew} (hw : (s.part c.part).woad = false) :
    ∀ (ks : List Condition) (i : Nat) (y : WaitState × State), (∀ k ∈ ks, k.kind = 7 → k.loc ≤ 65535) → i + ks.length ≤ 4 →
      (∀ m, i ≤ m → y.1.seen.getLsbD m = false) → StrongReadsOnly s y.2 →
      let z := (ks.zipIdx i).foldl (observeStep w c) y
      (∀ m k, ks[m]? = some k → (z.1.seen.getLsbD (i + m) = true ↔ k.kind ≠ 0 ∧ Holds s w c k)) ∧
        (∀ m, m < i → z.1.seen.getLsbD m = y.1.seen.getLsbD m) ∧
        (z.1.pois = true ↔ y.1.pois = true ∨ ∃ k ∈ ks, GatePoisoned s w c k)
  | [], _, _, _, _, _, _ => ⟨fun _ _ h => by simp at h, fun _ _ => rfl, by simp⟩
  | k :: ks, i, y, h7, hi, hy, h => by
    rw [List.length_cons] at hi
    obtain ⟨h1, hseen, hpois⟩ := observeStep_sees (w := w) (n := i) h hw (h7 k List.mem_cons_self) (by omega) (hy i le_rfl)
    obtain ⟨ih, ihlow, ihpois⟩ := foldl_observeStep_sees (w := w) hw ks (i + 1) (observeStep w c y (k, i)) (fun k hk => h7 k (List.mem_cons_of_mem _ hk))
      (by omega) (fun m hm => by simp [← Bool.not_eq_true, hseen, hy m (by omega), show m ≠ i by omega]) h1
    rw [List.zipIdx_cons, List.foldl_cons]
    refine ⟨fun m x hm => ?_, fun m hm => ?_, ?_⟩
    · cases m with
      | zero =>
        obtain rfl : k = x := by simpa using hm
        simp [ihlow i (Nat.lt_succ_self i), hseen, hy i le_rfl]
      | succ m =>
        rw [← ih m x (by simpa using hm), show i + (m + 1) = i + 1 + m by omega]
    · rw [ihlow m (by omega), Bool.eq_iff_iff, hseen]
      simp [show m ≠ i by omega]
    · rw [ihpois, hpois]
      simp [or_assoc]

theorem observe_sees {s : State} {w : Wave} {c : Crew} {x : WaitState} (hw : (s.part c.part).woad = false) (hf : ∀ f ∈ s.strongs, f.wrote = false)
    (h7 : ∀ k ∈ x.conds, k.kind = 7 → k.loc ≤ 65535) (hl : x.conds.length ≤ 4) (hs : x.seen = 0) (hp : x.pois = false) :
    (∀ n k, x.conds[n]? = some k → ((s.observe w c x).1.seen.getLsbD n = true ↔ k.kind ≠ 0 ∧ Holds s w c k)) ∧
      ((s.observe w c x).1.pois = true ↔ ∃ k ∈ x.conds, GatePoisoned s w c k) := by
  obtain ⟨hseen, -, hpois⟩ := foldl_observeStep_sees (w := w) hw x.conds 0 (x, s) h7 (by omega) (fun m _ => by simp [hs]) ⟨rfl, hf⟩
  rw [observe_eq]
  exact ⟨fun n k hk => by simpa using hseen n k hk, by simpa [hp] using hpois⟩

/-! ## The instruction -/

/-- The four conditions of a WAIT (R199). -/
def waitConditions (w : Wave) (o : Opnd) : List Condition :=
  (List.range 4).map fun k => { desc := w.readG (o.a.toNat + 2 * k), opnd := w.readG (o.a.toNat + 2 * k + 1) }

/-- The wave of a WAIT that is issued: its D is empty, and the deadline that pre-emption kept is taken. -/
def waitWave (c : Issue) (o : Opnd) : Wave :=
  { (c.wave.setEmpty .g o.d.toNat) with
    issued := c.wave.issued + 1, roundIssued := c.wave.roundIssued + 1
    gangs := c.wave.gangs.map fun g => if g.slices == c.gang.slices then { g with kept := none } else g }

/-- The WAIT before its first test. -/
def waitStart (s : State) (c : Issue) (all : Bool) (o : Opnd) : WaitState :=
  { all := all, conds := waitConditions c.wave o, seen := 0, pois := false, dst := o.d.toNat,
    deadline := match c.gang.kept with
      | some d => d
      | none => if c.wave.readG o.b.toNat = 0xFFFFFFFF then none else some (s.tick + (c.wave.readG o.b.toNat).toNat) }

theorem find_condBlock_none {s : State} {w : Wave} {c : Crew} {o : Opnd}
    (hblock : ∀ k ∈ waitConditions w o, k.kind = 1 ∨ k.kind = 2 → s.condBlock w c k ≠ none) :
    ((waitConditions w o).find? fun k => (k.kind == 1 || k.kind == 2) && (s.condBlock w c k).isNone) = none :=
  List.find?_eq_none.mpr fun k hk => by simpa using hblock k hk

theorem testWait_of_late {s : State} {w : Wave} {c : Crew} {g : Gang} {x : WaitState} (hm : (s.observe w c x).1.met = false) :
    s.testWait w c g x =
      if (s.observe w c x).1.expired s.tick = true ∧ (s.part c.part).woad = false then
        (s.observe w c x).2.putWave (w.endWait g (s.observe w c x).1 true)
      else (s.observe w c x).2.putWave (w.park g (.cond (s.observe w c x).1)) := by
  obtain ⟨-, -, hkeep⟩ := observe_keeps s w c x
  simp only [State.testWait, hm, Bool.false_eq_true, if_false, hkeep.tick, (observes_observe s w c x).woad, Bool.and_eq_true, Bool.not_eq_true']

section
variable {i : Instr} {all : Bool} {o : Opnd} {s : State} {c : Issue} {b : Block}
  (h : Ready s c i) (hb : s.block? c.crew.id c.wave.ref.rank = some b) (hbad : ∀ k ∈ waitConditions c.wave o, condBad c.wave b k = false)
include h hb hbad

theorem waitFor_eq : waitFor i all o s = .next
    (if (∀ k ∈ waitConditions c.wave o, k.kind = 0) ∧ c.wave.readG o.b.toNat = 0xFFFFFFFF then
      s.takeTrap c.wave (c.trap 0x0B 5 0 c.activeGroup)
    else match (waitConditions c.wave o).find? fun k => (k.kind == 1 || k.kind == 2) && (s.condBlock c.wave c.crew k).isNone with
      | some k => s.takeTrap c.wave (c.trap 0x06 0 (k.desc.setWidth 64) c.activeGroup)
      | none =>
        if (c.wave.sup = false ∧ ∃ k ∈ waitConditions c.wave o, 1 ≤ k.kind ∧ k.kind ≤ 4) ∧ s.mustWait c.wave.ref false false = true then
          s.putWave (c.wave.park c.gang .held)
        else s.testWait (waitWave c o) c.crew c.gang (waitStart s c all o)) := by
  have hfind : (waitConditions c.wave o).zipIdx.find? (fun k => condBad c.wave b k.1) = none :=
    List.find?_eq_none.mpr fun k hk => by simp [hbad k.1 ((List.mem_zipIdx' hk).2 ▸ List.getElem_mem _)]
  have hall : ((waitConditions c.wave o).all fun k => k.kind == 0) = true ↔ ∀ k ∈ waitConditions c.wave o, k.kind = 0 := by
    simp [List.all_eq_true]
  have hany : ((waitConditions c.wave o).any fun k => 1 ≤ k.kind && k.kind ≤ 4) = true ↔ ∃ k ∈ waitConditions c.wave o, 1 ≤ k.kind ∧ k.kind ≤ 4 := by
    simp [List.any_eq_true]
  unfold waitFor
  rw [issue_plain h]
  simp only [hb]
  rw [← waitConditions]
  simp only [hfind, Bool.and_eq_true, hall, hany, beq_iff_eq, Bool.not_eq_true']
  rfl

theorem waitFor_unused (h0 : ∀ k ∈ waitConditions c.wave o, k.kind = 0) (ht : c.wave.readG o.b.toNat = 0xFFFFFFFF) :
    waitFor i all o s = .next (s.takeTrap c.wave (c.trap 0x0B 5 0 c.activeGroup)) := by
  rw [waitFor_eq h hb hbad, if_pos ⟨h0, ht⟩]

section
variable (h0 : ¬((∀ k ∈ waitConditions c.wave o, k.kind = 0) ∧ c.wave.readG o.b.toNat = 0xFFFFFFFF))
  (hblock : ∀ k ∈ waitConditions c.wave o, k.kind = 1 ∨ k.kind = 2 → s.condBlock c.wave c.crew k ≠ none)
include h0 hblock

theorem waitFor_held
    (hw : (c.wave.sup = false ∧ ∃ k ∈ waitConditions c.wave o, 1 ≤ k.kind ∧ k.kind ≤ 4) ∧ s.mustWait c.wave.ref false false = true) :
    waitFor i all o s = .next (s.putWave (c.wave.park c.gang .held)) := by
  rw [waitFor_eq h hb hbad, if_neg h0, find_condBlock_none hblock]
  exact congrArg _ (if_pos hw)

theorem waitFor_tests
    (hw : ¬((c.wave.sup = false ∧ ∃ k ∈ waitConditions c.wave o, 1 ≤ k.kind ∧ k.kind ≤ 4) ∧ s.mustWait c.wave.ref false false = true)) :
    waitFor i all o s = .next (s.testWait (waitWave c o) c.crew c.gang (waitStart s c all o)) := by
  rw [waitFor_eq h hb hbad, if_neg h0, find_condBlock_none hblock]
  exact congrArg _ (if_neg hw)

end

end

/-- Settles O26: the frame of WAIT is the wait for held accesses, then one test; the test follows what the observation saw, which
`observe_sees`, `observe_pure` and `observe_acquired` describe. -/
theorem waitsTestTheirConditions : Obligations.WaitsTestTheirConditions := by
  unfold Obligations.WaitsTestTheirConditions
  intro mk all o s c b hmk h hb ks t hbad
  have hexec : exec (mk o) s = waitFor (mk o) all o s := by obtain ⟨rfl, rfl⟩ | ⟨rfl, rfl⟩ := hmk <;> rfl
  rw [hexec]
  refine ⟨fun ⟨h0, ht⟩ => waitFor_unused h hb hbad h0 ht, ?_⟩
  intro reads free h0 hblock
  have hfree : free ↔ ¬((c.wave.sup = false ∧ reads) ∧ s.mustWait c.wave.ref false false = true) := by
    simp only [free]
    cases c.wave.sup <;> simp [or_comm, imp_iff_not_or]
  refine ⟨fun hf => ?_, fun hf => ?_⟩
  · exact waitFor_held h hb hbad h0 hblock (not_not.mp (mt hfree.mpr hf))
  rw [waitFor_tests (all := all) h hb hbad h0 hblock (hfree.mp hf)]
  intro w x0 x s1 late
  have hx0 : x0 = waitStart s c all o := rfl
  have hw : w = waitWave c o := rfl
  refine ⟨fun hm => ?_, fun hm hl => ?_, fun hm hl => ?_, fun hp hs => ?_, fun hr hc => observe_pure hr hc, fun hr ha hm => ?_⟩
  · rw [← hx0, ← hw, testWait_of_met hm]
  · rw [← hx0, ← hw, testWait_of_late hm, if_pos hl]
  · rw [← hx0, ← hw, testWait_of_late hm, if_neg hl]
  · refine observe_sees (x := x0) hp hs (fun k hk h7 => ?_) (le_refl 4) rfl rfl
    have := hbad k hk
    simp [condBad, h7] at this
    omega
  · obtain ⟨k, hk, h1, h4⟩ := hr
    obtain ⟨n, hn⟩ := List.getElem?_of_mem hk
    obtain ⟨hconds, hall⟩ := observe_conds s w c.crew x0
    have hseen : x.seen.getLsbD n = true := seen_of_met (hall.trans ha) hm (by rw [hconds]; exact hn) (by omega)
    exact observe_acquired (x := x0) (le_refl 4) rfl n k hn h1 h4 hseen

end Sys2Proof.Laws
end

section
/-! SUPPORT. The units of a command, requests and batches at their home, combiner waves, and the batches of a graph's records
(R106, R227 to R229, R234, R296 to R299). -/

namespace Sys2Proof.Laws

open Sys2Proof.Machine Sys2Proof.Safety

/-! ## Units (R234, R370) -/

section
variable {crew rank : Nat} {k : Fin 16} {u : Nat} {s : State} {c : Crew} {m : Command} (hc : s.crew? crew = some c)
  (hm : ((s.block? crew rank).bind fun b => b.command? k.val) = some m)
include hc hm

theorem exec_engineUnitTransfer : exec (.engineUnitTransfer crew rank k u) s = .next
    (if (c.resident = false ∨ u ∈ m.held ∨ u ∈ m.written ∨ u < m.done) ∨
        ¬((m.kind ≠ 4 ∨ m.table ≠ []) ∧ u < m.total ∨ m.kind = 4 ∧ m.table = [] ∧ u = m.total) then s
     else s.performUnit c rank m u fun s m a sub => s.holdUnit c rank m u a sub) := by
  change execEngineUnitTransfer crew rank k u s = _
  simp only [execEngineUnitTransfer, hc, hm]
  rw [apply_ite Host.Outcome.next]
  refine if_congr ?_ rfl rfl
  by_cases hk : m.kind = 4 <;> by_cases ht : m.table = [] <;> simp [kindXfm, hk, ht, or_assoc]

end

/-! ## Arrival (R106, R227, R376) -/

/-- An earlier request of the same wave's lane or instruction is still on its way to the object (R106). -/
def arrivesBehind (q x : Request) : Prop :=
  x.context.ctag = q.context.ctag ∧ x.part = q.part ∧ x.mt = q.mt ∧ x.pa / 128 = q.pa / 128 ∧ x.wave = q.wave ∧ (x.lane = q.lane ∨ x.stamp = q.stamp)

/-- A request as it arrives. -/
def arrivedAt (s : State) (q : Request) : Request := { q with arrived := s.tick }

/-- A new object of a request's line. -/
def newObject (id : Nat) (q : Request) : Object :=
  { id := id, ctag := q.context.ctag, line := q.addr &&& ~~~(0x7F : BitVec 64), mt := q.mt, pa := q.pa / 128 * 128, part := q.part, pending := [],
    running := none, replies := [], crew := none, launched := 0, blocked := false, limit := none }

/-- The object that a request joins: its line's, or a new one. -/
def objectFor (s : State) (q : Request) : Object × State :=
  match s.objectOf? q with
  | some o => (o, s)
  | none => (newObject s.stamp q, { s with stamp := s.stamp + 1 })

/-- The object, once the request waits in it. -/
def joinedObject (s : State) (q : Request) : Object := { (objectFor s q).1 with pending := (objectFor s q).1.pending ++ [q] }

/-- The state, once the request waits in its object. -/
def joinObject (s : State) (q : Request) : State :=
  if (objectFor s q).2.objects.any fun x => x.id == (joinedObject s q).id then (objectFor s q).2.putObject (joinedObject s q)
  else { (objectFor s q).2 with objects := (objectFor s q).2.objects ++ [joinedObject s q] }

theorem objectFor_known {s : State} {q : Request} {o : Object} (h : s.objectOf? q = some o) : objectFor s q = (o, s) := by
  simp only [objectFor, h]

theorem objectFor_new {s : State} {q : Request} (h : s.objectOf? q = none) :
    objectFor s q = (newObject s.stamp q, { s with stamp := s.stamp + 1 }) := by
  simp only [objectFor, h]

theorem joinedObject_known {s : State} {q : Request} {o : Object} (h : s.objectOf? q = some o) : joinedObject s q = { o with pending := o.pending ++ [q] } := by
  rw [joinedObject, objectFor_known h]

/-- A request joins the object of its line. -/
theorem joinObject_known {s : State} {q : Request} {o : Object} (h : s.objectOf? q = some o) :
    joinObject s q = s.putObject { o with pending := o.pending ++ [q] } := by
  rw [joinObject, joinedObject_known h, objectFor_known h]
  refine if_pos ?_
  exact List.any_eq_true.mpr ⟨o, List.mem_of_find?_eq_some h, by simp⟩

/-- Where the line has no object, a new one holds the request. -/
theorem joinObject_new {s : State} {q : Request} (h : s.objectOf? q = none) (hid : ∀ x ∈ s.objects, x.id ≠ s.stamp) :
    joinObject s q = { s with stamp := s.stamp + 1, objects := s.objects ++ [{ newObject s.stamp q with pending := [q] }] } := by
  rw [joinObject, joinedObject, objectFor_new h]
  refine if_neg fun hany => ?_
  obtain ⟨x, hx, hxid⟩ := List.any_eq_true.mp hany
  exact hid x hx (beq_iff_eq.mp hxid)

section
variable {n : Nat} {s s1 : State} {q : Request} (hq : s.inflight[n]? = some q)
include hq

theorem exec_arrival_behind (h : ∃ x ∈ s.inflight.take n, arrivesBehind q x) : exec (.madderRequestArrival n) s = .next s := by
  change execMadderRequestArrival n s = _
  simp only [execMadderRequestArrival, hq]
  refine if_pos ?_
  obtain ⟨x, hx, h1, h2, h3, h4, h5, h6⟩ := h
  exact List.any_eq_true.mpr ⟨x, hx, by simp [h1, h2, h3, h4, h5, h6]⟩

variable {r : Method} (hfirst : ∀ x ∈ s.inflight.take n, ¬arrivesBehind q x)
  (hmethod : ({ s with inflight := s.inflight.eraseIdx n } : State).methodOf q.context q.part q.method = (r, s1))
include hfirst hmethod

/-- A request that none precedes: its method decides what becomes of it. -/
theorem exec_arrival_first : exec (.madderRequestArrival n) s = .next
    (match r with
    | .bad sub => s1.rejectRequests [arrivedAt s q] sub 0
    | .miss a sub =>
      if (joinedObject s1 (arrivedAt s q)).blocked then joinObject s1 (arrivedAt s q)
      else (joinObject s1 (arrivedAt s q)).holdMethod (joinedObject s1 (arrivedAt s q)) (arrivedAt s q) a sub
    | _ => (joinObject s1 (arrivedAt s q)).launchNow (joinedObject s1 (arrivedAt s q)).id) := by
  have hnot : ¬((s.inflight.take n).any fun x => x.context.ctag == q.context.ctag && x.part == q.part && x.mt == q.mt &&
      x.pa / 128 == q.pa / 128 && x.wave == q.wave && (x.lane == q.lane || x.stamp == q.stamp)) = true := by
    rw [List.any_eq_true]
    rintro ⟨x, hx, h⟩
    exact hfirst x hx (by simpa [arrivesBehind, and_assoc] using h)
  change execMadderRequestArrival n s = _
  simp only [execMadderRequestArrival, hq]
  rw [if_neg hnot]
  simp only [hmethod]
  cases r <;> rfl

end

theorem arrival_join {s1 : State} {q' : Request} {n : Nat} {s : State} {q : Request} {r : Method} (hq : s.inflight[n]? = some q)
    (hfirst : ∀ x ∈ s.inflight.take n, ¬arrivesBehind q x)
    (hmethod : ({ s with inflight := s.inflight.eraseIdx n } : State).methodOf q.context q.part q.method = (r, s1)) (hq' : q' = arrivedAt s q)
    (hbad : ∀ sub, r ≠ .bad sub) (hmiss : ∀ a sub, r ≠ .miss a sub) :
    exec (.madderRequestArrival n) s = .next ((joinObject s1 q').launchNow (joinedObject s1 q').id) := by
  rw [exec_arrival_first hq hfirst hmethod, hq']
  cases r with
  | bad sub => exact absurd rfl (hbad sub)
  | miss a sub => exact absurd rfl (hmiss a sub)
  | builtin => rfl
  | user o off batch window => rfl

/-! ## Launch (R105, R228) -/

theorem lineTaken_iff (s : State) (o : Object) :
    s.lineTaken o = true ↔ ∃ z ∈ s.objects, z.id ≠ o.id ∧ z.running.isSome = true ∧ z.mt = o.mt ∧ z.pa = o.pa := by
  simp only [State.lineTaken, List.any_eq_true, Bool.and_eq_true, bne_iff_ne, beq_iff_eq, and_assoc]

/-- The state that a launch of the object's head run leaves, by its method. -/
def batchLaunched (s : State) (o : Object) (taken : List Request) : Method → State
  | .user _ _ _ _ => { s with stamp := s.stamp + 1 }.putObject
      { o with pending := o.pending.drop taken.length, running := some taken, replies := [], launched := s.stamp }
  | _ => (taken.foldl State.builtin (s.putObject { o with pending := o.pending.drop taken.length })).tidyObjects

section
variable {line : Nat} {s : State} {o : Object} {due : Object → Nat → Nat → Nat → Bool} (ho : s.object? line = some o)
include ho

/-- While a batch of another object holds the line, no batch launches. -/
theorem launchBatch_taken (h : s.lineTaken o = true) : s.launchBatch line due = s := by
  simp only [State.launchBatch, ho]
  split
  · rfl
  · exact if_pos (by simp [h])

variable {s1 : State} {q : Request} {rest : List Request} {r : Method} (hp : o.pending = q :: rest) (hr : o.running = none)
  (hb : o.blocked = false) (hlim : o.limit = none) (hline : s.lineTaken o = false) (hm : s.methodOf q.context q.part q.method = (r, s1))
  (hbad : ∀ sub, r ≠ .bad sub) (hmiss : ∀ a sub, r ≠ .miss a sub)
include hp hr hb hlim hline hm hbad hmiss

theorem launchBatch_eq : s.launchBatch line due =
    if due o o.headRun.length (s1.batchOf q.part r).1 (s1.batchOf q.part r).2 then
      batchLaunched s1 o (o.headRun.take (min o.headRun.length (s1.batchOf q.part r).1)) r
    else s1 := by
  obtain ⟨id, ctag, ln, mt, pa, part, pending, running, replies, crew, at_, blocked, limit⟩ := o
  subst hp hr hb hlim
  simp only [State.launchBatch, ho, hline, hm, Option.isSome_none, Bool.or_self, Bool.false_eq_true, if_false]
  have hlen (n b : Nat) (l : List Request) (hn : l.length = n) : (l.take (min n b)).length = min n b := by rw [List.length_take]; omega
  have hmin (n b : Nat) : min (min n b) b = min n b := by omega
  cases r with
  | bad sub => exact absurd rfl (hbad sub)
  | miss a sub => exact absurd rfl (hmiss a sub)
  | builtin =>
    simp only [batchLaunched, Option.getD_none, hmin, hlen _ _ _ rfl, Bool.not_eq_true', ← Bool.not_eq_true, ite_not]
  | user c off batch window =>
    simp only [batchLaunched, Option.getD_none, hmin, hlen _ _ _ rfl, State.takeStamp, Bool.not_eq_true', ← Bool.not_eq_true, ite_not]

theorem exec_madderBatchLaunch : exec (.madderBatchLaunch line) s = .next
    (if (s1.batchOf q.part r).1 ≤ o.headRun.length ∨ (s1.batchOf q.part r).2 = 0 ∨ o.headRun.length < o.pending.length then
      batchLaunched s1 o (o.headRun.take (min o.headRun.length (s1.batchOf q.part r).1)) r
    else s1) := by
  refine (congrArg Host.Outcome.next (launchBatch_eq ho hp hr hb hlim hline hm hbad hmiss)).trans (congrArg _ (if_congr ?_ rfl rfl))
  simp [hlim, or_assoc]

theorem exec_madderWindowExpiry : exec (.madderWindowExpiry line) s = .next
    (if q.arrived + (s1.batchOf q.part r).2 ≤ s.tick then
      batchLaunched s1 o (o.headRun.take (min o.headRun.length (s1.batchOf q.part r).1)) r
    else s1) := by
  refine (congrArg Host.Outcome.next (launchBatch_eq ho hp hr hb hlim hline hm hbad hmiss)).trans (congrArg _ (if_congr ?_ rfl rfl))
  simp [hp]

end

/-! ## Combiner waves (R228, R229) -/

theorem loadLatches_eq (s : State) (w : Wave) (c : Crew) : ∃ ls, s.loadLatches w c = ({ w with latches := ls }, s) := by
  have hperf (k : Nat) : (s.perf w c k).2 = s := by unfold State.perf; split <;> rfl
  have hstate (k : Nat) : (s.latched w c k).2 = s := by
    unfold State.latched
    split
    · rfl
    · rfl
    · rfl
    next k => exact hperf k
  have hfold (l : List Nat) (ls : List Word) :
      (l.foldl (fun (acc : List Word × State) k => (acc.1 ++ [hi32 (acc.2.latched w c k).1], (acc.2.latched w c k).2)) (ls, s)).2 = s := by
    induction l generalizing ls with
    | nil => rfl
    | cons k l ih => rw [List.foldl_cons, hstate, ih]
  refine ⟨_, Prod.ext rfl ?_⟩
  exact hfold (List.range 7) []

theorem combinerWave_regs (ref : WaveRef) (ctx : Context) (m n : Nat) (line : BitVec 64) (pc : Addr) :
    (combinerWave ref ctx m n line pc).readG 0 = BitVec.ofNat 32 m ∧ (combinerWave ref ctx m n line pc).readG 1 = BitVec.ofNat 32 n :=
  ⟨rfl, rfl⟩

section
variable {line : Nat} {s s1 : State} {o : Object} {q : Request} {rest : List Request} {co : CodeObject} {off x y : Nat}
  (ho : s.object? line = some o) (hr : o.running = some (q :: rest)) (hc : o.crew = none)
  (hturn : ∀ z ∈ s.objects, z.running.isSome = true → (s.homeCore z).1 = (s.homeCore o).1 → z.crew = none ∧ o.launched ≤ z.launched)
  (hm : s.methodOf q.context q.part q.method = (.user co off x y, s1))
include ho hr hc hturn hm

/-- The oldest batch of a home whose slot is free gets a crew and a wave. -/
theorem exec_combinerWaveStart : ∃ t c w, exec (.combinerWaveStart line) s = .next t ∧ c ∈ t.crews ∧ w ∈ t.waves ∧
    c.kind = .combiner o.id ∧ c.clusterNo = (s.homeCore o).1 ∧ c.core = (s.homeCore o).2 ∧ c.resident = true ∧
    w.ref = { crew := c.id, rank := 0, wave := 0 } ∧ w.readG 0 = BitVec.ofNat 32 q.method ∧ w.readG 1 = BitVec.ofNat 32 (rest.length + 1) := by
  have hfree : ¬((s.objects.filter fun x => x.running.isSome && (s.homeCore x).1 == (s.homeCore o).1).any
      fun x => x.crew.isSome || x.launched < o.launched) = true := by
    rw [List.any_eq_true]
    rintro ⟨z, hz, hbad⟩
    obtain ⟨hmem, hz⟩ := List.mem_filter.mp hz
    obtain ⟨hrun, hhome⟩ := Bool.and_eq_true_iff.mp hz
    obtain ⟨hcrew, hle⟩ := hturn z hmem hrun (beq_iff_eq.mp hhome)
    simp [hcrew] at hbad
    omega
  have hexec : exec (.combinerWaveStart line) s = execCombinerWaveStart line s := rfl
  unfold execCombinerWaveStart at hexec
  simp -zeta only [ho, hr, hc, hm, Option.isSome_none, Bool.false_or] at hexec
  extract_lets rivals text k img id c ln w t at hexec
  rw [if_neg hfree] at hexec
  obtain ⟨ls, hl⟩ := loadLatches_eq (t.dropL1 (c.coreOf 0)) w c
  rw [hl] at hexec
  obtain ⟨hg0, hg1⟩ := combinerWave_regs { crew := id, rank := 0, wave := 0 } q.context q.method (rest.length + 1) ln
    (co.codeBase + BitVec.ofNat 64 off)
  exact ⟨_, c, { w with latches := ls }, hexec, List.mem_append_right _ (List.mem_singleton_self _),
    List.mem_append_right _ (List.mem_singleton_self _), rfl, Nat.div_add_mod _ 12, rfl, rfl, rfl, hg0, hg1⟩

end

/-! ## Records of a graph (R297, R299) -/

/-- The pending records of a node. -/
def pendingOf (g : Graph) (node : Nat) : List (Nat × Nat × Nat) := g.pending.filter fun x => x.1 == node

/-- The addresses of a node's next batch. -/
def batchOfNode (g : Graph) (node : Nat) (n : Node) : List Nat := (n.nextBatch (pendingOf g node)).map fun x => x.2.1

/-- The state in which a node's next batch waits to be placed. -/
def recordsLaunched (s : State) (g : Graph) (node : Nat) (n : Node) : State :=
  s.putGraph { g with
    pending := g.pending.filter fun x => !(x.1 == node && (batchOfNode g node n).contains x.2.1)
    ready := g.ready ++ [(node, batchOfNode g node n, s.tick)] }

section
variable {seq node : Nat} {s : State} {g : Graph} {n : Node} (hg : s.graph? seq = some g) (hn : g.nodes[node]? = some n) (h0 : node ≠ 0)
include hg hn h0

theorem launchRecords_eq (due : Node → List (Nat × Nat × Nat) → Bool) : s.launchRecords seq node due =
    if pendingOf g node ≠ [] ∧ due n (pendingOf g node) = true then recordsLaunched s g node n else s := by
  simp only [State.launchRecords, hg, hn, h0, decide_false, Bool.false_or]
  rw [← pendingOf, ← batchOfNode, ← recordsLaunched, ← ite_not]
  refine if_congr ?_ rfl rfl
  simp

theorem exec_graphBatchLaunch : exec (.graphBatchLaunch seq node) s = .next
    (if pendingOf g node ≠ [] ∧ (n.batch ≤ (pendingOf g node).length ∨ n.tmo = 0) then recordsLaunched s g node n else s) := by
  refine (congrArg Host.Outcome.next (launchRecords_eq hg hn h0 _)).trans ?_
  simp only [Bool.or_eq_true, decide_eq_true_eq]

theorem exec_graphBatchTimeout : exec (.graphBatchTimeout seq node) s = .next
    (if ∃ x ∈ pendingOf g node, x.2.2 + n.tmo ≤ s.tick then recordsLaunched s g node n else s) := by
  refine (congrArg Host.Outcome.next (launchRecords_eq hg hn h0 _)).trans (congrArg _ (if_congr ?_ rfl rfl))
  simp only [List.any_eq_true, decide_eq_true_eq]
  exact and_iff_right_of_imp fun ⟨x, hx, _⟩ => List.ne_nil_of_mem hx

end

/-- Settles O54: each event by the rule of its own above. -/
theorem enginesCombinersAndGraphsMove : Obligations.EnginesCombinersAndGraphsMove := by
  unfold Obligations.EnginesCombinersAndGraphsMove
  refine ⟨fun crew rank k u s c m hc hm => ⟨fun h => ?_, fun hres hheld hwr hdone h => ?_⟩, fun n s s1 q hq => ⟨?_, fun hw => ?_⟩, ?_, ?_, ?_, ?_⟩
  · rw [exec_engineUnitTransfer hc hm, if_pos (.inl h)]
  · have hnot : ¬(c.resident = false ∨ u ∈ m.held ∨ u ∈ m.written ∨ u < m.done) := by
      simp [hres, hheld, hwr, hdone]
    rw [exec_engineUnitTransfer hc hm, if_neg (not_or.mpr ⟨hnot, not_not.mpr h⟩)]
  · exact exec_arrival_behind hq
  · have hfirst : ∀ x ∈ s.inflight.take n, ¬arrivesBehind q x := fun x hx ⟨_, _, _, _, hwave, _⟩ => hw x hx hwave
    intro s0 q'
    refine ⟨fun sub hm => exec_arrival_first hq hfirst hm, fun r o hm hbad hmiss ho => ?_, fun r hm hbad hmiss ho hid => ?_, fun a sub o hm ho => ?_⟩
    · rw [arrival_join (q' := q') hq hfirst hm rfl hbad hmiss, joinObject_known ho, joinedObject_known ho]
    · rw [arrival_join (q' := q') hq hfirst hm rfl hbad hmiss, joinObject_new ho hid, joinedObject, objectFor_new ho]
      rfl
    · have hq' : arrivedAt s q = q' := rfl
      rw [exec_arrival_first hq hfirst hm, hq', joinObject_known ho, joinedObject_known ho]
  · intro line s s1 o q rest r ho hp hr hb hlim hothers hm hbad hmiss b window full taken left
    have hline : s.lineTaken o = false := by
      rw [Bool.eq_false_iff, ne_eq, lineTaken_iff]
      exact fun ⟨z, hz, hid, hrun, hplace⟩ => hothers z hz hid hrun hplace
    have hlaunch := exec_madderBatchLaunch ho hp hr hb hlim hline hm hbad hmiss
    have hexpiry := exec_madderWindowExpiry ho hp hr hb hlim hline hm hbad hmiss
    refine ⟨⟨fun h => hlaunch.trans (congrArg _ (if_neg h)), fun h => hexpiry.trans (congrArg _ (if_neg (by omega)))⟩, fun e he => ?_⟩
    have hdue : exec e s = .next (batchLaunched s1 o taken r) := by
      obtain ⟨rfl, h⟩ | ⟨rfl, h⟩ := he
      · exact hlaunch.trans (congrArg _ (if_pos h))
      · exact hexpiry.trans (congrArg _ (if_pos h))
    refine ⟨fun hbuiltin => ?_, fun co off x y huser => ?_⟩
    · rw [hdue, hbuiltin]
      rfl
    · rw [hdue, huser]
      rfl
  · intro line s o z ho hz hid hrun hmt hpa
    have hline := (lineTaken_iff s o).mpr ⟨z, hz, hid, hrun, hmt, hpa⟩
    exact ⟨congrArg Host.Outcome.next (launchBatch_taken ho hline), congrArg Host.Outcome.next (launchBatch_taken ho hline)⟩
  · intro line s s1 o q rest co off x y ho hr hc hturn hm
    obtain ⟨t, c, w, he, hct, hwt, hkind, hcl, hcore, hres, href, hg0, hg1⟩ := exec_combinerWaveStart ho hr hc hturn hm
    exact ⟨t, he, c, hct, hkind, hcl, hcore, hres, w, hwt, href, hg0, hg1⟩
  · intro seq node s g n hg hn h0
    exact ⟨exec_graphBatchLaunch hg hn h0, exec_graphBatchTimeout hg hn h0⟩

end Sys2Proof.Laws
end

section
/-! SUPPORT. Powers of two, the magnitudes of a floating-point format, and rounding to them (R111, R115, R116). -/

namespace Sys2Proof.Laws

open Sys2Proof.Machine Sys2Proof.Safety

/-! ## Powers of two -/

theorem pow2_eq_zpow (k : Int) : pow2 k = (2 : Rat) ^ k := by
  unfold pow2
  split
  next h => rw [← Int.toNat_of_nonneg h, zpow_natCast, Int.toNat_natCast]; push_cast; rfl
  next h =>
    obtain ⟨n, rfl⟩ : ∃ n : Nat, k = -(n : Int) := ⟨(-k).toNat, by omega⟩
    rw [neg_neg, Int.toNat_natCast, Rat.mkRat_eq_div, zpow_neg, zpow_natCast]
    push_cast
    rw [one_div]

theorem two_zpow_pos (k : Int) : 0 < (2 : Rat) ^ k := by positivity

theorem two_zpow_add (a b : Int) : (2 : Rat) ^ (a + b) = 2 ^ a * 2 ^ b := zpow_add₀ two_ne_zero a b

theorem two_zpow_le {a b : Int} : (2 : Rat) ^ a ≤ 2 ^ b ↔ a ≤ b := zpow_le_zpow_iff_right₀ one_lt_two

theorem two_zpow_lt {a b : Int} : (2 : Rat) ^ a < 2 ^ b ↔ a < b := zpow_lt_zpow_iff_right₀ one_lt_two

/-- A power of two above another is a natural multiple of it. -/
theorem two_zpow_eq_mul {a b : Int} (h : a ≤ b) : (2 : Rat) ^ b = ((2 ^ (b - a).toNat : Nat) : Rat) * 2 ^ a := by
  obtain ⟨n, rfl⟩ : ∃ n : Nat, b = a + n := ⟨(b - a).toNat, by omega⟩
  rw [two_zpow_add, zpow_natCast, add_sub_cancel_left, Int.toNat_natCast, mul_comm]
  push_cast
  rfl

/-- A power of two counted in steps of p bits less. -/
theorem two_zpow_eq_steps (p : Nat) (E : Int) : (2 : Rat) ^ E = ((2 ^ p : Nat) : Rat) * 2 ^ (E - p) := by
  rw [two_zpow_eq_mul (show E - p ≤ E by omega), show (E - (E - p)).toNat = p by omega]

theorem two_zpow_succ_eq_steps (p : Nat) (E : Int) : (2 : Rat) ^ (E + 1) = ((2 ^ (p + 1) : Nat) : Rat) * 2 ^ (E - p) := by
  rw [two_zpow_eq_mul (show E - p ≤ E + 1 by omega), show (E + 1 - (E - p)).toNat = p + 1 by omega]

theorem ratAbs_eq_abs (q : Rat) : ratAbs q = |q| := by
  unfold ratAbs
  split
  next h => rw [abs_of_neg h]
  next h => rw [abs_of_nonneg (not_lt.mp h)]

theorem floorLog2_spec {q : Rat} (hq : 0 < q) : (2 : Rat) ^ floorLog2 q ≤ q ∧ q < 2 ^ (floorLog2 q + 1) := by
  have hn : q.num.natAbs ≠ 0 := by simpa using hq.ne'
  have hq' : q = (q.num.natAbs : Rat) / q.den := by
    conv_lhs => rw [← Rat.num_div_den q]
    rw [Nat.cast_natAbs, abs_of_pos (Rat.num_pos.mpr hq)]
  have hd : (0 : Rat) < q.den := by exact_mod_cast q.den_pos
  have log_spec {n : Nat} (h : n ≠ 0) : (2 : Rat) ^ (n.log2 : Int) ≤ n ∧ (n : Rat) < 2 ^ ((n.log2 : Int) + 1) := by
    constructor
    · exact_mod_cast Nat.log2_self_le h
    · exact_mod_cast Nat.lt_log2_self
  obtain ⟨n1, n2⟩ := log_spec hn
  obtain ⟨d1, d2⟩ := log_spec q.den_pos.ne'
  set a : Int := (q.num.natAbs.log2 : Int)
  set b : Int := (q.den.log2 : Int)
  have hlow : (2 : Rat) ^ (a - b - 1) ≤ q := by
    rw [hq', le_div_iff₀ hd]
    calc (2 : Rat) ^ (a - b - 1) * q.den ≤ 2 ^ (a - b - 1) * 2 ^ (b + 1) := by gcongr
      _ = 2 ^ a := by rw [← two_zpow_add]; congr 1; omega
      _ ≤ _ := n1
  have hhigh : q < (2 : Rat) ^ (a - b + 1) := by
    rw [hq', div_lt_iff₀ hd]
    calc (q.num.natAbs : Rat) < 2 ^ (a + 1) := n2
      _ = 2 ^ (a - b + 1) * 2 ^ b := by rw [← two_zpow_add]; congr 1; omega
      _ ≤ _ := by gcongr
  unfold floorLog2
  simp only [pow2_eq_zpow]
  split
  next h => exact ⟨h, hhigh⟩
  next h => exact ⟨hlow, by rw [sub_add_cancel]; exact not_le.mp h⟩

theorem floorLog2_eq {q : Rat} {k : Int} (h1 : (2 : Rat) ^ k ≤ q) (h2 : q < 2 ^ (k + 1)) : floorLog2 q = k := by
  obtain ⟨l, u⟩ := floorLog2_spec ((two_zpow_pos k).trans_le h1)
  have hu := two_zpow_lt.mp (l.trans_lt h2)
  have hl := two_zpow_lt.mp (h1.trans_lt u)
  omega

/-! ## Magnitudes -/

/-- The magnitudes that p fraction bits give, where no exponent is below e and none is too large. -/
def OnGrid (p : Nat) (e : Int) (y : Rat) : Prop := ∃ (k : Nat) (E : Int), k < 2 ^ (p + 1) ∧ e ≤ E ∧ y = k * (2 : Rat) ^ (E - p)

theorem OnGrid.nonneg {p : Nat} {e : Int} {y : Rat} (h : OnGrid p e y) : 0 ≤ y := by
  obtain ⟨k, E, -, -, rfl⟩ := h
  positivity

theorem onGrid_mul {p k : Nat} {e E : Int} (hk : k ≤ 2 ^ (p + 1)) (hE : e ≤ E) : OnGrid p e (k * (2 : Rat) ^ (E - p)) := by
  rcases hk.lt_or_eq with hk | rfl
  · exact ⟨k, E, hk, hE, rfl⟩
  · refine ⟨2 ^ p, E + 1, Nat.pow_lt_pow_right (by omega) (by omega), by omega, ?_⟩
    rw [show E + 1 - (p : Int) = 1 + (E - p) by ring, two_zpow_add]
    push_cast
    ring

theorem onGrid_zero (p : Nat) (e : Int) : OnGrid p e 0 := ⟨0, e, by positivity, le_rfl, by simp⟩

theorem onGrid_two_zpow {p : Nat} {e E : Int} (h : e ≤ E) : OnGrid p e ((2 : Rat) ^ E) := by
  have := onGrid_mul (p := p) (k := 2 ^ p) (Nat.pow_le_pow_right (by omega) (by omega)) h
  rwa [two_zpow_eq_steps p]

/-- A magnitude from 2^E on, or any where E is the least exponent, is a multiple of 2^(E-p). -/
theorem OnGrid.multiple {p : Nat} {e E : Int} {y : Rat} (h : OnGrid p e y) (hE : E = e ∨ (2 : Rat) ^ E ≤ y) :
    ∃ k : Nat, y = k * (2 : Rat) ^ (E - p) := by
  obtain ⟨k, F, hk, hF, rfl⟩ := h
  have hEF : E ≤ F := by
    rcases hE with rfl | hE
    · exact hF
    · have hlt : (2 : Rat) ^ E < 2 ^ (F + 1) := by
        calc (2 : Rat) ^ E ≤ k * 2 ^ (F - p) := hE
          _ < ((2 ^ (p + 1) : Nat) : Rat) * 2 ^ (F - p) := by gcongr
          _ = 2 ^ (F + 1) := (two_zpow_succ_eq_steps ..).symm
      have := two_zpow_lt.mp hlt
      omega
  refine ⟨k * 2 ^ (F - p - (E - p)).toNat, ?_⟩
  rw [two_zpow_eq_mul (show E - p ≤ F - p by omega)]
  push_cast
  ring

/-- The exponent of the spacing at m, with p fraction bits and no exponent below e. -/
def scale (e : Int) (m : Rat) : Int := max (floorLog2 m) e

/-- The spacings in m, rounded down. -/
def steps (p : Nat) (e : Int) (m : Rat) : Nat := (m / (2 : Rat) ^ (scale e m - p)).floor.toNat

theorem le_scale (e : Int) (m : Rat) : e ≤ scale e m := le_max_right ..

theorem lt_two_zpow_scale {e : Int} {m : Rat} (hm : 0 < m) : m < 2 ^ (scale e m + 1) :=
  (floorLog2_spec hm).2.trans_le (two_zpow_le.mpr (by unfold scale; omega))

theorem scale_cases {e : Int} {m : Rat} (hm : 0 < m) : scale e m = e ∨ (2 : Rat) ^ scale e m ≤ m := by
  rcases le_total (floorLog2 m) e with h | h
  · exact .inl (max_eq_right h)
  · exact .inr (by rw [scale, max_eq_left h]; exact (floorLog2_spec hm).1)

theorem floor_toNat_spec {n : Rat} (h : 0 ≤ n) : (n.floor.toNat : Rat) ≤ n ∧ n < n.floor.toNat + 1 := by
  have h0 : (0 : Int) ≤ n.floor := Rat.le_floor_iff.mpr (by simpa using h)
  have hc : (n.floor.toNat : Rat) = (n.floor : Rat) := by exact_mod_cast Int.toNat_of_nonneg h0
  rw [hc]
  exact ⟨Rat.floor_le n, by exact_mod_cast Rat.lt_floor_add_one n⟩

section
variable {p : Nat} {e : Int} {m y : Rat} (hm : 0 < m)
include hm

/-- m lies between its neighbours. -/
theorem steps_spec : steps p e m * (2 : Rat) ^ (scale e m - p) ≤ m ∧ m < (steps p e m + 1) * (2 : Rat) ^ (scale e m - p) := by
  have hu := two_zpow_pos (scale e m - p)
  obtain ⟨h1, h2⟩ := floor_toNat_spec (div_pos hm hu).le
  exact ⟨(le_div_iff₀ hu).mp h1, (div_lt_iff₀ hu).mp h2⟩

theorem steps_lt : steps p e m < 2 ^ (p + 1) := by
  have h := (steps_spec (p := p) (e := e) hm).1.trans_lt (lt_two_zpow_scale (e := e) hm)
  rw [two_zpow_succ_eq_steps p] at h
  exact_mod_cast lt_of_mul_lt_mul_right h (two_zpow_pos _).le

/-- No magnitude lies strictly between the neighbours of m. -/
theorem OnGrid.outside (hy : OnGrid p e y) :
    y ≤ steps p e m * (2 : Rat) ^ (scale e m - p) ∨ (steps p e m + 1) * (2 : Rat) ^ (scale e m - p) ≤ y := by
  have hu := two_zpow_pos (scale e m - p)
  have multiple_outside (z : Nat) : z * (2 : Rat) ^ (scale e m - p) ≤ steps p e m * (2 : Rat) ^ (scale e m - p) ∨
      (steps p e m + 1) * (2 : Rat) ^ (scale e m - p) ≤ z * (2 : Rat) ^ (scale e m - p) := by
    rw [mul_le_mul_iff_of_pos_right hu, mul_le_mul_iff_of_pos_right hu]
    norm_cast
    omega
  rcases le_or_gt ((2 : Rat) ^ scale e m) y with h | h
  · obtain ⟨z, rfl⟩ := hy.multiple (.inr h)
    exact multiple_outside z
  · rcases scale_cases (e := e) hm with he | hs
    · obtain ⟨z, rfl⟩ := hy.multiple (.inl he)
      exact multiple_outside z
    · have h2 : (2 : Rat) ^ scale e m = (2 ^ p : Nat) * 2 ^ (scale e m - p) := two_zpow_eq_steps ..
      rcases multiple_outside (2 ^ p) with hz | hz
      · exact .inl (h.le.trans (h2.trans_le hz))
      · exact absurd ((steps_spec hm).2.trans_le (hz.trans_eq h2.symm)) (not_lt.mpr hs)

end

/-! ## Rounding a magnitude -/

/-- The modes that round a magnitude of this sign down, and those that round it up (R116). -/
def RoundsDown (mode : Nat) (neg : Bool) : Prop := mode = 1 ∨ (mode = 2 ∧ neg = false) ∨ (mode = 3 ∧ neg = true)
def RoundsUp (mode : Nat) (neg : Bool) : Prop := (mode = 2 ∧ neg = true) ∨ (mode = 3 ∧ neg = false)

theorem roundQuanta_down {mode : Nat} {neg : Bool} (h : RoundsDown mode neg) (n : Rat) : roundQuanta mode neg n = n.floor.toNat := by
  rcases h with rfl | ⟨rfl, rfl⟩ | ⟨rfl, rfl⟩ <;> rfl

theorem roundQuanta_up {mode : Nat} {neg : Bool} (h : RoundsUp mode neg) (n : Rat) :
    roundQuanta mode neg n = if (n.floor.toNat : Rat) < n then n.floor.toNat + 1 else n.floor.toNat := by
  rcases h with ⟨rfl, rfl⟩ | ⟨rfl, rfl⟩ <;> simp [roundQuanta]

theorem roundQuanta_nearest (neg : Bool) (n : Rat) : roundQuanta 0 neg n =
    if 1 / 2 < n - n.floor.toNat ∨ (n - n.floor.toNat = 1 / 2 ∧ n.floor.toNat % 2 = 1) then n.floor.toNat + 1 else n.floor.toNat := by
  simp [roundQuanta, Rat.mkRat_eq_div]

theorem roundQuanta_cases (mode : Nat) (neg : Bool) (n : Rat) : roundQuanta mode neg n = n.floor.toNat ∨
    (roundQuanta mode neg n = n.floor.toNat + 1 ∧ (n.floor.toNat : Rat) < n) := by
  unfold roundQuanta
  extract_lets f r up
  split
  next h =>
    refine .inr ⟨rfl, sub_pos.mp (show 0 < r from ?_)⟩
    have half : (0 : Rat) < mkRat 1 2 := by norm_num [Rat.mkRat_eq_div]
    revert h
    dsimp only [up]
    split
    · simp only [Bool.or_eq_true, decide_eq_true_eq, Bool.and_eq_true, beq_iff_eq]
      rintro (h | ⟨h, -⟩)
      · exact half.trans h
      · exact h ▸ half
    · exact nofun
    · simp
    · simp
  next => exact .inl rfl

theorem roundsDown_or_roundsUp {mode : Nat} (h : mode < 4) (neg : Bool) : mode = 0 ∨ RoundsDown mode neg ∨ RoundsUp mode neg := by
  unfold RoundsDown RoundsUp
  cases neg <;> simp <;> omega

section
variable (f : FloatFmt) (e : Int) (mode : Nat) (neg : Bool) {m : Rat} (hm : 0 < m)
include hm

theorem roundFrom_eq : roundFrom f e mode neg m =
    roundQuanta mode neg (m / (2 : Rat) ^ (scale e m - f.fracBits)) * (2 : Rat) ^ (scale e m - f.fracBits) := by
  simp only [roundFrom, hm.ne', if_false, pow2_eq_zpow, scale]

/-- Every mode gives a neighbour, and the one above only of what is no magnitude. -/
theorem roundFrom_cases :
    roundFrom f e mode neg m = steps f.fracBits e m * (2 : Rat) ^ (scale e m - f.fracBits) ∨
    (roundFrom f e mode neg m = (steps f.fracBits e m + 1) * (2 : Rat) ^ (scale e m - f.fracBits) ∧
      steps f.fracBits e m * (2 : Rat) ^ (scale e m - f.fracBits) < m) := by
  rw [roundFrom_eq f e mode neg hm]
  rcases roundQuanta_cases mode neg (m / (2 : Rat) ^ (scale e m - f.fracBits)) with h | ⟨h, hlt⟩
  · exact .inl (by rw [h, steps])
  · exact .inr ⟨by rw [h, steps]; push_cast; rfl, (lt_div_iff₀ (two_zpow_pos _)).mp hlt⟩

theorem exists_roundFrom_eq : ∃ k : Nat, k ≤ 2 ^ (f.fracBits + 1) ∧ roundFrom f e mode neg m = k * (2 : Rat) ^ (scale e m - f.fracBits) := by
  have hk := steps_lt (p := f.fracBits) (e := e) hm
  rcases roundFrom_cases f e mode neg hm with h | ⟨h, -⟩
  · exact ⟨_, hk.le, h⟩
  · exact ⟨_, hk, by rw [h]; push_cast; rfl⟩

theorem onGrid_roundFrom : OnGrid f.fracBits e (roundFrom f e mode neg m) := by
  obtain ⟨k, hk, h⟩ := exists_roundFrom_eq f e mode neg hm
  rw [h]
  exact onGrid_mul hk (le_scale e m)

/-- Rounding keeps the order with the magnitudes of the format. -/
theorem roundFrom_le {y : Rat} (hy : OnGrid f.fracBits e y) (h : m ≤ y) : roundFrom f e mode neg m ≤ y := by
  rcases roundFrom_cases f e mode neg hm with hr | ⟨hr, hlt⟩
  · exact hr.trans_le ((steps_spec hm).1.trans h)
  · exact hr.trans_le ((hy.outside hm).resolve_left (not_le.mpr (hlt.trans_le h)))

theorem le_roundFrom {y : Rat} (hy : OnGrid f.fracBits e y) (h : y ≤ m) : y ≤ roundFrom f e mode neg m := by
  have hl := (hy.outside hm).resolve_right (not_le.mpr (h.trans_lt (steps_spec hm).2))
  rcases roundFrom_cases f e mode neg hm with hr | ⟨hr, -⟩
  · exact hl.trans_eq hr.symm
  · exact hl.trans (hr.symm ▸ by have := two_zpow_pos (scale e m - f.fracBits); linarith)

theorem roundFrom_of_onGrid (h : OnGrid f.fracBits e m) : roundFrom f e mode neg m = m :=
  (roundFrom_le f e mode neg hm h le_rfl).antisymm (le_roundFrom f e mode neg hm h le_rfl)

variable {mode neg}

theorem roundFrom_down (hd : RoundsDown mode neg) : roundFrom f e mode neg m ≤ m := by
  rw [roundFrom_eq f e mode neg hm, roundQuanta_down hd]
  exact (steps_spec hm).1

theorem roundFrom_up (hd : RoundsUp mode neg) : m ≤ roundFrom f e mode neg m := by
  obtain ⟨hl, hu⟩ := steps_spec (p := f.fracBits) (e := e) hm
  rw [roundFrom_eq f e mode neg hm, roundQuanta_up hd]
  split
  · push_cast
    exact hu.le
  next h => exact (div_le_iff₀ (two_zpow_pos _)).mp (not_lt.mp h)

variable (neg)

/-- To nearest decides by the midpoint of the neighbours, and there by whether the lower one is an even number of spacings. -/
theorem roundFrom_nearest_cases :
    let n := steps f.fracBits e m
    let u := (2 : Rat) ^ (scale e m - f.fracBits)
    (roundFrom f e 0 neg m = n * u ∧ (m < n * u + u / 2 ∨ (m = n * u + u / 2 ∧ n % 2 = 0))) ∨
      (roundFrom f e 0 neg m = (n + 1) * u ∧ (n * u + u / 2 < m ∨ (m = n * u + u / 2 ∧ n % 2 = 1))) := by
  intro n u
  have hu : 0 < u := two_zpow_pos _
  have hd : m / u * u = m := div_mul_cancel₀ _ hu.ne'
  have hlt : 1 / 2 < m / u - n ↔ n * u + u / 2 < m := by
    rw [← mul_lt_mul_iff_of_pos_right hu, sub_mul, hd]
    constructor <;> intro h <;> linarith
  have heq : m / u - n = 1 / 2 ↔ m = n * u + u / 2 := by
    rw [← mul_left_inj' hu.ne', sub_mul, hd]
    constructor <;> intro h <;> linarith
  have hr : roundFrom f e 0 neg m = (if n * u + u / 2 < m ∨ (m = n * u + u / 2 ∧ n % 2 = 1) then n + 1 else n : Nat) * u := by
    rw [roundFrom_eq f e 0 neg hm, roundQuanta_nearest]
    exact congrArg (fun k : Nat => (k : Rat) * u) (if_congr (or_congr hlt (and_congr_left' heq)) rfl rfl)
  split at hr
  next h => exact .inr ⟨by rw [hr]; push_cast; rfl, h⟩
  next h =>
    obtain ⟨h1, h2⟩ := not_or.mp h
    exact .inl ⟨hr, (not_lt.mp h1).lt_or_eq.imp_right fun h => ⟨h, Nat.mod_two_ne_one.mp fun h' => h2 ⟨h, h'⟩⟩⟩

/-- To nearest gives the nearest magnitude, and on a tie an even number of spacings. -/
theorem roundFrom_nearest : ∃ k : Nat, k ≤ 2 ^ (f.fracBits + 1) ∧ roundFrom f e 0 neg m = k * (2 : Rat) ^ (scale e m - f.fracBits) ∧
    ∀ y, OnGrid f.fracBits e y → |roundFrom f e 0 neg m - m| ≤ |y - m| ∧
      (y ≠ roundFrom f e 0 neg m → |roundFrom f e 0 neg m - m| = |y - m| → k % 2 = 0) := by
  obtain ⟨h1, h2⟩ := steps_spec (p := f.fracBits) (e := e) hm
  have hk := steps_lt (p := f.fracBits) (e := e) hm
  have hout (y : Rat) (hy : OnGrid f.fracBits e y) := hy.outside hm
  have hc := roundFrom_nearest_cases f e neg hm
  have hu := two_zpow_pos (scale e m - f.fracBits)
  dsimp only at hc
  generalize steps f.fracBits e m = n at *
  generalize (2 : Rat) ^ (scale e m - f.fracBits) = u at *
  rcases hc with ⟨hr, hc⟩ | ⟨hr, hc⟩ <;> rw [hr]
  · refine ⟨n, hk.le, rfl, fun y hy => ?_⟩
    have hle : m ≤ n * u + u / 2 := hc.elim le_of_lt fun h => h.1.le
    rw [abs_of_nonpos (sub_nonpos.mpr h1)]
    rcases hout y hy with hy | hy
    · rw [abs_of_nonpos (by linarith)]
      exact ⟨by linarith, fun hne heq => absurd (by linarith) hne⟩
    · rw [abs_of_nonneg (by linarith)]
      refine ⟨by linarith, fun _ heq => (hc.resolve_left fun h => ?_).2⟩
      linarith
  · refine ⟨n + 1, hk, by push_cast; rfl, fun y hy => ?_⟩
    have hle : n * u + u / 2 ≤ m := hc.elim le_of_lt fun h => h.1.ge
    rw [abs_of_nonneg (by linarith)]
    rcases hout y hy with hy | hy
    · rw [abs_of_nonpos (by linarith)]
      refine ⟨by linarith, fun _ heq => ?_⟩
      have := (hc.resolve_left fun h => by linarith).2
      omega
    · rw [abs_of_nonneg (by linarith)]
      exact ⟨by linarith, fun hne heq => absurd (by linarith) hne⟩

end

end Sys2Proof.Laws
end

section
/-! SUPPORT. The codes of a floating-point format and the values they stand for, and the neighbour that a rounding mode names (R111, R115,
R116). -/

namespace Sys2Proof.Laws

open Sys2Proof.Machine Sys2Proof.Safety

/-! ## Codes (R111) -/

/-- How many exponent codes hold no finite value, and the fraction steps of the largest one. -/
def reserved (f : FloatFmt) : Nat := match f.top with | .ieee | .ieeeQuiet => 1 | .oneNan | .finite => 0
def topSteps (f : FloatFmt) : Nat := match f.top with | .oneNan => 2 ^ (f.fracBits + 1) - 2 | _ => 2 ^ (f.fracBits + 1) - 1

/-- The field widths of a format give it normal values, its exponents lie far above the least one that rounding considers,
and the largest value has an even fraction in e4m3 alone. -/
structure FormatOk (f : FloatFmt) : Prop where
  frac : 1 ≤ f.fracBits
  exp : 2 ≤ f.expBits
  bias : f.bias ≤ 1000
  odd : topSteps f % 2 = 1 ↔ f ≠ e4m3

theorem formatOk : ∀ f ∈ [f32, f16, bf16, e5m2, e4m3, e2m1], FormatOk f := by
  have ok {f : FloatFmt} (h : 1 ≤ f.fracBits ∧ 2 ≤ f.expBits ∧ f.bias ≤ 1000 ∧ (topSteps f % 2 = 1 ↔ f ≠ e4m3)) : FormatOk f :=
    ⟨h.1, h.2.1, h.2.2.1, h.2.2.2⟩
  simp only [List.forall_mem_cons, List.not_mem_nil, false_implies, implies_true, and_true]
  and_intros <;> exact ok (by decide)

theorem largest_eq (f : FloatFmt) : f.largest = topSteps f * (2 : Rat) ^ (f.emax - f.fracBits) := by
  unfold FloatFmt.largest topSteps
  refine congrArg₂ (· * ·) ?_ (pow2_eq_zpow _)
  cases f.top <;> rfl

/-- What the fields of a code say where it is finite (R111). -/
structure FiniteFields (f : FloatFmt) (e x : Nat) : Prop where
  exp : e + reserved f < 2 ^ f.expBits
  top : e + reserved f + 1 = 2 ^ f.expBits → 2 ^ f.fracBits + x ≤ topSteps f

theorem finiteFields_iff (f : FloatFmt) (e x : Nat) : FiniteFields f e x ↔
    e + reserved f < 2 ^ f.expBits ∧ (e + reserved f + 1 = 2 ^ f.expBits → 2 ^ f.fracBits + x ≤ topSteps f) :=
  ⟨fun h => ⟨h.1, h.2⟩, fun h => ⟨h.1, h.2⟩⟩

def fieldsValue (f : FloatFmt) (e x : Nat) : Rat :=
  if e = 0 then x * (2 : Rat) ^ (f.emin - f.fracBits) else ((2 ^ f.fracBits + x : Nat) : Rat) * (2 : Rat) ^ ((e : Int) - f.bias - f.fracBits)

section
variable {f : FloatFmt} (hf : FormatOk f)
include hf

theorem emax_eq : f.emax = f.emin + (2 ^ f.expBits - 2 - reserved f : Nat) ∧ f.emin < f.emax := by
  have h4 : 2 ^ 2 ≤ 2 ^ f.expBits := Nat.pow_le_pow_right (by omega) hf.exp
  have he : f.emax = (2 ^ f.expBits - 1 : Nat) - (f.bias : Int) - (reserved f : Nat) := by
    unfold FloatFmt.emax reserved
    cases f.top <;> rfl
  have hr : reserved f ≤ 1 := by unfold reserved; split <;> omega
  rw [he, FloatFmt.emin]
  omega

theorem topSteps_bounds : 2 ^ f.fracBits ≤ topSteps f ∧ topSteps f < 2 ^ (f.fracBits + 1) := by
  have h2 : 2 ^ 1 ≤ 2 ^ f.fracBits := Nat.pow_le_pow_right (by omega) hf.frac
  unfold topSteps
  split <;> rw [pow_succ] <;> omega

theorem expField_lt (code : Nat) : bits code (f.signBit - 1) f.fracBits < 2 ^ f.expBits := by
  have hw : f.signBit - 1 + 1 - f.fracBits = f.expBits := by have := hf.exp; unfold FloatFmt.signBit; omega
  rw [bits, hw]
  exact Nat.mod_lt _ (by positivity)

/-- Exactly the codes whose fields are those of a finite value decode to one: its sign and the value of its fields (R111). -/
theorem decode_eq_fin {code : Nat} {neg : Bool} {m : Rat} : f.decode code = .fin neg m ↔
    neg = decide (bits code f.signBit f.signBit = 1) ∧ FiniteFields f (bits code (f.signBit - 1) f.fracBits) (code % 2 ^ f.fracBits) ∧
      m = fieldsValue f (bits code (f.signBit - 1) f.fracBits) (code % 2 ^ f.fracBits) := by
  have hx : code % 2 ^ f.fracBits < 2 ^ f.fracBits := Nat.mod_lt _ (by positivity)
  have he := expField_lt hf code
  unfold FloatFmt.decode
  dsimp only
  generalize bits code (f.signBit - 1) f.fracBits = e at *
  generalize code % 2 ^ f.fracBits = x at *
  have hfin : (if e = 0 then FVal.fin (decide (bits code f.signBit f.signBit = 1)) (x * pow2 (f.emin - f.fracBits))
      else FVal.fin (decide (bits code f.signBit f.signBit = 1)) (((2 ^ f.fracBits + x : Nat) : Rat) * pow2 (e - f.bias - f.fracBits))) =
      .fin (decide (bits code f.signBit f.signBit = 1)) (fieldsValue f e x) := by
    simp only [fieldsValue, pow2_eq_zpow]
    split <;> rfl
  rw [hfin]
  have hff := finiteFields_iff f e x
  have hp := pow_succ 2 f.fracBits
  have finite_unless {c : Prop} [Decidable c] {v : FVal} (hv : v ≠ .fin neg m) (hc : FiniteFields f e x ↔ ¬c) :
      (if c then v else .fin (decide (bits code f.signBit f.signBit = 1)) (fieldsValue f e x)) = .fin neg m ↔
        neg = decide (bits code f.signBit f.signBit = 1) ∧ FiniteFields f e x ∧ m = fieldsValue f e x := by
    rw [hc]
    split
    next h => exact ⟨fun h' => absurd h' hv, fun h' => absurd h h'.2.1⟩
    next h =>
      rw [FVal.fin.injEq, eq_comm, eq_comm (a := fieldsValue f e x)]
      exact and_congr_right' (iff_and_self.mpr fun _ => h)
  unfold reserved topSteps at hff
  cases ht : f.top with
  | ieee => exact finite_unless (by split <;> nofun) (by simp only [ht] at hff; rw [hff]; omega)
  | ieeeQuiet => exact finite_unless (by split <;> nofun) (by simp only [ht] at hff; rw [hff]; omega)
  | oneNan =>
    refine Iff.trans ?_ (finite_unless (c := e = 2 ^ f.expBits - 1 ∧ x = 2 ^ f.fracBits - 1) (v := .nan false) nofun
      (by simp only [ht] at hff; rw [hff]; omega))
    simp
  | finite =>
    refine Iff.trans ?_ (finite_unless (c := False) (v := .nan false) nofun
      (by simp only [ht] at hff; simp only [hff, not_false_eq_true, iff_true]; omega))
    simp

end

theorem bits_signed (f : FloatFmt) (neg : Bool) {c : Nat} (hc : c < 2 ^ f.signBit) (he : 1 ≤ f.expBits) :
    let code := (if neg then 2 ^ f.signBit else 0) + c
    decide (bits code f.signBit f.signBit = 1) = neg ∧ bits code (f.signBit - 1) f.fracBits = c / 2 ^ f.fracBits ∧
      code % 2 ^ f.fracBits = c % 2 ^ f.fracBits ∧ code < 2 ^ (f.signBit + 1) := by
  intro code
  have hs : 2 ^ f.signBit = 2 ^ f.expBits * 2 ^ f.fracBits := by rw [FloatFmt.signBit, pow_add]
  have hw : f.signBit - 1 + 1 - f.fracBits = f.expBits := by unfold FloatFmt.signBit; omega
  have hq : c / 2 ^ f.fracBits < 2 ^ f.expBits := Nat.div_lt_of_lt_mul (by rwa [mul_comm, ← hs])
  have hn : code / 2 ^ f.signBit = if neg then 1 else 0 := by
    cases neg
    · simpa [code] using Nat.div_eq_of_lt hc
    · simp [code, Nat.add_div_left, Nat.div_eq_of_lt hc]
  simp only [bits, hw, show f.signBit + 1 - f.signBit = 1 by omega, hn]
  refine ⟨by cases neg <;> rfl, ?_, ?_, ?_⟩
  · cases neg
    · simpa [code] using Nat.mod_eq_of_lt hq
    · simp only [code, if_true, hs]
      rw [mul_comm (2 ^ f.expBits), Nat.mul_add_div (by positivity), Nat.add_mod_left, Nat.mod_eq_of_lt hq]
  · cases neg
    · simp [code]
    · simp only [code, if_true, hs]
      rw [mul_comm (2 ^ f.expBits), Nat.mul_add_mod]
  · simp only [code, pow_succ]
    split <;> omega

/-- A magnitude by its steps, as many as the fraction and the bit above it hold, and its exponent. -/
theorem OnGrid.normal {p : Nat} {e : Int} {y : Rat} (h : OnGrid p e y) :
    ∃ (k : Nat) (E : Int), k < 2 ^ (p + 1) ∧ e ≤ E ∧ (E = e ∨ 2 ^ p ≤ k) ∧ y = k * (2 : Rat) ^ (E - p) := by
  rcases h.nonneg.eq_or_lt with rfl | hy
  · exact ⟨0, e, by positivity, le_rfl, .inl rfl, by simp⟩
  · obtain ⟨k, hk⟩ := h.multiple (scale_cases hy)
    have hu := two_zpow_pos (scale e y - p)
    refine ⟨k, scale e y, ?_, le_scale e y, (scale_cases hy).imp_right fun hs => ?_, hk⟩
    · have hlt := hk.symm.trans_lt (lt_two_zpow_scale (e := e) hy)
      rw [two_zpow_succ_eq_steps p] at hlt
      exact_mod_cast lt_of_mul_lt_mul_right hlt hu.le
    · rw [two_zpow_eq_steps p] at hs
      exact_mod_cast le_of_mul_le_mul_right (hs.trans_eq hk) hu

theorem scale_mul {p k : Nat} {e E : Int} (h0 : 0 < k) (hk : k < 2 ^ (p + 1)) (he : e ≤ E) (hn : E = e ∨ 2 ^ p ≤ k) :
    scale e (k * (2 : Rat) ^ (E - p)) = E := by
  have hm : (0 : Rat) < k * (2 : Rat) ^ (E - p) := by positivity
  have hu : k * (2 : Rat) ^ (E - p) < 2 ^ (E + 1) := by
    rw [two_zpow_succ_eq_steps p]
    gcongr
  obtain ⟨hl, -⟩ := floorLog2_spec hm
  have hle := two_zpow_lt.mp (hl.trans_lt hu)
  rcases hn with rfl | hn
  · exact max_eq_right (by omega)
  · have hl : (2 : Rat) ^ E ≤ k * (2 : Rat) ^ (E - p) := by
      rw [two_zpow_eq_steps p]
      gcongr
    rw [scale, floorLog2_eq hl hu]
    omega

theorem encodeFin_lt (f : FloatFmt) (neg : Bool) {k : Nat} {E : Int} (hk : k < 2 ^ (f.fracBits + 1)) (he : f.emin ≤ E)
    (hn : E = f.emin ∨ 2 ^ f.fracBits ≤ k) :
    f.encodeFin neg (k * (2 : Rat) ^ (E - f.fracBits)) =
      (if neg then 2 ^ f.signBit else 0) + ((E - f.emin).toNat * 2 ^ f.fracBits + k) := by
  rcases k.eq_zero_or_pos with rfl | h0
  · have : E = f.emin := hn.resolve_right (by simp)
    simp [FloatFmt.encodeFin, this]
  · have hu := two_zpow_pos (E - f.fracBits)
    have hm : (k : Rat) * (2 : Rat) ^ (E - f.fracBits) ≠ 0 := by positivity
    have hs := scale_mul h0 hk he hn
    unfold scale at hs
    simp only [FloatFmt.encodeFin, hm, if_false, hs, pow2_eq_zpow, mul_div_cancel_right₀ _ hu.ne', Rat.num_natCast, Int.toNat_natCast]
    split
    next h =>
      rw [hn.resolve_right (by omega)]
      simp
    next h =>
      rw [show (E + f.bias).toNat = (E - f.emin).toNat + 1 by unfold FloatFmt.emin at he ⊢; omega, Nat.add_mul]
      omega

/-- The code of a magnitude is how many magnitudes lie below it, the sign bit aside. -/
theorem encodeFin_mul (f : FloatFmt) (neg : Bool) {k : Nat} {E : Int} (hk : k ≤ 2 ^ (f.fracBits + 1)) (he : f.emin ≤ E)
    (hn : E = f.emin ∨ 2 ^ f.fracBits ≤ k) :
    f.encodeFin neg (k * (2 : Rat) ^ (E - f.fracBits)) =
      (if neg then 2 ^ f.signBit else 0) + ((E - f.emin).toNat * 2 ^ f.fracBits + k) := by
  rcases hk.lt_or_eq with hk | rfl
  · exact encodeFin_lt f neg hk he hn
  · have h := encodeFin_lt f neg (Nat.pow_lt_pow_right one_lt_two f.fracBits.lt_succ_self) (he.trans (by omega : E ≤ E + 1)) (.inr le_rfl)
    have hv : ((2 ^ (f.fracBits + 1) : Nat) : Rat) * 2 ^ (E - f.fracBits) = ((2 ^ f.fracBits : Nat) : Rat) * 2 ^ (E + 1 - f.fracBits) := by
      rw [show E + 1 - (f.fracBits : Int) = 1 + (E - f.fracBits) by ring, two_zpow_add]
      push_cast
      ring
    rw [hv, h, show (E + 1 - f.emin).toNat = (E - f.emin).toNat + 1 by omega, pow_succ]
    ring

/-! ## Values -/

section
variable {f : FloatFmt} (hf : FormatOk f)
include hf

/-- The steps and the exponent of the finite values (R111). -/
theorem mul_le_largest {k : Nat} {E : Int} (hk : k ≤ 2 ^ (f.fracBits + 1)) (hE : E ≤ f.emax) (ht : E = f.emax → k ≤ topSteps f) :
    k * (2 : Rat) ^ (E - f.fracBits) ≤ f.largest := by
  rw [largest_eq]
  rcases hE.lt_or_eq with hE | rfl
  · calc k * (2 : Rat) ^ (E - f.fracBits) ≤ (2 ^ (f.fracBits + 1) : Nat) * (2 : Rat) ^ (E - f.fracBits) := by gcongr
      _ = (2 : Rat) ^ (E + 1) := (two_zpow_succ_eq_steps ..).symm
      _ ≤ (2 : Rat) ^ f.emax := two_zpow_le.mpr hE
      _ = (2 ^ f.fracBits : Nat) * (2 : Rat) ^ (f.emax - f.fracBits) := two_zpow_eq_steps ..
      _ ≤ topSteps f * (2 : Rat) ^ (f.emax - f.fracBits) := by gcongr; exact (topSteps_bounds hf).1
  · gcongr
    exact ht rfl

theorem two_zpow_le_largest {E : Int} (hE : E ≤ f.emax) : (2 : Rat) ^ E ≤ f.largest := by
  rw [two_zpow_eq_steps f.fracBits]
  exact mul_le_largest hf (Nat.pow_le_pow_right (by omega) (by omega)) hE fun _ => (topSteps_bounds hf).1

theorem largest_lt : f.largest < (2 : Rat) ^ (f.emax + 1) := by
  rw [largest_eq, two_zpow_succ_eq_steps f.fracBits]
  gcongr
  exact (topSteps_bounds hf).2

theorem le_emax_of_le_largest {k : Nat} {E : Int} (hn : E = f.emin ∨ 2 ^ f.fracBits ≤ k) (h : k * (2 : Rat) ^ (E - f.fracBits) ≤ f.largest) :
    E ≤ f.emax ∧ (E = f.emax → k ≤ topSteps f) := by
  constructor
  · rcases hn with rfl | hn
    · exact (emax_eq hf).2.le
    · have : (2 : Rat) ^ E < 2 ^ (f.emax + 1) := by
        calc (2 : Rat) ^ E = (2 ^ f.fracBits : Nat) * (2 : Rat) ^ (E - f.fracBits) := two_zpow_eq_steps ..
          _ ≤ k * (2 : Rat) ^ (E - f.fracBits) := by gcongr
          _ ≤ f.largest := h
          _ < 2 ^ (f.emax + 1) := largest_lt hf
      have := two_zpow_lt.mp this
      omega
  · rintro rfl
    rw [largest_eq] at h
    exact_mod_cast le_of_mul_le_mul_right h (two_zpow_pos _)

end

/-! ## Signs -/

theorem signedRat_abs (q : Rat) : signedRat (decide (q < 0)) |q| = q := by
  unfold signedRat
  split
  next h => rw [abs_of_neg (of_decide_eq_true h), neg_neg]
  next h => exact abs_of_nonneg (not_lt.mp fun h' => h (decide_eq_true h'))

theorem abs_signedRat (neg : Bool) {m : Rat} (h : 0 ≤ m) : |signedRat neg m| = m := by
  cases neg <;> simp [signedRat, abs_of_nonneg h]

theorem signedRat_sign (neg : Bool) {m : Rat} (h : 0 < m) : (signedRat neg m < 0 ↔ neg = true) ∧ (0 < signedRat neg m ↔ neg = false) := by
  cases neg <;> simp [signedRat, h, h.le]

theorem signedRat_lt_zero (neg : Bool) {m : Rat} (h : 0 < m) : decide (signedRat neg m < 0) = neg := by
  simp [signedRat_sign neg h]

theorem signedRat_ne_zero (neg : Bool) {m : Rat} (h : 0 < m) : signedRat neg m ≠ 0 := by
  cases neg <;> simp [signedRat, h.ne']

@[simp] theorem signedRat_signedRat (neg : Bool) (m : Rat) : signedRat neg (signedRat neg m) = m := by
  cases neg <;> simp [signedRat]

@[simp] theorem signedRat_inj {neg : Bool} {m n : Rat} : signedRat neg m = signedRat neg n ↔ m = n := by
  cases neg <;> simp [signedRat]

theorem abs_signedRat_sub (neg : Bool) (m n : Rat) : |signedRat neg m - signedRat neg n| = |m - n| := by
  cases neg
  · rfl
  · simp only [signedRat, if_true, neg_sub_neg, abs_sub_comm]

/-! ## Decoding and encoding -/

section
variable {f : FloatFmt} (hf : FormatOk f)
include hf

/-- A code put together from its fields. -/
theorem decode_fields (neg : Bool) {e x : Nat} (hx : x < 2 ^ f.fracBits) (hff : FiniteFields f e x) :
    let code := (if neg then 2 ^ f.signBit else 0) + (e * 2 ^ f.fracBits + x)
    f.decode code = .fin neg (fieldsValue f e x) ∧ code < 2 ^ (f.signBit + 1) := by
  have he : e < 2 ^ f.expBits := by have := hff.exp; omega
  have hc : e * 2 ^ f.fracBits + x < 2 ^ f.signBit := by
    rw [FloatFmt.signBit, pow_add]
    calc e * 2 ^ f.fracBits + x < (e + 1) * 2 ^ f.fracBits := by rw [Nat.add_mul]; omega
      _ ≤ 2 ^ f.expBits * 2 ^ f.fracBits := Nat.mul_le_mul_right _ he
  obtain ⟨hs, hexp, hfr, hlt⟩ := bits_signed f neg hc (by have := hf.exp; omega)
  rw [mul_comm e, Nat.mul_add_div (by positivity), Nat.div_eq_of_lt hx, add_zero, mul_comm] at hexp
  rw [Nat.mul_add_mod_of_lt hx] at hfr
  refine ⟨(decode_eq_fin hf).mpr ?_, hlt⟩
  rw [hs, hexp, hfr]
  exact ⟨rfl, hff, rfl⟩

/-- Every magnitude of the format up to the largest has a code for either sign. -/
theorem decode_encodeFin (neg : Bool) {m : Rat} (hg : OnGrid f.fracBits f.emin m) (hl : m ≤ f.largest) :
    f.decode (f.encodeFin neg m) = .fin neg m ∧ f.encodeFin neg m < 2 ^ (f.signBit + 1) := by
  obtain ⟨k, E, hk, hE, hn, rfl⟩ := hg.normal
  obtain ⟨hmax, htop⟩ := le_emax_of_le_largest hf hn hl
  obtain ⟨hem, -⟩ := emax_eq hf
  have h4 : 2 ^ 2 ≤ 2 ^ f.expBits := Nat.pow_le_pow_right (by omega) hf.exp
  have hr : reserved f ≤ 1 := by unfold reserved; split <;> omega
  rw [encodeFin_lt f neg hk hE hn]
  rcases lt_or_ge k (2 ^ f.fracBits) with hlt | hge
  · obtain rfl := hn.resolve_right (by omega)
    have hd := decode_fields hf neg (e := 0) hlt ⟨by omega, by omega⟩
    simpa [fieldsValue] using hd
  · obtain ⟨x, rfl⟩ := Nat.exists_eq_add_of_le hge
    have hd := decode_fields hf neg (e := (E - f.emin).toNat + 1) (x := x) (by rw [pow_succ] at hk; omega)
      ⟨by omega, fun h => htop (by omega)⟩
    have hv : fieldsValue f ((E - f.emin).toNat + 1) x = ((2 ^ f.fracBits + x : Nat) : Rat) * 2 ^ (E - f.fracBits) := by
      rw [fieldsValue, if_neg (by omega), show (((E - f.emin).toNat + 1 : Nat) : Int) - f.bias = E by unfold FloatFmt.emin at *; omega]
    rw [hv, Nat.add_mul, one_mul, Nat.add_assoc _ _ x] at hd
    exact hd

/-- What a code's finite value may be. -/
theorem onGrid_of_decode {code : Nat} {neg : Bool} {m : Rat} (h : f.decode code = .fin neg m) :
    OnGrid f.fracBits f.emin m ∧ m ≤ f.largest := by
  obtain ⟨-, hff, rfl⟩ := (decode_eq_fin hf).mp h
  have hx : code % 2 ^ f.fracBits < 2 ^ f.fracBits := Nat.mod_lt _ (by positivity)
  generalize bits code (f.signBit - 1) f.fracBits = e at *
  generalize code % 2 ^ f.fracBits = x at *
  obtain ⟨hem, hlt⟩ := emax_eq hf
  obtain ⟨hexp, htop⟩ := hff
  have hp := pow_succ 2 f.fracBits
  unfold fieldsValue
  split
  · exact ⟨onGrid_mul (by omega) le_rfl, mul_le_largest hf (by omega) hlt.le (by omega)⟩
  next he =>
    have hE : f.emin ≤ (e : Int) - f.bias := by unfold FloatFmt.emin; omega
    refine ⟨onGrid_mul (by omega) hE, mul_le_largest hf (by omega) ?_ fun h => htop ?_⟩
    all_goals unfold FloatFmt.emin at *; omega

/-- The values of the format (R111), by their magnitudes. -/
theorem isValue_iff {y : Rat} : IsValue f y ↔ OnGrid f.fracBits f.emin |y| ∧ |y| ≤ f.largest := by
  constructor
  · rintro ⟨code, neg, m, -, hd, rfl⟩
    obtain ⟨hg, hl⟩ := onGrid_of_decode hf hd
    rw [abs_signedRat neg hg.nonneg]
    exact ⟨hg, hl⟩
  · rintro ⟨hg, hl⟩
    obtain ⟨hd, hlt⟩ := decode_encodeFin hf (decide (y < 0)) hg hl
    exact ⟨_, _, _, hlt, hd, (signedRat_abs y).symm⟩

/-- The magnitude of an even number of steps has an even code. -/
theorem encodeFin_even (neg : Bool) {k : Nat} {E : Int} (hk : k ≤ 2 ^ (f.fracBits + 1)) (he : f.emin ≤ E)
    (hn : E = f.emin ∨ 2 ^ f.fracBits ≤ k) (h2 : k % 2 = 0) : f.encodeFin neg (k * (2 : Rat) ^ (E - f.fracBits)) % 2 = 0 := by
  have even_pow {n : Nat} (h : 1 ≤ n) : 2 ∣ 2 ^ n := dvd_pow_self 2 (by omega)
  have hs : 2 ∣ (if neg then 2 ^ f.signBit else 0) := by
    split
    · exact even_pow (by have := hf.frac; unfold FloatFmt.signBit; omega)
    · exact dvd_zero 2
  rw [encodeFin_mul f neg hk he hn]
  exact Nat.mod_eq_zero_of_dvd (dvd_add hs (dvd_add ((even_pow hf.frac).mul_left _) (Nat.dvd_of_mod_eq_zero h2)))

/-! ## The neighbour that a mode names -/

theorem largest_pos : 0 < f.largest := by
  have h : 0 < topSteps f := lt_of_lt_of_le (by positivity) (topSteps_bounds hf).1
  rw [largest_eq]
  positivity

theorem onGrid_largest : OnGrid f.fracBits f.emin f.largest := by
  rw [largest_eq]
  exact onGrid_mul (topSteps_bounds hf).2.le (emax_eq hf).2.le

omit hf in
/-- What rounding gives has its top bit set where the exponent is not the least. -/
theorem roundFrom_normal {mode : Nat} {neg : Bool} {e : Int} {m : Rat} (hm : 0 < m) {k : Nat}
    (h : roundFrom f e mode neg m = k * (2 : Rat) ^ (scale e m - f.fracBits)) : scale e m = e ∨ 2 ^ f.fracBits ≤ k := by
  refine (scale_cases hm).imp_right fun hs => ?_
  have hle := le_roundFrom f e mode neg hm (onGrid_two_zpow (le_scale e m)) hs
  rw [h, two_zpow_eq_steps f.fracBits] at hle
  exact_mod_cast le_of_mul_le_mul_right hle (two_zpow_pos _)

variable (neg : Bool) {m : Rat} (hm : 0 < m) (hl : m ≤ f.largest)
include hm

/-- To nearest: no value is nearer, and on a tie the code is even (R116). -/
theorem roundFrom_isNearest {y : Rat} (hy : IsValue f y) :
    let x := signedRat neg (roundFrom f f.emin 0 neg m)
    ratAbs (x - signedRat neg m) ≤ ratAbs (y - signedRat neg m) ∧ (y ≠ x → ratAbs (x - signedRat neg m) = ratAbs (y - signedRat neg m) →
      (f.encodeFin neg (roundFrom f f.emin 0 neg m) % 2 == 0) = true) := by
  obtain ⟨hg, -⟩ := (isValue_iff hf).mp hy
  obtain ⟨z, rfl⟩ : ∃ z, y = signedRat neg z := ⟨signedRat neg y, (signedRat_signedRat neg y).symm⟩
  obtain ⟨k, hk, hr, hn⟩ := roundFrom_nearest f f.emin neg hm
  simp only [ratAbs_eq_abs, abs_signedRat_sub, ne_eq, signedRat_inj, beq_iff_eq]
  rcases le_or_gt 0 z with hz | hz
  · rw [abs_signedRat neg hz] at hg
    refine ⟨(hn z hg).1, fun hne htie => ?_⟩
    rw [hr]
    exact encodeFin_even hf neg hk (le_scale ..) (roundFrom_normal hm hr) ((hn z hg).2 hne htie)
  · have h0 := (hn 0 (onGrid_zero ..)).1
    rw [zero_sub, abs_neg, abs_of_pos hm] at h0
    have hlt : m < |z - m| := by rw [abs_of_neg (by linarith)]; linarith
    exact ⟨(h0.trans_lt hlt).le, fun _ htie => absurd htie (h0.trans_lt hlt).ne⟩

include hl

theorem isValue_roundFrom (mode : Nat) : IsValue f (signedRat neg (roundFrom f f.emin mode neg m)) := by
  have hg := onGrid_roundFrom f f.emin mode neg hm
  rw [isValue_iff hf, abs_signedRat neg hg.nonneg]
  exact ⟨hg, roundFrom_le f f.emin mode neg hm (onGrid_largest hf) hl⟩

theorem rounded_roundFrom (mode : Nat) : Rounded f mode (signedRat neg m) (signedRat neg (roundFrom f f.emin mode neg m))
    (f.encodeFin neg (roundFrom f f.emin mode neg m) % 2 == 0) := by
  have hg := onGrid_roundFrom f f.emin mode neg hm
  have h0 := hg.nonneg
  have lower {y : Rat} (hy : IsValue f y) (h : |y| ≤ m) : |y| ≤ roundFrom f f.emin mode neg m :=
    le_roundFrom f f.emin mode neg hm ((isValue_iff hf).mp hy).1 h
  have upper {y : Rat} (hy : IsValue f y) (h : m ≤ |y|) : roundFrom f f.emin mode neg m ≤ |y| :=
    roundFrom_le f f.emin mode neg hm ((isValue_iff hf).mp hy).1 h
  refine ⟨isValue_roundFrom hf neg hm hl mode, ?_, ?_, ?_, ?_⟩
  · rintro rfl y hy
    exact roundFrom_isNearest hf neg hm hy
  · rintro rfl
    simp only [ratAbs_eq_abs, abs_signedRat neg hm.le, abs_signedRat neg h0]
    refine ⟨roundFrom_down f _ hm (.inl rfl), ?_, fun y => lower⟩
    cases neg <;> simp only [signedRat, if_true, Bool.false_eq_true, if_false, neg_mul_neg] <;> positivity
  · rintro rfl
    cases neg
    · refine ⟨roundFrom_down f _ hm (.inr (.inl ⟨rfl, rfl⟩)), fun y hy h => ?_⟩
      rcases le_total y 0 with hy0 | hy0
      · exact hy0.trans h0
      · exact (abs_of_nonneg hy0).symm.trans_le (lower hy ((abs_of_nonneg hy0).trans_le h))
    · refine ⟨neg_le_neg (roundFrom_up f _ hm (.inl ⟨rfl, rfl⟩)), fun y hy h => ?_⟩
      have hya : |y| = -y := abs_of_nonpos (h.trans (neg_nonpos.mpr hm.le))
      exact le_neg.mp ((upper hy (hya ▸ le_neg.mp h)).trans_eq hya)
  · rintro rfl
    cases neg
    · refine ⟨roundFrom_up f _ hm (.inr ⟨rfl, rfl⟩), fun y hy h => ?_⟩
      have hya : |y| = y := abs_of_pos (hm.trans_le h)
      exact (upper hy ((show m ≤ y from h).trans_eq hya.symm)).trans_eq hya
    · refine ⟨neg_le_neg (roundFrom_down f _ hm (.inr (.inr ⟨rfl, rfl⟩))), fun y hy h => ?_⟩
      rcases le_total 0 y with hy0 | hy0
      · exact (neg_nonpos.mpr h0).trans hy0
      · have hya : |y| = -y := abs_of_nonpos hy0
        exact neg_le.mp (hya.symm.trans_le (lower hy (hya.trans_le (neg_le.mp h))))

end

end Sys2Proof.Laws
end

section
/-! SUPPORT. Tiny and overflowing results, and what a rounding gives (R115 to R117). -/

namespace Sys2Proof.Laws

open Sys2Proof.Machine Sys2Proof.Safety

/-! ## Tiny results (R116, R117) -/

/-- The result is tiny: rounded as if no exponent were too small, it lies below the least normal value. -/
abbrev Tiny (f : FloatFmt) (mode : Nat) (neg : Bool) (m : Rat) : Prop := roundFrom f (-100000) mode neg m < (2 : Rat) ^ f.emin

/-- Below the least normal value the magnitudes are evenly spaced. -/
theorem OnGrid.add_le_of_lt {p : Nat} {e : Int} {y : Rat} (h : OnGrid p e y) (hy : y < (2 : Rat) ^ e) :
    y + (2 : Rat) ^ (e - p) ≤ 2 ^ e := by
  have hu := two_zpow_pos (e - p)
  obtain ⟨k, rfl⟩ := h.multiple (.inl rfl)
  rw [two_zpow_eq_steps p e] at hy ⊢
  have hlt : k < 2 ^ p := by exact_mod_cast lt_of_mul_lt_mul_right hy hu.le
  calc k * (2 : Rat) ^ (e - p) + 2 ^ (e - p) = ((k + 1 : Nat) : Rat) * 2 ^ (e - p) := by push_cast; ring
    _ ≤ _ := by gcongr; exact hlt

section
variable {f : FloatFmt} (hf : FormatOk f) {mode : Nat} {neg : Bool} {m : Rat} (hm : 0 < m)
include hf

theorem emin_bounds : (-1000 : Int) ≤ f.emin := by have := hf.bias; unfold FloatFmt.emin; omega

include hm

theorem not_tiny_of_normal (h : (2 : Rat) ^ f.emin ≤ m) : ¬Tiny f mode neg m :=
  not_lt.mpr (le_roundFrom f _ mode neg hm (onGrid_two_zpow (by have := emin_bounds hf; omega)) h)

/-- The largest magnitude below the least normal value that the fraction bits give with a smaller exponent. -/
theorem tiny_of_le (h : m ≤ (2 : Rat) ^ f.emin - 2 ^ (f.emin - 1 - f.fracBits)) : Tiny f mode neg m := by
  have hv : (2 : Rat) ^ f.emin - 2 ^ (f.emin - 1 - f.fracBits) = (2 ^ (f.fracBits + 1) - 1 : Nat) * (2 : Rat) ^ (f.emin - 1 - f.fracBits) := by
    conv_lhs => rw [← sub_add_cancel f.emin 1, two_zpow_succ_eq_steps f.fracBits]
    rw [add_sub_cancel_right, Nat.cast_sub Nat.one_le_two_pow]
    push_cast
    ring
  have hg : OnGrid f.fracBits (-100000) ((2 : Rat) ^ f.emin - 2 ^ (f.emin - 1 - f.fracBits)) := by
    rw [hv]
    exact onGrid_mul (Nat.sub_le ..) (by have := emin_bounds hf; omega)
  exact (roundFrom_le f _ mode neg hm hg h).trans_lt (by have := two_zpow_pos (f.emin - 1 - f.fracBits); linarith)

/-- A result that the format rounds to a value below the least normal one is tiny. -/
theorem tiny_of_subnormal (hmode : mode < 4) (h : roundFrom f f.emin mode neg m < (2 : Rat) ^ f.emin) : Tiny f mode neg m := by
  set r := roundFrom f f.emin mode neg m with hr
  set u := (2 : Rat) ^ (f.emin - 1 - f.fracBits) with hu
  have hu0 : 0 < u := two_zpow_pos _
  have hu2 : (2 : Rat) ^ (f.emin - f.fracBits) = 2 * u := by
    rw [hu, show f.emin - f.fracBits = 1 + (f.emin - 1 - f.fracBits) by ring, two_zpow_add, zpow_one]
  have hstep : r ≤ (2 : Rat) ^ f.emin - 2 * u := by
    have hsub := (onGrid_roundFrom f f.emin mode neg hm).add_le_of_lt h
    rw [hu2] at hsub
    linarith
  have hbelow : m < (2 : Rat) ^ f.emin := by
    by_contra hge
    exact absurd (le_roundFrom f f.emin mode neg hm (onGrid_two_zpow le_rfl) (not_lt.mp hge)) (not_le.mpr h)
  rcases le_or_gt m ((2 : Rat) ^ f.emin - u) with hle | hgt
  · exact tiny_of_le hf hm hle
  rcases roundsDown_or_roundsUp hmode neg with rfl | hd | hup
  · obtain ⟨_, -, -, hn⟩ := roundFrom_nearest f f.emin neg hm
    have hnear := (hn _ (onGrid_two_zpow le_rfl)).1
    rw [← hr, abs_of_nonpos (by linarith), abs_of_pos (sub_pos.mpr hbelow)] at hnear
    linarith
  · exact (roundFrom_down f _ hm hd).trans_lt hbelow
  · have := roundFrom_up f f.emin hm hup
    linarith

end

/-! ## Results beyond the largest value (R115, R116) -/

/-- Half the spacing of the largest values. -/
def halfTop (f : FloatFmt) : Rat := (2 : Rat) ^ (f.emax - f.fracBits - 1)

theorem halfTop_pos (f : FloatFmt) : 0 < halfTop f := two_zpow_pos _

theorem two_zpow_top (f : FloatFmt) : (2 : Rat) ^ (f.emax - f.fracBits) = 2 * halfTop f := by
  rw [halfTop, show f.emax - (f.fracBits : Int) = 1 + (f.emax - f.fracBits - 1) by ring, two_zpow_add, zpow_one, add_sub_cancel_left]

/-- What would follow the largest value. -/
theorem largest_add (f : FloatFmt) : f.largest + 2 * halfTop f = (topSteps f + 1 : Nat) * (2 : Rat) ^ (f.emax - f.fracBits) := by
  rw [largest_eq, two_zpow_top]
  push_cast
  ring

section
variable {f : FloatFmt} (hf : FormatOk f)
include hf

theorem onGrid_largest_add : OnGrid f.fracBits f.emin (f.largest + 2 * halfTop f) := by
  rw [largest_add]
  exact onGrid_mul (topSteps_bounds hf).2 (emax_eq hf).2.le

variable {m : Rat} (hl : f.largest ≤ m) (hu : m < f.largest + 2 * halfTop f)
include hl hu

/-- Between the largest value and what would follow it. -/
theorem steps_of_top : scale f.emin m = f.emax ∧ steps f.fracBits f.emin m = topSteps f := by
  have hm : 0 < m := (largest_pos hf).trans_le hl
  obtain ⟨hk, hk'⟩ := topSteps_bounds hf
  rw [largest_add] at hu
  rw [largest_eq] at hl
  have hs : scale f.emin m = f.emax := by
    have hlow : (2 : Rat) ^ f.emax ≤ m := by
      rw [two_zpow_eq_steps f.fracBits]
      exact le_trans (by gcongr) hl
    have hhigh : m < 2 ^ (f.emax + 1) := by
      rw [two_zpow_succ_eq_steps f.fracBits]
      exact hu.trans_le (by gcongr; exact hk')
    rw [scale, floorLog2_eq hlow hhigh]
    exact max_eq_left (emax_eq hf).2.le
  refine ⟨hs, ?_⟩
  obtain ⟨h1, h2⟩ := steps_spec (p := f.fracBits) (e := f.emin) hm
  rw [hs] at h1 h2
  have hp := two_zpow_pos (f.emax - f.fracBits)
  have h3 := lt_of_mul_lt_mul_right (h1.trans_lt hu) hp.le
  have h4 := lt_of_mul_lt_mul_right (hl.trans_lt h2) hp.le
  norm_cast at h3 h4
  omega

/-- There, to nearest goes up from the midpoint on, and at the midpoint where the largest value is odd. -/
theorem largest_lt_nearest_iff (neg : Bool) : f.largest < roundFrom f f.emin 0 neg m ↔
    f.largest + halfTop f < m ∨ (f.largest + halfTop f = m ∧ f ≠ e4m3) := by
  obtain ⟨hs, hk⟩ := steps_of_top hf hl hu
  have hh := halfTop_pos f
  have hL := largest_eq f
  have hc := roundFrom_nearest_cases f f.emin neg ((largest_pos hf).trans_le hl)
  simp only [hs, hk, two_zpow_top, mul_div_cancel_left₀ _ (two_ne_zero' Rat)] at hc hL
  rw [← hL] at hc
  rcases hc with ⟨hr, hc⟩ | ⟨hr, hc⟩
  · refine iff_of_false hr.not_gt ?_
    rintro (h | ⟨h, hne⟩)
    · exact h.not_ge (hc.elim le_of_lt fun h => h.1.le)
    · have := (hc.resolve_left h.le.not_gt).2
      have := hf.odd.mpr hne
      omega
  · refine iff_of_true ?_ (hc.imp_right fun h => ⟨h.1.symm, hf.odd.mp h.2⟩)
    rw [hr, add_mul, ← hL]
    linarith

/-- There, a mode that rounds down gives the largest value. -/
theorem roundFrom_down_le_largest {mode : Nat} {neg : Bool} (hd : RoundsDown mode neg) : roundFrom f f.emin mode neg m ≤ f.largest := by
  obtain ⟨hs, hk⟩ := steps_of_top hf hl hu
  have hm : 0 < m := (largest_pos hf).trans_le hl
  have hr := roundFrom_down f f.emin hm hd
  rcases roundFrom_cases f f.emin mode neg hm with hc | ⟨hc, -⟩
  · rw [hc, hs, hk, ← largest_eq]
  · have hlt := largest_add f
    rw [hc, hs, hk] at hr
    push_cast at hlt
    linarith

end

theorem not_roundsUp_of_down {mode : Nat} {neg : Bool} (h : RoundsDown mode neg) : mode ≠ 0 ∧ ¬RoundsUp mode neg := by
  rcases h with rfl | ⟨rfl, rfl⟩ | ⟨rfl, rfl⟩ <;> simp [RoundsUp]

/-- What exceeds the largest value, by magnitudes. -/
theorem beyond_signedRat (f : FloatFmt) (mode : Nat) (neg : Bool) {m : Rat} (hm : 0 < m) : Beyond f mode (signedRat neg m) ↔
    f.largest + 2 * halfTop f ≤ m ∨ (mode = 0 ∧ (f.largest + halfTop f < m ∨ (f.largest + halfTop f = m ∧ f ≠ e4m3))) ∨
      (RoundsUp mode neg ∧ f.largest < m) := by
  simp only [Beyond, ratAbs_eq_abs, abs_signedRat neg hm.le, pow2_eq_zpow, signedRat_sign neg hm, RoundsUp, halfTop, or_and_right, and_assoc]

section
variable {f : FloatFmt} (hf : FormatOk f) {mode : Nat} (hmode : mode < 4) (neg : Bool) {m : Rat} (hm : 0 < m)
include hf hmode hm

/-- The rounded magnitude exceeds the largest value where R116 says that it does. -/
theorem beyond_iff : Beyond f mode (signedRat neg m) ↔ f.largest < roundFrom f f.emin mode neg m := by
  have hh := halfTop_pos f
  rw [beyond_signedRat f mode neg hm]
  rcases le_or_gt m f.largest with hl | hl
  · refine iff_of_false ?_ (not_lt.mpr (roundFrom_le f _ mode neg hm (onGrid_largest hf) hl))
    rintro (h | ⟨-, h | ⟨h, -⟩⟩ | ⟨-, h⟩) <;> linarith
  rcases le_or_gt (f.largest + 2 * halfTop f) m with ht | ht
  · exact iff_of_true (.inl ht) (lt_of_lt_of_le (by linarith) (le_roundFrom f _ mode neg hm (onGrid_largest_add hf) ht))
  rw [or_iff_right ht.not_ge]
  rcases roundsDown_or_roundsUp hmode neg with rfl | hd | hup
  · rw [largest_lt_nearest_iff hf hl.le ht, and_iff_right rfl, or_iff_left (by simp [RoundsUp])]
  · obtain ⟨h0, hup⟩ := not_roundsUp_of_down hd
    exact iff_of_false (by simp [h0, hup]) (not_lt.mpr (roundFrom_down_le_largest hf hl.le ht hd))
  · exact iff_of_true (.inr ⟨hup, hl⟩) (hl.trans_le (roundFrom_up f _ hm hup))

/-- Where it does not, but the exact magnitude does, the result is the largest value. -/
theorem roundFrom_eq_largest (hl : f.largest ≤ m) (hb : ¬Beyond f mode (signedRat neg m)) : roundFrom f f.emin mode neg m = f.largest :=
  (not_lt.mp ((beyond_iff hf hmode neg hm).not.mp hb)).antisymm (le_roundFrom f _ mode neg hm (onGrid_largest hf) hl)

end

/-! ## The results of rounding (R116, R117) -/

section
variable (f : FloatFmt) {mode : Nat} {ftz neg : Bool} {m : Rat}

theorem roundRat_signedRat (mode : Nat) (ftz z neg : Bool) (hm : 0 < m) :
    f.roundRat mode ftz z (signedRat neg m) = f.roundMag mode ftz neg m := by
  rw [FloatFmt.roundRat, if_neg (signedRat_ne_zero neg hm), signedRat_lt_zero neg hm, ratAbs_eq_abs, abs_signedRat neg hm.le]

theorem roundMag_flushed (hff : f.flush = true) (ht : Tiny f mode neg m) :
    f.roundMag mode true neg m = { code := f.encodeFin neg 0, flags := UF ||| NX } := by
  simp [FloatFmt.roundMag, pow2_eq_zpow, hff, ht]

/-- Where FTZ does not act, the result is what does not fit, what is exact, or what is inexact. -/
theorem roundMag_unflushed (h : ftz = false ∨ ¬Tiny f mode neg m) : f.roundMag mode ftz neg m =
    if f.largest < roundFrom f f.emin mode neg m then
      { code := if overflowsToInf mode neg then f.encodeInf neg else f.encodeFin neg f.largest, flags := OF ||| NX }
    else if roundFrom f f.emin mode neg m = m then { code := f.encodeFin neg (roundFrom f f.emin mode neg m) }
    else { code := f.encodeFin neg (roundFrom f f.emin mode neg m), flags := NX ||| if Tiny f mode neg m then UF else 0 } := by
  simp only [FloatFmt.roundMag, pow2_eq_zpow, decide_eq_true_eq]
  refine if_neg ?_
  rcases h with rfl | h
  · simp
  · simp [h]

theorem roundMag_overflow (h : ftz = false ∨ ¬Tiny f mode neg m) (hl : f.largest < roundFrom f f.emin mode neg m) :
    f.roundMag mode ftz neg m =
      { code := if overflowsToInf mode neg then f.encodeInf neg else f.encodeFin neg f.largest, flags := OF ||| NX } := by
  rw [roundMag_unflushed f h, if_pos hl]

theorem roundMag_fits (h : ftz = false ∨ ¬Tiny f mode neg m) (hl : roundFrom f f.emin mode neg m ≤ f.largest) :
    (f.roundMag mode ftz neg m).code = f.encodeFin neg (roundFrom f f.emin mode neg m) ∧ (f.roundMag mode ftz neg m).flags =
      if roundFrom f f.emin mode neg m = m then 0 else NX ||| if Tiny f mode neg m then UF else 0 := by
  rw [roundMag_unflushed f h, if_neg (not_lt.mpr hl)]
  split <;> exact ⟨rfl, rfl⟩

/-- FTZ changes nothing of a result that is not tiny. -/
theorem roundMag_ftz (h : ¬Tiny f mode neg m) : f.roundMag mode true neg m = f.roundMag mode false neg m := by
  rw [roundMag_unflushed f (.inr h), roundMag_unflushed f (.inl rfl)]

/-- The flags of a result that fits. -/
theorem flags_of_fits (isExact isTiny : Prop) [Decidable isExact] [Decidable isTiny] :
    let x : Word := if isExact then 0 else NX ||| if isTiny then UF else 0
    (x.getLsbD 11 = true ↔ ¬isExact) ∧ x.getLsbD 9 = false ∧ (¬isExact → isTiny → x.getLsbD 10 = true) ∧
      (¬isTiny → x.getLsbD 10 = false) := by
  by_cases he : isExact <;> by_cases ht : isTiny <;> simp only [he, ht, if_true, if_false] <;> decide

end

section
variable {f : FloatFmt} (hf : FormatOk f) {mode : Nat} (hmode : mode < 4) (neg : Bool) {m : Rat} (hm : 0 < m)
include hf hm

/-- A magnitude up to the largest value: its neighbour, and the flags of an inexact or tiny result (R116, R117). -/
theorem roundMag_of_le_largest (hmode : mode < 4) (hl : m ≤ f.largest) :
    let r := f.roundMag mode false neg m
    ∃ x, f.decode r.code = .fin neg x ∧ Rounded f mode (signedRat neg m) (signedRat neg x) (r.code % 2 == 0) ∧
      (r.flags.getLsbD 11 = true ↔ x ≠ m) ∧ r.flags.getLsbD 9 = false ∧ (x ≠ m → x < pow2 f.emin → r.flags.getLsbD 10 = true) ∧
      (pow2 f.emin ≤ m → r.flags.getLsbD 10 = false) := by
  intro r
  have hr := roundFrom_le f f.emin mode neg hm (onGrid_largest hf) hl
  obtain ⟨hcode, hflags⟩ := roundMag_fits f (ftz := false) (.inl rfl) hr
  obtain ⟨hnx, hof, huf, hnuf⟩ := flags_of_fits (roundFrom f f.emin mode neg m = m) (Tiny f mode neg m)
  rw [← hflags] at hnx hof huf hnuf
  rw [pow2_eq_zpow]
  refine ⟨roundFrom f f.emin mode neg m, ?_, ?_, hnx, hof, fun hx h => huf hx (tiny_of_subnormal hf hm hmode h),
    fun h => hnuf (not_tiny_of_normal hf hm h)⟩
  · rw [hcode]
    exact (decode_encodeFin hf neg (onGrid_roundFrom f _ mode neg hm) hr).1
  · rw [hcode]
    exact rounded_roundFrom hf neg hm hl mode

omit hf in
/-- An exact magnitude of the format is its own result. -/
theorem roundMag_of_onGrid (mode : Nat) (hg : OnGrid f.fracBits f.emin m) (hl : m ≤ f.largest) {ftz : Bool}
    (h : ftz = false ∨ ¬Tiny f mode neg m) : f.roundMag mode ftz neg m = { code := f.encodeFin neg m } := by
  have hr := roundFrom_of_onGrid f f.emin mode neg hm hg
  rw [roundMag_unflushed f h, if_neg (not_lt.mpr (hr.trans_le hl)), if_pos hr, hr]

include hmode

/-- Above the largest value, but rounded to it. -/
theorem roundMag_to_largest (hl : f.largest < m) (hb : ¬Beyond f mode (signedRat neg m)) :
    f.decode (f.roundMag mode false neg m).code = .fin neg f.largest ∧ (f.roundMag mode false neg m).flags = NX := by
  have hr := roundFrom_eq_largest hf hmode neg hm hl.le hb
  obtain ⟨hcode, hflags⟩ := roundMag_fits f (ftz := false) (.inl rfl) hr.le
  have hnt : ¬Tiny f mode neg m := not_tiny_of_normal hf hm (le_trans ?_ hl.le)
  · rw [hcode, hflags, hr, if_neg hl.ne, if_neg hnt]
    exact ⟨(decode_encodeFin hf neg (onGrid_largest hf) le_rfl).1, rfl⟩
  · exact two_zpow_le_largest hf (emax_eq hf).2.le

/-- Rounded beyond the largest value. -/
theorem roundMag_of_beyond (hb : Beyond f mode (signedRat neg m)) : f.roundMag mode false neg m =
    { code := if overflowsToInf mode neg then f.encodeInf neg else f.encodeFin neg f.largest, flags := OF ||| NX } :=
  roundMag_overflow f (.inl rfl) ((beyond_iff hf hmode neg hm).mp hb)

end

theorem overflowsToInf_iff {mode : Nat} (hmode : mode < 4) (neg : Bool) :
    overflowsToInf mode neg = true ↔ mode = 0 ∨ (mode = 2 ∧ neg = true) ∨ (mode = 3 ∧ neg = false) := by
  interval_cases mode <;> simp [overflowsToInf]

/-- The formats that have infinities decode their codes to them. -/
theorem decode_encodeInf : ∀ f ∈ [f32, f16, bf16, e5m2], ∀ neg, f.decode (f.encodeInf neg) = .inf neg := by
  simp only [List.forall_mem_cons, List.not_mem_nil, false_implies, implies_true, and_true]
  and_intros <;> decide

end Sys2Proof.Laws
end

section
/-! SUPPORT. FALU, FFMA, HALU, HFMA and CVT (R115 to R119, R155, R165 to R168, R171 to R173). -/

namespace Sys2Proof.Laws

open Sys2Proof.Machine Sys2Proof.Safety

/-! ## What the instructions write (R155) -/

theorem fpPairs_results : ∀ p ∈ fpPairs, ∀ (o : Opnd) (s : State) (c : Issue), Ready s c (p.1 o) →
    exec (p.1 o) s = .next (s.retire c (p.1 o) (c.wave.writeF o.d.toNat (c.active o.ext) fun l =>
      p.2 (fpEnv c.wave o.ext) ((c.wave.readV o.a.toNat).at_ l).toNat ((c.wave.readV o.b.toNat).at_ l).toNat)) := by
  simp only [fpPairs, List.forall_mem_cons, List.not_mem_nil, false_implies, implies_true, and_true]
  and_intros <;> exact fun o s c h => issue_plain h

theorem fpTriples_results : ∀ p ∈ fpTriples, ∀ (o : Opnd) (s : State) (c : Issue), Ready s c (p.1 o) →
    exec (p.1 o) s = .next (s.retire c (p.1 o) (c.wave.writeF o.d.toNat (c.active o.ext) fun l =>
      p.2 (fpEnv c.wave o.ext) ((c.wave.readV o.a.toNat).at_ l).toNat ((c.wave.readV o.b.toNat).at_ l).toNat
        ((c.wave.readV o.ext.c.toNat).at_ l).toNat)) := by
  simp only [fpTriples, List.forall_mem_cons, List.not_mem_nil, false_implies, implies_true, and_true]
  and_intros <;> exact fun o s c h => issue_plain h

theorem fpSingles_results : ∀ p ∈ fpSingles, ∀ (o : Opnd) (s : State) (c : Issue), Ready s c (p.1 o) →
    exec (p.1 o) s = .next (s.retire c (p.1 o) (c.wave.writeF o.d.toNat (c.active o.ext) fun l =>
      p.2 o (fpEnv c.wave o.ext) ((c.wave.readV o.a.toNat).at_ l).toNat)) := by
  simp only [fpSingles, fpSinglesA, fpSinglesB, List.forall_mem_append, List.forall_mem_cons, List.not_mem_nil, false_implies,
    implies_true, and_true]
  and_intros <;> exact fun o s c h => issue_plain h

/-! ## Rounding a rational -/

theorem exists_signedRat {q : Rat} (hq : q ≠ 0) : ∃ neg m, 0 < m ∧ q = signedRat neg m :=
  ⟨_, _, abs_pos.mpr hq, (signedRat_abs q).symm⟩

theorem roundRat_results : ∀ f ∈ [f32, f16, bf16, e5m2, e4m3, e2m1], ∀ (mode : Nat) (z : Bool) (q : Rat), mode < 4 → q ≠ 0 →
    let r := f.roundRat mode false z q
    (ratAbs q ≤ f.largest → ∃ m, f.decode r.code = .fin (q < 0) m ∧ Rounded f mode q (signedRat (q < 0) m) (r.code % 2 == 0) ∧
      (r.flags.getLsbD 11 = true ↔ signedRat (q < 0) m ≠ q) ∧ r.flags.getLsbD 9 = false ∧
      (signedRat (q < 0) m ≠ q → m < pow2 f.emin → r.flags.getLsbD 10 = true) ∧
      (pow2 f.emin ≤ ratAbs q → r.flags.getLsbD 10 = false)) ∧
    (f.flush = true → ratAbs q ≤ pow2 f.emin - pow2 (f.emin - 1 - f.fracBits) →
      f.decode (f.roundRat mode true z q).code = .fin (q < 0) 0 ∧ (f.roundRat mode true z q).flags = UF ||| NX) ∧
    (pow2 f.emin ≤ ratAbs q → f.roundRat mode true z q = r) ∧
    (f.largest < ratAbs q → ¬Beyond f mode q → f.decode r.code = .fin (q < 0) f.largest ∧ r.flags = NX) ∧
    (Beyond f mode q → f ∈ [f32, f16, bf16, e5m2] → r.flags = OF ||| NX ∧ f.decode r.code =
      (if mode = 0 ∨ (mode = 2 ∧ q < 0) ∨ (mode = 3 ∧ 0 < q) then .inf (q < 0) else .fin (q < 0) f.largest)) := by
  intro f hmem mode z q hmode hq
  have hf := formatOk f hmem
  obtain ⟨neg, m, hm, rfl⟩ := exists_signedRat hq
  simp only [roundRat_signedRat f mode _ z neg hm, ratAbs_eq_abs, abs_signedRat neg hm.le, signedRat_sign neg hm, Bool.decide_eq_true, ne_eq,
    signedRat_inj, ← overflowsToInf_iff hmode]
  refine ⟨roundMag_of_le_largest hf neg hm hmode, fun hff hl => ?_, fun hn => ?_, roundMag_to_largest hf hmode neg hm, fun hb hinf => ?_⟩
  · rw [pow2_eq_zpow, pow2_eq_zpow] at hl
    rw [roundMag_flushed f hff (tiny_of_le hf hm hl)]
    exact ⟨(decode_encodeFin hf neg (onGrid_zero ..) (largest_pos hf).le).1, rfl⟩
  · exact roundMag_ftz f (not_tiny_of_normal hf hm (pow2_eq_zpow f.emin ▸ hn))
  · rw [roundMag_of_beyond hf hmode neg hm hb]
    refine ⟨rfl, ?_⟩
    dsimp only
    split
    · exact decode_encodeInf f hinf neg
    · exact (decode_encodeFin hf neg (onGrid_largest hf) le_rfl).1

/-! ## Conversions (R119) -/

/-- Whether the canonical NaN of the format is the code c. -/
theorem canonicalNan_of_mem : ∀ x ∈ [(f16, 0x7E00), (bf16, 0x7FC0), (e5m2, 0x7E), (e4m3, 0x7F), (e2m1, 0)],
    x.1 ∈ [f32, f16, bf16, e5m2, e4m3, e2m1] ∧ x.1.canonicalNan = x.2 ∧ (x.1.top = .finite ↔ x.1 = e2m1) := by
  decide

section
variable {f : FloatFmt} (hf : FormatOk f) {mode : Nat} (hmode : mode < 4) (neg : Bool) {m : Rat} (hm : 0 < m)

/-- A saturating conversion gives the largest value. -/
def Saturated (f : FloatFmt) (neg : Bool) (r : FRes) : Prop := f.decode r.code = .fin neg f.largest ∧ r.flags = SATF ||| NX

include hf

theorem narrow_inf_sat (ftz : Bool) : Saturated f neg (f.narrow mode ftz true (.inf neg)) :=
  ⟨(decode_encodeFin hf neg (onGrid_largest hf) le_rfl).1, rfl⟩

include hmode hm

theorem narrow_of_not_beyond (ftz sat : Bool) (h : ¬Beyond f mode (signedRat neg m)) :
    f.narrow mode ftz sat (.fin neg m) = f.roundMag mode ftz neg m := by
  rw [beyond_iff hf hmode neg hm] at h
  simp only [FloatFmt.narrow, hm.ne', h, if_false]

theorem narrow_sat (ftz : Bool) (h : Beyond f mode (signedRat neg m)) : Saturated f neg (f.narrow mode ftz true (.fin neg m)) := by
  rw [beyond_iff hf hmode neg hm] at h
  simp only [FloatFmt.narrow, hm.ne', h, if_false, if_true]
  exact narrow_inf_sat (mode := mode) hf neg ftz

end

theorem narrow_ieee (f : FloatFmt) (h : f.top = .ieee ∨ f.top = .ieeeQuiet) (mode : Nat) (ftz neg : Bool) {m : Rat} (hm : 0 < m) :
    f.narrow mode ftz false (.inf neg) = { code := f.encodeInf neg } ∧
      f.narrow mode ftz false (.fin neg m) = f.roundMag mode ftz neg m := by
  rcases h with h | h <;> simp [FloatFmt.narrow, h, hm.ne']

theorem narrow_e4m3 {mode : Nat} (hmode : mode < 4) (ftz neg : Bool) {m : Rat} (hm : 0 < m) (h : Beyond e4m3 mode (signedRat neg m)) :
    e4m3.narrow mode ftz false (.fin neg m) = { code := if overflowsToInf mode neg then 0x7F else e4m3.encodeFin neg e4m3.largest
                                                flags := OF ||| NX } := by
  rw [beyond_iff (formatOk e4m3 (by decide)) hmode neg hm] at h
  simp only [FloatFmt.narrow, hm.ne', h, if_false, if_true]
  cases overflowsToInf mode neg <;> rfl

theorem narrow_results : ∀ x ∈ [(f16, 0x7E00), (bf16, 0x7FC0), (e5m2, 0x7E), (e4m3, 0x7F), (e2m1, 0)],
    ∀ (mode : Nat) (ftz sat neg : Bool) (m : Rat), mode < 4 → 0 < m →
    let f := x.1
    let q := signedRat neg m
    let saturated (r : FRes) : Prop := f.decode r.code = .fin neg f.largest ∧ r.flags = SATF ||| NX
    (∀ s, f.narrow mode ftz sat (.nan s) = { code := x.2, flags := if s = true ∨ f = e2m1 then NV else 0 }) ∧
    (sat = true → saturated (f.narrow mode ftz sat (.inf neg)) ∧ (Beyond f mode q → saturated (f.narrow mode ftz sat (.fin neg m)))) ∧
    (¬Beyond f mode q → f.narrow mode ftz sat (.fin neg m) = f.roundRat mode ftz false q) ∧
    (sat = false → f ∈ [f16, bf16, e5m2] → f.decode (f.narrow mode ftz sat (.inf neg)).code = .inf neg ∧
      f.narrow mode ftz sat (.fin neg m) = f.roundRat mode ftz false q) ∧
    (sat = false → f = e4m3 → Beyond f mode q → (f.narrow mode ftz sat (.fin neg m)).flags = OF ||| NX ∧
      if mode = 0 ∨ (mode = 2 ∧ neg = true) ∨ (mode = 3 ∧ neg = false) then (f.narrow mode ftz sat (.fin neg m)).code = 0x7F
      else f.decode (f.narrow mode ftz sat (.fin neg m)).code = .fin neg f.largest) := by
  intro x hx mode ftz sat neg m hmode hm f q saturated
  obtain ⟨hmem, hnan, hfin⟩ := canonicalNan_of_mem x hx
  have hf : FormatOk f := formatOk f hmem
  have hq : f.roundRat mode ftz false q = f.roundMag mode ftz neg m := roundRat_signedRat f mode ftz false neg hm
  simp only [hq, ← overflowsToInf_iff hmode]
  refine ⟨fun s => ?_, ?_, narrow_of_not_beyond hf hmode neg hm ftz sat, ?_, ?_⟩
  · simp [f, FloatFmt.narrow, hnan, hfin]
  · rintro rfl
    exact ⟨narrow_inf_sat hf neg ftz, narrow_sat hf hmode neg hm ftz⟩
  · rintro rfl hieee
    have htop : ∀ g ∈ [f16, bf16, e5m2], (g.top = .ieee ∨ g.top = .ieeeQuiet) ∧ g ∈ [f32, f16, bf16, e5m2] := by decide
    obtain ⟨hinf, hfin⟩ := narrow_ieee f (htop f hieee).1 mode ftz neg hm
    rw [hinf]
    exact ⟨decode_encodeInf f (htop f hieee).2 neg, hfin⟩
  · rintro rfl he hb
    rw [he] at hb ⊢
    rw [narrow_e4m3 hmode ftz neg hm hb]
    refine ⟨rfl, ?_⟩
    split
    · rfl
    · exact (decode_encodeFin (he ▸ hf) neg (onGrid_largest (he ▸ hf)) le_rfl).1

/-! ## Sums and multiply-adds (R116, R118, R168) -/

section
variable (f : FloatFmt) (mode : Nat) (ftz : Bool)

theorem addVal_nan {u v : FVal} (h : u.isNan = true ∨ v.isNan = true) :
    f.addVal mode ftz u v = f.nanRes (u.isSignalling || v.isSignalling) :=
  if_pos (by simpa using h)

theorem addVal_inf {neg : Bool} {v : FVal} (hv : v.isNan = false) (hne : v ≠ .inf !neg) :
    f.addVal mode ftz (.inf neg) v = { code := f.encodeInf neg } ∧ f.addVal mode ftz v (.inf neg) = { code := f.encodeInf neg } := by
  cases v with
  | nan s => cases hv
  | inf a =>
    obtain rfl : a = neg := by simpa using hne
    simp [FloatFmt.addVal, FVal.isNan]
  | fin a m => exact ⟨rfl, rfl⟩

theorem addVal_fin (a b : Bool) (m n : Rat) : f.addVal mode ftz (.fin a m) (.fin b n) =
    f.roundRat mode ftz (zeroSumSign mode a b) (signedRat a m + signedRat b n) := rfl

theorem roundRat_of_ne_zero (z : Bool) {q : Rat} (h : q ≠ 0) : f.roundRat mode ftz z q = f.roundRat mode ftz false q := by
  simp only [FloatFmt.roundRat, h, if_false]

/-- The sign of the product of the multiply-add. -/
theorem signedRat_product (neg a b : Bool) (m n : Rat) : signedRat (neg != (a != b)) (m * n) =
    (if neg then -1 else 1) * (signedRat a m * signedRat b n) := by
  cases neg <;> cases a <;> cases b <;> simp [signedRat]

theorem fmaRound_fin (neg a b : Bool) (m n : Rat) {w : FVal} (hw : w.isNan = false) :
    f.fmaRound mode ftz neg (.fin a m) (.fin b n) w = f.addVal mode ftz (.fin (neg != (a != b)) (m * n)) w := by
  cases w with
  | nan s => cases hw
  | inf c => cases neg <;> rfl
  | fin c k => cases neg <;> simp [FloatFmt.fmaRound, mulVal, FVal.isNan, FVal.negate]

theorem fmaRound_invalid {u v : FVal} (neg : Bool) (w : FVal) (h : (mulVal u v).2 = true) : f.fmaRound mode ftz neg u v w = f.nanRes true := by
  simp only [FloatFmt.fmaRound, h, if_true]

theorem fmaRound_nan {u v w : FVal} (neg : Bool) (hw : w.isNan = true) (h : (mulVal u v).2 = false) :
    f.fmaRound mode ftz neg u v w = f.nanRes (u.isSignalling || v.isSignalling || w.isSignalling) := by
  simp [FloatFmt.fmaRound, h, hw]

end

theorem not_signalling {v : FVal} (h : v.isNan = false) : v.isSignalling = false := by
  cases v with
  | nan s => cases h
  | inf | fin => rfl

theorem sum_results : ∀ x ∈ [(f32, 0x7FC00000), (f16, 0x7E00), (bf16, 0x7FC0)], ∀ (mode : Nat) (ftz neg : Bool) (u v w : FVal),
    let f := x.1
    let quiet (r : FRes) (invalid : Bool) : Prop := r = { code := x.2, flags := if invalid then NV else 0 }
    ((u.isNan = true ∨ v.isNan = true) → quiet (f.addVal mode ftz u v) (u.isSignalling || v.isSignalling)) ∧
    quiet (f.addVal mode ftz (.inf neg) (.inf !neg)) true ∧
    (v.isNan = false → v ≠ .inf !neg → f.decode (f.addVal mode ftz (.inf neg) v).code = .inf neg ∧
      f.decode (f.addVal mode ftz v (.inf neg)).code = .inf neg) ∧
    (∀ a m b n, u = .fin a m → v = .fin b n →
      let q := signedRat a m + signedRat b n
      (q ≠ 0 → f.addVal mode ftz u v = f.roundRat mode ftz false q) ∧
      (q = 0 → f.decode (f.addVal mode ftz u v).code = .fin (if a = b then a else mode = 2) 0 ∧ (f.addVal mode ftz u v).flags = 0) ∧
      (∀ c k, w = .fin c k →
        let p := (if neg then -1 else 1) * (signedRat a m * signedRat b n) + signedRat c k
        p ≠ 0 → f.fmaRound mode ftz neg u v w = f.roundRat mode ftz false p) ∧
      (∀ c, w = .inf c → f.decode (f.fmaRound mode ftz neg u v w).code = .inf c)) ∧
    ((∃ a b, (u = .inf a ∧ v = .fin b 0) ∨ (u = .fin b 0 ∧ v = .inf a)) → quiet (f.fmaRound mode ftz neg u v w) true) ∧
    (w.isNan = true → u.isNan = false → v.isNan = false → (mulVal u v).2 = false →
      quiet (f.fmaRound mode ftz neg u v w) w.isSignalling) := by
  intro x hx mode ftz neg u v w f quiet
  have hmem : ∀ x ∈ [(f32, 0x7FC00000), (f16, 0x7E00), (bf16, 0x7FC0)], x.1 ∈ [f32, f16, bf16, e5m2, e4m3, e2m1] ∧
      x.1 ∈ [f32, f16, bf16, e5m2] ∧ x.1.canonicalNan = x.2 := by decide
  obtain ⟨hfmt, hieee, hnan⟩ := hmem x hx
  have hf : FormatOk f := formatOk f hfmt
  have hquiet {r : FRes} {invalid : Bool} (h : r = f.nanRes invalid) : quiet r invalid := by
    rw [h, FloatFmt.nanRes, hnan]
  refine ⟨fun h => hquiet (addVal_nan f mode ftz h), hquiet (by cases neg <;> rfl), fun hv hne => ?_, ?_, ?_, fun hw hu hv h => hquiet ?_⟩
  · obtain ⟨h1, h2⟩ := addVal_inf f mode ftz hv hne
    rw [h1, h2]
    exact ⟨decode_encodeInf f hieee neg, decode_encodeInf f hieee neg⟩
  · rintro a m b n rfl rfl
    refine ⟨fun hq => ?_, fun hq => ?_, ?_, ?_⟩
    · rw [addVal_fin, roundRat_of_ne_zero f mode ftz _ hq]
    · rw [addVal_fin, FloatFmt.roundRat, if_pos hq]
      exact ⟨(decode_encodeFin hf _ (onGrid_zero ..) (largest_pos hf).le).1, rfl⟩
    · rintro c k rfl p hp
      rw [fmaRound_fin f mode ftz neg a b m n rfl, addVal_fin, signedRat_product]
      exact roundRat_of_ne_zero f mode ftz _ hp
    · rintro c rfl
      rw [fmaRound_fin f mode ftz neg a b m n rfl, (addVal_inf f mode ftz (v := .fin _ _) rfl nofun).2]
      exact decode_encodeInf f hieee c
  · rintro ⟨a, b, ⟨rfl, rfl⟩ | ⟨rfl, rfl⟩⟩ <;> exact hquiet (fmaRound_invalid f mode ftz neg w rfl)
  · rw [fmaRound_nan f mode ftz neg hw h, not_signalling hu, not_signalling hv]
    rfl

/-- Settles O16: rounding gives a neighbour among the format's magnitudes, and the results of the instructions are roundings. -/
theorem floatingPointResults : Obligations.FloatingPointResults :=
  ⟨⟨fpPairs_results, fpTriples_results, fpSingles_results⟩, roundRat_results, narrow_results, sum_results⟩

end Sys2Proof.Laws
end

section
/-! SUPPORT. FCMP, FRCP, FEXP2 and FLOG2, and the inputs that R170 names (R118, R155, R163, R169, R170). -/

namespace Sys2Proof.Laws

open Sys2Proof.Machine Sys2Proof.Safety

/-! ## What the instructions write -/

theorem fpCompares_results : ∀ p ∈ fpCompares, ∀ (o : Opnd) (s : State) (c : Issue), Ready s c (p.1 o) →
    let e := fpEnv c.wave o.ext
    let x (l : Nat) : FVal := f32.decodeFtz e.ftz ((c.wave.readV o.a.toNat).at_ l).toNat
    let y (l : Nat) : FVal := f32.decodeFtz e.ftz ((c.wave.readV o.b.toNat).at_ l).toNat
    let raises (l : Nat) : Bool := if p.2.2.1 then (x l).isNan || (y l).isNan else (x l).isSignalling || (y l).isSignalling
    let w := c.wave.writeP (o.d.toNat % 8) (c.active o.ext) (maskOf fun l =>
      if (x l).isNan || (y l).isNan then p.2.1 else p.2.2.2 (x l) (y l))
    exec (p.1 o) s = .next (s.retire c (p.1 o) { w with
      fp := if (LaneMask.lanes (c.active o.ext)).any raises then w.fp ||| 0x80 else w.fp }) := by
  simp only [fpCompares, List.forall_mem_cons, List.not_mem_nil, false_implies, implies_true, and_true]
  and_intros <;> exact fun o s c h => issue_plain h

theorem fpSpecials_results : ∀ p ∈ fpSpecials, ∀ (o : Opnd) (s : State) (c : Issue), Ready s c (p.1 o) →
    exec (p.1 o) s = .next (s.retire c (p.1 o) (c.wave.writeF o.d.toNat (c.active o.ext) fun l =>
      let e := fpEnv c.wave o.ext
      let a := ((c.wave.readV o.a.toNat).at_ l).toNat
      p.2 e (BitVec.ofNat 32 (f32.flushed e.ftz a)) (f32.decodeFtz e.ftz a))) := by
  simp only [fpSpecials, List.forall_mem_cons, List.not_mem_nil, false_implies, implies_true, and_true]
  and_intros <;> exact fun o s c h => issue_plain h

/-! ## Named inputs (R170) -/

theorem formatOk_f32 : FormatOk f32 := formatOk f32 (by decide)

theorem emin_f32 : f32.emin = -126 := by decide
theorem emax_f32 : f32.emax = 127 := by decide

theorem encodeFin_two_zpow (f : FloatFmt) (neg : Bool) {E : Int} (h : f.emin ≤ E) :
    f.encodeFin neg ((2 : Rat) ^ E) = (if neg then 2 ^ f.signBit else 0) + ((E - f.emin).toNat + 1) * 2 ^ f.fracBits := by
  have he := encodeFin_mul f neg (k := 2 ^ f.fracBits) (E := E) (Nat.pow_le_pow_right (by omega) (by omega)) h (.inr le_rfl)
  rw [← two_zpow_eq_steps] at he
  rw [he, Nat.add_mul, one_mul]

theorem encodeFin_one (neg : Bool) : f32.encodeFin neg 1 = if neg then 0xBF800000 else 0x3F800000 := by
  rw [show (1 : Rat) = 2 ^ (0 : Int) from rfl, encodeFin_two_zpow f32 neg (by decide)]
  cases neg <;> rfl

theorem encodeFin_half : f32.encodeFin false (mkRat 1 2) = 0x3F000000 := by
  rw [show mkRat 1 2 = (2 : Rat) ^ (-1 : Int) by norm_num [Rat.mkRat_eq_div], encodeFin_two_zpow f32 false (by decide)]
  rfl

/-- A power of two that the format holds as a normal value is its own result, with FTZ or not. -/
theorem roundMag_two_zpow {f : FloatFmt} (hf : FormatOk f) (mode : Nat) (ftz neg : Bool) {E : Int} (h1 : f.emin ≤ E) (h2 : E ≤ f.emax) :
    f.roundMag mode ftz neg ((2 : Rat) ^ E) = { code := f.encodeFin neg ((2 : Rat) ^ E) } :=
  roundMag_of_onGrid neg (two_zpow_pos E) mode (onGrid_two_zpow h1) (two_zpow_le_largest hf h2)
    (.inr (not_tiny_of_normal hf (two_zpow_pos E) (two_zpow_le.mpr h1)))

theorem fexp2_zero (ftz neg : Bool) (w : Word) : fexp2 ftz w (.fin neg 0) = { code := 0x3F800000 } := by
  have hq : signedRat neg 0 = 0 := by cases neg <;> rfl
  have hr := roundMag_two_zpow formatOk_f32 0 ftz false (E := 0) (by decide) (by decide)
  have hcond : ¬(128 : Rat) ≤ 0 ∧ ((0 : Rat).den = 1 && decide ((-149 : Rat) ≤ 0)) = true := by decide
  rw [zpow_zero, encodeFin_one] at hr
  simp only [fexp2, hq, hcond, if_false, if_true]
  exact hr

theorem specialCases_results : ∀ x ∈ specialCases, ∀ p, fpSpecials[x.1]? = some p → ∀ (e : FpEnv) (w : Word),
    p.2 e w x.2.1 = { code := x.2.2.1, flags := x.2.2.2 } := by
  have code_one (neg : Bool) : ({ code := f32.encodeFin neg 1 } : FRes) = { code := if neg then 0xBF800000 else 0x3F800000 } := by
    rw [encodeFin_one]
  have code_half : ({ code := f32.encodeFin false (mkRat 1 2) } : FRes) = { code := 0x3F000000 } := by rw [encodeFin_half]
  simp only [specialCases, List.forall_mem_cons, List.not_mem_nil, false_implies, implies_true, and_true]
  and_intros <;> rintro p ⟨⟩ e w
  -- A zero, an infinity or an overflow is the code of a constant; the others are the codes of 1, -1 and 1/2.
  any_goals rfl
  · exact fexp2_zero e.ftz false w
  · exact fexp2_zero e.ftz true w
  · exact code_one false
  · exact code_one false
  · exact code_one false
  · exact code_one true
  · exact code_half
  · exact code_half
  · exact code_one false

theorem fpSpecials_nan : ∀ p ∈ fpSpecials, ∀ (e : FpEnv) (w : Word) (signals : Bool),
    p.2 e w (.nan signals) = { code := 0x7FC00000, flags := if signals then NV else 0 } := by
  simp only [fpSpecials, List.forall_mem_cons, List.not_mem_nil, false_implies, implies_true, and_true]
  and_intros <;> exact fun _ _ _ => rfl

theorem fpSpecials_negative (e : FpEnv) (w : Word) (m : Rat) (hm : 0 < m) : ∀ n ∈ [1, 2, 4], ∀ p, fpSpecials[n]? = some p →
    p.2 e w (.fin true m) = { code := 0x7FC00000, flags := NV } := by
  simp only [List.forall_mem_cons, List.not_mem_nil, false_implies, implies_true, and_true]
  and_intros
  · rintro p ⟨⟩
    simp only [fsqrt, hm.ne', if_false, if_true]
    rfl
  · rintro p ⟨⟩
    simp only [frsq, hm.ne', if_false, if_true]
    rfl
  · rintro p ⟨⟩
    simp only [flog2, hm.ne', if_false, if_true]
    rfl

theorem frcp_fin (mode : Nat) (ftz neg : Bool) (m : Rat) (hm : 0 < m) :
    frcp mode ftz (.fin neg m) = f32.roundRat mode ftz false (1 / signedRat neg m) := by
  have hinv : 1 / signedRat neg m = signedRat neg (1 / m) := by
    cases neg <;> simp [signedRat, inv_neg]
  rw [hinv, roundRat_signedRat f32 mode ftz false neg (one_div_pos.mpr hm), frcp, if_neg hm.ne']

/-! ## FEXP2 and FLOG2 on powers of two -/

theorem signedRat_ratAbs_int (k : Int) : signedRat (k < 0) (ratAbs k) = (k : Rat) := by
  have hs : decide (k < 0) = decide ((k : Rat) < 0) := by simp
  rw [hs, ratAbs_eq_abs, signedRat_abs]

theorem fexp2_of_int (ftz : Bool) (w : Word) {k : Int} (h1 : -126 ≤ k) (h2 : k < 128) :
    fexp2 ftz w (.fin (k < 0) (ratAbs k)) = { code := f32.encodeFin false (pow2 k) } := by
  have h128 : ¬(128 : Rat) ≤ k := by
    have : (k : Rat) < 128 := by exact_mod_cast h2
    exact not_le.mpr this
  have hcond : ((k : Rat).den = 1 && decide ((-149 : Rat) ≤ k)) = true := by
    have : (-149 : Rat) ≤ k := by exact_mod_cast (show (-149 : Int) ≤ k by omega)
    simp [this]
  simp only [fexp2, signedRat_ratAbs_int, h128, hcond, if_false, if_true, Rat.num_intCast, pow2_eq_zpow]
  exact roundMag_two_zpow formatOk_f32 0 ftz false (emin_f32.trans_le h1) (by rw [emax_f32]; omega)

theorem floorLog2_two_zpow (k : Int) : floorLog2 ((2 : Rat) ^ k) = k :=
  floorLog2_eq le_rfl (two_zpow_lt.mpr (by omega))

theorem flog2_two_zpow (ftz : Bool) (w : Word) (k : Int) : flog2 ftz w (.fin false (pow2 k)) = f32.roundRat 0 ftz false k := by
  simp [flog2, pow2_eq_zpow, floorLog2_two_zpow, (two_zpow_pos k).ne']

/-- A small integer is its own result. -/
theorem roundRat_int (mode : Nat) (ftz : Bool) {k : Int} (hk : |k| ≤ 128) :
    f32.decode (f32.roundRat mode ftz false k).code = .fin (k < 0) (ratAbs k) ∧ (f32.roundRat mode ftz false k).flags = 0 := by
  rcases eq_or_ne k 0 with rfl | hk0
  · exact ⟨(decode_encodeFin formatOk_f32 false (onGrid_zero ..) (largest_pos formatOk_f32).le).1, rfl⟩
  have hm : (0 : Rat) < ratAbs k := by rw [ratAbs_eq_abs]; simpa using hk0
  have hn : ratAbs k = (k.natAbs : Rat) * (2 : Rat) ^ ((23 : Int) - f32.fracBits) := by
    rw [ratAbs_eq_abs, Nat.cast_natAbs, Int.cast_abs]
    exact (mul_one _).symm
  have hg : OnGrid f32.fracBits f32.emin (ratAbs k) := by
    rw [hn]
    exact onGrid_mul (le_trans (by rw [Int.abs_eq_natAbs] at hk; omega : k.natAbs ≤ 2 ^ 24) (by decide)) (by decide)
  have hl : ratAbs k ≤ f32.largest := by
    refine le_trans (?_ : _ ≤ (2 : Rat) ^ (7 : Int)) (two_zpow_le_largest formatOk_f32 (by decide))
    rw [ratAbs_eq_abs]
    exact_mod_cast hk
  have hnt : ¬Tiny f32 mode (k < 0) (ratAbs k) := by
    refine not_tiny_of_normal formatOk_f32 hm (le_trans (two_zpow_le.mpr (by decide : _ ≤ (0 : Int))) ?_)
    rw [ratAbs_eq_abs]
    exact_mod_cast Int.one_le_abs hk0
  rw [← signedRat_ratAbs_int k, roundRat_signedRat f32 mode ftz false _ hm, signedRat_ratAbs_int, roundMag_of_onGrid _ hm mode hg hl (.inr hnt)]
  exact ⟨(decode_encodeFin formatOk_f32 _ hg hl).1, rfl⟩

theorem fexp2_flog2_two_zpow (k : Int) (ftz : Bool) (w : Word) (h1 : -126 ≤ k) (h2 : k < 128) :
    f32.decode (fexp2 ftz w (.fin (k < 0) (ratAbs k))).code = .fin false (pow2 k) ∧ (fexp2 ftz w (.fin (k < 0) (ratAbs k))).flags = 0 ∧
    f32.decode (flog2 ftz w (.fin false (pow2 k))).code = .fin (k < 0) (ratAbs k) ∧ (flog2 ftz w (.fin false (pow2 k))).flags = 0 := by
  rw [fexp2_of_int ftz w h1 h2, flog2_two_zpow, pow2_eq_zpow]
  exact ⟨(decode_encodeFin formatOk_f32 false (onGrid_two_zpow h1) (two_zpow_le_largest formatOk_f32 (by rw [emax_f32]; omega))).1, rfl,
    roundRat_int 0 ftz (abs_le.mpr (by omega))⟩

end Sys2Proof.Laws
end

section
/-! SUPPORT. FSQRT: a root cut off far below the last place of f32 rounds as the exact root does (R116, R170). -/

namespace Sys2Proof.Laws

open Sys2Proof.Machine Sys2Proof.Safety

/-! ## FSQRT -/

/-- The bits of a root, from the top one down: each is kept where its square does not exceed n. -/
theorem natSqrt_spec {b n : Nat} (h : n < 4 ^ b) : natSqrt b n * natSqrt b n ≤ n ∧ n < (natSqrt b n + 1) * (natSqrt b n + 1) := by
  have partial_root : ∀ i ≤ b, let r := (List.range i).foldl (fun r k =>
      let c := r + 2 ^ (b - 1 - k)
      if c * c ≤ n then c else r) 0
      r * r ≤ n ∧ n < (r + 2 ^ (b - i)) * (r + 2 ^ (b - i)) := by
    intro i
    induction i with
    | zero => exact fun _ => ⟨Nat.zero_le _, by simpa [← mul_pow] using h⟩
    | succ i ih =>
      intro hi
      obtain ⟨hl, hu⟩ := ih (by omega)
      rw [List.range_succ, List.foldl_append]
      generalize (List.range i).foldl _ 0 = r at *
      have hp : 2 ^ (b - i) = 2 ^ (b - (i + 1)) + 2 ^ (b - (i + 1)) := by
        rw [show b - i = b - (i + 1) + 1 by omega, pow_succ]
        omega
      simp only [List.foldl_cons, List.foldl_nil, show b - 1 - i = b - (i + 1) by omega]
      split
      next hc => exact ⟨hc, by rw [Nat.add_assoc, ← hp]; exact hu⟩
      next hc => exact ⟨hl, not_le.mp hc⟩
  have hb := partial_root b le_rfl
  rwa [Nat.sub_self] at hb

/-- The exponent of the root of m. -/
def rootExp (m : Rat) : Int := floorLog2 m / 2

/-- The root that is found is the exact one cut off 100 bits below its exponent. -/
theorem sqrtQ_spec {m : Rat} (hm : 0 < m) : ∃ s : Nat, 2 ^ 100 ≤ s ∧ s < 2 ^ 101 ∧ sqrtQ m = s * (2 : Rat) ^ (rootExp m - 100) ∧
    s * s * (2 : Rat) ^ (2 * rootExp m - 200) ≤ m ∧ m < (s + 1) * (s + 1) * (2 : Rat) ^ (2 * rootExp m - 200) := by
  obtain ⟨hl, hu⟩ := floorLog2_spec hm
  have hy1 : (2 : Rat) ^ (2 * rootExp m) ≤ m := (two_zpow_le.mpr (by unfold rootExp; omega)).trans hl
  have hy2 : m < (2 : Rat) ^ (2 * rootExp m + 2) := hu.trans_le (two_zpow_le.mpr (by unfold rootExp; omega))
  set k := rootExp m with hk
  set x := m / (2 : Rat) ^ (2 * k - 200) with hx
  have hg := two_zpow_pos (2 * k - 200)
  have hv : m / pow2 (2 * k) * ((2 ^ 200 : Nat) : Rat) = x := by
    rw [pow2_eq_zpow, hx, two_zpow_eq_mul (show 2 * k - 200 ≤ 2 * k by omega), show (2 * k - (2 * k - 200)).toNat = 200 by omega]
    field_simp
  have hk2 : (2 : Rat) ^ (2 * k) = 2 ^ 200 * 2 ^ (2 * k - 200) := by rw [two_zpow_eq_steps 200 (2 * k)]; push_cast; rfl
  have hx1 : (2 : Rat) ^ 200 ≤ x := by
    rwa [hx, le_div_iff₀ hg, ← hk2]
  have hx2 : x < (2 : Rat) ^ 202 := by
    rw [hx, div_lt_iff₀ hg]
    calc m < 2 ^ (2 * k + 2) := hy2
      _ = 2 ^ 202 * 2 ^ (2 * k - 200) := by rw [two_zpow_add, hk2]; ring
  obtain ⟨hN, hN'⟩ := floor_toNat_spec ((two_zpow_pos 200).le.trans hx1)
  have hsq : sqrtQ m = natSqrt 102 x.floor.toNat * (2 : Rat) ^ (k - 100) := by
    have hdef : sqrtQ m = natSqrt 102 (m / pow2 (2 * k) * ((2 ^ 200 : Nat) : Rat)).floor.toNat / ((2 ^ 100 : Nat) : Rat) * pow2 k := rfl
    rw [hdef, hv, pow2_eq_zpow, two_zpow_eq_steps 100 k, div_mul_eq_mul_div, mul_left_comm,
      mul_div_cancel_left₀ _ (by positivity)]
    rfl
  generalize x.floor.toNat = N at *
  have hN1 : 2 ^ 200 ≤ N := by
    have : (2 : Rat) ^ 200 < N + 1 := hx1.trans_lt hN'
    exact Nat.lt_succ_iff.mp (by exact_mod_cast this)
  have hN2 : N < 2 ^ 202 := by exact_mod_cast hN.trans_lt hx2
  obtain ⟨hs1, hs2⟩ := natSqrt_spec (b := 102) (n := N) (by omega)
  refine ⟨natSqrt 102 N, ?_, ?_, hsq, ?_, ?_⟩
  · have : 2 ^ 100 < natSqrt 102 N + 1 := lt_of_mul_self_lt_mul_self₀ (Nat.zero_le _) (lt_of_le_of_lt (by omega) hs2)
    omega
  · exact lt_of_mul_self_lt_mul_self₀ (Nat.zero_le _) (hs1.trans_lt (by omega))
  · rw [← le_div_iff₀ hg]
    exact le_trans (by exact_mod_cast hs1) hN
  · rw [← div_lt_iff₀ hg]
    exact hN'.trans_le (by exact_mod_cast hs2)

/-- No multiple of 2^76 lies just above the root of a number of more than 177 bits: its square would be too close to it. -/
theorem no_multiple_above_root {s M j : Nat} (hs : s < 2 ^ 101) (h1 : s * s < M * 2 ^ 177) (h2 : M * 2 ^ 177 < (s + 1) * (s + 1))
    (hj : j * 2 ^ 76 ≤ s + 1024) : j * 2 ^ 76 ≤ s := by
  by_contra h
  have hJ : j * 2 ^ 76 * (j * 2 ^ 76) = j * j * 2 ^ 152 := by ring
  have hlow : (s + 1) * (s + 1) ≤ j * 2 ^ 76 * (j * 2 ^ 76) := Nat.mul_self_le_mul_self (by omega)
  have hhigh : j * 2 ^ 76 * (j * 2 ^ 76) ≤ (s + 1024) * (s + 1024) := Nat.mul_self_le_mul_self hj
  have hexp : (s + 1024) * (s + 1024) = s * s + 2048 * s + 1048576 := by ring
  rw [hJ] at hlow hhigh
  rw [hexp] at hhigh
  generalize j * j = q at *
  generalize s * s = r at *
  omega

/-- The value that FSQRT rounds in place of the root of m. -/
def rootRounded (m : Rat) : Rat :=
  if sqrtQ m * sqrtQ m = m then sqrtQ m else sqrtQ m + pow2 (floorLog2 (sqrtQ m) - 90)

theorem fsqrt_fin (mode : Nat) (ftz : Bool) {m : Rat} (hm : 0 < m) :
    fsqrt mode ftz (.fin false m) = f32.roundMag mode ftz false (rootRounded m) := by
  simp only [fsqrt, hm.ne', if_false, Bool.false_eq_true, rootRounded]

/-- t has the root's place among the values of f32 and the midpoints between them, which are multiples of 2^(k-24). -/
structure StandsForRoot (m t : Rat) : Prop where
  low : (2 : Rat) ^ rootExp m ≤ t
  high : t < (2 : Rat) ^ (rootExp m + 1)
  above : m ≤ t * t
  le : ∀ j : Nat, j * (2 : Rat) ^ (rootExp m - 24) ≤ t → j * (2 : Rat) ^ (rootExp m - 24) * (j * (2 : Rat) ^ (rootExp m - 24)) ≤ m
  lt : ∀ j : Nat, j * (2 : Rat) ^ (rootExp m - 24) < t → j * (2 : Rat) ^ (rootExp m - 24) * (j * (2 : Rat) ^ (rootExp m - 24)) < m

/-- The root that is found, its last place g, and m counted in squares of it. -/
structure CutRoot (m : Rat) (s : Nat) (g : Rat) : Prop where
  pos : 0 < g
  exp : (2 : Rat) ^ rootExp m = (2 ^ 100 : Nat) * g
  step (j : Nat) : j * (2 : Rat) ^ (rootExp m - 24) = (j * 2 ^ 76 : Nat) * g
  root : sqrtQ m = s * g
  low : 2 ^ 100 ≤ s
  high : s < 2 ^ 101
  le : s * s * (g * g) ≤ m
  lt : m < (s + 1) * (s + 1) * (g * g)
  steps : ∃ M : Nat, m = (M * 2 ^ 177 : Nat) * (g * g)

theorem cutRoot {m : Rat} (hm : 0 < m) (hg : OnGrid f32.fracBits f32.emin m) : ∃ s, CutRoot m s ((2 : Rat) ^ (rootExp m - 100)) := by
  obtain ⟨s, hs1, hs2, hr, hlow, hhigh⟩ := sqrtQ_spec hm
  have hgg : (2 : Rat) ^ (2 * rootExp m - 200) = 2 ^ (rootExp m - 100) * 2 ^ (rootExp m - 100) := by
    rw [← two_zpow_add]; congr 1; ring
  have hfl : (2 : Rat) ^ (2 * rootExp m) ≤ m := (two_zpow_le.mpr (by rw [rootExp]; omega)).trans (floorLog2_spec hm).1
  rw [hgg] at hlow hhigh
  refine ⟨s, two_zpow_pos _, two_zpow_eq_steps 100 _, fun j => ?_, hr, hs1, hs2, hlow, hhigh, ?_⟩
  · rw [two_zpow_eq_mul (show rootExp m - 100 ≤ rootExp m - 24 by omega), show (rootExp m - 24 - (rootExp m - 100)).toNat = 76 by omega]
    push_cast
    ring
  · obtain ⟨M, hM⟩ := hg.multiple (E := 2 * rootExp m) (.inr hfl)
    have h177 : (2 : Rat) ^ (2 * rootExp m - f32.fracBits) = ((2 ^ 177 : Nat) : Rat) * 2 ^ (2 * rootExp m - 200) :=
      two_zpow_eq_steps 177 (2 * rootExp m - 23) |>.trans (by rw [sub_sub]; rfl)
    exact ⟨M, by rw [← hgg, Nat.cast_mul, mul_assoc, ← h177]; exact hM⟩

section
variable {m : Rat} {s : Nat} {g : Rat} (h : CutRoot m s g)
include h

theorem CutRoot.low_root : (2 : Rat) ^ rootExp m ≤ sqrtQ m := by
  rw [h.exp, h.root]
  exact mul_le_mul_of_nonneg_right (by exact_mod_cast h.low) h.pos.le

theorem CutRoot.exp_succ : (2 : Rat) ^ (rootExp m + 1) = (2 ^ 101 : Nat) * g := by
  rw [two_zpow_add, h.exp]
  push_cast
  ring

theorem CutRoot.high_root : sqrtQ m < (2 : Rat) ^ (rootExp m + 1) := by
  rw [h.exp_succ, h.root]
  exact mul_lt_mul_of_pos_right (by exact_mod_cast h.high) h.pos

theorem CutRoot.above_eq : sqrtQ m + pow2 (floorLog2 (sqrtQ m) - 90) = (s + 1024 : Nat) * g := by
  have h90 : (2 : Rat) ^ (rootExp m - 90) = 1024 * g := by
    have h24 : (2 : Rat) ^ (rootExp m - 24) = (2 ^ 66 : Nat) * 2 ^ (rootExp m - 90) := by
      rw [two_zpow_eq_steps 66 (rootExp m - 24), sub_sub]
      rfl
    have hs := h.step 1
    rw [h24] at hs
    push_cast at hs
    linarith
  rw [floorLog2_eq h.low_root h.high_root, pow2_eq_zpow, h90, h.root]
  push_cast
  ring

variable (hne : sqrtQ m * sqrtQ m ≠ m)
include hne

theorem CutRoot.sq_lt : sqrtQ m * sqrtQ m < m := by
  refine lt_of_le_of_ne (le_of_eq_of_le ?_ h.le) hne
  rw [h.root]
  ring

theorem CutRoot.step_below {j : Nat} (hj : j * 2 ^ 76 ≤ s + 1024) : j * 2 ^ 76 ≤ s := by
  obtain ⟨M, hM⟩ := h.steps
  have hgg : 0 < g * g := mul_pos h.pos h.pos
  have h1 : (s * s : Rat) * (g * g) < (M * 2 ^ 177 : Nat) * (g * g) := by
    rw [← hM]
    refine lt_of_eq_of_lt ?_ (h.sq_lt hne)
    rw [h.root]
    ring
  have h2 := h.lt
  rw [hM] at h2
  have h1' := lt_of_mul_lt_mul_right h1 hgg.le
  have h2' := lt_of_mul_lt_mul_right h2 hgg.le
  exact no_multiple_above_root h.high (by exact_mod_cast h1') (by exact_mod_cast h2') hj

/-- A little above an inexact root that is cut off: no value and no midpoint lies between. -/
theorem CutRoot.standsForRoot : StandsForRoot m (sqrtQ m + pow2 (floorLog2 (sqrtQ m) - 90)) := by
  have square {j : Nat} (hj : j * (2 : Rat) ^ (rootExp m - 24) ≤ (s + 1024 : Nat) * g) :
      j * (2 : Rat) ^ (rootExp m - 24) * (j * (2 : Rat) ^ (rootExp m - 24)) < m := by
    rw [h.step, mul_le_mul_iff_of_pos_right h.pos] at hj
    have hle : j * (2 : Rat) ^ (rootExp m - 24) ≤ sqrtQ m := by
      rw [h.step, h.root]
      exact mul_le_mul_of_nonneg_right (by exact_mod_cast h.step_below hne (by exact_mod_cast hj)) h.pos.le
    exact (mul_self_le_mul_self (by positivity) hle).trans_lt (h.sq_lt hne)
  have hr := h.root
  have hpos := h.pos
  rw [h.above_eq]
  refine ⟨h.low_root.trans ?_, ?_, ?_, fun j hj => (square hj).le, fun j hj => square hj.le⟩
  · rw [hr]
    push_cast
    linarith
  · rw [h.exp_succ, mul_lt_mul_iff_of_pos_right hpos]
    by_contra hge
    have := h.step_below hne (j := 2 ^ 25) (by exact_mod_cast not_lt.mp hge)
    have := h.high
    omega
  · refine h.lt.le.trans (le_of_eq_of_le (mul_mul_mul_comm ..) (mul_self_le_mul_self (by positivity) ?_))
    push_cast
    linarith

end

theorem standsForRoot {m : Rat} (hm : 0 < m) (hg : OnGrid f32.fracBits f32.emin m) : StandsForRoot m (rootRounded m) := by
  obtain ⟨s, h⟩ := cutRoot hm hg
  unfold rootRounded
  split
  next he => exact ⟨h.low_root, h.high_root, he.ge, fun j hj => (mul_self_le_mul_self (by positivity) hj).trans_eq he,
    fun j hj => (mul_self_lt_mul_self (by positivity) hj).trans_eq he⟩
  next he => exact h.standsForRoot he

/-- The midpoint of two values from 2^k on is a multiple of 2^(k-24). -/
theorem half_add_eq {a b : Rat} {k : Int} (ha : OnGrid f32.fracBits f32.emin a) (hb : OnGrid f32.fracBits f32.emin b)
    (hak : (2 : Rat) ^ k ≤ a) (hbk : (2 : Rat) ^ k ≤ b) : ∃ j : Nat, (a + b) / 2 = j * (2 : Rat) ^ (k - 24) := by
  obtain ⟨i, rfl⟩ := ha.multiple (.inr hak)
  obtain ⟨j, rfl⟩ := hb.multiple (.inr hbk)
  have h23 : (2 : Rat) ^ (k - f32.fracBits) = 2 * 2 ^ (k - 24) := by
    rw [show k - f32.fracBits = 1 + (k - 24) by change k - 23 = _; ring, two_zpow_add, zpow_one]
  refine ⟨i + j, ?_⟩
  rw [h23]
  push_cast
  ring

section
variable {m t : Rat} (h : StandsForRoot m t)
include h

theorem StandsForRoot.pos : 0 < t := (two_zpow_pos _).trans_le h.low

theorem StandsForRoot.exp_sq_le : (2 : Rat) ^ rootExp m * 2 ^ rootExp m ≤ m := by
  have hj : (2 : Rat) ^ rootExp m = (2 ^ 24 : Nat) * 2 ^ (rootExp m - 24) := two_zpow_eq_steps 24 _
  have hle := h.le (2 ^ 24) (hj ▸ h.low)
  rwa [← hj] at hle

section
variable {a b : Rat} (ha : OnGrid f32.fracBits f32.emin a) (hak : (2 : Rat) ^ rootExp m ≤ a)
include ha hak

theorem StandsForRoot.mid_le (hb : OnGrid f32.fracBits f32.emin b) (hbk : (2 : Rat) ^ rootExp m ≤ b) (ht : (a + b) / 2 ≤ t) :
    (a + b) * (a + b) ≤ 4 * m := by
  obtain ⟨j, hj⟩ := half_add_eq ha hb hak hbk
  have hle := h.le j (hj ▸ ht)
  rw [← hj] at hle
  linarith

theorem StandsForRoot.sq_le (ht : a ≤ t) : a * a ≤ m := by
  have := h.mid_le ha hak ha hak (by linarith)
  linarith

theorem StandsForRoot.sq_lt (ht : a < t) : a * a < m := by
  obtain ⟨j, hj⟩ := half_add_eq ha ha hak hak
  rw [add_self_div_two] at hj
  have hlt := h.lt j (hj ▸ ht)
  rwa [← hj] at hlt

/-- A value is the root's stand-in where its square is m. -/
theorem StandsForRoot.eq_iff : a = t ↔ a * a = m := by
  refine ⟨fun he => (h.sq_le ha hak he.le).antisymm (he ▸ h.above), fun he => ?_⟩
  rcases lt_trichotomy a t with hlt | heq | hgt
  · exact absurd he (h.sq_lt ha hak hlt).ne
  · exact heq
  · exact absurd he (h.above.trans_lt (mul_self_lt_mul_self h.pos.le hgt)).ne'

end

/-! What f32 rounds the stand-in to is the neighbour of the root (R116). -/

variable {mode : Nat} {y : Rat} (hk : f32.emin ≤ rootExp m) (hy : OnGrid f32.fracBits f32.emin y)
include hk

theorem StandsForRoot.low_rounded (mode : Nat) : (2 : Rat) ^ rootExp m ≤ roundFrom f32 f32.emin mode false t :=
  le_roundFrom f32 _ mode false h.pos (onGrid_two_zpow hk) h.low

theorem StandsForRoot.eq_iff_rounded (mode : Nat) : roundFrom f32 f32.emin mode false t = t ↔
    roundFrom f32 f32.emin mode false t * roundFrom f32 f32.emin mode false t = m :=
  h.eq_iff (onGrid_roundFrom f32 _ mode false h.pos) (h.low_rounded hk mode)

include hy

theorem StandsForRoot.rounded_down (hd : RoundsDown mode false) :
    roundFrom f32 f32.emin mode false t * roundFrom f32 f32.emin mode false t ≤ m ∧
      (y * y ≤ m → y ≤ roundFrom f32 f32.emin mode false t) := by
  refine ⟨h.sq_le (onGrid_roundFrom f32 _ mode false h.pos) (h.low_rounded hk mode) (roundFrom_down f32 _ h.pos hd), fun hm => ?_⟩
  exact le_roundFrom f32 _ mode false h.pos hy ((mul_self_le_mul_self_iff hy.nonneg h.pos.le).mpr (hm.trans h.above))

omit hk in
theorem StandsForRoot.rounded_up (hu : RoundsUp mode false) :
    m ≤ roundFrom f32 f32.emin mode false t * roundFrom f32 f32.emin mode false t ∧
      (m ≤ y * y → roundFrom f32 f32.emin mode false t ≤ y) := by
  refine ⟨h.above.trans (mul_self_le_mul_self h.pos.le (roundFrom_up f32 _ h.pos hu)), fun hm => ?_⟩
  refine roundFrom_le f32 _ mode false h.pos hy (not_lt.mp fun hlt => ?_)
  have hyk : (2 : Rat) ^ rootExp m ≤ y := (mul_self_le_mul_self_iff (two_zpow_pos _).le hy.nonneg).mpr (h.exp_sq_le.trans hm)
  exact absurd hm (not_le.mpr (h.sq_lt hy hyk hlt))

theorem StandsForRoot.rounded_nearest :
    let x := roundFrom f32 f32.emin 0 false t
    (x < y → 4 * m ≤ (x + y) * (x + y)) ∧ (y < x → (x + y) * (x + y) ≤ 4 * m) := by
  intro x
  obtain ⟨_, -, -, hn⟩ := roundFrom_nearest f32 f32.emin false h.pos
  have hxk : (2 : Rat) ^ rootExp m ≤ x := h.low_rounded hk 0
  have hx : OnGrid f32.fracBits f32.emin x := onGrid_roundFrom f32 _ 0 false h.pos
  have mid_of_lt {z : Rat} (hz : OnGrid f32.fracBits f32.emin z) (hlt : z < x) : (x + z) / 2 ≤ t := by
    by_contra hgt
    have hd := (hn z hz).1
    rw [abs_of_pos (by change 0 < x - t; linarith)] at hd
    rcases abs_cases (z - t) with ⟨ha, -⟩ | ⟨ha, -⟩ <;> rw [ha] at hd <;> change x - t ≤ _ at hd <;> linarith
  have mid_of_gt {z : Rat} (hz : OnGrid f32.fracBits f32.emin z) (hlt : x < z) : t ≤ (x + z) / 2 := by
    by_contra hgt
    have hd := (hn z hz).1
    rw [abs_of_neg (by change x - t < 0; linarith)] at hd
    rcases abs_cases (z - t) with ⟨ha, -⟩ | ⟨ha, -⟩ <;> rw [ha] at hd <;> change -(x - t) ≤ _ at hd <;> linarith
  constructor
  · intro hxy
    have hsq := h.above.trans (mul_self_le_mul_self h.pos.le (mid_of_gt hy hxy))
    linarith
  · intro hxy
    rcases le_or_gt ((2 : Rat) ^ rootExp m) y with hyk | hyk
    · exact h.mid_le hx hxk hy hyk (mid_of_lt hy hxy)
    · have hsq : (x + 2 ^ rootExp m) * (x + 2 ^ rootExp m) ≤ 4 * m := by
        refine h.mid_le hx hxk (onGrid_two_zpow hk) le_rfl ?_
        rcases hxk.lt_or_eq with hlt | heq
        · exact mid_of_lt (onGrid_two_zpow hk) hlt
        · have := h.low
          rw [← heq]
          linarith
      exact (mul_self_le_mul_self (add_nonneg hx.nonneg hy.nonneg) (by linarith)).trans hsq

end

/-- The root of a value of f32 lies well inside its range. -/
theorem rootExp_bounds {m : Rat} (hm : 0 < m) (hg : OnGrid f32.fracBits f32.emin m) (hl : m ≤ f32.largest) :
    f32.emin ≤ rootExp m ∧ rootExp m + 1 ≤ f32.emax := by
  obtain ⟨h1, h2⟩ := floorLog2_spec hm
  obtain ⟨j, hj⟩ := hg.multiple (.inl rfl)
  have hu := two_zpow_pos (f32.emin - f32.fracBits)
  have hj0 : j ≠ 0 := by rintro rfl; simp [hj] at hm
  have hlow : (2 : Rat) ^ (f32.emin - f32.fracBits) ≤ m := by
    rw [hj]
    exact le_mul_of_one_le_left hu.le (by exact_mod_cast Nat.one_le_iff_ne_zero.mpr hj0)
  have h3 := two_zpow_lt.mp (hlow.trans_lt h2)
  have h4 := two_zpow_lt.mp (h1.trans_lt (hl.trans_lt (largest_lt formatOk_f32)))
  rw [emin_f32, show f32.fracBits = 23 from rfl] at h3
  rw [emax_f32] at h4 ⊢
  rw [emin_f32]
  unfold rootExp
  omega

theorem fsqrt_results (mode code : Nat) (ftz : Bool) (m : Rat) (hmode : mode < 4) (hd : f32.decode code = .fin false m) (hm : 0 < m) :
    ∃ x, f32.decode (fsqrt mode ftz (.fin false m)).code = .fin false x ∧
      (fsqrt mode ftz (.fin false m)).flags = (if x * x = m then 0 else NX) ∧
      ∀ y, IsValue f32 y → 0 ≤ y →
        (mode = 0 → (x < y → 4 * m ≤ (x + y) * (x + y)) ∧ (y < x → (x + y) * (x + y) ≤ 4 * m)) ∧
        (mode = 1 ∨ mode = 2 → x * x ≤ m ∧ (y * y ≤ m → y ≤ x)) ∧
        (mode = 3 → m ≤ x * x ∧ (m ≤ y * y → x ≤ y)) := by
  obtain ⟨hg, hl⟩ := onGrid_of_decode formatOk_f32 hd
  have h := standsForRoot hm hg
  obtain ⟨hk, hk'⟩ := rootExp_bounds hm hg hl
  have hle : roundFrom f32 f32.emin mode false (rootRounded m) ≤ f32.largest :=
    (roundFrom_le f32 _ mode false h.pos (onGrid_two_zpow (by omega)) h.high.le).trans (two_zpow_le_largest formatOk_f32 hk')
  have hnt : ¬Tiny f32 mode false (rootRounded m) := not_tiny_of_normal formatOk_f32 h.pos ((two_zpow_le.mpr hk).trans h.low)
  obtain ⟨hcode, hflags⟩ := roundMag_fits f32 (ftz := ftz) (.inr hnt) hle
  rw [fsqrt_fin mode ftz hm, hcode, hflags]
  refine ⟨_, (decode_encodeFin formatOk_f32 false (onGrid_roundFrom f32 _ mode false h.pos) hle).1, ?_, fun y hy hy0 => ?_⟩
  · rw [if_neg hnt]
    exact if_congr (h.eq_iff_rounded hk mode) rfl rfl
  · have hgy := ((isValue_iff formatOk_f32).mp hy).1
    rw [abs_of_nonneg hy0] at hgy
    refine ⟨?_, fun hd => h.rounded_down hk hgy ?_, ?_⟩
    · rintro rfl
      exact h.rounded_nearest hk hgy
    · exact hd.imp_right fun h => .inl ⟨h, rfl⟩
    · rintro rfl
      exact h.rounded_up hgy (.inr ⟨rfl, rfl⟩)

end Sys2Proof.Laws
end

section
/-! SUPPORT. The ranges of FSIN, FCOS, FTANH and FSIGM (R170). -/

namespace Sys2Proof.Laws

open Sys2Proof.Machine Sys2Proof.Safety

/-! ## Ranges (R170) -/

/-- A finite result lies between lo and hi. -/
def Between (lo hi : Rat) (code : Nat) : Prop := ∀ neg m, f32.decode code = .fin neg m → lo ≤ signedRat neg m ∧ signedRat neg m ≤ hi

theorem between_nanRes (lo hi : Rat) (invalid : Bool) : Between lo hi (f32.nanRes invalid).code := by
  have hd : f32.decode f32.canonicalNan = .nan false := by decide
  intro neg m h
  cases hd.symm.trans h

theorem between_encodeFin {lo hi : Rat} (neg : Bool) {m : Rat} (hg : OnGrid f32.fracBits f32.emin m) (hm : m ≤ f32.largest)
    (hlo : lo ≤ signedRat neg m) (hhi : signedRat neg m ≤ hi) : Between lo hi (f32.encodeFin neg m) := by
  intro n x h
  obtain ⟨rfl, rfl⟩ : neg = n ∧ m = x := by simpa using (decode_encodeFin formatOk_f32 neg hg hm).1.symm.trans h
  exact ⟨hlo, hhi⟩

theorem isValue_one : IsValue f32 1 := by
  rw [isValue_iff formatOk_f32, abs_one]
  exact ⟨onGrid_two_zpow (E := 0) (by decide), two_zpow_le_largest (E := 0) formatOk_f32 (by decide)⟩

theorem isValue_neg_one : IsValue f32 (-1) := by
  have h := (isValue_iff formatOk_f32).mp isValue_one
  rwa [isValue_iff formatOk_f32, abs_neg]

theorem isValue_zero : IsValue f32 0 := by
  rw [isValue_iff formatOk_f32, abs_zero]
  exact ⟨onGrid_zero .., (largest_pos formatOk_f32).le⟩

section
variable {lo hi : Rat} (hlo : IsValue f32 lo) (hhi : IsValue f32 hi) (hlo0 : lo ≤ 0) (hhi0 : 0 ≤ hi)

theorem between_zero (neg : Bool) (hlo0 : lo ≤ 0) (hhi0 : 0 ≤ hi) : Between lo hi (f32.encodeFin neg 0) := by
  have h0 : signedRat neg 0 = 0 := by cases neg <;> rfl
  exact between_encodeFin neg (onGrid_zero ..) (largest_pos formatOk_f32).le (hlo0.trans_eq h0.symm) (h0.trans_le hhi0)

include hlo hhi hlo0 hhi0

/-- Rounding to nearest does not leave an interval that ends at values. -/
theorem between_roundRat (z : Bool) {q : Rat} (h1 : lo ≤ q) (h2 : q ≤ hi) : Between lo hi (f32.roundRat 0 false z q).code := by
  rcases eq_or_ne q 0 with rfl | hq
  · exact between_zero z hlo0 hhi0
  obtain ⟨neg, m, hm, rfl⟩ := exists_signedRat hq
  have hl : m ≤ f32.largest := by
    have h3 := ((isValue_iff formatOk_f32).mp hlo).2
    have h4 := ((isValue_iff formatOk_f32).mp hhi).2
    rw [← abs_signedRat neg hm.le]
    exact abs_le.mpr ⟨(abs_le.mp h3).1.trans h1, h2.trans (abs_le.mp h4).2⟩
  obtain ⟨x, hd, hr, -⟩ := roundMag_of_le_largest formatOk_f32 neg hm (by decide : 0 < 4) hl
  intro n y h
  rw [roundRat_signedRat f32 0 false z neg hm] at h
  obtain ⟨rfl, rfl⟩ : neg = n ∧ x = y := by simpa using hd.symm.trans h
  have nearer {z : Rat} (hz : IsValue f32 z) : |signedRat neg x - signedRat neg m| ≤ |z - signedRat neg m| := by
    have := (hr.nearest rfl z hz).1
    rwa [ratAbs_eq_abs, ratAbs_eq_abs] at this
  generalize signedRat neg x = a at *
  constructor
  · by_contra hlt
    have hn := nearer hlo
    rw [abs_of_neg (by linarith), abs_of_nonpos (by linarith)] at hn
    linarith
  · by_contra hgt
    have hn := nearer hhi
    rw [abs_of_pos (by linarith), abs_of_nonneg (by linarith)] at hn
    linarith

theorem between_boundedRes {fn : Nat} {ftz : Bool} {w : Word} {v bound : Rat} : Between lo hi (boundedRes fn ftz w v bound lo hi).code := by
  unfold boundedRes
  extract_lets tol own ok code
  have hcode : Between lo hi code := by
    intro n x h
    simp only [code] at h
    split at h
    next hok =>
      simp only [ok, h, Bool.and_eq_true, decide_eq_true_eq] at hok
      exact ⟨hok.1.2, hok.2⟩
    next => exact between_roundRat hlo hhi hlo0 hhi0 _ (le_max_left ..) (max_le (hlo0.trans hhi0) (min_le_left ..)) n x h
  split
  · split
    · cases ftz
      · exact hcode
      · exact between_zero _ hlo0 hhi0
    · exact hcode
  · exact hcode

end

theorem between_boundedRes_neg_one {fn : Nat} {ftz : Bool} {w : Word} {v bound : Rat} :
    Between (-1) 1 (boundedRes fn ftz w v bound (-1) 1).code :=
  between_boundedRes isValue_neg_one isValue_one (by norm_num) zero_le_one

theorem between_one (neg : Bool) {lo : Rat} (h : lo ≤ signedRat neg 1) : Between lo 1 (f32.encodeFin neg 1) :=
  between_encodeFin neg (onGrid_two_zpow (E := 0) (by decide)) (two_zpow_le_largest (E := 0) formatOk_f32 (by decide)) h
    (by cases neg <;> norm_num [signedRat])

theorem between_half : Between 0 1 (f32.encodeFin false (mkRat 1 2)) := by
  rw [show mkRat 1 2 = (2 : Rat) ^ (-1 : Int) by norm_num [Rat.mkRat_eq_div]]
  exact between_encodeFin false (onGrid_two_zpow (by decide)) (two_zpow_le_largest formatOk_f32 (by decide)) (two_zpow_pos _).le
    (by norm_num [signedRat])

theorem fsin_between (ftz : Bool) (w : Word) : ∀ v, Between (-1) 1 (fsin ftz w v).code
  | .nan s => between_nanRes _ _ s
  | .inf _ => between_nanRes _ _ true
  | .fin neg m => by
    simp only [fsin]
    split
    · exact between_zero neg (by norm_num) zero_le_one
    · exact between_boundedRes_neg_one

theorem fcos_between (ftz : Bool) (w : Word) : ∀ v, Between (-1) 1 (fcos ftz w v).code
  | .nan s => between_nanRes _ _ s
  | .inf _ => between_nanRes _ _ true
  | .fin neg m => by
    simp only [fcos]
    split
    · exact between_one false (by norm_num [signedRat])
    · exact between_boundedRes_neg_one

theorem ftanh_between (ftz : Bool) (w : Word) : ∀ v, Between (-1) 1 (ftanh ftz w v).code
  | .nan s => between_nanRes _ _ s
  | .inf neg => between_one neg (by cases neg <;> norm_num [signedRat])
  | .fin neg m => by
    simp only [ftanh]
    split
    · exact between_zero neg (by norm_num) zero_le_one
    · exact between_boundedRes_neg_one

theorem fsigm_between (ftz : Bool) (w : Word) : ∀ v, Between 0 1 (fsigm ftz w v).code
  | .nan s => between_nanRes _ _ s
  | .inf neg => by
    simp only [fsigm]
    split
    · exact between_zero false le_rfl zero_le_one
    · exact between_one false (by norm_num [signedRat])
  | .fin neg m => by
    simp only [fsigm]
    split
    · exact between_half
    · exact between_boundedRes isValue_zero isValue_one le_rfl zero_le_one

theorem fpSpecials_between : ∀ x ∈ [(5, (-1 : Rat)), (6, -1), (7, -1), (8, 0)], ∀ p, fpSpecials[x.1]? = some p →
    ∀ (e : FpEnv) (w : Word) (v : FVal) (neg : Bool) (m : Rat), f32.decode (p.2 e w v).code = .fin neg m →
      x.2 ≤ signedRat neg m ∧ signedRat neg m ≤ 1 := by
  simp only [List.forall_mem_cons, List.not_mem_nil, false_implies, implies_true, and_true]
  and_intros <;> rintro p ⟨⟩ e w v
  · exact fsin_between e.ftz w v
  · exact fcos_between e.ftz w v
  · exact ftanh_between e.ftz w v
  · exact fsigm_between e.ftz w v

/-- Settles O17: the exact functions round the exact result, and the others stay within their ranges. -/
theorem floatingPointComparisonsAndFunctions : Obligations.FloatingPointComparisonsAndFunctions :=
  ⟨fpCompares_results, fpSpecials_results, frcp_fin, fun mode code ftz m hmode _ => fsqrt_results mode code ftz m hmode,
    specialCases_results, fpSpecials_nan, fpSpecials_negative, fexp2_flog2_two_zpow, fpSpecials_between⟩

end Sys2Proof.Laws
end

section
/-! SUPPORT. The words of the instruction formats (R136 to R147, R358): what a word's fields read, and that decoding and
encoding undo each other. -/

namespace Sys2Proof.Laws

/-! ## The fields of a word (R137, R138) -/

/-- The base word of a register form, by its fields. -/
def baseWord (s x : Bool) (maj d a b fn : BitVec 6) : Word := BitVec.ofBool s ++ BitVec.ofBool x ++ maj ++ d ++ a ++ b ++ fn

/-- The word of an immediate form. -/
def immediateWord (s : Bool) (maj d a : BitVec 6) (imm : BitVec 12) : Word := BitVec.ofBool s ++ (0 : BitVec 1) ++ maj ++ d ++ a ++ imm

/-- The word of a branch form. -/
def branchWord (s : Bool) (maj : BitVec 6) (off : BitVec 24) : Word := BitVec.ofBool s ++ (0 : BitVec 1) ++ maj ++ off

theorem ofBool_getLsbD {n : Nat} (w : BitVec n) (k : Nat) : BitVec.ofBool (w.getLsbD k) = w.extractLsb' k 1 := by
  ext i hi
  obtain rfl : i = 0 := by omega
  simp

section
open BitVec
variable (s x : Bool) (maj d a b fn : BitVec 6) (imm : BitVec 12) (off : BitVec 24)

theorem baseWord_set : (baseWord s x maj d a b fn).getLsbD 31 = s := by
  unfold baseWord
  iterate 6 rw [getLsbD_append]
  simp

theorem baseWord_extended : (baseWord s x maj d a b fn).getLsbD 30 = x := by
  unfold baseWord
  iterate 6 rw [getLsbD_append]
  simp

theorem baseWord_major : (baseWord s x maj d a b fn).extractLsb' 24 6 = maj := by
  unfold baseWord
  iterate 4 rw [extractLsb'_append_eq_of_le (by decide)]
  exact extractLsb'_append_eq_right

theorem baseWord_d : (baseWord s x maj d a b fn).extractLsb' 18 6 = d := by
  unfold baseWord
  iterate 3 rw [extractLsb'_append_eq_of_le (by decide)]
  exact extractLsb'_append_eq_right

theorem baseWord_a : (baseWord s x maj d a b fn).extractLsb' 12 6 = a := by
  unfold baseWord
  iterate 2 rw [extractLsb'_append_eq_of_le (by decide)]
  exact extractLsb'_append_eq_right

theorem baseWord_b : (baseWord s x maj d a b fn).extractLsb' 6 6 = b := by
  unfold baseWord
  rw [extractLsb'_append_eq_of_le (by decide)]
  exact extractLsb'_append_eq_right

theorem baseWord_fn : (baseWord s x maj d a b fn).extractLsb' 0 6 = fn := by
  unfold baseWord
  exact extractLsb'_append_eq_right

theorem immediateWord_set : (immediateWord s maj d a imm).getLsbD 31 = s := by
  unfold immediateWord
  iterate 5 rw [getLsbD_append]
  simp

theorem immediateWord_extended : (immediateWord s maj d a imm).getLsbD 30 = false := by
  unfold immediateWord
  iterate 5 rw [getLsbD_append]
  simp

theorem immediateWord_major : (immediateWord s maj d a imm).extractLsb' 24 6 = maj := by
  unfold immediateWord
  iterate 3 rw [extractLsb'_append_eq_of_le (by decide)]
  exact extractLsb'_append_eq_right

theorem immediateWord_d : (immediateWord s maj d a imm).extractLsb' 18 6 = d := by
  unfold immediateWord
  iterate 2 rw [extractLsb'_append_eq_of_le (by decide)]
  exact extractLsb'_append_eq_right

theorem immediateWord_a : (immediateWord s maj d a imm).extractLsb' 12 6 = a := by
  unfold immediateWord
  rw [extractLsb'_append_eq_of_le (by decide)]
  exact extractLsb'_append_eq_right

theorem immediateWord_imm : (immediateWord s maj d a imm).extractLsb' 0 12 = imm := by
  unfold immediateWord
  exact extractLsb'_append_eq_right

theorem branchWord_set : (branchWord s maj off).getLsbD 31 = s := by
  unfold branchWord
  iterate 3 rw [getLsbD_append]
  simp

theorem branchWord_extended : (branchWord s maj off).getLsbD 30 = false := by
  unfold branchWord
  iterate 3 rw [getLsbD_append]
  simp

theorem branchWord_major : (branchWord s maj off).extractLsb' 24 6 = maj := by
  unfold branchWord
  rw [extractLsb'_append_eq_of_le (by decide)]
  exact extractLsb'_append_eq_right

theorem branchWord_off : (branchWord s maj off).extractLsb' 0 24 = off := by
  unfold branchWord
  exact extractLsb'_append_eq_right

variable (w : Word)

/-- A word is the base word of the fields read from it. -/
theorem baseWord_of_fields : baseWord (w.getLsbD 31) (w.getLsbD 30) (w.extractLsb' 24 6) (w.extractLsb' 18 6) (w.extractLsb' 12 6)
    (w.extractLsb' 6 6) (w.extractLsb' 0 6) = w := by
  rw [baseWord, ofBool_getLsbD, ofBool_getLsbD]
  iterate 6 rw [extractLsb'_append_extractLsb'_eq_extractLsb' (by rfl)]
  exact extractLsb'_eq_self

theorem immediateWord_of_fields (h : w.getLsbD 30 = false) : immediateWord (w.getLsbD 31) (w.extractLsb' 24 6) (w.extractLsb' 18 6)
    (w.extractLsb' 12 6) (w.extractLsb' 0 12) = w := by
  have hx : (0 : BitVec 1) = w.extractLsb' 30 1 := by rw [← ofBool_getLsbD, h]; rfl
  rw [immediateWord, ofBool_getLsbD, hx]
  iterate 5 rw [extractLsb'_append_extractLsb'_eq_extractLsb' (by rfl)]
  exact extractLsb'_eq_self

theorem branchWord_of_fields (h : w.getLsbD 30 = false) : branchWord (w.getLsbD 31) (w.extractLsb' 24 6) (w.extractLsb' 0 24) = w := by
  have hx : (0 : BitVec 1) = w.extractLsb' 30 1 := by rw [← ofBool_getLsbD, h]; rfl
  rw [branchWord, ofBool_getLsbD, hx]
  iterate 3 rw [extractLsb'_append_extractLsb'_eq_extractLsb' (by rfl)]
  exact extractLsb'_eq_self

/-- An extension word is the word of the fields read from it. -/
@[simp] theorem word_ofWord : (Ext.ofWord w).word = w := by
  simp only [Ext.word, Ext.ofWord, ofBool_getLsbD]
  iterate 7 rw [extractLsb'_append_extractLsb'_eq_extractLsb' (by rfl)]
  exact extractLsb'_eq_self

/-- The fields of an extension word are read back. -/
@[simp] theorem ofWord_word (e : Ext) : Ext.ofWord e.word = e := by
  cases e
  simp only [Ext.ofWord, Ext.word, Ext.mk.injEq]
  refine ⟨?_, ?_, ?_, ?_, ?_, ?_, ?_, extractLsb'_append_eq_right⟩
  · iterate 7 rw [extractLsb'_append_eq_of_le (by decide)]
    exact extractLsb'_eq_self
  · iterate 6 rw [extractLsb'_append_eq_of_le (by decide)]
    exact extractLsb'_append_eq_right
  iterate 4
    · iterate 7 rw [getLsbD_append]
      simp
  · rw [extractLsb'_append_eq_of_le (by decide)]
    exact extractLsb'_append_eq_right

/-- The bytes of a word make it up again (R3). -/
theorem word_of_wordBytes : w.extractLsb' 24 8 ++ w.extractLsb' 16 8 ++ w.extractLsb' 8 8 ++ w.extractLsb' 0 8 = w := by
  iterate 3 rw [extractLsb'_append_extractLsb'_eq_extractLsb' (by rfl)]
  exact extractLsb'_eq_self

/-- A word's bytes are those it is made of. -/
theorem wordBytes_of_bytes (b0 b1 b2 b3 : Byte) : wordBytes (b3 ++ b2 ++ b1 ++ b0) = [b0, b1, b2, b3] := by
  rw [wordBytes, extractLsb'_append_eq_right, extractLsb'_append_eq_of_le (by decide), extractLsb'_append_eq_right,
    extractLsb'_append_eq_of_le (by decide), extractLsb'_append_eq_of_le (by decide), extractLsb'_append_eq_right]
  iterate 3 rw [extractLsb'_append_eq_of_le (by decide)]
  rw [extractLsb'_eq_self]

end

/-! ## The opcode maps (R144, R145) -/

section
variable {s : Bool} {maj fn : BitVec 6} {o : Opnd} {i : Instr}

/-- A field is the number that it was matched on. -/
theorem eq_ofNat_of_toNat {n m : Nat} {x : BitVec n} (h : x.toNat = m) : x = BitVec.ofNat n m := by
  rw [← h, BitVec.ofNat_toNat, BitVec.setWidth_eq]

theorem fields_of_major {m : Nat} (hm : maj.toNat = m) (h : fields i = some (.register s (BitVec.ofNat 6 m) fn o)) :
    fields i = some (.register s maj fn o) :=
  eq_ofNat_of_toNat hm ▸ h

theorem fields_of_minor {m n : Nat} (hm : maj.toNat = m) (hn : fn.toNat = n)
    (h : fields i = some (.register s (BitVec.ofNat 6 m) (BitVec.ofNat 6 n) o)) : fields i = some (.register s maj fn o) :=
  fields_of_major hm (eq_ofNat_of_toNat hn ▸ h)

/-- The minor of an atomic: its order above its operation (R222). -/
theorem atomMinor_eq {k : Nat} (h : fn.toNat % 16 = k) : fn.extractLsb' 4 2 ++ BitVec.ofNat 4 k = fn := by
  have hk : BitVec.ofNat 4 k = fn.extractLsb' 0 4 := by
    rw [← h]
    apply BitVec.eq_of_toNat_eq
    simp
  rw [hk, BitVec.extractLsb'_append_extractLsb'_eq_extractLsb' (by rfl)]
  exact BitVec.extractLsb'_eq_self

theorem fields_of_laneMinor19 (h : laneMinor19 fn o = some i) : fields i = some (.register false 0x19 fn o) := by
  unfold laneMinor19 at h
  split at h <;> cases h <;> next hk => exact congrArg (fun k => some (Fields.register false 0x19 k o)) (atomMinor_eq hk)

/-- The lane maps list an instruction at its own major and minor. Of most majors each minor is one instruction; the minor of
LD, ST, LDT, STT and MXM is an operand of theirs, and that of ATOM holds one. -/
theorem fields_of_laneRegister (h : laneRegister maj fn o = some i) : fields i = some (.register false maj fn o) := by
  unfold laneRegister at h
  split at h
  case h_17 hm | h_18 hm | h_19 hm | h_20 hm | h_25 hm =>
    simp only [laneMinor15, laneMinor16, laneMinor17, laneMinor18, laneMinor1D] at h
    split at h <;> cases h
    exact fields_of_major hm rfl
  case h_21 hm => exact fields_of_major hm (fields_of_laneMinor19 h)
  case h_29 => cases h
  all_goals
    next hm =>
    simp only [laneMinor00, laneMinor06, laneMinor07, laneMinor08, laneMinor09, laneMinor0A, laneMinor0B, laneMinor0C, laneMinor0D,
      laneMinor0E, laneMinor0F, laneMinor10, laneMinor11, laneMinor12, laneMinor13, laneMinor14, laneMinor1A, laneMinor1B, laneMinor1C,
      laneMinor1E, laneMinor1F, laneMinor20] at h
    split at h <;> cases h <;> next hn => exact fields_of_minor hm hn rfl

/-- So do the group maps; a V2G of a fixed lane has the minor of V2G. -/
theorem fields_of_groupRegister (h : groupRegister maj fn o = some i) : fields i = some (.register true maj fn o) := by
  unfold groupRegister at h
  split at h
  case h_4 hm =>
    unfold groupMinor07 at h
    split at h
    next hn => split at h <;> cases h <;> exact fields_of_minor hm hn rfl
    next => cases h
  case h_21 => cases h
  all_goals
    next hm =>
    simp only [groupMinor00, groupMinor05, groupMinor06, groupMinor0A, groupMinor0B, groupMinor0C, groupMinor0D, groupMinor0E,
      groupMinor0F, groupMinor10, groupMinor11, groupMinor12, groupMinor13, groupMinor14, groupMinor15, groupMinor16, groupMinor17,
      groupMinor18, groupMinor19] at h
    split at h <;> cases h <;> next hn => exact fields_of_minor hm hn rfl

theorem fields_of_groupMinor04 {o : OpndLit} (h : groupMinor04 fn o = some i) : fields i = some (.literal true 4 fn o) := by
  unfold groupMinor04 at h
  split at h <;> cases h <;> next hn => exact eq_ofNat_of_toNat hn ▸ rfl

/-- An LI or GI word names an instruction of the immediate form, a GB word one of the branch form. -/
theorem fields_of_shortInstr {o : OpndI} {off : BitVec 24} (h : shortInstr s maj o off = some i) :
    fields i = some (.immediate s maj o) ∨ fields i = some (.branch s maj off) := by
  unfold shortInstr at h
  split at h <;> cases h
  case h_8 hm | h_9 hm => exact .inr (eq_ofNat_of_toNat hm ▸ rfl)
  all_goals next hm => exact .inl (eq_ofNat_of_toNat hm ▸ rfl)

/-- The maps of the register form list an instruction at its own place. -/
theorem fields_of_registerInstr (h : registerInstr s maj fn o = .ok i) : fields i = some (.register s maj fn o) := by
  unfold registerInstr at h
  split at h
  · cases h
  · split at h
    next hi =>
      cases h
      cases s
      · exact fields_of_laneRegister hi
      · exact fields_of_groupRegister hi
    next => cases h

/-- An instruction of the register form is listed there, where the maps name one. -/
theorem minorListed_of_registerInstr {j : Instr} (hf : fields i = some (.register s maj fn o)) (h : registerInstr s maj fn o = .ok j) :
    minorListed i = true := by
  simp only [minorListed, hf]
  unfold registerInstr at h
  split at h
  · cases h
  · split at h
    next hi => rw [hi]; rfl
    next => cases h

end

/-- The opcode maps of the decoder and of the encoder agree on every wave instruction: by the law of each whose minor or
extension word is an operand, and by evaluation for the others. -/
theorem roundTrip_of_encodable {i : Instr} (h : encodable i = true) : RoundTrip.Statement i := by
  cases i <;> cases h
  case v2g.refl o => exact RoundTrip.v2g o
  case v2gLane.refl o => exact RoundTrip.v2gLane o
  case ld.refl fmt o => exact RoundTrip.ld fmt o
  case st.refl fmt o => exact RoundTrip.st fmt o
  case ldt.refl size o => exact RoundTrip.ldt size o
  case stt.refl size o => exact RoundTrip.stt size o
  case mxm.refl fmts o => exact RoundTrip.mxm fmts o
  case atomAddS32.refl order o => exact RoundTrip.atomAddS32 order o
  case atomAddS64.refl order o => exact RoundTrip.atomAddS64 order o
  case atomAddF32.refl order o => exact RoundTrip.atomAddF32 order o
  case atomMinS32.refl order o => exact RoundTrip.atomMinS32 order o
  case atomMaxS32.refl order o => exact RoundTrip.atomMaxS32 order o
  case atomMinN32.refl order o => exact RoundTrip.atomMinN32 order o
  case atomMaxN32.refl order o => exact RoundTrip.atomMaxN32 order o
  case atomAnd.refl order o => exact RoundTrip.atomAnd order o
  case atomOr.refl order o => exact RoundTrip.atomOr order o
  case atomXor.refl order o => exact RoundTrip.atomXor order o
  case atomExch.refl order o => exact RoundTrip.atomExch order o
  case atomInc.refl order o => exact RoundTrip.atomInc order o
  case gmovl.refl | gaddl.refl => exact ⟨rfl, rfl, rfl⟩
  case iaddi.refl | andi.refl | ori.refl | xori.refl | gaddi.refl | gandi.refl | gori.refl | bra.refl | call.refl => exact ⟨rfl, fun _ => rfl⟩
  all_goals exact RoundTrip.of_register rfl rfl rfl rfl

section
variable {i : Instr} {s : Bool} {maj fn : BitVec 6} {off : BitVec 24}

theorem encodable_of_fields {f : Fields} (hf : fields i = some f) : encodable i = true := by rw [encodable, hf]; rfl

theorem registerInstr_of_fields {o : Opnd} (hf : fields i = some (.register s maj fn o)) (hw : wellFormed i = true) :
    shortForm s maj = false ∧ (s && maj == 4) = false ∧ registerInstr s maj fn o = .ok i := by
  have h := roundTrip_of_encodable (encodable_of_fields hf)
  rw [RoundTrip.Statement, hf] at h
  exact h hw

theorem shortInstr_of_immediate {o : OpndI} (hf : fields i = some (.immediate s maj o)) :
    shortForm s maj = true ∧ ∀ off, shortInstr s maj o off = some i := by
  have h := roundTrip_of_encodable (encodable_of_fields hf)
  rwa [RoundTrip.Statement, hf] at h

theorem shortInstr_of_branch (hf : fields i = some (.branch s maj off)) : shortForm s maj = true ∧ ∀ o, shortInstr s maj o off = some i := by
  have h := roundTrip_of_encodable (encodable_of_fields hf)
  rwa [RoundTrip.Statement, hf] at h

theorem groupMinor04_of_fields {o : OpndLit} (hf : fields i = some (.literal s maj fn o)) :
    s = true ∧ maj = 4 ∧ groupMinor04 fn o = some i := by
  have h := roundTrip_of_encodable (encodable_of_fields hf)
  rw [RoundTrip.Statement, hf] at h
  obtain ⟨-, hm, hi⟩ := h
  simp only [Bool.and_eq_true, beq_iff_eq] at hm
  exact ⟨hm.1, hm.2, hi⟩

end

/-! ## The decoder -/

/-- The decoder's last check: reserved fields, the extension word and reserved values (R358 SUB 3, 5, 6 and 7). -/
def checked (i : Instr) : Except Nat Instr :=
  match illegalSub i with
  | some k => .error k
  | none => .ok i

theorem checked_eq_ok_iff {i j : Instr} : checked i = .ok j ↔ i = j ∧ illegalSub i = none := by
  unfold checked
  split <;> simp_all

/-- An instruction that is listed and passes the last check. -/
theorem elim_checked_eq_ok_iff {r : Option Instr} {i : Instr} {k : Nat} :
    r.elim (.error k) checked = .ok i ↔ r = some i ∧ illegalSub i = none := by
  cases r with
  | none => exact ⟨nofun, nofun⟩
  | some j => simp only [Option.elim_some, checked_eq_ok_iff, Option.some.injEq]; constructor <;> (rintro ⟨rfl, h⟩; exact ⟨rfl, h⟩)

section
variable {w0 w1 : Word}

/-- A word of the LI, GI or GB form (R137, R358 SUB 4). -/
theorem decodeWords_of_short (h : shortForm (w0.getLsbD 31) (w0.extractLsb' 24 6) = true) : decodeWords w0 w1 =
    if w0.getLsbD 30 then .error 4 else
      (shortInstr (w0.getLsbD 31) (w0.extractLsb' 24 6)
        { d := w0.extractLsb' 18 6, a := w0.extractLsb' 12 6, imm := w0.extractLsb' 0 12 } (w0.extractLsb' 0 24)).elim (.error 1) checked := by
  simp only [decodeWords, h, if_true]
  cases w0.getLsbD 30
  · cases shortInstr (w0.getLsbD 31) (w0.extractLsb' 24 6) { d := w0.extractLsb' 18 6, a := w0.extractLsb' 12 6, imm := w0.extractLsb' 0 12 }
      (w0.extractLsb' 0 24) <;> rfl
  · rfl

/-- A GLIT word, whose next word is its literal (R138, R358 SUB 5). -/
theorem decodeWords_of_literal (hs : w0.getLsbD 31 = true) (hm : w0.extractLsb' 24 6 = 4) : decodeWords w0 w1 =
    (groupMinor04 (w0.extractLsb' 0 6) { d := w0.extractLsb' 18 6, a := w0.extractLsb' 12 6, b := w0.extractLsb' 6 6, lit := w1 }).elim (.error 2)
      fun i => if w0.getLsbD 30 then checked i else .error (if (illegalSub i).isSome then 3 else 5) := by
  simp only [decodeWords, hs, hm, shortForm, beq_self_eq_true, Bool.and_self, if_true]
  cases groupMinor04 (w0.extractLsb' 0 6) { d := w0.extractLsb' 18 6, a := w0.extractLsb' 12 6, b := w0.extractLsb' 6 6, lit := w1 } with
  | none => rfl
  | some i => cases w0.getLsbD 30 <;> rfl

/-- The fields that a register-form word gives its instruction (R137, R138). -/
def opndOf (w0 w1 : Word) : Opnd :=
  { d := w0.extractLsb' 18 6, a := w0.extractLsb' 12 6, b := w0.extractLsb' 6 6, x := if w0.getLsbD 30 then some (Ext.ofWord w1) else none }

/-- Any other word. -/
theorem decodeWords_of_register (h : shortForm (w0.getLsbD 31) (w0.extractLsb' 24 6) = false)
    (hl : (w0.getLsbD 31 && w0.extractLsb' 24 6 == 4) = false) : decodeWords w0 w1 =
    registerInstr (w0.getLsbD 31) (w0.extractLsb' 24 6) (w0.extractLsb' 0 6) (opndOf w0 w1) >>= checked := by
  simp only [decodeWords, h, hl, Bool.false_eq_true, if_false, opndOf]
  cases registerInstr (w0.getLsbD 31) (w0.extractLsb' 24 6) (w0.extractLsb' 0 6) _ <;> rfl

end

/-! ## Decoding and encoding -/

/-- A register form's words, its base word and its extension word if it carries one. -/
theorem words_register (s : Bool) (maj fn : BitVec 6) (o : Opnd) : (Fields.register s maj fn o).words =
    baseWord s o.x.isSome maj o.d o.a o.b fn :: (o.x.map Ext.word).toList := by
  cases o with | mk d a b x => cases x <;> rfl

/-- The fields read from a form's own words are those of the form. -/
theorem opndOf_baseWord {s : Bool} {maj fn : BitVec 6} {o : Opnd} {w1 : Word} (h : ∀ e, o.x = some e → w1 = e.word) :
    opndOf (baseWord s o.x.isSome maj o.d o.a o.b fn) w1 = o := by
  obtain ⟨d, a, b, x⟩ := o
  simp only [opndOf, baseWord_d, baseWord_a, baseWord_b, baseWord_extended]
  cases x with
  | none => rfl
  | some e => simp [h e rfl]

/-- A word and the next are those of the fields read from them. -/
theorem words_opndOf (s : Bool) (maj fn : BitVec 6) (w0 w1 : Word) : (Fields.register s maj fn (opndOf w0 w1)).words =
    baseWord s (w0.getLsbD 30) maj (w0.extractLsb' 18 6) (w0.extractLsb' 12 6) (w0.extractLsb' 6 6) fn ::
      if w0.getLsbD 30 then [w1] else [] := by
  rw [words_register]
  simp only [opndOf]
  cases w0.getLsbD 30 <;> simp

/-- The words that the decoder reads as one instruction: the base word, and the word after it when X = 1 (R136). -/
def wordsRead (w0 w1 : Word) : List Word := w0 :: if w0.getLsbD 30 then [w1] else []

section
variable {i : Instr} {w0 w1 : Word}

theorem encode_of_fields {f : Fields} (hf : fields i = some f) : encode i = f.words := by rw [encode, hf]

/-- The words are the encoding of an instruction that decodes. -/
def Encodes (i : Instr) (w0 w1 : Word) : Prop := wellFormed i = true ∧ encodable i = true ∧ encode i = wordsRead w0 w1

/-- The encoding of a listed instruction whose words these are. -/
theorem encodes_of_fields {f : Fields} (hf : fields i = some f) (hl : minorListed i = true) (hs : illegalSub i = none)
    (hw : f.words = wordsRead w0 w1) : Encodes i w0 w1 :=
  ⟨by rw [wellFormed, hl, hs]; rfl, encodable_of_fields hf, (encode_of_fields hf).trans hw⟩

theorem encodes_of_decodeWords_short (hs : shortForm (w0.getLsbD 31) (w0.extractLsb' 24 6) = true) (h : decodeWords w0 w1 = .ok i) :
    Encodes i w0 w1 := by
  rw [decodeWords_of_short hs] at h
  split at h
  next => cases h
  next hx =>
  replace hx : w0.getLsbD 30 = false := by simpa using hx
  have hw : wordsRead w0 w1 = [w0] := by rw [wordsRead, hx]; rfl
  obtain ⟨hi, hsub⟩ := elim_checked_eq_ok_iff.mp h
  rcases fields_of_shortInstr hi with hf | hf
  · have hl : minorListed i = true := by simp only [minorListed, hf, (shortInstr_of_immediate hf).2]; rfl
    exact encodes_of_fields hf hl hsub ((congrArg (fun w => [w]) (immediateWord_of_fields w0 hx)).trans hw.symm)
  · have hl : minorListed i = true := by simp only [minorListed, hf, (shortInstr_of_branch hf).2]; rfl
    exact encodes_of_fields hf hl hsub ((congrArg (fun w => [w]) (branchWord_of_fields w0 hx)).trans hw.symm)

theorem encodes_of_decodeWords_literal (hs : w0.getLsbD 31 = true) (hm : w0.extractLsb' 24 6 = 4) (h : decodeWords w0 w1 = .ok i) :
    Encodes i w0 w1 := by
  rw [decodeWords_of_literal hs hm] at h
  cases hx : w0.getLsbD 30
  case false =>
    simp only [hx, Bool.false_eq_true, if_false] at h
    revert h
    cases groupMinor04 (w0.extractLsb' 0 6) _ <;> exact nofun
  simp only [hx, if_true] at h
  obtain ⟨hi, hsub⟩ := elim_checked_eq_ok_iff.mp h
  have hf := fields_of_groupMinor04 hi
  have hl : minorListed i = true := by simp only [minorListed, hf, hi]; rfl
  refine encodes_of_fields hf hl hsub ?_
  have hb := baseWord_of_fields w0
  rw [hs, hx, hm] at hb
  rw [wordsRead, hx]
  exact congrArg (fun w => [w, w1]) hb

theorem encodes_of_decodeWords_register (hs : shortForm (w0.getLsbD 31) (w0.extractLsb' 24 6) = false)
    (hm : (w0.getLsbD 31 && w0.extractLsb' 24 6 == 4) = false) (h : decodeWords w0 w1 = .ok i) : Encodes i w0 w1 := by
  rw [decodeWords_of_register hs hm] at h
  cases hr : registerInstr (w0.getLsbD 31) (w0.extractLsb' 24 6) (w0.extractLsb' 0 6) (opndOf w0 w1) with
  | error k => rw [hr] at h; cases h
  | ok j =>
    rw [hr] at h
    obtain ⟨rfl, hsub⟩ := checked_eq_ok_iff.mp h
    have hf := fields_of_registerInstr hr
    refine encodes_of_fields hf (minorListed_of_registerInstr hf hr) hsub ?_
    rw [words_opndOf, baseWord_of_fields, wordsRead]

/-- Words decode to an instruction exactly when it is well formed and they are its encoding. -/
theorem decodeWords_eq_ok_iff : decodeWords w0 w1 = .ok i ↔ Encodes i w0 w1 := by
  constructor
  · intro h
    by_cases hs : shortForm (w0.getLsbD 31) (w0.extractLsb' 24 6) = true
    · exact encodes_of_decodeWords_short hs h
    · by_cases hm : (w0.getLsbD 31 && w0.extractLsb' 24 6 == 4) = true
      · obtain ⟨h31, h4⟩ := Bool.and_eq_true_iff.mp hm
        exact encodes_of_decodeWords_literal h31 (eq_of_beq h4) h
      · exact encodes_of_decodeWords_register (by simpa using hs) (by simpa using hm) h
  · rintro ⟨hw, he, h⟩
    obtain ⟨f, hf⟩ := Option.isSome_iff_exists.mp he
    have hsub : illegalSub i = none := Option.isNone_iff_eq_none.mp (Bool.and_eq_true_iff.mp hw).2
    rw [encode_of_fields hf] at h
    cases f with
    | register s maj fn o =>
      obtain ⟨hs, hm, hr⟩ := registerInstr_of_fields hf hw
      rw [words_register] at h
      obtain ⟨rfl, hx⟩ := List.cons.inj h
      have ho : opndOf (baseWord s o.x.isSome maj o.d o.a o.b fn) w1 = o := opndOf_baseWord fun e he => by
        rw [baseWord_extended, he] at hx
        exact (List.cons.inj hx).1.symm
      rw [decodeWords_of_register (by rwa [baseWord_set, baseWord_major]) (by rwa [baseWord_set, baseWord_major]), ho, baseWord_set,
        baseWord_major, baseWord_fn, hr]
      exact checked_eq_ok_iff.mpr ⟨rfl, hsub⟩
    | immediate s maj o =>
      obtain ⟨hs, hi⟩ := shortInstr_of_immediate hf
      obtain ⟨rfl, -⟩ : immediateWord s maj o.d o.a o.imm = w0 ∧ _ := List.cons.inj h
      rw [decodeWords_of_short (by rwa [immediateWord_set, immediateWord_major]), immediateWord_set, immediateWord_major, immediateWord_d,
        immediateWord_a, immediateWord_imm, immediateWord_extended]
      exact elim_checked_eq_ok_iff.mpr ⟨hi _, hsub⟩
    | branch s maj off =>
      obtain ⟨hs, hi⟩ := shortInstr_of_branch hf
      obtain ⟨rfl, -⟩ : branchWord s maj off = w0 ∧ _ := List.cons.inj h
      rw [decodeWords_of_short (by rwa [branchWord_set, branchWord_major]), branchWord_set, branchWord_major, branchWord_off,
        branchWord_extended]
      exact elim_checked_eq_ok_iff.mpr ⟨hi _, hsub⟩
    | literal s maj fn o =>
      obtain ⟨rfl, rfl, hi⟩ := groupMinor04_of_fields hf
      obtain ⟨rfl, hx⟩ : baseWord true true 4 o.d o.a o.b fn = w0 ∧ [o.lit] = _ := List.cons.inj h
      rw [baseWord_extended] at hx
      obtain ⟨rfl, -⟩ := List.cons.inj hx
      rw [decodeWords_of_literal (baseWord_set ..) (baseWord_major ..), baseWord_d, baseWord_a, baseWord_b, baseWord_fn, baseWord_extended]
      exact elim_checked_eq_ok_iff.mpr ⟨hi, hsub⟩

end

/-- The words of every form are read as one instruction. -/
theorem words_eq_wordsRead (f : Fields) : ∃ w0 w1, f.words = wordsRead w0 w1 := by
  cases f with
  | register s maj fn o =>
    refine ⟨baseWord s o.x.isSome maj o.d o.a o.b fn, (o.x.map Ext.word).getD 0, ?_⟩
    rw [words_register, wordsRead, baseWord_extended]
    cases o.x <;> rfl
  | immediate s maj o => exact ⟨immediateWord s maj o.d o.a o.imm, 0, by rw [wordsRead, immediateWord_extended]; rfl⟩
  | branch s maj off => exact ⟨branchWord s maj off, 0, by rw [wordsRead, branchWord_extended]; rfl⟩
  | literal s maj fn o => exact ⟨baseWord s true maj o.d o.a o.b fn, o.lit, by rw [wordsRead, baseWord_extended]; rfl⟩

section
variable {bytes rest : List Byte} {i : Instr}

/-- The decoder takes the words that the bytes begin with (R3, R136). -/
theorem decode_eq_ok_iff : decode bytes = .ok (i, rest) ↔
    ∃ w0 w1, bytes = (wordsRead w0 w1).flatMap wordBytes ++ rest ∧ decodeWords w0 w1 = .ok i := by
  constructor
  · intro h
    unfold decode at h
    split at h
    next b0 b1 b2 b3 r =>
      have h0 := wordBytes_of_bytes b0 b1 b2 b3
      extract_lets w0 at h
      split at h
      next hx =>
        split at h
        next c0 c1 c2 c3 r' =>
          have h1 := wordBytes_of_bytes c0 c1 c2 c3
          split at h
          next hi =>
            cases h
            refine ⟨w0, c3 ++ c2 ++ c1 ++ c0, ?_, hi⟩
            rw [wordsRead, if_pos hx]
            simp [w0, h0, h1]
          next => cases h
        next => cases h
      next hx =>
        split at h
        next hi =>
          cases h
          refine ⟨w0, 0, ?_, hi⟩
          rw [wordsRead, if_neg hx]
          simp [w0, h0]
        next => cases h
    next => cases h
  · rintro ⟨w0, w1, rfl, h⟩
    cases hx : w0.getLsbD 30
    case true => simp only [wordsRead, hx, if_true, List.flatMap_cons, List.flatMap_nil, List.append_nil, wordBytes, List.cons_append,
      List.nil_append, decode, word_of_wordBytes, h]
    case false =>
      have h0 : decodeWords w0 0 = .ok i := by
        obtain ⟨hw, he, hi⟩ := decodeWords_eq_ok_iff.mp h
        exact decodeWords_eq_ok_iff.mpr ⟨hw, he, by rw [hi, wordsRead, wordsRead, hx]; rfl⟩
      simp only [wordsRead, hx, Bool.false_eq_true, if_false, List.flatMap_cons, List.flatMap_nil, List.append_nil, wordBytes,
        List.cons_append, List.nil_append, decode, word_of_wordBytes, h0]

end

/-- Settles O2: words decode to an instruction exactly when they are its encoding, and bytes are read as words. -/
theorem decodingAndEncodingAgree : Obligations.DecodingAndEncodingAgree := by
  refine ⟨fun i rest hw he => ?_, fun bytes i rest h => ?_⟩
  · obtain ⟨f, hf⟩ := Option.isSome_iff_exists.mp he
    obtain ⟨w0, w1, hwords⟩ := words_eq_wordsRead f
    have hi : encode i = wordsRead w0 w1 := (encode_of_fields hf).trans hwords
    exact decode_eq_ok_iff.mpr ⟨w0, w1, by rw [encodeBytes, hi], decodeWords_eq_ok_iff.mpr ⟨hw, he, hi⟩⟩
  · obtain ⟨w0, w1, hb, hd⟩ := decode_eq_ok_iff.mp h
    obtain ⟨hw, he, hi⟩ := decodeWords_eq_ok_iff.mp hd
    exact ⟨hw, he, by rw [hb, encodeBytes, hi]⟩

end Sys2Proof.Laws
end

section
/-! SUPPORT. Words that are no instruction (R140, R358), and the step on them. -/

namespace Sys2Proof.Laws

open Sys2Proof.Machine Sys2Proof.Safety

/-- Settles O1: each word evaluates to its instruction. -/
theorem encodingsOfTheSpecDecode : Obligations.EncodingsOfTheSpecDecode := by
  unfold Obligations.EncodingsOfTheSpecDecode
  and_intros <;> rfl

/-! ## The SUB codes -/

section
variable {w0 w1 : Word} {s : Bool} {maj fn : BitVec 6} {o : Opnd}

/-- A major that is not assigned names nothing. -/
theorem registerInstr_of_unassigned (h : majorAssigned s maj = false) : registerInstr s maj fn o = .error 1 := by
  rw [registerInstr, h]; rfl

theorem majorAssigned_lane (h : maj = 0x05 ∨ 0x20 < maj.toNat) : majorAssigned false maj = false := by
  rcases h with rfl | h
  · rfl
  · simp [majorAssigned, Nat.not_le.mpr h]

theorem majorAssigned_group (h : 0x19 < maj.toNat) : majorAssigned true maj = false := by
  simp [majorAssigned, Nat.not_le.mpr h]

/-- A major that is not assigned has neither a short form nor a literal. -/
theorem shortForm_of_unassigned (h : majorAssigned s maj = false) : shortForm s maj = false ∧ (s && maj == 4) = false := by
  revert maj s
  decide

/-- A word of a major that is not assigned (SUB 1). -/
theorem decodeWords_of_unassigned (h : majorAssigned (w0.getLsbD 31) (w0.extractLsb' 24 6) = false) : decodeWords w0 w1 = .error 1 := by
  obtain ⟨hs, hl⟩ := shortForm_of_unassigned h
  rw [decodeWords_of_register hs hl, registerInstr_of_unassigned h]
  rfl

/-- IALU and GALU list their minors from 0 without a gap (SUB 2). -/
theorem registerInstr_of_unlisted (h : (if s then 19 else 14) < fn.toNat) : registerInstr s 0 fn o = .error 2 := by
  cases s
  case false =>
    replace h : 14 < fn.toNat := h
    have hm : laneMinor00 fn o = none := by
      unfold laneMinor00
      split
      case h_16 => rfl
      all_goals omega
    simp only [registerInstr, laneRegister, hm]
    rfl
  case true =>
    replace h : 19 < fn.toNat := h
    have hm : groupMinor00 fn o = none := by
      unfold groupMinor00
      split
      case h_21 => rfl
      all_goals omega
    simp only [registerInstr, groupRegister, hm]
    rfl

end

/-- The fields of a GADD with an extension word that names predicate pr. -/
def gaddWith (d a b : BitVec 6) (pr : BitVec 3) : Opnd := { d := d, a := a, b := b, x := some { Ext.default with pr := pr } }

/-- Another predicate than 7 in a group instruction (SUB 6). -/
theorem illegalSub_gadd {d a b : BitVec 6} {pr : BitVec 3} (hp : pr ≠ 7) : illegalSub (.gadd (gaddWith d a b pr)) = some 6 := by
  replace hp : ¬pr = 7#3 := hp
  simp [gaddWith, illegalSub, fields, sig, reservedNonzero, FieldUse.reservedBits, FieldUse.trapBitOk, plusX, Opnd.ext, Ext.default, hp]

/-- Settles O4: each word is of one form, and the decoder's equation of that form says how it is refused. -/
theorem illegalWordsAreRefusedByName : Obligations.IllegalWordsAreRefusedByName := by
  refine ⟨fun w0 w1 hs hm => ?_, fun w0 w1 hs hm => ?_, fun w0 w1 hx hs => ?_, fun d w1 => ?_, fun s x d a b fn w1 h => ?_, fun d a b pr hp => ?_⟩
  · exact decodeWords_of_unassigned (hs ▸ majorAssigned_lane hm)
  · exact decodeWords_of_unassigned (hs ▸ majorAssigned_group hm)
  · rw [decodeWords_of_short hs, hx]; rfl
  · change decodeWords (baseWord true false 4 d 0 0 0) w1 = _
    rw [decodeWords_of_literal (baseWord_set ..) (baseWord_major ..), baseWord_d, baseWord_a, baseWord_b, baseWord_fn, baseWord_extended]
    simp [groupMinor04, illegalSub, fields, sig, FieldUse.reservedBits]
  · obtain ⟨y, rfl⟩ : ∃ y, x = BitVec.ofBool y := by revert x; decide
    change decodeWords (baseWord s y 0 d a b fn) w1 = _
    rw [decodeWords_of_register (by rw [baseWord_set, baseWord_major]; cases s <;> rfl) (by rw [baseWord_set, baseWord_major]; cases s <;> rfl),
      baseWord_set, baseWord_major, baseWord_fn, registerInstr_of_unlisted h]
    rfl
  · have hw : (0#6 ++ pr ++ 0#1 ++ 0#3 ++ 0#3 ++ 0#16 : BitVec 32) = { Ext.default with pr := pr }.word := by
      clear hp
      revert pr
      decide
    change decodeWords (baseWord true true 0 d a b 0) _ = _
    rw [decodeWords_of_register (by rw [baseWord_set, baseWord_major]; rfl) (by rw [baseWord_set, baseWord_major]; rfl), baseWord_set,
      baseWord_major, baseWord_fn, hw]
    have ho : opndOf (baseWord true true 0 d a b 0) { Ext.default with pr := pr }.word = gaddWith d a b pr :=
      opndOf_baseWord (o := gaddWith d a b pr) fun e he => by rw [← Option.some.inj he]
    have hr : registerInstr true 0 0 (gaddWith d a b pr) = .ok (.gadd (gaddWith d a b pr)) := rfl
    rw [ho, hr]
    exact (by rw [checked, illegalSub_gadd hp] : checked (.gadd (gaddWith d a b pr)) = .error 6)

/-! ## The step -/

/-- A gang that fetches words which are no instruction takes the trap that R358 gives them. -/
theorem nextOf_of_illegal {s s1 : State} {c : Issue} {r : WaveRef} {sl sub : Nat} {w0 w1 : Word} (h : MayFetch s c)
    (hc : s.cur = some (r, sl)) (hf : s.fetchWords c = .ok (w0, w1, s1)) (hd : decodeWords w0 w1 = .error sub) :
    s.nextOf r sl = .done (s1.takeTrap c.wave (c.trap 0x01 sub (wordsAddr (if w0.getLsbD 30 then [w0, w1] else [w0])) c.activeGroup)) := by
  obtain ⟨hi, hr, hm, hdiv, hst, hw, hp, ht⟩ := h
  have hs : ({ s with cur := some (r, sl) } : State) = s := by rw [← hc]
  have hround : s.roundBars c = false := by simp [State.roundBars, State.inRounds, hw]
  have hpre : (c.crew.preempt.isSome && c.gang.isHalted) = false := by rcases hp with hp | hp <;> simp [hp]
  have htrap : (!c.wave.sup && c.wave.trapFirst (s.ownedEntry c.wave c.crew)) = false := by
    rcases ht with ht | ⟨ht, -⟩
    · simp [ht]
    · simp [ht, Wave.trapFirst]
  have hown : (!c.wave.sup && (s.ownedEntry c.wave c.crew).isSome) = false := by rcases ht with ht | ⟨-, ht⟩ <;> simp [ht]
  simp only [State.nextOf, hs, hi, hdiv, hst, hround, hr, hpre, htrap, hown, hm, hf, hd, decide_false, Bool.not_true, Bool.or_self,
    Bool.false_eq_true, if_false]

/-- The words that are reported: the base word, and the one above it when X = 1 (R351). -/
theorem wordsAddr_read {w0 w1 : Word} (h : w0.getLsbD 30 = false → w1 = 0) :
    wordsAddr (if w0.getLsbD 30 then [w0, w1] else [w0]) = w1 ++ w0 := by
  cases hx : w0.getLsbD 30
  · rw [h hx]; rfl
  · rfl

/-- Settles O7: the agenda names the gang, it fetches the words, and takes their trap. -/
theorem stepTrapsOnIllegalWords : Obligations.StepTrapsOnIllegalWords := by
  intro s a r sl rest c b w0 w1 sub ha hi hf s0 hc hr hm hdiv hst hwoad hp ht hb h0 h1 hd
  have hcur : s0.cur = some (r, sl) := rfl
  have hx : w0.getLsbD 30 = false → w1 = 0 := fun hx => by rwa [hx, if_neg Bool.false_ne_true] at h1
  rw [step, takeNext_of_issue ha hi hf,
    nextOf_of_illegal ⟨hc, hr, hm, hdiv, hst, hwoad, hp, ht⟩ hcur (fetchWords_of_code hb h0 h1) hd, wordsAddr_read hx]
  rfl

end Sys2Proof.Laws
end

section
/-! SUPPORT. The checks that every wave instruction makes before its own (R350 ranks 2 to 6), and the wait on its registers. -/

namespace Sys2Proof.Laws

open Sys2Proof.Machine Sys2Proof.Safety

/-! ## Every wave instruction is issued -/

/-- The major of a wave instruction, as its base word holds it (R137). -/
def majorOf (i : Instr) : Nat := (((encode i).headD 0).extractLsb' 24 6).toNat

/-- Nothing is asked that is checked before the role (R350, ranks 2 to 4). -/
def AsksLate (n : Issue → Needs) : Prop := ∀ c, (n c).noEntry = false ∧ (n c).privileged = false ∧ (n c).denied = false

/-- What an instruction may ask beyond its role: nothing; a group instruction, which every role allows, anything; and an
instruction above major 0x12 a place or a mode. -/
def NeedsOf (i : Instr) (n : Issue → Needs) : Prop := n = plain ∨ classOf i = .genGroup ∨ AsksLate n ∧ 0x12 < majorOf i

/-- The major of a register form. -/
theorem majorOf_register {i : Instr} {s : Bool} {maj fn : BitVec 6} {o : Opnd} (h : fields i = some (.register s maj fn o)) :
    majorOf i = maj.toNat := by
  rw [majorOf, encode_of_fields h, words_register, List.headD_cons, baseWord_major]

theorem lt_majorOf {i : Instr} {s : Bool} {maj fn : BitVec 6} {o : Opnd} (h : fields i = some (.register s maj fn o))
    (hm : 0x12 < maj.toNat) : 0x12 < majorOf i := by
  rwa [majorOf_register h]

/-- The pixel instructions ask for a place alone (R362). -/
theorem asksLate_pixelNeeds : AsksLate pixelNeeds := fun c => by
  unfold pixelNeeds
  split <;> exact ⟨rfl, rfl, rfl⟩

/-- BIN asks for a place and a mode (R362). -/
theorem asksLate_binNeeds (o : Opnd) : AsksLate (binNeeds o) := fun c => by
  unfold binNeeds
  split <;> exact ⟨rfl, rfl, rfl⟩

/-- Every wave instruction is its own effect within the frame of issue. -/
theorem exec_eq_issue {i : Instr} (h : encodable i = true) (s : State) : ∃ n body, exec i s = issue i n s body ∧ NeedsOf i n := by
  cases i <;> cases h
  case phase.refl | safe.refl | gsys.refl | ssys.refl | rte.refl | tlbinv.refl | setseg.refl | replayall.refl | regang.refl | exit.refl |
      tileinfo.refl | tdone.refl | hinfo.refl | hdone.refl | qpush.refl | qpop.refl | qoffer.refl | qpoll.refl |
      barSync.refl | barArrive.refl | barCrew.refl =>
    exact ⟨_, _, rfl, .inr (.inl rfl)⟩
  case pixinfo.refl | ipa.refl | ipaPersp.refl | blend.refl =>
    exact ⟨_, _, rfl, .inr (.inr ⟨asksLate_pixelNeeds, lt_majorOf rfl (by decide)⟩)⟩
  case bin.refl o => exact ⟨_, _, rfl, .inr (.inr ⟨asksLate_binNeeds o, lt_majorOf rfl (by decide)⟩)⟩
  case hcall.refl | hreply.refl | harg.refl | recalloc.refl | recsend.refl | movin.refl | acqacc.refl | copy.refl | copyw.refl |
      copys.refl | xfm.refl =>
    exact ⟨_, _, rfl, .inr (.inr ⟨fun _ => ⟨rfl, rfl, rfl⟩, lt_majorOf rfl (by decide)⟩)⟩
  all_goals exact ⟨_, _, rfl, .inl rfl⟩

/-! ## The checks -/

/-- Every role allows the general group instructions (R33). -/
theorem roleAllows_genGroup : ∀ role : Nat, roleAllows role .genGroup = true
  | 0 | 1 | 2 | 3 | _ + 4 => rfl

section
variable {s : State} {c : Issue} {i : Instr} {n : Needs}

/-- At its first issue, an instruction that names a lane register at or above .regs traps before anything else (R358 SUB 8). -/
theorem check_of_outside {r : Nat} (hf : FirstIssue c) (hr : outside i c.wave.regs = some r) :
    c.check i n = .trap (c.trap 0x01 8 (BitVec.ofNat 64 r) (c.lanesOf i)) := by
  have hw : (c.gang.wait == .registers) = false := by simpa using hf.1
  simp only [Issue.check, hf.2, hw, hr, Bool.false_eq_true, if_false]
  rfl

/-- An instruction that asks nothing before its role traps where its role does not allow its class (R362 SUB 1). -/
theorem check_of_forbidden (hf : FirstIssue c) (hi : outside i c.wave.regs = none) (hs : c.wave.sup = false)
    (hn : n.noEntry = false ∧ n.privileged = false ∧ n.denied = false) (hr : roleAllows c.wave.role (classOf i) = false) :
    c.check i n = .trap (c.trap 0x11 1 (wordsAddr (encode i)) (c.lanesOf i)) := by
  have hw : (c.gang.wait == .registers) = false := by simpa using hf.1
  obtain ⟨he, hp, hd⟩ := hn
  simp only [Issue.check, hf.2, hw, hi, he, hp, hd, hs, hr, Bool.false_and, Bool.and_false, Bool.not_false, Bool.false_eq_true, if_false, if_true]

/-- A source that is empty is waited for, where none is reported as uninitialised (R143, R360). -/
theorem checkSources_of_empty (hu : c.wave.dbgCtl.getLsbD 0 = false ∨ uninitSource c.wave i = none) (ho : operandsFull c.wave i = false) :
    c.checkSources i = .wait := by
  have hn : (if c.wave.dbgCtl.getLsbD 0 && readsNow i (c.lanesOf i) then uninitSource c.wave i else none) = none := by
    rcases hu with hu | hu
    · rw [hu]; rfl
    · rw [hu, ite_self]
  simp only [Issue.checkSources, hn, ho, Bool.false_eq_true, if_false]

/-- A gang that has waited for its registers reads them alone (R349). -/
theorem check_of_waited (h : c.gang.wait = .registers) : c.check i n = c.checkSources i := by
  simp only [Issue.check, Gang.within, h, Bool.false_eq_true, if_false, beq_self_eq_true, if_true]

section
variable (hf : FirstIssue c) (hi : outside i c.wave.regs = none) (hr : roleAllows c.wave.role (classOf i) = true) (hc : c.crew.isCombiner = false)
include hf hi hr hc

/-- An instruction that asks nothing, whose registers and class pass, traps for an empty source in trap mode (R359). -/
theorem check_of_emptySource {k r : Nat} {f : RegFile} (he : emptySource c.wave i = some (k, f, r)) :
    c.check i (plain c) = .trap (c.trap 0x04 k (regId f r) (c.lanesOf i)) := by
  have hw : (c.gang.wait == .registers) = false := by simpa using hf.1
  simp only [Issue.check, plain, hf.2, hw, hi, hr, hc, he, Bool.false_and, Bool.not_true, Bool.false_eq_true, if_false]

/-- Else its sources are checked. -/
theorem check_of_passed (he : emptySource c.wave i = none) : c.check i (plain c) = c.checkSources i := by
  have hw : (c.gang.wait == .registers) = false := by simpa using hf.1
  simp only [Issue.check, plain, hf.2, hw, hi, hr, hc, he, Bool.false_and, Bool.not_true, Bool.false_eq_true, if_false]

end

end

/-! ## What the checks come to -/

section
variable {s : State} {c : Issue} {i : Instr} {n : Issue → Needs} {body : Issue → State}

theorem issue_trap {t : Trap} (h : s.issuer = some c) (hc : c.check i (n c) = .trap t) : issue i n s body = .next (s.takeTrap c.wave t) := by
  simp only [issue, h, hc]

theorem issue_wait (h : s.issuer = some c) (hc : c.check i (n c) = .wait) :
    issue i n s body = .next (s.putWave (c.wave.park c.gang .registers)) := by
  simp only [issue, h, hc]

end

/-- Settles O8: every wave instruction is issued within one frame, whose checks come in the order of R350. -/
theorem registersAndRolesAreChecked : Obligations.RegistersAndRolesAreChecked := by
  refine ⟨fun i s c r he hs hf hr => ?_, fun i s c he hs hf hsup hi hr => ?_⟩
  · obtain ⟨n, body, hx, -⟩ := exec_eq_issue he s
    exact hx.trans (issue_trap hs (check_of_outside hf hr))
  · obtain ⟨n, body, hx, hn⟩ := exec_eq_issue he s
    refine hx.trans (issue_trap hs (check_of_forbidden hf hi hsup ?_ hr))
    rcases hn with rfl | hg | ⟨hl, -⟩
    · exact ⟨rfl, rfl, rfl⟩
    · rw [hg, roleAllows_genGroup] at hr
      cases hr
    · exact hl c

/-- Settles O9: the same frame; a lane instruction of those majors asks nothing beyond its role. -/
theorem emptyRegistersWaitOrTrap : Obligations.EmptyRegistersWaitOrTrap := by
  refine ⟨fun i s c he hs hw hu ho => ?_, fun i s c hcls hmaj he hs hf _ hcomb hi hr hdbg => ?_⟩
  · obtain ⟨n, body, hx, -⟩ := exec_eq_issue he s
    exact hx.trans (issue_wait hs ((check_of_waited hw).trans (checkSources_of_empty hu ho)))
  · obtain ⟨n, body, hx, hn⟩ := exec_eq_issue he s
    obtain rfl : n = plain := by
      rcases hn with hn | hg | ⟨-, hm⟩
      · exact hn
      · rw [hcls] at hg
        cases hg
      · exact absurd hmaj (Nat.not_le.mpr hm)
    replace hr : roleAllows c.wave.role (classOf i) = true := hcls ▸ hr
    refine ⟨fun hempty ho => hx.trans (issue_wait hs ?_), fun k f r hempty => hx.trans (issue_trap hs ?_)⟩
    · exact (check_of_passed hf hi hr hcomb hempty).trans (checkSources_of_empty (.inl hdbg) ho)
    · exact check_of_emptySource hf hi hr hcomb hempty

end Sys2Proof.Laws
end

section
/-! SUPPORT. Accumulator banks and DRAIN (R142, R245, R246, R250 to R254). -/

namespace Sys2Proof.Laws

open Sys2Proof.Machine Sys2Proof.Safety

/-! ## Banks -/

section
variable {o : Opnd} {s : State} {c : Issue} {b : Block}

/-- A tiled instruction some of whose octets' tiles are not held traps (R142). -/
theorem tiled_of_bad {i : Instr} {k : Issue → Block → List Nat → State} {x : Nat} {rest : List Nat} (h : Ready s c i)
    (hb : s.accBlock? c.crew c.wave = some b) (ht : badTiles b o.ext (c.octets o.ext) = x :: rest) :
    tiled i o s k = .next (s.takeTrap c.wave (c.accTrap o.ext (x :: rest))) := by
  refine (issue_plain h).trans ?_
  simp only [hb, ht]

/-- The banks that ACQACC asks for beyond those its block holds (R246). -/
def banksAsked (c : Issue) (b : Block) (o : Opnd) : BitVec 32 := c.wave.readG o.a.toNat &&& ~~~b.held

/-- ACQACC outside the handler, at its first turn: it binds, or waits in its turn (R246). -/
theorem exec_acqacc (h : Ready s c (.acqacc o)) (hb : s.accBlock? c.crew c.wave = some b) (hs : c.wave.sup = false)
    (hw : ∀ x st, c.gang.wait ≠ .acqacc x st) : let s1 : State := { s with stamp := s.stamp + 1 }
    exec (.acqacc o) s = .next (if s1.mayBind c.crew b (banksAsked c b o) s.stamp then
      (s1.putBlock (b.bind (banksAsked c b o) (s1.freeAside b))).retire c (.acqacc o) c.wave
    else s1.putWave (c.wave.park c.gang (.acqacc (c.wave.readG o.a.toNat) s.stamp))) := by
  refine (issue_outside_handler h hs).trans ?_
  simp only [hb]
  rfl

theorem exec_relacc (h : Ready s c (.relacc o)) (hb : s.accBlock? c.crew c.wave = some b) :
    exec (.relacc o) s = .next ((s.putBlock (b.unbind (c.wave.readG o.a.toNat))).retire c (.relacc o) c.wave) := by
  refine (issue_plain h).trans ?_
  simp only [hb]

/-- The block without the elements of a set of tiles (R254). -/
def clearTiles (b : Block) (ts : List Nat) : Block := { b with acc := b.acc.filter fun x => !ts.contains (x.1 / 256) }

/-- A cell of a list of which some keys are dropped. -/
theorem cellGet_filter {β : Type} {d : β} (p : Nat → Bool) (key : Nat) :
    ∀ c : List (Nat × β), cellGet d (c.filter fun x => p x.1) key = if p key then cellGet d c key else d
  | [] => by rw [List.filter_nil, cellGet, ite_self]
  | (k, v) :: r => by
    have ih := cellGet_filter (d := d) p key r
    by_cases hk : k = key
    · subst hk
      cases hp : p k <;> simp [hp, cellGet, ih]
    · cases hp : p k <;> simp [hp, cellGet, ih, hk]

theorem accAt_clearTiles (b : Block) (ts : List Nat) (t : Nat) {i j : Nat} (hi : i < 8) (hj : j < 32) :
    (clearTiles b ts).accAt t i j = if t ∈ ts then 0 else b.accAt t i j := by
  have hkey : (256 * t + 32 * i + j) / 256 = t := by omega
  rw [Block.accAt, clearTiles, cellGet_filter fun k => !ts.contains (k / 256), hkey, Block.accAt]
  by_cases ht : t ∈ ts <;> simp [ht]

theorem exec_accz (h : Ready s c (.accz o)) (hb : s.accBlock? c.crew c.wave = some b) (ht : badTiles b o.ext (c.octets o.ext) = []) :
    exec (.accz o) s = .next ((s.putBlock (clearTiles b ((c.octets o.ext).map (tileIndex o.ext)))).retire c (.accz o) c.wave) :=
  (show exec (.accz o) s = execAccz o s from rfl).trans (tiled_of_held h hb ht)

end

/-- Settles O41: ACQACC binds or waits by its one test, and a cleared tile's elements are those that are no longer listed. -/
theorem accumulatorBanks : Obligations.AccumulatorBanks := by
  intro o s c b hb want s1
  refine ⟨fun h hs hw => ⟨fun hm => ?_, fun hm => ?_⟩, fun h => exec_relacc h hb, fun h => ⟨fun ht => ?_, fun x rest ht => ?_⟩⟩
  · exact (exec_acqacc h hb hs hw).trans (congrArg _ (if_pos hm))
  · exact (exec_acqacc h hb hs hw).trans (congrArg _ (if_neg (Bool.eq_false_iff.mp hm)))
  · exact ⟨_, exec_accz h hb ht, rfl, fun _ t i j hi hj => accAt_clearTiles b _ t hi hj⟩
  · exact (show exec (.accz o) s = execAccz o s from rfl).trans (tiled_of_bad h hb ht)

/-! ## DRAIN -/

/-- The lanes that DRAIN to registers writes: the active ones of the octets that act (R252). -/
def drainLanes (c : Issue) (x : Ext) : LaneMask :=
  laneSet (((c.octets x).flatMap fun oc => (List.range 8).map fun k => 8 * oc + k).filter fun l => (c.active x).getLsbD l)

theorem getLsbD_drainLanes {c : Issue} {x : Ext} {l : Nat} (hl : l < 96) :
    (drainLanes c x).getLsbD l = true ↔ l / 8 ∈ c.octets x ∧ (c.active x).getLsbD l = true := by
  simp only [drainLanes, getLsbD_laneSet, Bool.and_eq_true, decide_eq_true_eq, hl, true_and, List.mem_filter, mem_octetLanes]

/-- A lane register is the words that are built lane by lane. -/
theorem build_congr {f g : Nat → Word} (h : ∀ l, l < 96 → f l = g l) : Lanes.build f = Lanes.build g :=
  List.map_congr_left fun l hl => h l (List.mem_range.mp hl)

section
variable {o : Opnd} {s : State} {c : Issue} {b : Block} {i : Instr} {fn : Nat}

/-- A DRAIN whose octets' tiles are held goes to registers or to memory, as its MOD says (R252). -/
theorem drain_of_held (h : Ready s c i) (hb : s.accBlock? c.crew c.wave = some b) (ht : badTiles b o.ext (c.octets o.ext) = []) :
    drain fn i o s = .next (if drainReg o.ext then s.drainRegisters c b fn i o (c.octets o.ext)
      else s.drainMemory c b fn i o (c.octets o.ext)) :=
  tiled_of_held h hb ht

/-- The words that land: of each lane that is written, those of its row. -/
theorem drainRegisters_eq : s.drainRegisters c b fn i o (c.octets o.ext) =
    { s with stamp := s.stamp + 1 }.retire c i (c.wave.produce
      { id := s.stamp, file := false, reg := o.d.toNat, lanes := drainLanes c o.ext, pending := 0
        data := (List.range (drainRegs fn o.ext)).map fun k => Lanes.build fun l =>
          if (drainLanes c o.ext).getLsbD l then (drainWords b fn o.ext (l / 8) (l % 8)).getD k 0 else 0 }) := by
  have hdata (k : Nat) : (Lanes.build fun l => (((List.range 96).map fun l =>
        if (drainLanes c o.ext).getLsbD l then drainWords b fn o.ext (l / 8) (l % 8) else []).getD l []).getD k 0) =
      Lanes.build fun l => if (drainLanes c o.ext).getLsbD l then (drainWords b fn o.ext (l / 8) (l % 8)).getD k 0 else 0 :=
    build_congr fun l hl => by
      rw [getD_map_range _ hl]
      split <;> rfl
  simp only [← hdata]
  rfl

/-- A wave of which no access is held need not wait for one (R344). -/
theorem mustWait_of_none_held {r : WaveRef} (h : s.heldOf r = []) (write release : Bool) : s.mustWait r write release = false := by
  simp [State.mustWait, h]

theorem samePageHeld_of_none_held {r : WaveRef} (h : s.heldOf r = []) (ps : List (Nat × List Piece)) : s.samePageHeld r ps = false := by
  rw [State.samePageHeld, h, List.any_nil]

/-- One unit is written; those of which a table entry was poisoned are listed. -/
def drainNext (c : Issue) (acc : List (Nat × BitVec 64) × State) (u : DrainUnit) : List (Nat × BitVec 64) × State :=
  (if (acc.2.drainUnit c u).1 then acc.1 else acc.1 ++ [(8 * u.octet, u.addr)], (acc.2.drainUnit c u).2)

/-- One unit is written; whether all of them were. -/
def drainAll (c : Issue) (acc : Bool × State) (u : DrainUnit) : Bool × State :=
  ((acc.2.drainUnit c u).1 && acc.1, (acc.2.drainUnit c u).2)

/-- A unit that was not written stays one. -/
theorem foldl_drainAll_false : ∀ (us : List DrainUnit) (s : State), (us.foldl (drainAll c) (false, s)).1 = false
  | [], _ => rfl
  | u :: us, s => by
    rw [List.foldl_cons, drainAll, Bool.and_false]
    exact foldl_drainAll_false us _

/-- Where every unit is written, none is listed. -/
theorem foldl_drainNext {s2 : State} {l : List (Nat × BitVec 64)} :
    ∀ (us : List DrainUnit) (s1 : State), us.foldl (drainAll c) (true, s1) = (true, s2) → us.foldl (drainNext c) (l, s1) = (l, s2)
  | [], s1, h => by
    cases h
    rfl
  | u :: us, s1, h => by
    rw [List.foldl_cons, drainAll, Bool.and_true] at h
    cases hu : (s1.drainUnit c u).1
    case false =>
      have hf := foldl_drainAll_false (c := c) us (s1.drainUnit c u).2
      rw [hu] at h
      rw [h] at hf
      cases hf
    case true =>
      rw [hu] at h
      rw [List.foldl_cons, drainNext, hu, if_pos rfl]
      exact foldl_drainNext us _ h

/-- DRAIN to memory, every unit of which passes its checks and is written (R252). -/
theorem drainMemory_eq {us : List DrainUnit} {s1 s2 : State} (hh : s.heldOf c.wave.ref = [])
    (hr : s.drainReach c b fn o (c.octets o.ext) = (us, [], s1)) (hp : s.piecesHeld c.crew.id (us.map fun u => (8 * u.octet, u.pieces)) = false)
    (hu : us.foldl (drainAll c) (true, s1) = (true, s2)) : s.drainMemory c b fn i o (c.octets o.ext) =
    s2.retire c i (if drainOverflow b fn o.ext (c.octets o.ext) then { s2.nowWave c with fp := (s2.nowWave c).fp ||| LOVF } else s2.nowWave c) := by
  have hfold : us.foldl (fun (acc : List (Nat × BitVec 64) × State) u =>
      let (ok, s) := acc.2.drainUnit c u
      (if ok then acc.1 else acc.1 ++ [(8 * u.octet, u.addr)], s)) ([], s1) = ([], s2) := foldl_drainNext us s1 hu
  simp only [State.drainMemory, hr, hp, hfold, mustWait_of_none_held hh, samePageHeld_of_none_held hh, List.isEmpty_nil, Bool.not_true, Bool.or_self,
    Bool.and_false, Bool.false_eq_true, if_false, List.map_nil, List.dedup_nil, raiseLanes_nil]

end

/-- Each form of DRAIN is its minor's. -/
theorem exec_drainForms : ∀ p ∈ drainForms, ∀ o s, exec (p.1 o) s = drain p.2 (p.1 o) o s := by
  simp only [drainForms, List.forall_mem_cons, List.not_mem_nil, false_implies, implies_true, and_true]
  and_intros <;> exact fun _ _ => rfl

/-- Settles O43: each form is its minor's, and goes to registers or to memory. -/
theorem drainsReadTheAccumulators : Obligations.DrainsReadTheAccumulators := by
  intro p hp o s c b h hb ht
  have hx := (exec_drainForms p hp o s).trans (drain_of_held h hb ht)
  refine ⟨fun hr => ⟨drainLanes c o.ext, ?_, fun l => getLsbD_drainLanes⟩, fun us s1 s2 hr hh hreach hpieces hu => ?_⟩
  · rw [hx, if_pos hr, drainRegisters_eq]
  · rw [hx, if_neg (by rw [hr]; exact Bool.false_ne_true), drainMemory_eq hh hreach hpieces hu]

end Sys2Proof.Laws
end

section
/-! SUPPORT. The words that the integer and bitwise lane instructions write (R155, R158, R161, R162, R165, R167, R181). -/

namespace Sys2Proof.Laws

open Sys2Proof.Machine Sys2Proof.Safety

/-! ## IALU (R158) -/

theorem zero_sub_eq_ofInt (a : Word) : 0 - a = BitVec.ofInt 32 (-a.toInt) := by
  simp [BitVec.ofInt_neg]

theorem abs_eq_natAbs (a : Word) : (if a.slt 0 then 0 - a else a) = BitVec.ofNat 32 a.toInt.natAbs := by
  rw [BitVec.slt_eq_decide, ← BitVec.ofInt_natCast, Int.natCast_natAbs]
  split
  next h => rw [zero_sub_eq_ofInt, abs_of_neg (by simpa using h)]
  next h => rw [abs_of_nonneg (by simpa using h), BitVec.ofInt_toInt]

/-! ## Bit fields (R162) -/

theorem fieldWidth_pos (x : Ext) : 1 ≤ fieldWidth x := by
  have : fieldPos x < 32 := Nat.mod_lt _ (by omega)
  unfold fieldWidth
  omega

theorem bits_of_width {v p n : Nat} (h : 1 ≤ n) : bits v (p + n - 1) p = v / 2 ^ p % 2 ^ n := by
  rw [bits, show p + n - 1 + 1 - p = n by omega]

theorem bfxN_eq (o : Opnd) (a : Word) :
    bfxN o.ext a = BitVec.ofNat 32 (a.toNat / 2 ^ (bitField o).1 % 2 ^ (bitField o).2) :=
  congrArg (BitVec.ofNat 32) (bits_of_width (fieldWidth_pos o.ext))

theorem bfxS_eq (o : Opnd) (a : Word) :
    bfxS o.ext a = (let v := a.toNat / 2 ^ (bitField o).1 % 2 ^ (bitField o).2
      if v < 2 ^ ((bitField o).2 - 1) then BitVec.ofNat 32 v else BitVec.ofInt 32 ((v : Int) - 2 ^ (bitField o).2)) := by
  have hlt : a.toNat / 2 ^ (bitField o).1 % 2 ^ (bitField o).2 < 2 ^ 32 :=
    (Nat.mod_le ..).trans_lt ((Nat.div_le_self ..).trans_lt a.isLt)
  have hv : (bfxN o.ext a).toNat = a.toNat / 2 ^ (bitField o).1 % 2 ^ (bitField o).2 := by
    rw [bfxN_eq, BitVec.toNat_ofNat, Nat.mod_eq_of_lt hlt]
  simp only [bfxS, hv]
  rw [← ite_not]
  exact if_congr Nat.not_le rfl rfl

/-- A number is its bits from p + n on, the field of n bits at p, and the bits below p. -/
theorem setBits_of_width {v f p n : Nat} (h : 1 ≤ n) :
    setBits v (p + n - 1) p f = v / 2 ^ (p + n) * 2 ^ (p + n) + f % 2 ^ n * 2 ^ p + v % 2 ^ p := by
  have hlow : v / 2 ^ p * 2 ^ p + v % 2 ^ p = v := Nat.div_add_mod' v (2 ^ p)
  have hmid : v / 2 ^ p / 2 ^ n * 2 ^ n + v / 2 ^ p % 2 ^ n = v / 2 ^ p := Nat.div_add_mod' _ _
  have hhigh : v / 2 ^ (p + n) * 2 ^ (p + n) = v / 2 ^ p / 2 ^ n * 2 ^ n * 2 ^ p := by
    rw [pow_add, Nat.div_div_eq_div_mul, mul_assoc, mul_comm (2 ^ n)]
  have hsum : v / 2 ^ p / 2 ^ n * 2 ^ n * 2 ^ p + v / 2 ^ p % 2 ^ n * 2 ^ p + v % 2 ^ p = v := by
    rw [← add_mul, hmid, hlow]
  rw [setBits, bits_of_width h, show p + n - 1 + 1 - p = n by omega, hhigh]
  omega

theorem bfi_eq (o : Opnd) (a b : Word) : bfi o.ext a b =
    (let p := (bitField o).1
     let n := (bitField o).2
     BitVec.ofNat 32 (b.toNat / 2 ^ (p + n) * 2 ^ (p + n) + a.toNat % 2 ^ n * 2 ^ p + b.toNat % 2 ^ p)) :=
  congrArg (BitVec.ofNat 32) (setBits_of_width (fieldWidth_pos o.ext))

/-! ## Bits and bytes (R161, R162) -/

theorem shiftImm_toNat (o : Opnd) : (shiftImm o).toNat = o.b.toNat :=
  BitVec.toNat_setWidth_of_le (by omega)

/-- Bits that are set one after another, where f says so. -/
theorem getLsbD_foldl_set {w : Nat} (f : Nat → Bool) (n l : Nat) :
    ((List.range n).foldl (fun m k => if f k then m ||| (1#w <<< k) else m) 0#w).getLsbD l =
      (decide (l < n) && decide (l < w) && f l) := by
  induction n with
  | zero => simp
  | succ n ih =>
    have hbit : (1#w <<< n).getLsbD l = (decide (n < w) && decide (n = l)) := BitVec.getLsbD_twoPow n l
    rw [List.range_succ, List.foldl_append, List.foldl_cons, List.foldl_nil]
    by_cases hl : n = l
    · subst hl
      cases hf : f n <;> simp [hf, ih, hbit]
    · have hlt : (l < n + 1) = (l < n) := by simp; omega
      split <;> simp [ih, hbit, hl, hlt]

theorem getLsbD_maskOf (f : Nat → Bool) (l : Nat) : (maskOf f).getLsbD l = (decide (l < 96) && f l) := by
  rw [maskOf]
  exact (getLsbD_foldl_set f 96 l).trans (by rw [Bool.and_self])

theorem brev32_eq (a : Word) : brev32 a = a.reverse := by
  refine BitVec.eq_of_getLsbD_eq fun i hi => ?_
  rw [BitVec.getLsbD_reverse, BitVec.getMsbD_eq_getLsbD]
  exact (getLsbD_foldl_set (fun k => a.getLsbD (31 - k)) 32 i).trans (by simp [hi])

/-- Byte k of a word (R162). -/
theorem byteOf_eq (a : Word) (k : Nat) : byteOf a k = (a.extractLsb' (8 * k) 8).toNat := by
  rw [byteOf, bits_eq_extract, show 8 * k + 7 + 1 - 8 * k = 8 by omega]

theorem permByte_eq (a b : Word) (sel : Nat) : permByte a b sel = (pickByte a b sel).toNat := by
  simp only [permByte, pickByte, byteOf_eq, apply_ite BitVec.toNat, BitVec.msb_eq_decide, decide_eq_true_eq]
  rfl

theorem toNat_append_eq {m n : Nat} (x : BitVec m) (y : BitVec n) : (x ++ y).toNat = x.toNat * 2 ^ n + y.toNat := by
  rw [BitVec.toNat_append, ← Nat.shiftLeft_add_eq_or_of_lt y.isLt, Nat.shiftLeft_eq]

/-- A word by its bytes, the highest first. -/
theorem append_bytes_eq (b3 b2 b1 b0 : Byte) :
    b3 ++ b2 ++ b1 ++ b0 = BitVec.ofNat 32 (b0.toNat + 2 ^ 8 * b1.toNat + 2 ^ 16 * b2.toNat + 2 ^ 24 * b3.toNat) := by
  apply BitVec.eq_of_toNat_eq
  rw [toNat_append_eq, toNat_append_eq, toNat_append_eq, BitVec.toNat_ofNat]
  omega

theorem permb_eq (o : Opnd) (a b : Word) : permb o.ext a b =
    pickByte a b (o.ext.imm.extractLsb' 12 4).toNat ++ pickByte a b (o.ext.imm.extractLsb' 8 4).toNat ++
      pickByte a b (o.ext.imm.extractLsb' 4 4).toNat ++ pickByte a b (o.ext.imm.extractLsb' 0 4).toNat := by
  simp only [permb, bits_eq_extract, permByte_eq, Nat.reduceMul, Nat.reduceAdd, Nat.reduceSub]
  exact (append_bytes_eq ..).symm

/-! ## Signs (R165) -/

/-- A word by its sign and the bits below it. -/
theorem eq_sign_append {x a : Word} {sign : Bool} (hsign : x.getLsbD 31 = sign) (hlow : ∀ i < 31, x.getLsbD i = a.getLsbD i) :
    x = BitVec.ofBool sign ++ a.extractLsb' 0 31 := by
  refine BitVec.eq_of_getLsbD_eq fun i hi => ?_
  rw [BitVec.getLsbD_append]
  split
  next h => simp [hlow i h, h]
  next h =>
    obtain rfl : i = 31 := by omega
    simpa using hsign

/-- The two masks of R165, below the sign. -/
theorem getLsbD_signMasks {i : Nat} (h : i < 31) : (0x80000000#32).getLsbD i = false ∧ (0x7FFFFFFF#32).getLsbD i = true := by
  decide +revert

theorem fabs_eq (a : Word) : a &&& 0x7FFFFFFF = (0 : BitVec 1) ++ a.extractLsb' 0 31 :=
  eq_sign_append (sign := false) (by rw [BitVec.getLsbD_and]; exact Bool.and_false _) fun i hi => by simp [getLsbD_signMasks hi]

theorem fneg_eq (a : Word) : a ^^^ 0x80000000 = BitVec.ofBool (!a.msb) ++ a.extractLsb' 0 31 :=
  eq_sign_append (by rw [BitVec.getLsbD_xor, BitVec.msb_eq_getLsbD_last]; exact Bool.xor_true _) fun i hi => by
    simp [getLsbD_signMasks hi]

theorem fcopysign_eq (a b : Word) : (a &&& 0x7FFFFFFF) ||| (b &&& 0x80000000) = BitVec.ofBool b.msb ++ a.extractLsb' 0 31 :=
  eq_sign_append (by simp [BitVec.msb_eq_getLsbD_last]) fun i hi => by simp [getLsbD_signMasks hi]

theorem fclass_eq (a : Word) : BitVec.ofNat 32 (fclass a.toNat) =
    match f32.decode a.toNat with
    | .inf true => 1
    | .fin true m => if m = 0 then 8 else if m < pow2 (-126) then 4 else 2
    | .fin false m => if m = 0 then 16 else if m < pow2 (-126) then 32 else 64
    | .inf false => 128
    | .nan true => 256
    | .nan false => 512 := by
  unfold fclass
  cases f32.decode a.toNat with
  | nan signals => cases signals <;> rfl
  | inf neg => cases neg <;> rfl
  | fin neg m => cases neg <;> simp only [apply_ite (BitVec.ofNat 32)] <;> rfl

/-! ## The tables -/

/-- A lane instruction is of the frame of R155 with the function f, and f is the one that the table names. -/
def LaneForm (p : LaneWord) (f : Opnd → Word → Word → Word) : Prop :=
  (∀ o s, exec (p.1 o) s = lane2 (p.1 o) o (f o) s) ∧ ∀ o a b, f o a b = p.2 o a b

theorem LaneForm.exec {p : LaneWord} {f : Opnd → Word → Word → Word} (hp : LaneForm p f) {o : Opnd} {s : State} {c : Issue}
    (h : Ready s c (p.1 o)) :
    exec (p.1 o) s = .next (s.retire c (p.1 o) (c.wave.writeV o.d.toNat (c.active o.ext) fun l =>
      p.2 o ((c.wave.readV o.a.toNat).at_ l) ((c.wave.readV o.b.toNat).at_ l))) := by
  obtain ⟨he, hf⟩ := hp
  simp only [he, lane2, lane, issue_plain h, hf]

theorem laneForm_of_mem_ialu : ∀ p ∈ laneIalu, ∃ f, LaneForm p f := by
  intro p hp
  simp only [laneIalu, List.mem_cons, List.not_mem_nil, or_false] at hp
  rcases hp with rfl | rfl | rfl | rfl | rfl | rfl | rfl | rfl | rfl | rfl | rfl
  · exact ⟨fun _ => (· + ·), fun _ _ => rfl, fun _ => add_eq_ofNat⟩
  · exact ⟨fun _ => (· - ·), fun _ _ => rfl, fun _ => sub_eq_ofInt_toNat⟩
  · exact ⟨fun _ => (· * ·), fun _ _ => rfl, fun _ => mul_eq_ofNat⟩
  · exact ⟨fun _ => mulHighS, fun _ _ => rfl, fun _ => mulHighS_eq⟩
  · exact ⟨fun _ => mulHighN, fun _ _ => rfl, fun _ => mulHighN_eq⟩
  · exact ⟨fun _ => minS, fun _ _ => rfl, fun _ => minS_eq⟩
  · exact ⟨fun _ => minN, fun _ _ => rfl, fun _ => minN_eq⟩
  · exact ⟨fun _ => maxS, fun _ _ => rfl, fun _ => maxS_eq⟩
  · exact ⟨fun _ => maxN, fun _ _ => rfl, fun _ => maxN_eq⟩
  · exact ⟨fun _ a _ => if a.slt 0 then 0 - a else a, fun _ _ => rfl, fun _ a _ => abs_eq_natAbs a⟩
  · exact ⟨fun _ a _ => 0 - a, fun _ _ => rfl, fun _ a _ => zero_sub_eq_ofInt a⟩

theorem laneForm_of_mem_bitsA : ∀ p ∈ laneBitsA, ∃ f, LaneForm p f := by
  intro p hp
  simp only [laneBitsA, List.mem_cons, List.not_mem_nil, or_false] at hp
  rcases hp with rfl | rfl | rfl | rfl | rfl | rfl | rfl | rfl | rfl | rfl | rfl | rfl | rfl | rfl | rfl
  · exact ⟨fun _ => (· &&& ·), fun _ _ => rfl, fun _ _ _ => rfl⟩
  · exact ⟨fun _ => (· ||| ·), fun _ _ => rfl, fun _ _ _ => rfl⟩
  · exact ⟨fun _ => (· ^^^ ·), fun _ _ => rfl, fun _ _ _ => rfl⟩
  · exact ⟨fun _ a b => a &&& ~~~b, fun _ _ => rfl, fun _ _ _ => rfl⟩
  · exact ⟨fun _ a b => a ||| ~~~b, fun _ _ => rfl, fun _ _ _ => rfl⟩
  · exact ⟨fun _ a b => ~~~(a ^^^ b), fun _ _ => rfl, fun _ _ _ => rfl⟩
  · exact ⟨fun _ a _ => ~~~a, fun _ _ => rfl, fun _ _ _ => rfl⟩
  · exact ⟨fun _ => shl32, fun _ _ => rfl, fun _ => shl32_eq⟩
  · exact ⟨fun _ => shr32, fun _ _ => rfl, fun _ => shr32_eq⟩
  · exact ⟨fun _ => sar32, fun _ _ => rfl, fun _ => sar32_eq⟩
  · exact ⟨fun _ => rotl32, fun _ _ => rfl, fun _ _ _ => rfl⟩
  · exact ⟨fun _ => rotr32, fun _ _ => rfl, fun _ _ _ => rfl⟩
  · exact ⟨fun o a _ => shl32 a (shiftImm o), fun _ _ => rfl, fun o a _ => (shl32_eq a _).trans (by rw [shiftImm_toNat])⟩
  · exact ⟨fun o a _ => shr32 a (shiftImm o), fun _ _ => rfl, fun o a _ => (shr32_eq a _).trans (by rw [shiftImm_toNat])⟩
  · exact ⟨fun o a _ => sar32 a (shiftImm o), fun _ _ => rfl, fun o a _ => (sar32_eq a _).trans (by rw [shiftImm_toNat])⟩

theorem laneForm_of_mem_bitsB : ∀ p ∈ laneBitsB, ∃ f, LaneForm p f := by
  intro p hp
  simp only [laneBitsB, List.mem_cons, List.not_mem_nil, or_false] at hp
  rcases hp with rfl | rfl | rfl | rfl | rfl | rfl | rfl | rfl
  · exact ⟨fun o a _ => bfxN o.ext a, fun _ _ => rfl, fun o a _ => bfxN_eq o a⟩
  · exact ⟨fun o a _ => bfxS o.ext a, fun _ _ => rfl, fun o a _ => bfxS_eq o a⟩
  · exact ⟨fun o => bfi o.ext, fun _ _ => rfl, bfi_eq⟩
  · exact ⟨fun _ a _ => popcount a, fun _ _ => rfl, fun _ a _ => popcount_eq a⟩
  · exact ⟨fun _ a _ => clz32 a, fun _ _ => rfl, fun _ a _ => clz32_eq a⟩
  · exact ⟨fun _ a _ => ctz32 a, fun _ _ => rfl, fun _ _ _ => rfl⟩
  · exact ⟨fun _ a _ => brev32 a, fun _ _ => rfl, fun _ a _ => brev32_eq a⟩
  · exact ⟨fun o => permb o.ext, fun _ _ => rfl, permb_eq⟩

theorem laneForm_of_mem_bitwise : ∀ p ∈ laneBitwise, ∃ f, LaneForm p f := by
  intro p hp
  simp only [laneBitwise, List.mem_cons, List.not_mem_nil, or_false] at hp
  rcases hp with rfl | rfl | rfl | rfl | rfl
  · exact ⟨fun _ a _ => a &&& 0x7FFFFFFF, fun _ _ => rfl, fun _ a _ => fabs_eq a⟩
  · exact ⟨fun _ a _ => a ^^^ 0x80000000, fun _ _ => rfl, fun _ a _ => fneg_eq a⟩
  · exact ⟨fun _ a b => (a &&& 0x7FFFFFFF) ||| (b &&& 0x80000000), fun _ _ => rfl, fun _ => fcopysign_eq⟩
  · exact ⟨fun _ a _ => BitVec.ofNat 32 (fclass a.toNat), fun _ _ => rfl, fun _ a _ => (fclass_eq a).trans rfl⟩
  · exact ⟨fun _ a _ => a, fun _ _ => rfl, fun _ _ _ => rfl⟩

theorem laneForm_of_mem : ∀ p ∈ laneIalu ++ laneBits ++ laneBitwise, ∃ f, LaneForm p f := by
  simp only [laneBits, List.forall_mem_append]
  exact ⟨⟨laneForm_of_mem_ialu, laneForm_of_mem_bitsA, laneForm_of_mem_bitsB⟩, laneForm_of_mem_bitwise⟩

/-- Settles O13: each form is the frame of R155 around one function of words, and the words agree. -/
theorem laneWordResults : Obligations.LaneWordResults :=
  fun p hp _ _ _ h => (laneForm_of_mem p hp).elim fun _ hf => hf.exec h

end Sys2Proof.Laws
end

section
/-! SUPPORT. The immediates, IMAD, the 64-bit results, ICMP, SEL and the predicate operations (R158 to R160, R163, R164, R182, R183). -/

namespace Sys2Proof.Laws

open Sys2Proof.Machine Sys2Proof.Safety

/-! ## Immediates, IMAD and pairs -/

theorem laneImms_results : ∀ p ∈ laneImms, ∀ (o : OpndI) (s : State) (c : Issue), Ready s c (p.1 o) →
    exec (p.1 o) s = .next (s.retire c (p.1 o) (c.wave.writeV o.d.toNat (c.gang.slices.lanes &&& c.wave.act) fun l =>
      p.2 ((c.wave.readV o.a.toNat).at_ l) (o.imm.signExtend 32))) := by
  intro p hp o s c h
  simp only [laneImms, List.mem_cons, List.not_mem_nil, or_false] at hp
  rcases hp with rfl | rfl | rfl | rfl
  · simp only [← add_eq_ofNat]
    exact issue_plain (i := .iaddi o) h
  · exact issue_plain (i := .andi o) h
  · exact issue_plain (i := .ori o) h
  · exact issue_plain (i := .xori o) h

theorem mul_add_eq_ofNat (a b k : Word) : a * b + k = BitVec.ofNat 32 (a.toNat * b.toNat + k.toNat) := by
  rw [BitVec.ofNat_add, ← mul_eq_ofNat, BitVec.ofNat_toNat, BitVec.setWidth_eq]

theorem laneMads_results : ∀ p ∈ laneMads, ∀ (o : Opnd) (s : State) (c : Issue), Ready s c (p.1 o) →
    exec (p.1 o) s = .next (s.retire c (p.1 o) (c.wave.writeV o.d.toNat (c.active o.ext) fun l =>
      p.2 ((c.wave.readV o.a.toNat).at_ l) ((c.wave.readV o.b.toNat).at_ l) ((c.wave.readV o.ext.c.toNat).at_ l))) := by
  intro p hp o s c h
  simp only [laneMads, List.mem_cons, List.not_mem_nil, or_false] at hp
  rcases hp with rfl | rfl | rfl
  · simp only [← mul_add_eq_ofNat]
    exact issue_plain (i := .imad o) h
  · simp only [← mulHighS_eq]
    exact issue_plain (i := .imadhS32 o) h
  · simp only [← mulHighN_eq]
    exact issue_plain (i := .imadhN32 o) h

theorem mulWideS_add_eq (a b : Word) (k : BitVec 64) : mulWideS a b + k = BitVec.ofInt 64 (a.toInt * b.toInt + k.toInt) := by
  rw [mulWideS, BitVec.ofInt_add, BitVec.ofInt_toInt]

theorem mulWideN_add_eq (a b : Word) (k : BitVec 64) : mulWideN a b + k = BitVec.ofNat 64 (a.toNat * b.toNat + k.toNat) := by
  rw [mulWideN, BitVec.ofNat_add, BitVec.ofNat_toNat, BitVec.setWidth_eq]

theorem lanePairs_results : ∀ p ∈ lanePairs, ∀ (o : Opnd) (s : State) (c : Issue), Ready s c (p.1 o) →
    exec (p.1 o) s = .next (s.retire c (p.1 o) (c.wave.writeV2 o.d.toNat (c.active o.ext) (p.2 c.wave o))) := by
  intro p hp o s c h
  simp only [lanePairs, List.mem_cons, List.not_mem_nil, or_false] at hp
  rcases hp with rfl | rfl | rfl | rfl | rfl | rfl
  · simp only [← add_eq_ofNat]
    exact issue_plain (i := .iadd64 o) h
  · simp only [← sub_eq_ofInt]
    exact issue_plain (i := .isub64 o) h
  · exact issue_plain (i := .imulwS32 o) h
  · exact issue_plain (i := .imulwN32 o) h
  · simp only [← mulWideS_add_eq]
    exact issue_plain (i := .imadwS32 o) h
  · simp only [← mulWideN_add_eq]
    exact issue_plain (i := .imadwN32 o) h

/-- Settles O14: each form is one frame around one function of words or pairs, and the numbers agree. -/
theorem immediateAndMultiplyAddResults : Obligations.ImmediateAndMultiplyAddResults :=
  ⟨laneImms_results, laneMads_results, lanePairs_results⟩

/-! ## Predicates -/

theorem laneCompares_results : ∀ p ∈ laneCompares, ∀ (o : Opnd) (s : State) (c : Issue), Ready s c (p.1 o) →
    exec (p.1 o) s = .next (s.retire c (p.1 o) (c.wave.writeP (o.d.toNat % 8) (c.active o.ext) (maskOf fun l =>
      p.2 ((c.wave.readV o.a.toNat).at_ l) ((c.wave.readV o.b.toNat).at_ l)))) := by
  simp only [laneCompares, List.forall_mem_cons, List.not_mem_nil, false_implies, implies_true, and_true]
  and_intros <;> exact fun o s c h => issue_plain h

theorem lanePredicates_results : ∀ p ∈ lanePredicates, ∀ (o : Opnd) (s : State) (c : Issue), Ready s c (p.1 o) →
    exec (p.1 o) s = .next (s.retire c (p.1 o) (c.wave.writeP (o.d.toNat % 8) (c.active o.ext)
      (p.2 (c.wave.readP (o.a.toNat % 8)) (c.wave.readP (o.b.toNat % 8))))) := by
  simp only [lanePredicates, List.forall_mem_cons, List.not_mem_nil, false_implies, implies_true, and_true]
  and_intros <;> exact fun o s c h => issue_plain h

/-- Settles O15: each form is the frame that its rule names, around the relation or the operation of its table. -/
theorem comparisonsSelectionsAndPredicates : Obligations.ComparisonsSelectionsAndPredicates :=
  ⟨laneCompares_results, fun o _ _ h => issue_plain (i := .sel o) h, lanePredicates_results,
    fun o _ _ h => issue_plain (i := .pact o) h, fun o _ _ h => issue_plain (i := .mask o) h, fun _ _ _ => ⟨rfl, rfl⟩⟩

end Sys2Proof.Laws
end

section
/-! SUPPORT. Moves between registers and lanes: MOVIL to LANEID, MOVIN and MOVOUT, the shuffles and PUSHL (R176 to R178, R181). -/

namespace Sys2Proof.Laws

open Sys2Proof.Machine Sys2Proof.Safety

/-! ## Lanes and segments -/

theorem mem_lanes {m : LaneMask} {l : Nat} : l ∈ LaneMask.lanes m ↔ m.getLsbD l = true := by
  simp only [LaneMask.lanes, laneCount, List.mem_filter, List.mem_range, and_iff_right_iff_imp]
  exact BitVec.lt_of_getLsbD

theorem spanOf_eq (x : Ext) : spanOf x = segmentSize x := by
  unfold spanOf segmentSize
  rcases x.mod.toNat with _ | _ | _ | n <;> rfl

/-- The segments divide the wave (R176). -/
theorem segmentSize_dvd (x : Ext) : segmentSize x ∣ 96 := by
  unfold segmentSize
  rcases x.mod.toNat with _ | _ | _ | n
  · exact ⟨24, rfl⟩
  · exact ⟨12, rfl⟩
  · exact ⟨3, rfl⟩
  · exact ⟨1, rfl⟩

/-! ## MOVIN and MOVOUT (R181) -/

section
variable {s k : State} {c : Issue} {o : Opnd} {base : BitVec 6}

theorem inRegs_iff {w : Wave} {n : Int} : inRegs w n = true ↔ 0 ≤ n ∧ n < w.regs := by
  simp only [inRegs, Bool.and_eq_true, decide_eq_true_eq]

/-- No register that an active lane names inside the wave's registers is empty. -/
theorem emptyIndirect_of_full (h : ∀ l ∈ LaneMask.lanes (c.active o.ext), 0 ≤ indirectIndex c.wave o base l →
    indirectIndex c.wave o base l < c.wave.regs → c.wave.isFull .v (indirectIndex c.wave o base l).toNat = true) :
    emptyIndirect c o base = none := by
  have hnil : (((c.active o.ext).lanes.map fun l => indirectIndex c.wave o base l).filterMap fun n =>
      if inRegs c.wave n && !c.wave.isFull .v n.toNat then some n.toNat else none) = [] := by
    simp only [List.filterMap_eq_nil_iff, List.mem_map]
    rintro _ ⟨l, hl, rfl⟩
    rw [if_neg]
    simp only [Bool.and_eq_true, inRegs_iff, Bool.not_eq_true', not_and, Bool.not_eq_false]
    exact fun hin => h l hl hin.1 hin.2
  rw [emptyIndirect, hnil, List.foldl_nil]

theorem indirect_of_fits (h : ∀ l ∈ LaneMask.lanes (c.active o.ext), 0 ≤ indirectIndex c.wave o base l ∧
    indirectIndex c.wave o base l < c.wave.regs ∧ c.wave.isFull .v (indirectIndex c.wave o base l).toNat = true) :
    indirect c o base s k = k := by
  have hbad : ((c.active o.ext).lanes.filter fun l => !inRegs c.wave (indirectIndex c.wave o base l)) = [] := by
    simp only [List.filter_eq_nil_iff, Bool.not_eq_true', Bool.not_eq_false, inRegs_iff]
    exact fun l hl => ⟨(h l hl).1, (h l hl).2.1⟩
  simp only [indirect, hbad, emptyIndirect_of_full fun l hl _ _ => (h l hl).2.2]

theorem indirect_of_outside {l : Nat} {rest : List Nat}
    (h : ((c.active o.ext).lanes.filter fun l => !inRegs c.wave (indirectIndex c.wave o base l)) = l :: rest) :
    indirect c o base s k =
      s.takeTrap c.wave (c.trap 0x01 8 (BitVec.ofInt 64 (indirectIndex c.wave o base l)) (laneSet (l :: rest))) := by
  simp only [indirect, h]

theorem movinNeeds_indirect (h : o.ext.ea = false ∨ emptyIndirect c o o.a = none) : (movinNeeds o c).indirect = none := by
  rcases h with h | h <;> simp [movinNeeds, h]

/-- MOVIN, where EA asks for no trap of an empty register. -/
theorem exec_movin (hr : Ready s c (.movin o)) (h : o.ext.ea = false ∨ emptyIndirect c o o.a = none) :
    exec (.movin o) s = .next (indirect c o o.a s (s.retire c (.movin o) (c.wave.writeV o.d.toNat (c.active o.ext) fun l =>
      (c.wave.readV (indirectIndex c.wave o o.a l).toNat).at_ l))) := by
  have hn := movinNeeds_indirect h
  refine (issue_of_ready (i := .movin o) (n := movinNeeds o) hr ⟨nofun, nofun, rfl, rfl, rfl, hn⟩).trans ?_
  simp only [hn]

theorem exec_movout (hr : Ready s c (.movout o)) :
    exec (.movout o) s = .next (indirect c o o.d s (s.retire c (.movout o) ((List.range c.wave.regs).foldl (fun w n =>
      w.writeV n (maskOf fun l => (c.active o.ext).getLsbD l && indirectIndex c.wave o o.d l == (n : Int))
        fun l => (c.wave.readV o.a.toNat).at_ l) c.wave))) :=
  issue_plain (i := .movout o) hr

end

theorem indirectMoves_results (o : Opnd) (s : State) (c : Issue) :
    let n (base : BitVec 6) (l : Nat) : Int := (base.toNat : Int) + ((c.wave.readV o.b.toNat).at_ l).toNat + o.ext.imm.toInt
    let fits (base : BitVec 6) : Prop := ∀ l ∈ LaneMask.lanes (c.active o.ext), 0 ≤ n base l ∧ n base l < c.wave.regs ∧
      c.wave.isFull .v (n base l).toNat = true
    (Ready s c (.movin o) → fits o.a →
      exec (.movin o) s = .next (s.retire c (.movin o) (c.wave.writeV o.d.toNat (c.active o.ext) fun l =>
        (c.wave.readV (n o.a l).toNat).at_ l))) ∧
    (Ready s c (.movout o) → fits o.d →
      exec (.movout o) s = .next (s.retire c (.movout o) ((List.range c.wave.regs).foldl (fun w r =>
        w.writeV r (maskOf fun l => (c.active o.ext).getLsbD l && n o.d l == (r : Int)) fun l => (c.wave.readV o.a.toNat).at_ l)
          c.wave))) ∧
    ∀ p ∈ [(Instr.movin o, o.a), (.movout o, o.d)], ∀ l rest, Ready s c p.1 →
      (p.1 = .movout o ∨ o.ext.ea = false ∨ ∀ k ∈ LaneMask.lanes (c.active o.ext), 0 ≤ n p.2 k → n p.2 k < c.wave.regs →
        c.wave.isFull .v (n p.2 k).toNat = true) →
      (LaneMask.lanes (c.active o.ext)).filter (fun l => !(decide (0 ≤ n p.2 l) && decide (n p.2 l < c.wave.regs))) = l :: rest →
      exec p.1 s = .next (s.takeTrap c.wave (c.trap 0x01 8 (BitVec.ofInt 64 (n p.2 l)) (laneSet (l :: rest)))) := by
  refine ⟨fun hr hf => ?_, fun hr hf => ?_, fun p hp l rest hr he hbad => ?_⟩
  · exact (exec_movin hr (.inr (emptyIndirect_of_full fun l hl _ _ => (hf l hl).2.2))).trans (congrArg _ (indirect_of_fits hf))
  · exact (exec_movout hr).trans (congrArg _ (indirect_of_fits hf))
  · simp only [List.mem_cons, List.not_mem_nil, or_false] at hp
    rcases hp with rfl | rfl
    · have hea : o.ext.ea = false ∨ emptyIndirect c o o.a = none := (he.resolve_left nofun).imp_right emptyIndirect_of_full
      exact (exec_movin hr hea).trans (congrArg _ (indirect_of_outside hbad))
    · exact (exec_movout hr).trans (congrArg _ (indirect_of_outside hbad))

/-! ## Shuffles (R177) -/

theorem shuffle_of_ready {i : Instr} {o : Opnd} {src : Wave → Nat → Nat → Nat → Int} {s : State} {c : Issue} (h : Ready s c i) :
    shuffle i o src s = .next (s.retire c i (c.wave.writeV o.d.toNat (c.active o.ext) fun l =>
      let n := segmentSize o.ext
      let base := l / n * n
      let j := src c.wave l n base
      (c.wave.readV o.a.toNat).at_ (if (base : Int) ≤ j ∧ j < (base + n : Nat) then j.toNat else l))) := by
  refine (issue_plain h).trans ?_
  simp only [spanOf_eq, ← Nat.div_mul_self_eq_mod_sub_self, Bool.and_eq_true, decide_eq_true_eq]

/-- The lane distance of a shuffle, IMM16[6:0]. -/
theorem shflK_eq (o : Opnd) : shflK o = (o.ext.imm.extractLsb' 0 7).toNat := by
  simp [shflK, BitVec.extractLsb'_toNat]

/-- A shuffle is of the frame of R177 with the function src of lanes, and src is the one that the table names. -/
def ShuffleForm (p : (Opnd → Instr) × (Opnd → Word → Nat → Nat → Nat → Int)) (src : Opnd → Wave → Nat → Nat → Nat → Int) : Prop :=
  (∀ o s, exec (p.1 o) s = shuffle (p.1 o) o (src o) s) ∧
    ∀ o w l n base, src o w l n base = p.2 o ((w.readV o.b.toNat).at_ l) l n base

theorem shuffleForm_of_mem : ∀ p ∈ laneShuffles, ∃ src, ShuffleForm p src := by
  intro p hp
  simp only [laneShuffles, List.mem_cons, List.not_mem_nil, or_false] at hp
  rcases hp with rfl | rfl | rfl | rfl
  · exact ⟨fun o w l n base => (base + ((w.readV o.b.toNat).at_ l).toNat % n : Nat), fun _ _ => rfl, fun _ _ _ _ _ => rfl⟩
  · exact ⟨fun o _ l _ _ => (l : Int) - (shflK o : Int), fun _ _ => rfl, fun o _ l _ _ =>
      congrArg (fun k : Nat => (l : Int) - k) (shflK_eq o)⟩
  · exact ⟨fun o _ l _ _ => (l + shflK o : Nat), fun _ _ => rfl, fun o _ l _ _ =>
      congrArg (fun k : Nat => (l : Int) + k) (shflK_eq o)⟩
  · exact ⟨fun o _ l _ base => (base + ((l - base) ^^^ shflK o) : Nat), fun _ _ => rfl, fun o _ l _ base =>
      congrArg (fun k : Nat => (base : Int) + ((l - base) ^^^ k : Nat)) (shflK_eq o)⟩

theorem laneShuffles_results : ∀ p ∈ laneShuffles, ∀ (o : Opnd) (s : State) (c : Issue), Ready s c (p.1 o) →
    exec (p.1 o) s = .next (s.retire c (p.1 o) (c.wave.writeV o.d.toNat (c.active o.ext) fun l =>
      let n := segmentSize o.ext
      let base := l / n * n
      let j := p.2 o ((c.wave.readV o.b.toNat).at_ l) l n base
      (c.wave.readV o.a.toNat).at_ (if (base : Int) ≤ j ∧ j < (base + n : Nat) then j.toNat else l))) := by
  intro p hp o s c h
  obtain ⟨src, hexec, hsrc⟩ := shuffleForm_of_mem p hp
  simp only [hexec, shuffle_of_ready h, hsrc]

/-! ## PUSHL (R178) -/

/-- The lanes that PUSHL writes, each with an active lane that names it, by that lane ascending. -/
def pushes (c : Issue) (o : Opnd) : List (Nat × Nat) :=
  ((c.active o.ext).lanes.map fun l => (pushTarget c.wave o l, l)).filter fun x => (c.cohort &&& c.wave.act).getLsbD x.1

/-- The active lane l names lane t. -/
def PushNames (c : Issue) (o : Opnd) (l t : Nat) : Prop :=
  (c.active o.ext).getLsbD l = true ∧
    l / segmentSize o.ext * segmentSize o.ext + ((c.wave.readV o.b.toNat).at_ l).toNat % segmentSize o.ext = t

section
variable {c : Issue} {o : Opnd} {t l : Nat}

theorem mem_pushes : (t, l) ∈ pushes c o ↔ PushNames c o l t ∧ (c.gang.slices.lanes &&& c.wave.act).getLsbD t = true := by
  simp only [pushes, List.mem_filter, List.mem_map, mem_lanes, Prod.mk.injEq, pushTarget, spanOf_eq,
    ← Nat.div_mul_self_eq_mod_sub_self, PushNames, Issue.cohort]
  constructor
  · rintro ⟨⟨k, hk, ht, rfl⟩, ha⟩
    exact ⟨⟨hk, ht⟩, ha⟩
  · rintro ⟨⟨hk, ht⟩, ha⟩
    exact ⟨⟨l, hk, ht, rfl⟩, ha⟩

/-- The first of the pushes to a lane, from the last one back, is that of the highest lane. -/
theorem find?_pushes (hl : (t, l) ∈ pushes c o) (hmax : ∀ k, (t, k) ∈ pushes c o → k ≤ l) :
    ((pushes c o).reverse.find? fun x => x.1 == t) = some (t, l) := by
  have hsorted : (pushes c o).Pairwise fun x y => x.2 < y.2 :=
    ((List.pairwise_lt_range.filter _).map (fun l => (pushTarget c.wave o l, l)) fun _ _ h => h).filter _
  obtain ⟨before, after, hsplit⟩ := List.append_of_mem hl
  rw [hsplit] at hsorted hmax ⊢
  have hafter : ∀ x ∈ after, ¬(x.1 == t) = true := by
    rintro ⟨t', k⟩ hx ht
    obtain rfl : t' = t := by simpa using ht
    have hlt : l < k := (List.pairwise_cons.mp (List.pairwise_append.mp hsorted).2.1).1 _ hx
    have hle : k ≤ l := hmax k (by simp [hx])
    omega
  rw [List.reverse_append, List.reverse_cons, List.append_assoc, List.find?_append,
    List.find?_eq_none.mpr fun x hx => hafter x (List.mem_reverse.mp hx)]
  simp

end

/-- The word that PUSHL writes in lane t. -/
def pushWord (c : Issue) (o : Opnd) (t : Nat) : Word :=
  match (pushes c o).reverse.find? fun x => x.1 == t with
  | some x => (c.wave.readV o.a.toNat).at_ x.2
  | none => (c.wave.readV o.d.toNat).at_ t

theorem exec_pushl {o : Opnd} {s : State} {c : Issue} (h : Ready s c (.pushl o)) :
    exec (.pushl o) s = .next (s.retire c (.pushl o)
      (c.wave.writeV o.d.toNat (laneSet ((pushes c o).map fun x => x.1)) (pushWord c o))) :=
  issue_plain (i := .pushl o) h

/-- The lanes that PUSHL writes: those of the cohort that are active in g61 to g63 and that a lane names. -/
theorem getLsbD_pushed {c : Issue} {o : Opnd} {t : Nat} (ht : t < 96) : (laneSet ((pushes c o).map fun x => x.1)).getLsbD t = true ↔
    (c.gang.slices.lanes &&& c.wave.act).getLsbD t = true ∧ ∃ l, PushNames c o l t := by
  simp only [getLsbD_laneSet, ht, decide_true, Bool.true_and, decide_eq_true_eq, List.mem_map, Prod.exists, exists_and_right,
    exists_eq_right, mem_pushes]
  tauto

/-- Settles O18: MOVIN and MOVOUT by where their indices lie, a shuffle by the lane it names, PUSHL by its pushes in lane order. -/
theorem movesShufflesAndPushes : Obligations.MovesShufflesAndPushes := by
  refine ⟨⟨fun o _ _ h => issue_plain (i := .movil o) h, fun o _ _ h => issue_plain (i := .movih o) h,
    fun o _ _ h => issue_plain (i := .gbc o) h, fun o _ _ h => issue_plain (i := .laneid o) h, indirectMoves_results⟩,
    laneShuffles_results, fun o s c h => ⟨_, _, exec_pushl h, fun t ht => ⟨getLsbD_pushed ht, fun l hm hl hmax => ?_⟩⟩⟩
  have hable := ((getLsbD_pushed ht).mp hm).1
  have hfind := find?_pushes (mem_pushes.mpr ⟨hl, hable⟩) fun k hk => hmax k (mem_pushes.mp hk).1
  rw [pushWord, hfind]

end Sys2Proof.Laws
end

section
/-! SUPPORT. LRED, SCAN and BALLOT (R176, R179, R180). -/

namespace Sys2Proof.Laws

open Sys2Proof.Machine Sys2Proof.Safety

/-! ## Folds (R179) -/

/-- Results are written in active lanes alone. -/
theorem writeF_congr {w : Wave} {d : Nat} {m : LaneMask} {f g : Nat → FRes} (h : ∀ l, m.getLsbD l = true → f l = g l) :
    w.writeF d m f = w.writeF d m g := by
  have hrs : (m.lanes.map fun l => (l, f l)) = m.lanes.map fun l => (l, g l) :=
    List.map_congr_left fun l hl => by rw [h l (mem_lanes.mp hl)]
  simp only [Wave.writeF, hrs]

/-- Of the segments that hold an active lane, a lane that is active finds its own. -/
theorem find?_segment {α : Type} {m : LaneMask} {n l : Nat} (hn : n ∣ 96) (hl : m.getLsbD l = true) (g : Nat → α) :
    ((((List.range (96 / n)).filter fun k => (List.range n).any fun j => m.getLsbD (n * k + j)).map fun k => (k, g k)).find?
      fun x => x.1 == l / n) = some (l / n, g (l / n)) := by
  have hlt : l < 96 := BitVec.lt_of_getLsbD hl
  have hpos : 0 < n := Nat.pos_of_dvd_of_pos hn (by omega)
  have hany : ((List.range n).any fun j => m.getLsbD (n * (l / n) + j)) = true :=
    List.any_eq_true.mpr ⟨l % n, List.mem_range.mpr (Nat.mod_lt l hpos), by rw [Nat.div_add_mod]; exact hl⟩
  have hfind : (List.range (96 / n)).find? (fun k =>
      decide (((List.range n).any fun j => m.getLsbD (n * k + j)) = true ∧ (k == l / n) = true)) = some (l / n) := by
    rw [List.find?_range_eq_some]
    exact ⟨decide_eq_true ⟨hany, beq_self_eq_true _⟩, List.mem_range.mpr (Nat.div_lt_div_of_lt_of_dvd hn hlt),
      fun j hj => by simp [hj.ne]⟩
  rw [List.find?_map, List.find?_filter]
  exact congrArg (Option.map fun k => (k, g k)) hfind

section
variable {i : Instr} {o : Opnd} {val : FpEnv → Nat → Nat} {step : FpEnv → FoldStep} {s : State} {c : Issue}

theorem reduceLanes_of_ready (h : Ready s c i) : reduceLanes i o val step s =
    .next (s.retire c i (c.wave.writeF o.d.toNat (c.active o.ext) fun l =>
      foldLanes (c.active o.ext ||| ~~~c.gang.slices.lanes) (fun k => val (fpEnv c.wave Ext.default) ((c.wave.readV o.a.toNat).at_ k).toNat)
        (step (fpEnv c.wave Ext.default)) 0 (l / segmentSize o.ext * segmentSize o.ext)
        (l / segmentSize o.ext * segmentSize o.ext + segmentSize o.ext))) := by
  refine (issue_plain h).trans (congrArg (fun w => Host.Outcome.next (s.retire c i w)) (writeF_congr fun l hl => ?_))
  simp only [spanOf_eq, find?_segment (segmentSize_dvd o.ext) hl]
  rw [Nat.mul_comm (segmentSize o.ext)]
  rfl

theorem scanLanes_of_ready (h : Ready s c i) : scanLanes i o val step s =
    .next (s.retire c i (c.wave.writeF o.d.toNat (c.active o.ext) fun l =>
      foldLanes (c.active o.ext ||| ~~~c.gang.slices.lanes) (fun k => val (fpEnv c.wave Ext.default) ((c.wave.readV o.a.toNat).at_ k).toNat)
        (step (fpEnv c.wave Ext.default)) 0 (l / segmentSize o.ext * segmentSize o.ext)
        (if o.ext.imm.getLsbD 0 then l else l + 1))) := by
  refine (issue_plain h).trans ?_
  simp only [spanOf_eq, ← Nat.div_mul_self_eq_mod_sub_self]
  rfl

end

theorem exec_laneFolds : ∀ p ∈ laneFolds, ∀ (o : Opnd) (s : State), exec (p.1 o) s = reduceLanes (p.1 o) o p.2.1 p.2.2 s := by
  simp only [laneFolds, List.forall_mem_cons, List.not_mem_nil, false_implies, implies_true, and_true]
  and_intros <;> exact fun _ _ => rfl

theorem exec_laneScans : ∀ p ∈ laneScans, ∀ (o : Opnd) (s : State), exec (p.1 o) s = scanLanes (p.1 o) o p.2.1 p.2.2 s := by
  simp only [laneScans, List.forall_mem_cons, List.not_mem_nil, false_implies, implies_true, and_true]
  and_intros <;> exact fun _ _ => rfl

/-! ## BALLOT (R180) -/

theorem getLsbD_ballotBits {c : Issue} {o : Opnd} {j : Nat} (hj : j < 96) : (ballotBits c o).getLsbD j = true ↔
    (c.wave.readP (o.a.toNat % 8)).getLsbD j = true ∧ (c.gang.slices.lanes.getLsbD j = true → (c.active o.ext).getLsbD j = true) ∧
      ∃ k, k < segmentSize o.ext ∧ c.gang.slices.lanes.getLsbD (j / segmentSize o.ext * segmentSize o.ext + k) = true := by
  simp only [ballotBits, getLsbD_maskOf, spanOf_eq, ← Nat.div_mul_self_eq_mod_sub_self, Issue.cohort, hj, decide_true, Bool.true_and,
    Bool.and_eq_true, Bool.or_eq_true, Bool.not_eq_true', ← Bool.not_eq_true, ← imp_iff_not_or, List.any_eq_true, List.mem_range,
    and_assoc]

/-- Settles O19: a fold is that of the lane's own segment, a scan's ends at the lane, and a ballot's bits are its mask's. -/
theorem reductionsScansAndBallots : Obligations.ReductionsScansAndBallots :=
  ⟨fun p hp o s _ h => (exec_laneFolds p hp o s).trans (reduceLanes_of_ready h),
    fun p hp o s _ h => (exec_laneScans p hp o s).trans (scanLanes_of_ready h),
    fun o _ c h => ⟨ballotBits c o, issue_plain (i := .ballot o) h, fun _ => getLsbD_ballotBits⟩⟩

end Sys2Proof.Laws
end

section
/-! SUPPORT. PRIVILEGED, and the segment values that SETSEG refuses (R213, R356, R361). -/

namespace Sys2Proof.Laws

open Sys2Proof.Machine Sys2Proof.Safety

/-! ## The checks of R361 -/

/-- An instruction whose fields name no lane register names none at or above .regs. -/
theorem outside_of_noLane {i : Instr} {regs : Nat} (h : ∀ x ∈ regFields i, ∀ r ∈ x.2.1.names x.2.2.1, r.1 ≠ .v) : outside i regs = none := by
  simp only [outside, List.head?_eq_none_iff, List.flatMap_eq_nil_iff, List.filterMap_eq_nil_iff]
  rintro x hx r hr
  rw [beq_false_of_ne (h x hx r hr), Bool.false_and]
  rfl

/-- The instructions of the handler alone name group registers alone. -/
theorem outside_privileged : ∀ mk ∈ [Instr.rte, .replayall, .tlbinv, .setseg], ∀ (o : Opnd) (regs : Nat), outside (mk o) regs = none := by
  have tlbinv (o : Opnd) (regs : Nat) : outside (.tlbinv o) regs = none := outside_of_noLane <| by
    simp only [regFields, fields, sig, List.forall_mem_cons]
    cases o.ext.mod.getLsbD 0 <;> simp [FieldUse.names]
  simp only [List.forall_mem_cons, List.not_mem_nil, false_implies, implies_true, and_true]
  exact ⟨fun _ _ => rfl, fun _ _ => rfl, tlbinv, fun _ _ => rfl⟩

section
variable {c : Issue} {i : Instr} {n : Needs}

/-- A group instruction's trap reports the active lanes of its cohort (R351). -/
theorem lanesOf_of_group {maj fn : BitVec 6} {o : Opnd} (h : fields i = some (.register true maj fn o)) : c.lanesOf i = c.activeGroup := by
  simp only [Issue.lanesOf, h]

variable (hf : FirstIssue c) (hi : outside i c.wave.regs = none) (he : n.noEntry = false)
include hf hi he

/-- Outside the handler an instruction of the handler alone traps (R361 SUB 1). -/
theorem check_of_privileged (hp : n.privileged = true) (hs : c.wave.sup = false) :
    c.check i n = .trap (c.trap 0x02 1 (wordsAddr (encode i)) (c.lanesOf i)) := by
  have hw : (c.gang.wait == .registers) = false := beq_false_of_ne hf.1
  simp only [Issue.check, hf.2, hw, hi, he, hp, hs, Bool.not_false, Bool.and_self, Bool.false_eq_true, if_false, if_true]

/-- An access to a system register that its mode denies traps (R361 SUB 2). -/
theorem check_of_denied (hp : n.privileged = false) (hd : n.denied = true) :
    c.check i n = .trap (c.trap 0x02 2 (wordsAddr (encode i)) (c.lanesOf i)) := by
  have hw : (c.gang.wait == .registers) = false := beq_false_of_ne hf.1
  simp only [Issue.check, hf.2, hw, hi, he, hp, hd, Bool.false_and, Bool.false_eq_true, if_false, if_true]

end

/-! ## The instructions of the handler alone, and system registers -/

section
variable {o : Opnd} {s : State} {c : Issue}

theorem exec_privileged : ∀ mk ∈ [Instr.rte, .replayall, .tlbinv, .setseg], ∀ (o : Opnd) (s : State),
    (∃ body, exec (mk o) s = issue (mk o) (fun _ => { privileged := true }) s body) ∧
      ∃ maj fn, fields (mk o) = some (.register true maj fn o) := by
  simp only [List.forall_mem_cons, List.not_mem_nil, false_implies, implies_true, and_true]
  and_intros <;> exact fun _ _ => ⟨⟨_, rfl⟩, _, _, rfl⟩

/-- GSYS of a register marked S, outside the handler. -/
theorem exec_gsys_of_denied (h : s.issuer = some c) (hf : FirstIssue c) (hs : c.wave.sup = false)
    (hn : supervisorOnly (o.ext.imm.toNat % 4096) = true) :
    exec (.gsys o) s = .next (s.takeTrap c.wave (c.trap 0x02 2 (wordsAddr (encode (.gsys o))) c.activeGroup)) :=
  issue_trap h (check_of_denied (n := { denied := supervisorOnly (o.ext.imm.toNat % 4096) && !c.wave.sup }) hf rfl rfl rfl (by rw [hn, hs]; rfl))

/-- What SSYS may write: FP_CTRL, and in supervisor mode the registers marked S or R/Ws. -/
def mayWrite (sup : Bool) (n : Nat) : Bool := decide (n = 0x010) || (sup && (supervisorOnly n || supervisorWritten n))

theorem exec_ssys_of_denied (h : s.issuer = some c) (hf : FirstIssue c) (hn : mayWrite c.wave.sup (o.ext.imm.toNat % 4096) = false) :
    exec (.ssys o) s = .next (s.takeTrap c.wave (c.trap 0x02 2 (wordsAddr (encode (.ssys o))) c.activeGroup)) :=
  issue_trap h (check_of_denied (n := { denied := !mayWrite c.wave.sup (o.ext.imm.toNat % 4096) }) hf rfl rfl rfl (by rw [hn]; rfl))

theorem supervisorOnly_iff {n : Nat} : supervisorOnly n = true ↔ n = 0x01C ∨ n = 0x020 ∨ 0x022 ≤ n ∧ n ≤ 0x028 := by
  simp [supervisorOnly, or_assoc]

theorem mayWrite_eq_false {sup : Bool} {n : Nat} (hfp : n ≠ 0x010)
    (hn : sup = true → ¬(0x018 ≤ n ∧ n ≤ 0x01C) ∧ n ≠ 0x020 ∧ ¬(0x022 ≤ n ∧ n ≤ 0x028)) : mayWrite sup n = false := by
  cases sup
  · simp [mayWrite, hfp]
  · obtain ⟨hw, hcause, htrap⟩ := hn rfl
    simp [mayWrite, hfp, supervisorOnly, supervisorWritten]
    omega

/-! ## Refused segment values -/

/-- The values that R213 refuses, register by register. -/
theorem refuses_iff {g : Segs} {n : Nat} {v : BitVec 64} : g.refuses n v = true ↔
    (n = 0x030 ∧ v ≠ g.tileBase) ∨ (n = 0x032 ∧ v ≠ g.tileLimit) ∨ (n = 0x034 ∧ (v = g.tileBase ∨ canonical v = false)) ∨
      (n = 0x03A ∧ g.globalLimit < v) ∨ (n = 0x03C ∧ v < g.globalBase) := by
  unfold Segs.refuses
  split
  case h_6 h30 h32 h34 h3A h3C => simp_all
  all_goals simp

/-- SETSEG of a refused value keeps every segment register: it takes its trap on the wave as it stands. -/
theorem exec_setseg_of_refused (h : Ready s c (.setseg o)) (hs : c.wave.sup = true)
    (hr : c.wave.segs.refuses (o.ext.imm.toNat % 4096) (segValue (o.ext.imm.toNat % 4096) (c.wave.readG2 o.a.toNat)) = true) :
    exec (.setseg o) s = .next (s.takeTrap c.wave (c.trap 0x06 0 (c.wave.readG2 o.a.toNat) c.activeGroup)) :=
  (issue_in_handler h hs).trans (congrArg _ (if_pos hr))

end

/-- A trap of a wave in its handler, of no combiner's, fails its context with its cause (R356). -/
theorem takeTrap_in_handler {s : State} {w : Wave} {c : Crew} {t : Trap} (hc : s.crew? w.ref.crew = some c) (hk : c.isCombiner = false)
    (hs : w.sup = true) : s.takeTrap w t = s.failContext c.part c.ctx.ctag t.cause := by
  simp only [State.takeTrap, hc]
  split
  next o ho => rw [Crew.isCombiner, ho] at hk; cases hk
  next => rw [hs, Bool.true_or, if_pos rfl]

/-- Settles O10: each is refused by one check of R361 at its first issue, or by the table of R213. -/
theorem privilegedInstructionsTrapOutsideTheHandler : Obligations.PrivilegedInstructionsTrapOutsideTheHandler := by
  refine ⟨fun mk o s c hmk h hf hs => ?_, fun o s c h hf hs hn => exec_gsys_of_denied h hf hs (supervisorOnly_iff.mpr hn),
    fun o s c h hf hn => exec_ssys_of_denied h hf (mayWrite_eq_false hn.1 hn.2), fun o s c h hs hr => ?_⟩
  · obtain ⟨⟨body, hx⟩, maj, fn, hg⟩ := exec_privileged mk hmk o s
    rw [hx, issue_trap h (check_of_privileged hf (outside_privileged mk hmk o _) rfl rfl hs), lanesOf_of_group hg]
  · have ht := exec_setseg_of_refused h hs (refuses_iff.mpr hr)
    exact ⟨ht, fun hc hk => ht.trans (congrArg _ (takeTrap_in_handler hc hk hs))⟩

end Sys2Proof.Laws
end

section
/-! SUPPORT. Transfers of control: BRA, CALL, JMPG, CALLG, RET, BRC and BRP (R192 to R195, R363). -/

namespace Sys2Proof.Laws

open Sys2Proof.Machine Sys2Proof.Safety

/-! ## Jumps through a register pair (R193) -/

section
variable {s : State} {c : Issue} {w : Wave} {t : Addr}

theorem jumpTo_of_aligned (h : t.extractLsb' 0 2 = 0) : s.jumpTo c w t = s.putWave (w.advance c.gang t) := by
  rw [State.jumpTo, h]; rfl

/-- A target that is no word's address traps on the wave as it stood (R363). -/
theorem jumpTo_of_misaligned (h : t.extractLsb' 0 2 ≠ 0) : s.jumpTo c w t = s.takeTrap c.wave (c.trap 0x05 0 t c.activeGroup 4) := by
  rw [State.jumpTo, if_pos (bne_iff_ne.mpr h)]

end

/-- The jumps differ by whether they link. -/
theorem exec_registerJump : ∀ p ∈ registerJumps, ∀ (o : Opnd) (s : State), exec (p.1 o) s = issue (p.1 o) plain s fun c =>
    s.jumpTo c (if p.2 then c.wave.writeG2 c.gang.slices o.d.toNat (c.nextPc (p.1 o)) else c.wave) (c.wave.readG2 o.a.toNat) := by
  simp only [registerJumps, List.forall_mem_cons, List.not_mem_nil, false_implies, implies_true, and_true]
  and_intros <;> exact fun _ _ => rfl

/-! ## Branches to a label (R192, R194) -/

theorem exec_call {off : BitVec 24} {s : State} {c : Issue} (h : Ready s c (.call off)) (hl : c.wave.isFull .g 58 = true)
    (hh : c.wave.isFull .g 59 = true) : exec (.call off) s = .next (s.putWave ((c.wave.writeG2 c.gang.slices 58 (c.gang.pc + 4)).advance
      c.gang (c.gang.pc + 4 * off.signExtend 64))) := by
  have hlink : linkFull c.wave 58 = true := Bool.and_eq_true_iff.mpr ⟨hl, hh⟩
  exact (issue_plain h).trans (congrArg _ (if_pos hlink))

/-- The relations of the BRC forms are those of the table. -/
theorem exec_groupBranch : ∀ p ∈ groupBranches, ∀ (o : Opnd) (s : State), exec (p.1 o) s = branchIf (p.1 o) o p.2 s := by
  simp only [groupBranches, List.forall_mem_cons, List.not_mem_nil, false_implies, implies_true, and_true]
  and_intros <;> exact fun _ _ => rfl

theorem branchIf_of_ready {i : Instr} {o : Opnd} {f : Word → Word → Bool} {s : State} {c : Issue} (h : Ready s c i) :
    branchIf i o f s = .next (s.putWave (c.wave.advance c.gang
      (if f (c.wave.readG o.a.toNat) (c.wave.readG o.b.toNat) then c.gang.pc + 4 * o.ext.imm.signExtend 64 else c.nextPc i))) := by
  refine (issue_plain h).trans ?_
  rw [apply_ite (c.wave.advance c.gang), apply_ite s.putWave]
  rfl

/-- Settles O22: each is its frame around one move of the gang; a jump through a register pair turns on bits 1:0 of its target. -/
theorem branchesMoveTheCohort : Obligations.BranchesMoveTheCohort := by
  refine ⟨fun off s c h => issue_plain h, fun off s c h hl hh => exec_call h hl hh, fun p hp o s c h => ?_,
    fun p hp o s c h => (exec_groupBranch p hp o s).trans (branchIf_of_ready h)⟩
  have hx := (exec_registerJump p hp o s).trans (issue_plain h)
  exact ⟨fun ht => hx.trans (congrArg _ (jumpTo_of_aligned ht)), fun ht => hx.trans (congrArg _ (jumpTo_of_misaligned ht))⟩

/-! ## BRP (R195) -/

section
variable {i : Instr} {fn : BitVec 6} {o : Opnd}

/-- The fields of R141 that a BRP uses: a predicate in A, and IMM16. -/
def partingSig : Sig := { cls := .genGroup, a := .src .p 1 1, imm := 0xFFFF }

theorem fields_parting : ∀ p ∈ partingBranches.zipIdx, ∀ o : Opnd,
    fields (p.1.1 o) = some (.register true 0x0B (BitVec.ofNat 6 p.2) o) ∧ sig (p.1.1 o) = some partingSig := by
  simp only [partingBranches, List.zipIdx_cons, List.zipIdx_nil, List.forall_mem_cons, List.not_mem_nil, false_implies, implies_true, and_true]
  and_intros <;> exact fun _ => ⟨rfl, rfl⟩

/-- A predicate's number lies below 8 where the bits above it are 0 (R141). -/
theorem lt_eight_of_reserved : ∀ a : BitVec 6, 0x38#6 &&& a = 0 → a.toNat < 8 := by decide

/-- The reserved fields of a BRP are 0, and it carries an extension word (R139, R140). -/
theorem reserved_parting (hf : fields i = some (.register true 0x0B fn o)) (hs : sig i = some partingSig) (hw : wellFormed i = true) :
    o.a.toNat < 8 ∧ o.d = 0 ∧ o.b = 0 ∧ o.ext.mod = 0 ∧ o.x.isSome = true := by
  have hsub : illegalSub i = none := Option.isNone_iff_eq_none.mp (Bool.and_eq_true_iff.mp hw).2
  simp only [illegalSub, hf, hs] at hsub
  split at hsub
  · cases hsub
  next hr =>
  split at hsub
  · cases hsub
  next hx =>
  simp only [reservedNonzero, partingSig, FieldUse.reservedBits, Bool.or_eq_true, bne_iff_ne, not_or, not_not, ne_eq] at hr
  obtain ⟨⟨⟨⟨⟨⟨hd, ha⟩, hb⟩, -⟩, hm⟩, -⟩, -⟩ := hr
  exact ⟨lt_eight_of_reserved _ ha, (BitVec.allOnes_and).symm.trans hd, (BitVec.allOnes_and).symm.trans hb,
    (BitVec.allOnes_and).symm.trans hm, by simpa [plusX, shortForm, Option.isSome_iff_ne_none] using hx⟩

/-- The base word of a BRP. -/
theorem baseWord_parting (hf : fields i = some (.register true 0x0B fn o)) (hs : sig i = some partingSig) (hw : wellFormed i = true) :
    (encode i).headD 0 = (1#1 ++ 1#1 ++ 0x0B#6 ++ 0#6 ++ o.a ++ 0#6 ++ fn : BitVec 32) := by
  obtain ⟨-, hd, hb, -, hx⟩ := reserved_parting hf hs hw
  rw [encode_of_fields hf, words_register, List.headD_cons, hd, hb, hx]
  rfl

/-- The slices that take the branch: each decides from its own active lanes and those of them whose predicate is 1. -/
def takers (c : Issue) (o : Opnd) (f : Nat → Nat → Bool) : SliceMask :=
  sliceMaskOf fun sl => c.gang.slices.getLsbD sl &&
    f (sliceVote c.wave.act (c.wave.readP (o.a.toNat % 8)) sl).1 (sliceVote c.wave.act (c.wave.readP (o.a.toNat % 8)) sl).2

variable {f : Nat → Nat → Bool} {s : State} {c : Issue}

theorem part_of_ready (h : Ready s c i) : part i o f s = .next
    (if c.gang.slices &&& ~~~takers c o f = 0 then s.putWave (c.wave.advance c.gang (c.gang.pc + 4 * o.ext.imm.signExtend 64))
    else if takers c o f = 0 then s.putWave (c.wave.advance c.gang (c.nextPc i))
    else s.putWave { c.wave with
      issued := c.wave.issued + 1, roundIssued := c.wave.roundIssued + 1
      gangs := (c.wave.gangs.filter fun g => g.slices != c.gang.slices) ++
        [{ slices := takers c o f, pc := c.gang.pc + 4 * o.ext.imm.signExtend 64, wait := .ready },
         { slices := c.gang.slices &&& ~~~takers c o f, pc := c.nextPc i, wait := .ready }] }) :=
  issue_plain h

end

theorem exec_partingBranch : ∀ p ∈ partingBranches, ∀ (o : Opnd) (s : State), exec (p.1 o) s = part (p.1 o) o p.2 s := by
  simp only [partingBranches, List.forall_mem_cons, List.not_mem_nil, false_implies, implies_true, and_true]
  and_intros <;> exact fun _ _ => rfl

/-- What a slice with no active lane decides. -/
theorem parting_of_inactive : ∀ p ∈ partingBranches, ∀ o : Opnd, p.2 0 0 = decide (p.1 o ≠ .brpAny o) := by
  simp only [partingBranches, List.forall_mem_cons, List.not_mem_nil, false_implies, implies_true, and_true]
  refine ⟨fun o => ?_, fun o => ?_, fun o => ?_⟩ <;> simp

/-- Settles O23: the cohort divides by the slices that take the branch, unless those are all or none. -/
theorem partingBranchesDivideTheCohort : Obligations.PartingBranchesDivideTheCohort := by
  refine ⟨fun p hp o hw _ => ?_, parting_of_inactive, fun p hp o s c h => ?_⟩
  · obtain ⟨hf, hs⟩ := fields_parting p hp o
    obtain ⟨ha, hd, hb, hm, -⟩ := reserved_parting hf hs hw
    exact ⟨ha, hd, hb, hm, baseWord_parting hf hs hw⟩
  · have hx : exec (p.1 o) s = _ := (exec_partingBranch p hp o s).trans (part_of_ready h)
    exact ⟨fun hall => hx.trans (congrArg _ (if_pos hall)),
      fun hsome hnone => hx.trans (congrArg _ ((if_neg hsome).trans (if_pos hnone))),
      fun hsome hnone => hx.trans (congrArg _ ((if_neg hsome).trans (if_neg hnone)))⟩

end Sys2Proof.Laws
end

section
/-! SUPPORT. The end of a WAIT and its result word (R143, R202). -/

namespace Sys2Proof.Laws

open Sys2Proof.Machine Sys2Proof.Safety

/-- The result word, by its fields (R202). -/
theorem waitResult_eq (x : WaitState) (timeout : Bool) :
    x.result timeout = (0 : BitVec 26) ++ BitVec.ofBool x.pois ++ BitVec.ofBool timeout ++ x.seen := by
  have h : ∀ (seen : BitVec 4) (timeout pois : Bool), (seen.setWidth 32 ||| (if timeout then 0x10 else 0) ||| (if pois then 0x20 else 0) : Word) =
      (0 : BitVec 26) ++ BitVec.ofBool pois ++ BitVec.ofBool timeout ++ seen := by decide
  exact h x.seen timeout x.pois

section
open BitVec
variable (x : WaitState) (timeout : Bool)

theorem waitResult_seen : (x.result timeout).extractLsb' 0 4 = x.seen := by
  rw [waitResult_eq, extractLsb'_append_eq_right]

theorem waitResult_timeout : (x.result timeout).getLsbD 4 = timeout := by
  rw [waitResult_eq, getLsbD_append, getLsbD_append]
  simp

theorem waitResult_poison : (x.result timeout).getLsbD 5 = x.pois := by
  rw [waitResult_eq, getLsbD_append, getLsbD_append, getLsbD_append]
  simp

theorem waitResult_above : (x.result timeout).extractLsb' 6 26 = 0 := by
  rw [waitResult_eq]
  iterate 2 rw [extractLsb'_append_eq_of_le (by decide)]
  rw [extractLsb'_append_eq_of_le (by decide), extractLsb'_eq_self]

end

/-- A group register below g61 reads what was written to it. -/
theorem readG_writeG_same {w : Wave} {k : SliceMask} {n : Nat} {x : Word} (h : n < 61) (hl : n < w.g.length) : (w.writeG k n x).readG n = x := by
  simp only [Wave.writeG, Wave.readG, if_pos h]
  exact getD_setAt_same hl

/-- A group register that is made full is full. -/
theorem isFull_setFull_g {w : Wave} {n : Nat} (h : n < 64) : (w.setFull .g n).isFull .g n = true := by
  simp only [Wave.setFull, Wave.isFull, regBit, BitVec.getLsbD_or, BitVec.getLsbD_shiftLeft, BitVec.getLsbD_one]
  simp [h]

/-- Settles O27: the end of a WAIT writes its result word, whose fields are those of R202, and makes its register full. -/
theorem waitResultWord : Obligations.WaitResultWord := by
  intro w g x timeout h hl
  have hr : (w.endWait g x timeout).readG x.dst = x.result timeout := readG_writeG_same h hl
  refine ⟨?_, isFull_setFull_g (by omega), ?_⟩
  · simp only [hr]
    exact ⟨waitResult_seen x timeout, waitResult_timeout x timeout, waitResult_poison x timeout, waitResult_above x timeout⟩
  · rw [Wave.endWait, writeG_eq]
    rfl

end Sys2Proof.Laws
end

section
/-! SUPPORT. MISALIGNED (R216, R328, R329, R333): the checks of the lanes in their order, and the trap of an access to which some
lane brings a misaligned address. -/

namespace Sys2Proof.Laws

open Sys2Proof.Machine Sys2Proof.Safety

/-! ## The step at which a lane fails (R328) -/

section
variable {s : State} {c : Crew} {w : Wave} {f : AccessForm} {l off size n : Nat} {a : BitVec 64} {need : Perm} {e : Failure}

/-- A translation fails at step 4 or 5. -/
theorem reachPiece_step (h : (s.reachPiece c need off size a).1 = .error e) : 4 ≤ e.step := by
  unfold State.reachPiece at h
  split at h <;> cases h
  · exact Nat.le_refl 4
  · exact Nat.le_succ 4

/-- A STACK access fails as the translation of one of its units does. -/
theorem stackStep_step (h : ((List.range n).foldl (stackStep w c f l off) (.ok [], s)).1 = .error e) : 4 ≤ e.step := by
  induction n generalizing e with
  | zero => cases h
  | succ n ih =>
    rw [List.range_succ, List.foldl_append, List.foldl_cons, List.foldl_nil] at h
    cases hr : (List.range n).foldl (stackStep w c f l off) (.ok [], s) with
    | mk r u =>
      rw [hr] at h ih
      cases r with
      | error d => exact ih h
      | ok ps =>
        simp only [stackStep] at h
        cases hp : (u.reachPiece c f.need (4 * n) (min 4 f.size) (stackBacking w.segs l (off + 4 * n))).1 with
        | ok p => rw [hp] at h; cases h
        | error d => rw [hp] at h; cases h; exact reachPiece_step hp

/-- The checks of an aligned address fail at step 2 or later. -/
theorem reachLane_step (ha : a.toNat % f.align = 0) (h : (s.reachLane w c f l a).1 = .error e) : 2 ≤ e.step := by
  by_cases hc : canonical a = true ∧ canonical (a + BitVec.ofNat 64 (f.size - 1)) = true
  swap
  · rw [reachLane_noncanonical ha (by rwa [← Bool.not_eq_true, ← Bool.not_eq_true, ← not_and_or])] at h
    cases h
    exact Nat.le_refl 2
  have hs : Sound f a := ⟨ha, hc⟩
  have hseg {x : Failure} (hx : (laneFails s 3 0x06).1 = .error x) : 2 ≤ x.step := by
    cases hx
    exact Nat.le_succ 2
  cases hst : steer w.segs a with
  | tile core off =>
    rw [reachLane_tile hs hst] at h
    split at h
    · exact hseg h
    · split at h
      · split at h
        · cases h
        · exact hseg h
      · exact hseg h
  | stack off =>
    rw [reachLane_stack hs hst] at h
    split at h
    · exact hseg h
    · exact le_trans (by decide) (stackStep_step h)
  | global =>
    rw [reachLane_global hs hst] at h
    split at h
    · exact hseg h
    · cases hp : (s.reachPiece c f.need 0 f.size a).1 with
      | ok p => rw [hp] at h; cases h
      | error d => rw [hp] at h; cases h; exact le_trans (by decide) (reachPiece_step hp)

end

/-! ## The lanes that fail -/

/-- The address of a lane is no multiple of the access's alignment (R216). -/
def misaligned (f : AccessForm) (addr : Nat → BitVec 64) (l : Nat) : Bool := (addr l).toNat % f.align != 0

/-- What the check of step 1 reports (R328). -/
def misalignment : Failure := { step := 1, cause := 0x05, sub := 0 }

/-- The failure of a lane, if its checks end in one. -/
def failureOf (l : Nat) : Except Failure (List Piece) → List (Nat × Failure)
  | .ok _ => []
  | .error e => [(l, e)]

section
variable {s : State} {w : Wave} {c : Crew} {f : AccessForm} {addr : Nat → BitVec 64}

/-- The failure of a lane that comes after others, on the state that their walks leave. -/
theorem reachLanes_failures_append (ls : List Nat) (l : Nat) : (s.reachLanes w c f addr (ls ++ [l])).2.1 =
    (s.reachLanes w c f addr ls).2.1 ++ failureOf l ((s.reachLanes w c f addr ls).2.2.reachLane w c f l (addr l)).1 := by
  rw [State.reachLanes, List.foldl_append, ← State.reachLanes, List.foldl_cons, List.foldl_nil]
  obtain ⟨ok, bad, t⟩ := s.reachLanes w c f addr ls
  dsimp only
  obtain ⟨r, u⟩ := t.reachLane w c f l (addr l)
  cases r with
  | ok ps => exact (List.append_nil bad).symm
  | error e => rfl

/-- Of the lanes that fail, those at step 1 are the misaligned ones, and none fails before it. -/
theorem reachLanes_failures (lanes : List Nat) : (∀ x ∈ (s.reachLanes w c f addr lanes).2.1, 1 ≤ x.2.step) ∧
    ((s.reachLanes w c f addr lanes).2.1.filter fun x => x.2.step == 1) =
      (lanes.filter (misaligned f addr)).map fun l => (l, misalignment) := by
  induction lanes using List.reverseRecOn with
  | nil => exact ⟨nofun, rfl⟩
  | append_singleton ls l ih =>
    obtain ⟨hge, heq⟩ := ih
    rw [reachLanes_failures_append, List.filter_append, List.filter_append, List.map_append, heq]
    by_cases ha : (addr l).toNat % f.align = 0
    · have hm : misaligned f addr l = false := by rw [misaligned, ha]; rfl
      cases hr : ((s.reachLanes w c f addr ls).2.2.reachLane w c f l (addr l)).1 with
      | ok ps => simpa [hm, failureOf] using hge
      | error e =>
        have h2 : 2 ≤ e.step := reachLane_step ha hr
        have h1 : (e.step == 1) = false := beq_eq_false_iff_ne.mpr (by omega)
        refine ⟨fun x hx => ?_, by simp [hm, h1, failureOf]⟩
        obtain hx | hx := List.mem_append.mp hx
        · exact hge x hx
        · rw [List.mem_singleton.mp hx]
          exact le_trans (by decide) h2
    · have hm : misaligned f addr l = true := bne_iff_ne.mpr ha
      rw [reachLane_misaligned ha]
      refine ⟨fun x hx => ?_, by simp [hm, misalignment, failureOf]⟩
      obtain hx | hx := List.mem_append.mp hx
      · exact hge x hx
      · rw [List.mem_singleton.mp hx]

end

/-! ## The trap (R329) -/

/-- The earliest step is 1 where some lane fails at it, and none before. -/
theorem earliestStep_one {bad : List (Nat × Failure)} {m : Nat} (hm : 1 ≤ m) (hge : ∀ x ∈ bad, 1 ≤ x.2.step)
    (h1 : m = 1 ∨ ∃ x ∈ bad, x.2.step = 1) : bad.foldl (fun m x => min m x.2.step) m = 1 := by
  induction bad generalizing m with
  | nil => exact h1.resolve_right (by simp)
  | cons y bad ih =>
    have hy := hge y List.mem_cons_self
    refine ih (le_min hm hy) (fun x hx => hge x (List.mem_cons_of_mem _ hx)) ?_
    obtain rfl | ⟨x, hx, hx1⟩ := h1
    · exact .inl (min_eq_left hy)
    · obtain rfl | hx := List.mem_cons.mp hx
      · exact .inl ((min_eq_right (hx1.trans_le hm)).trans hx1)
      · exact .inr ⟨x, hx, hx1⟩

/-- The trap of an access some of whose lanes fail at step 1 names those lanes, whatever the others fail. -/
theorem faultOf_stepOne {c : Issue} {f : AccessForm} {addr : Nat → BitVec 64} {bad rest : List (Nat × Failure)} {x : Nat × Failure}
    (hge : ∀ y ∈ bad, 1 ≤ y.2.step) (h1 : (bad.filter fun y => y.2.step == 1) = x :: rest) :
    faultOf c f addr bad = c.trap x.2.cause x.2.sub (addr x.1) (laneSet ((x :: rest).map fun y => y.1)) f.kind := by
  have hx : x ∈ bad ∧ (x.2.step == 1) = true := List.mem_filter.mp (h1 ▸ List.mem_cons_self)
  have hstep : bad.foldl (fun m x => min m x.2.step) 9 = 1 :=
    earliestStep_one (by decide) hge (.inr ⟨x, hx.1, beq_iff_eq.mp hx.2⟩)
  simp only [faultOf, hstep, h1]

/-- An access with a misaligned lane traps MISALIGNED, and nothing of it is performed. -/
theorem lanesAccess_misaligned {s : State} {c : Issue} {f : AccessForm} {release remote : Bool} {active : LaneMask} {addr : Nat → BitVec 64}
    {k : State → List (Nat × List Piece) → State} {l : Nat} {rest : List Nat}
    (h : (LaneMask.lanes active).filter (misaligned f addr) = l :: rest) :
    s.lanesAccess c f release remote active addr k = s.takeTrap c.wave (c.trap 0x05 0 (addr l) (laneSet (l :: rest)) f.kind) := by
  obtain ⟨hge, h1⟩ := reachLanes_failures (s := s) (w := c.wave) (c := c.crew) (f := f) (addr := addr) (LaneMask.lanes active)
  rw [h] at h1
  have hbad : (s.reachLanes c.wave c.crew f addr (LaneMask.lanes active)).2.1.isEmpty = false := by
    rw [List.isEmpty_eq_false_iff]
    intro hn
    rw [hn] at h1
    cases h1
  simp only [State.lanesAccess, hbad, Bool.not_false, if_true]
  rw [faultOf_stepOne hge h1]
  simp [misalignment, Function.comp_def]

/-! ## The instructions -/

/-- The instruction is one access of its lanes, with an alignment, a KIND and an address in each. -/
def AccessesLanes (s : State) (c : Issue) (i : Instr) (active : LaneMask) (align kind : Nat) (addr : Nat → BitVec 64) : Prop :=
  ∃ (f : AccessForm) (release remote : Bool) (k : State → List (Nat × List Piece) → State),
    f.align = align ∧ f.kind = kind ∧ exec i s = .next (s.lanesAccess c f release remote active addr k)

/-- A load other than that of an e2m1 array (R217, R220). -/
theorem load_accessesLanes {fmt size : BitVec 6} (hf : fmt ≠ 13) {p : (Opnd → Instr) × Nat × (Wave → Opnd → Nat → BitVec 64)}
    (hp : p ∈ loadForms fmt size) {o : Opnd} {s : State} {c : Issue} (h : Ready s c (p.1 o)) :
    AccessesLanes s c (p.1 o) (c.active o.ext) (fmtBytes p.2.1) 0 (p.2.2 c.wave o) := by
  simp only [loadForms, List.mem_cons, List.not_mem_nil, or_false] at hp
  obtain rfl | rfl := hp
  · have h13 : fmt.toNat ≠ 13 := fun k => hf (BitVec.eq_of_toNat_eq k)
    exact ⟨_, _, _, _, rfl, rfl, (issue_plain h).trans (congrArg _ (if_neg h13))⟩
  · exact ⟨_, _, _, _, rfl, rfl, issue_plain h⟩

/-- Every access that must be aligned (R216). -/
theorem alignedForm_accessesLanes {fmt size : BitVec 6} {order : BitVec 2} (hf : fmt ≠ 13)
    {p : (Opnd → Instr) × Nat × Nat × (Wave → Opnd → Nat → BitVec 64)} (hp : p ∈ alignedForms fmt size order)
    {o : Opnd} {s : State} {c : Issue} (h : Ready s c (p.1 o)) :
    AccessesLanes s c (p.1 o) (c.active o.ext) p.2.1 p.2.2.1 (p.2.2.2 c.wave o) := by
  simp only [alignedForms, List.mem_append, List.mem_map] at hp
  obtain ((⟨q, hq, rfl⟩ | ⟨q, hq, rfl⟩) | ⟨q, hq, rfl⟩) | ⟨q, hq, rfl⟩ := hp
  · exact load_accessesLanes hf hq h
  · have hrun := exec_store hq hf h
    simp only [State.storeLanes] at hrun
    exact ⟨_, _, _, _, rfl, rfl, hrun⟩
  · obtain ⟨op, hop⟩ := atomForm_of_mem hq
    exact ⟨_, _, _, _, rfl, rfl, exec_atom hop h⟩
  · exact ⟨_, _, _, _, rfl, rfl, cas_eq hq h⟩

/-- An e2m1 array with a base that is not 16-byte aligned (R218, assumption log 60). -/
theorem nibbleForm_misaligned {p : (Opnd → Instr) × Nat × (Opnd → Nat)} (hp : p ∈ nibbleForms) {o : Opnd} {s : State} {c : Issue} {l : Nat}
    {rest : List Nat} (h : Ready s c (p.1 o))
    (hbad : ((LaneMask.lanes (c.active o.ext)).filter fun k => (laneAddr c.wave o.a.toNat o.ext.imm k).toNat % 16 != 0) = l :: rest) :
    exec (p.1 o) s = .next (s.takeTrap c.wave (c.trap 0x05 0
      (e2m1Place (laneAddr c.wave o.a.toNat o.ext.imm l) ((c.wave.readV (p.2.2 o)).at_ l).toNat).1 (laneSet (l :: rest)) p.2.1)) := by
  have h13 : (13 : BitVec 6).toNat = 13 := rfl
  simp only [nibbleForms, List.mem_cons, List.not_mem_nil, or_false] at hp
  obtain rfl | rfl := hp
  all_goals
    refine (issue_plain h).trans (congrArg _ ?_)
    dsimp only
    rw [if_pos h13, hbad]

/-- Settles O35: each form is an access of its lanes whose first check fails, or, for an e2m1 array, checks its bases before it. -/
theorem misalignedAccessesTrap : Obligations.MisalignedAccessesTrap := by
  refine ⟨fun fmt size order hf p hp o s c l rest h hbad => ?_, fun p hp o s c l rest h => nibbleForm_misaligned hp h⟩
  obtain ⟨f, release, remote, k, hal, hkind, hrun⟩ := alignedForm_accessesLanes hf hp h
  rw [← hal] at hbad
  rw [hrun, lanesAccess_misaligned hbad, hkind]
  rfl

end Sys2Proof.Laws
end

section
/-! SUPPORT. The records of work graphs: RECALLOC and RECSEND (R264, R298, R381). -/

namespace Sys2Proof.Laws

open Sys2Proof.Machine Sys2Proof.Safety

section
variable {o : Opnd} {s : State} {c : Issue} {g : Graph} {own : Nat}

/-- A wave of a graph may issue RECALLOC and RECSEND (R362). -/
theorem needsMet_record {x : Bool} (hg : s.graphNode c.crew = some (g, own)) (hx : x = true → c.wave.sup = false) :
    NeedsMet (recordNeeds x c) c.wave := by
  refine ⟨nofun, hx, rfl, rfl, ?_, rfl⟩
  simp only [State.graphNode] at hg
  split at hg
  next hk => simp only [recordNeeds, hk]
  next hk => simp only [recordNeeds, hk]
  next => cases hg

/-- The list of a lane set gives the set back. -/
theorem laneSet_lanes (m : LaneMask) : laneSet (LaneMask.lanes m) = m :=
  BitVec.eq_of_getLsbD_eq fun l hl => by
    rw [getLsbD_laneSet]
    simp [hl, mem_lanes]

/-! ## RECALLOC (R264, R298) -/

/-- An instruction whose immediate is not 0 carries an extension word (R138, R139). -/
theorem ext_of_imm_ne_zero {n : Nat} (h : o.ext.imm.toNat % n ≠ 0) : ∃ x, o.x = some x := by
  cases hx : o.x with
  | some x => exact ⟨x, rfl⟩
  | none => exact absurd (by rw [Opnd.ext, hx]; exact Nat.zero_mod n) h

/-- With its extension word RECALLOC is 8 bytes long (R136). -/
theorem instrSize_recalloc {x : Ext} (hx : o.x = some x) : instrSize (.recalloc o) = 8 := by
  simp only [instrSize, encode, fields, Fields.words, hx]
  rfl

/-- The lanes that are served are the first ones (R298). -/
theorem takeSlots_prefix (n : Nat) : ∀ (ls : List Nat) (g : Graph), (g.takeSlots n ls).1.map Prod.fst <+: ls
  | [], _ => List.nil_prefix
  | l :: ls, g => by
    unfold Graph.takeSlots
    split
    · exact List.nil_prefix
    · exact List.cons_prefix_cons.mpr ⟨rfl, takeSlots_prefix n ls _⟩

/-- As many slots as lanes serve every lane. -/
theorem takeSlots_lanes {n : Nat} {ls : List Nat} {got : List (Nat × Nat)} {g' : Graph} (h : g.takeSlots n ls = (got, g'))
    (hl : got.length = ls.length) : got.map Prod.fst = ls := by
  have hp := takeSlots_prefix n ls g
  rw [h] at hp
  exact hp.eq_of_length (by rw [List.length_map, hl])

/-- RECALLOC in a wave of a graph, outside the handler. -/
theorem exec_recalloc {n : Nat} (hn : o.ext.imm.toNat % 64 = n) (hg : s.graphNode c.crew = some (g, own)) (h : Ready s c (.recalloc o))
    (hs : c.wave.sup = false) : exec (.recalloc o) s = .next (
      if c.active o.ext = 0 then s.retire c (.recalloc o) c.wave
      else if n = 0 || g.nodes.length ≤ n || n ≤ own then s.takeTrap c.wave (c.trap 0x13 1 (BitVec.ofNat 64 n) (c.active o.ext))
      else ({ s with stamp := s.stamp + 1 } : State).serveRecords c.wave c.gang g n o.d.toNat (c.active o.ext) [] s.stamp) := by
  subst hn
  refine (issue_of_ready h (needsMet_record hg fun _ => hs)).trans ?_
  simp only [hg]
  rfl

/-- The wave holds the slots that its lanes have taken for a node. -/
def holdingSlots (w : Wave) (n : Nat) (got : List (Nat × Nat)) : Wave :=
  { w with slots := w.slots ++ got.map fun x => { addr := x.2, node := n, lane := x.1, sent := false } }

/-- The address that a lane receives. -/
def slotAddress (got : List (Nat × Nat)) (l : Nat) : BitVec 64 := BitVec.ofNat 64 (((got.find? fun x => x.1 == l).map fun x => x.2).getD 0)

/-- RECALLOC whose turn it is, and which finds a slot for every lane, goes on with the addresses (R264, R298). -/
theorem serveRecords_all {i : Instr} {n d k : Nat} {m : LaneMask} {got : List (Nat × Nat)} {g' : Graph} (h : s.crew? c.wave.ref.crew = some c.crew)
    (hi : instrSize i = 8) (ht : s.recTurn g n k = true) (hg : g.takeSlots n (LaneMask.lanes m) = (got, g'))
    (hl : got.length = (LaneMask.lanes m).length) : s.serveRecords c.wave c.gang g n d m [] k =
      (got.foldl (fun (t : State) x => t.blankSlot c.crew x.2 g.slotSize) (s.putGraph g')).retire c i
        ((holdingSlots c.wave n got).writeV2 d m (slotAddress got)) := by
  have hm : laneSet (got.map fun x => x.1) = m := by
    rw [show (got.map fun x => x.1) = LaneMask.lanes m from takeSlots_lanes hg hl, laneSet_lanes]
  have hc : (s.putGraph g').crew? c.wave.ref.crew = some c.crew := h
  simp only [State.serveRecords, ht, if_true, hg, hc, List.nil_append, hm, BitVec.and_not_self, State.retire, Issue.nextPc, hi]
  rfl

/-! ## RECSEND (R264, R381) -/

/-- The lanes whose address cannot be sent, each with its SUB: a later lane of two that name one slot has SUB 3 (R381). -/
def sendFaults (w : Wave) (lanes : List Nat) (addr : Nat → BitVec 64) : List (Nat × Nat) :=
  lanes.filterMap fun l =>
    match w.sendFault (addr l).toNat with
    | some k => some (l, k)
    | none => if lanes.any fun k => k < l && addr k = addr l then some (l, 3) else none

/-- Where every lane names a slot of its own that can be sent, no lane fails. -/
theorem sendFaults_nil {w : Wave} {lanes : List Nat} {addr : Nat → BitVec 64} (hn : ∀ l ∈ lanes, w.sendFault (addr l).toNat = none)
    (hi : ∀ l ∈ lanes, ∀ k ∈ lanes, (addr k).toNat = (addr l).toNat → k = l) : sendFaults w lanes addr = [] := by
  refine List.filterMap_eq_nil_iff.mpr fun l hl => ?_
  have ht : (lanes.any fun k => k < l && addr k = addr l) = false := by
    refine List.any_eq_false.mpr fun k hk => ?_
    simp only [Bool.and_eq_true, decide_eq_true_eq, not_and]
    exact fun hlt he => hlt.ne (hi l hl k hk (congrArg BitVec.toNat he))
  simp only [hn l hl, ht, Bool.false_eq_true, if_false]

/-- The lanes that fail with SUB 2 are those whose address no RECALLOC of the wave returned. -/
theorem sendFaults_unknown (w : Wave) (lanes : List Nat) (addr : Nat → BitVec 64) : ((sendFaults w lanes addr).filter fun x => x.2 = 2) =
    (lanes.filter fun l => w.sendFault (addr l).toNat == some 2).map fun l => (l, 2) := by
  rw [sendFaults, List.filter_filterMap, ← List.filterMap_eq_map, List.filterMap_filter]
  refine List.filterMap_congr fun l _ => ?_
  cases hf : w.sendFault (addr l).toNat with
  | none => dsimp only; split <;> rfl
  | some k => by_cases hk : k = 2 <;> simp [hk]

/-- What RECSEND does where these lanes' addresses cannot be sent: they trap, or with none it waits or sends (R264, R381). -/
noncomputable def sendOrTrap (s : State) (c : Issue) (g : Graph) (o : Opnd) (bad : List (Nat × Nat)) : State :=
  let sub := if bad.any fun x => x.2 = 2 then 2 else 3
  match bad.filter fun x => x.2 = sub with
  | (l, _) :: r => s.takeTrap c.wave (c.trap 0x13 sub (c.wave.readV2 o.a.toNat l) (laneSet (l :: r.map fun x => x.1)))
  | [] =>
    if !c.wave.sup && s.mustWait c.wave.ref true true then s.putWave (c.wave.park c.gang .held)
    else
      let (s, w) := s.sendRecords g c.wave ((LaneMask.lanes (c.active o.ext)).map fun l => (c.wave.readV2 o.a.toNat l).toNat)
      s.retire c (.recsend o) w

/-- RECSEND in a wave of a graph. -/
theorem exec_recsend (hg : s.graphNode c.crew = some (g, own)) (h : Ready s c (.recsend o)) : exec (.recsend o) s =
    .next (sendOrTrap s c g o (sendFaults c.wave (LaneMask.lanes (c.active o.ext)) (c.wave.readV2 o.a.toNat))) := by
  refine (issue_of_ready h (needsMet_record hg Bool.noConfusion)).trans ?_
  simp only [hg]
  rfl

/-- Where no lane fails and nothing is held, the records are sent. -/
theorem sendOrTrap_nil (hh : s.heldOf c.wave.ref = []) : sendOrTrap s c g o [] =
    let r := s.sendRecords g c.wave ((LaneMask.lanes (c.active o.ext)).map fun l => (c.wave.readV2 o.a.toNat l).toNat)
    r.1.retire c (.recsend o) r.2 := by
  simp only [sendOrTrap, mustWait_of_none_held hh, Bool.and_false, Bool.false_eq_true, if_false]
  rfl

/-- Where some lane fails with SUB 2, those lanes trap. -/
theorem sendOrTrap_unknown {bad : List (Nat × Nat)} {l : Nat} {rest : List Nat}
    (hb : (bad.filter fun x => x.2 = 2) = (l :: rest).map fun l => (l, 2)) :
    sendOrTrap s c g o bad = s.takeTrap c.wave (c.trap 0x13 2 (c.wave.readV2 o.a.toNat l) (laneSet (l :: rest))) := by
  have hl : (l, 2) ∈ bad := (List.mem_filter.mp (hb.symm ▸ List.mem_cons_self : (l, 2) ∈ bad.filter fun x => x.2 = 2)).1
  have h2 : (bad.any fun x => x.2 = 2) = true := List.any_eq_true.mpr ⟨_, hl, rfl⟩
  simp only [sendOrTrap, h2, if_true, hb, List.map_cons, List.map_map, Function.comp_def, List.map_id']

end

/-- Settles O47: RECALLOC traps on its node, or serves its lanes, all at once where each finds a slot; RECSEND traps on the lanes that
name no slot of the wave, and sends where no lane fails. -/
theorem recordsOfWorkGraphs : Obligations.RecordsOfWorkGraphs := by
  intro o s c g own hg n lanes
  refine ⟨fun h hs ha => ?_, fun h hs ha => ?_, fun h hh => ?_⟩
  · have hx := exec_recalloc (n := n) rfl hg h hs
    rw [if_neg ha] at hx
    refine ⟨fun hn => ?_, fun h0 hlt hown => ?_⟩
    · rw [hx, if_pos (by simpa [or_assoc] using hn)]
    · rw [if_neg (by simpa [n] using ⟨⟨h0, hlt⟩, hown⟩)] at hx
      refine ⟨fun got g' ht hgot hlen => ?_, hx⟩
      obtain ⟨x, hox⟩ := ext_of_imm_ne_zero h0
      rw [hx]
      exact congrArg _ (serveRecords_all (s := { s with stamp := s.stamp + 1 }) (issuerParts h.issuer).crew (instrSize_recalloc hox) ht hgot hlen)
  · rw [exec_recalloc rfl hg h hs, if_pos ha]
  · refine ⟨fun hn hi => ?_, fun l rest hl => ?_⟩
    · rw [exec_recsend hg h, sendFaults_nil hn hi, sendOrTrap_nil hh]
    · rw [exec_recsend hg h, sendOrTrap_unknown ((sendFaults_unknown ..).trans (congrArg _ hl))]

end Sys2Proof.Laws
end

section
/-! SUPPORT. BIN, TILEINFO and TDONE (R255, R262, R263, R271, R279, R362). -/

namespace Sys2Proof.Laws

open Sys2Proof.Machine Sys2Proof.Safety

/-- An instruction that asks nothing of its mode and place has its needs met. -/
theorem needsMet_nothing (w : Wave) : NeedsMet {} w := ⟨nofun, nofun, rfl, rfl, rfl, rfl⟩

/-! ## BIN (R262, R271) -/

/-- What a lane submits: its primitive number, its triangle and the address in B (R262). -/
def submission (w : Wave) (o : Opnd) (l : Nat) : Submission :=
  { prim := w.globalLane l, xyzq := (List.range 12).map fun k => (w.readV (o.a.toNat + k)).at_ l,
    attr := w.readV2 o.b.toNat l, wave := w.ref, lane := l }

/-- A triangle that is culled touches no tile (R271). -/
def culls (r : RenderPass) (x : Submission) : Bool :=
  match r.resolve x.xyzq with
  | some t => (r.touched t).isEmpty
  | none => true

/-- The lanes of a wave whose triangles are not culled. -/
def kept (r : RenderPass) (w : Wave) (o : Opnd) (lanes : List Nat) : List Nat := lanes.filter fun l => !culls r (submission w o l)

/-- A pass after a submission of lanes of a wave: those that are kept, each primitive once, and those that are culled. -/
def submitted (r : RenderPass) (w : Wave) (o : Opnd) (lanes : List Nat) : RenderPass :=
  { r with
    subs := r.subs ++ (((kept r w o lanes).map (submission w o)).filter fun x => r.subs.all fun y => y.prim != x.prim)
    gone := r.gone ++ ((lanes.filter fun l => culls r (submission w o l)).map fun l => w.globalLane l) }

/-- The wave then: its culled lanes are binned. -/
def binnedWave (r : RenderPass) (w : Wave) (o : Opnd) (lanes : List Nat) : Wave :=
  { w with binned := w.binned ||| laneSet (lanes.filter fun l => culls r (submission w o l)) }

/-- The lanes of a BIN: at its first issue the active ones, then those whose commits it waits for. -/
def binLanes (c : Issue) (o : Opnd) : LaneMask :=
  match c.gang.wait with
  | .bin left => left
  | _ => c.active o.ext

/-- BIN of lanes: the gang goes on where all are culled, and otherwise waits for the commits of those that are kept. -/
noncomputable def afterBin (s : State) (c : Issue) (o : Opnd) (r : RenderPass) (lanes : List Nat) : State :=
  if (kept r c.wave o lanes).isEmpty then (s.putPass (submitted r c.wave o lanes)).retire c (.bin o) (binnedWave r c.wave o lanes)
  else (s.putPass (submitted r c.wave o lanes)).putWave ((binnedWave r c.wave o lanes).park c.gang (.bin (laneSet (kept r c.wave o lanes))))

section
variable {o : Opnd} {s : State} {c : Issue} {r : RenderPass}

/-- None is kept where every triangle is culled. -/
theorem isEmpty_kept {w : Wave} {lanes : List Nat} : (kept r w o lanes).isEmpty = true ↔ ∀ l ∈ lanes, culls r (submission w o l) = true := by
  simp only [kept, List.isEmpty_iff, List.filter_eq_nil_iff, Bool.not_eq_true', Bool.not_eq_false]

/-- Submitting no lane changes neither the pass nor the wave. -/
theorem submitted_nil (r : RenderPass) (w : Wave) (o : Opnd) : submitted r w o [] = r := by
  simp only [submitted, kept, List.filter_nil, List.map_nil, List.append_nil]

theorem binnedWave_nil (r : RenderPass) (w : Wave) (o : Opnd) : binnedWave r w o [] = w := by
  have h : w.binned ||| laneSet [] = w.binned := BitVec.or_zero
  simp only [binnedWave, List.filter_nil, h]

/-- A BIN that has no lane left goes on. -/
theorem afterBin_nil : afterBin s c o r [] = (s.putPass r).retire c (.bin o) c.wave := by
  rw [afterBin, if_pos (isEmpty_kept.mpr (List.forall_mem_nil _)), submitted_nil, binnedWave_nil]

/-- The triangles that are kept are those that are not culled. -/
theorem not_culls (r : RenderPass) (x : Submission) :
    (match r.resolve x.xyzq with | some t => !(r.touched t).isEmpty | none => false) = !culls r x := by
  unfold culls
  cases r.resolve x.xyzq <;> rfl

/-- BIN in a geometry block, where none of its lanes submits twice and no access of the wave is held. -/
theorem exec_bin (h : Ready s c (.bin o)) (hn : NeedsMet (binNeeds o c) c.wave) (hr : s.passOf c.crew = some r) (hh : s.heldOf c.wave.ref = []) :
    exec (.bin o) s = .next (afterBin s c o r (LaneMask.lanes (binLanes c o))) := by
  refine (issue_of_ready h hn).trans (congrArg _ ?_)
  simp only [hr, hh, List.isEmpty_nil, Bool.not_true, Bool.and_false, Bool.false_eq_true, if_false, List.filter_map, List.map_map, Function.comp_def,
    List.isEmpty_map, afterBin, kept, ← not_culls, submitted, binnedWave, List.map_id']
  rfl

/-- At its first issue a BIN takes its active lanes. -/
theorem binLanes_first (hw : ∀ m, c.gang.wait ≠ .bin m) : binLanes c o = c.active o.ext := by
  unfold binLanes
  split
  next m hg => exact absurd hg (hw m)
  next => rfl

/-- A BIN that is not being waited for has its needs met in a geometry block, outside the handler, where no active lane has submitted (R362). -/
theorem needsMet_bin (hs : c.wave.sup = false) (hk : c.crew.kind = .geometry) (hw : ∀ m, c.gang.wait ≠ .bin m)
    (ha : c.active o.ext &&& c.wave.binned = 0) : NeedsMet (binNeeds o c) c.wave := by
  have hn : binNeeds o c = { notInHandler := true } := by
    simp only [binNeeds, hk, ha]
    rfl
  rw [hn]
  exact needsMet_notInHandler fun _ => hs

/-- One that goes on needs nothing more. -/
theorem needsMet_bin_again {m : LaneMask} (hk : c.crew.kind = .geometry) (hw : c.gang.wait = .bin m) : NeedsMet (binNeeds o c) c.wave := by
  simp only [binNeeds, hk, hw]
  exact needsMet_nothing c.wave

/-! ## TILEINFO and TDONE (R263, R279) -/

/-- The wave of a tile pass is of a tile's crew. -/
theorem kind_of_tilePass {crew : Crew} {t : TilePass} (h : s.tilePass crew = some (r, t)) : crew.kind = .tile t := by
  unfold State.tilePass at h
  split at h
  next hk _ =>
    cases h
    exact hk
  next => cases h

/-- TILEINFO in a tile pass gives the selected word. -/
theorem exec_tileinfo {t : TilePass} (h : Ready s c (.tileinfo o)) (ht : s.tilePass c.crew = some (r, t)) :
    exec (.tileinfo o) s = .next (s.retire c (.tileinfo o) (c.wave.writeG c.gang.slices o.d.toNat (tileInfo r t (o.ext.imm.toNat % 16)))) := by
  refine (issue_of_ready h ⟨Bool.noConfusion, Bool.noConfusion, rfl, rfl, ?_, rfl⟩).trans ?_
  · simp only [kind_of_tilePass ht]
  · simp only [ht]

/-- An engine command of the block, or an access of the wave, is outstanding. -/
def tileBusy (s : State) (c : Issue) : Bool :=
  (s.blocks.any fun b => b.crew == c.crew.id && !b.commands.isEmpty) || !(s.heldOf c.wave.ref).isEmpty

/-- TDONE in the resolve step of a tile that is no flush and has not retired. -/
theorem exec_tdone {t : TilePass} (h : Ready s c (.tdone o)) (hk : c.crew.kind = .tile t) (hf : t.flush = false) (hst : t.step = .resolve)
    (hr : t.retired = false) : exec (.tdone o) s = .next (
      if tileBusy s c then s.putWave (c.wave.park c.gang .tdone) else (s.retire c (.tdone o) c.wave).retireTile c.crew) := by
  have hn : tdoneNeeds c = {} := by
    simp only [tdoneNeeds, hk, hf, hst, hr]
    rfl
  exact issue_of_ready h (hn ▸ needsMet_nothing c.wave)

/-- Nothing is outstanding where no block of the crew has a command and no access is held. -/
theorem tileBusy_eq_true : tileBusy s c = true ↔ (∃ b ∈ s.blocks, b.crew = c.crew.id ∧ b.commands ≠ []) ∨ s.heldOf c.wave.ref ≠ [] := by
  simp [tileBusy]

end

/-- Settles O46: BIN submits its lanes and goes on where all of them are culled; TILEINFO reads; TDONE waits for what is outstanding. -/
theorem binningAndTileRetirement : Obligations.BinningAndTileRetirement := by
  refine ⟨fun o s c r h hs hk hw ha hr hh => ?_, fun o s c r h hk hr hh hw => ?_,
    fun o s c r t ht => ⟨fun h => exec_tileinfo h ht, fun h hf hst hret => ?_⟩⟩
  · have hx := exec_bin h (needsMet_bin hs hk hw ha) hr hh
    rw [binLanes_first hw] at hx
    refine ⟨fun hall => hx.trans (congrArg _ (if_pos ?_)), fun hex => hx.trans (congrArg _ (if_neg ?_))⟩
    · exact isEmpty_kept.mpr hall
    · obtain ⟨l, hl, hc⟩ := hex
      exact fun hnil => Bool.false_ne_true (hc.symm.trans (isEmpty_kept.mp hnil l hl))
  · have hl : LaneMask.lanes (binLanes c o) = [] := by
      rw [show binLanes c o = 0 by rw [binLanes, hw]]
      rfl
    rw [exec_bin h (needsMet_bin_again hk hw) hr hh, hl, afterBin_nil]
  · have hx := exec_tdone h (kind_of_tilePass ht) hf hst hret
    refine ⟨fun hb hh => hx.trans (congrArg _ (if_neg fun hbusy => ?_)), fun hbusy => hx.trans (congrArg _ (if_pos (tileBusy_eq_true.mpr hbusy)))⟩
    obtain ⟨b, hm, hc, hne⟩ | hne := tileBusy_eq_true.mp hbusy
    · exact hne (hb b hm hc)
    · exact hne hh

end Sys2Proof.Laws
end

section
/-! SUPPORT. PIXINFO, IPA, SAMPLE, SAMPLEL and BLEND (R255 to R261, R267, R268, R363). -/

namespace Sys2Proof.Laws

open Sys2Proof.Machine Sys2Proof.Safety

section
variable {o : Opnd} {s : State} {c : Issue} {r : RenderPass} {t : TilePass} {b : Block} {i : Instr}

/-! ## PIXINFO and IPA (R256, R257) -/

/-- The wave of a tile pass whose tile has not retired may use its pixels (R255, R362). -/
theorem needsMet_pixel (ht : s.tilePass c.crew = some (r, t)) (hr : t.retired = false) : NeedsMet (pixelNeeds c) c.wave := by
  have hn : pixelNeeds c = {} := by
    simp only [pixelNeeds, kind_of_tilePass ht, hr]
    rfl
  exact hn ▸ needsMet_nothing c.wave

/-- The lanes whose record has a pixel (R256). -/
theorem getLsbD_withPixel {w : Wave} {m : LaneMask} {l : Nat} (hl : l < 96) :
    (withPixel r w m).getLsbD l = true ↔ m.getLsbD l = true ∧ 96 * w.ref.wave + l < r.edge * r.edge := by
  simp only [withPixel, getLsbD_laneSet, hl, decide_true, Bool.true_and, decide_eq_true_eq, List.mem_filter, mem_lanes]

/-- A value is written in each active lane whose record has a pixel. -/
theorem perPixel_eq {f : Wave → RenderPass → TilePass → Block → Nat → Nat → Word} (h : Ready s c i) (ht : s.tilePass c.crew = some (r, t))
    (hr : t.retired = false) (hb : s.block? c.crew.id c.wave.ref.rank = some b) : perPixel i o f s =
      .next (s.retire c i (c.wave.writeV o.d.toNat (withPixel r c.wave (c.active o.ext)) fun l => f c.wave r t b (96 * c.wave.ref.wave + l) l)) := by
  refine (issue_of_ready h (needsMet_pixel ht hr)).trans ?_
  simp only [ht, hb]

/-- Each form gives its value for each pixel. -/
theorem exec_pixelForms : ∀ p ∈ pixelForms, ∀ o s, exec (p.1 o) s = perPixel (p.1 o) o (p.2 o) s := by
  simp only [pixelForms, List.forall_mem_cons, List.not_mem_nil, false_implies, implies_true, and_true]
  and_intros <;> exact fun _ _ => rfl

/-! ## SAMPLE and SAMPLEL (R258 to R260) -/

/-- SAMPLE and SAMPLEL differ in the level of detail alone (R259). -/
theorem exec_sampleForms : ∀ p ∈ sampleForms, ∀ o s, exec (p.1 o) s = sampling (p.1 o) o (p.2 o) s := by
  simp only [sampleForms, List.forall_mem_cons, List.not_mem_nil, false_implies, implies_true, and_true]
  and_intros <;> exact fun _ _ => rfl

section
variable {lam : Wave → Texture → Nat → Word} (h : Ready s c i) (hw : c.gang.within = false)
include h hw

/-- The first issue of a sampling instruction, up to the read of its descriptor (R258, R363). -/
theorem sampling_first : sampling i o lam s = .next (
    let da := c.wave.readG2 o.b.toNat
    if c.active o.ext = 0 then
      ({ s with stamp := s.stamp + 1 } : State).retire c i (c.wave.produceSample s.stamp o 0 0 (fun _ => []) [])
    else if da.toNat % 32 != 0 then s.takeTrap c.wave (c.trap 0x05 0 da (c.active o.ext))
    else match s.reachDesc c.wave c.crew da 32 0 with
    | (.error f, _) => s.takeTrap c.wave (c.trap f.cause f.sub da (c.active o.ext))
    | (.ok ps, s0) =>
      if (!c.wave.sup && (s.mustWait c.wave.ref false false || s.samePageHeld c.wave.ref [(0, ps)])) || s.piecesHeld c.crew.id [(0, ps)] then
        s.putWave (c.wave.park c.gang .held)
      else match s0.readDesc c.wave c.crew da ps with
      | (.missing p sub, s1) => s1.holdDesc c 0 da (c.active o.ext) (inStack c.wave.segs da) p sub
      | (.got got, s1) => s1.startSample c i o lam got) := by
  refine (issue_plain h).trans (congrArg _ ?_)
  dsimp only
  split
  next hg => simp [Gang.within, hg] at hw
  next hg => simp [Gang.within, hg] at hw
  next => rfl

/-- With no active lane nothing is written. -/
theorem sampling_none (ha : c.active o.ext = 0) : sampling i o lam s = .next ({ s with stamp := s.stamp + 1 }.retire c i (c.wave.produce
    { id := s.stamp, file := false, reg := o.d.toNat, lanes := 0, data := List.replicate 4 (Lanes.build fun _ => 0), pending := 0 })) := by
  rw [sampling_first h hw]
  exact congrArg _ (if_pos ha)

/-- A descriptor that is not aligned traps (R363). -/
theorem sampling_misaligned (hd : (c.wave.readG2 o.b.toNat).toNat % 32 ≠ 0) (ha : c.active o.ext ≠ 0) :
    sampling i o lam s = .next (s.takeTrap c.wave (c.trap 0x05 0 (c.wave.readG2 o.b.toNat) (c.active o.ext))) := by
  rw [sampling_first h hw]
  exact congrArg _ ((if_neg ha).trans (if_pos (bne_iff_ne.mpr hd)))

/-- A descriptor that passes its checks is read, and its reserved values trap (R258, R363). -/
theorem sampling_read {d : Nat} {ps : List Piece} {s0 s1 : State} (ha : c.active o.ext ≠ 0) (hd : (c.wave.readG2 o.b.toNat).toNat % 32 = 0)
    (hr : s.reachDesc c.wave c.crew (c.wave.readG2 o.b.toNat) 32 0 = (.ok ps, s0)) (hh : s.heldOf c.wave.ref = [])
    (hp : s.piecesHeld c.crew.id [(0, ps)] = false)
    (hg : s0.readDesc c.wave c.crew (c.wave.readG2 o.b.toNat) ps = (.got (.bits (c.wave.readG2 o.b.toNat) d), s1)) :
    sampling i o lam s = .next (if textureBad d then s1.takeTrap c.wave (c.trap 0x0B 6 (c.wave.readG2 o.b.toNat) (c.active o.ext))
      else s1.sampleLanes c i o (.bits (c.wave.readG2 o.b.toNat) d) d (lam c.wave)) := by
  rw [sampling_first h hw]
  simp only [ha, hd, hr, hp, hg, mustWait_of_none_held hh, samePageHeld_of_none_held hh, bne_self_eq_false, Bool.or_self, Bool.and_false,
    Bool.false_eq_true, if_false, State.startSample]

end

/-- A set that has a lane is not empty. -/
theorem ne_zero_of_lanes {m : LaneMask} {l : Nat} (h : LaneMask.lanes m = [l]) : m ≠ 0 := by
  rintro rfl
  exact List.cons_ne_nil l [] h.symm

/-- The landing of a sampling instruction of which one lane is active: its words, in D to D+3. -/
def oneSample (id : Nat) (o : Opnd) (m : LaneMask) (l : Nat) (ws : List Word) : Landing :=
  { id := id, file := false, reg := o.d.toNat, lanes := m, pending := 0
    data := (List.range 4).map fun k => Lanes.build fun j => if j = l then ws.getD k 0 else 0 }

/-- The producer whose words are those of one lane, and none in the others. -/
theorem produceSample_one {w : Wave} {id l : Nat} {m : LaneMask} {f : Nat → List Word} {ws : List Word} (hl : f l = ws)
    (hn : ∀ j, j ≠ l → f j = []) : w.produceSample id o m 0 f [] = w.produce (oneSample id o m l ws) := by
  have hd (k : Nat) : (fun j => (f j).getD k 0) = fun j => if j = l then ws.getD k 0 else 0 := by
    funext j
    by_cases hj : j = l
    · rw [if_pos hj, hj, hl]
    · rw [if_neg hj, hn j hj, List.getD_nil]
  simp only [Wave.produceSample, hd, oneSample]

/-- One active lane whose texels are all found and read: its registers receive the filtered channels when they land (R258 to R260). -/
theorem sampleLanes_one {s1 s2 s3 : State} {d l : Nat} {got : Got} {lam : Texture → Nat → Word} {qs : List Piece}
    {units : List (Nat × List Byte)} {ts : List (BitVec 64 × Nat)} {w4 : Wave} (hl : LaneMask.lanes (c.active o.ext) = [l])
    (hts : sampleTexels (textureOf d) ((c.wave.readV o.a.toNat).at_ l) ((c.wave.readV (o.a.toNat + 1)).at_ l) (lam (textureOf d) l) = ts)
    (hr : s1.reachTexels c.wave c.crew (textureOf d) l (ts.map fun x => x.1) = (qs, [], s2))
    (hh : s1.heldOf c.wave.ref = []) (hp : s1.piecesHeld c.crew.id [(l, qs)] = false)
    (hx : { s2 with stamp := s2.stamp + 1 }.readTexels c.wave c.crew l qs = ({ units := units, missing := [], poison := none }, s3))
    (hw : (s3.retire c i ((s3.nowWave c).produce (oneSample s2.stamp o (c.active o.ext) l (sampledWords (textureOf d) ts units)))).wave?
      c.wave.ref = some w4) : s1.sampleLanes c i o got d lam =
    (s3.retire c i ((s3.nowWave c).produce (oneSample s2.stamp o (c.active o.ext) l (sampledWords (textureOf d) ts units)))).putWave w4.settle := by
  have hnone : laneSet [] = 0 := rfl
  unfold State.sampleLanes
  simp only [hl, List.foldl_cons, List.foldl_nil, hts, hr, List.map_nil, List.append_nil, List.nil_append, List.isEmpty_nil, Bool.not_true,
    Bool.false_eq_true, if_false, hp, samePageHeld_of_none_held hh, Bool.and_false, Bool.or_self, State.takeStamp, hx, List.filter_cons,
    List.filter_nil, Option.map_none, List.filterMap_cons, List.filterMap_nil, List.flatMap_nil, hnone]
  rw [produceSample_one (l := l) (ws := sampledWords (textureOf d) ts units), hw]
  · simp only [List.find?_cons, beq_self_eq_true, Option.isNone_none, List.isEmpty_nil, Bool.and_self, if_true, hts]
  · intro j hj
    have hlj : (l == j) = false := beq_eq_false_iff_ne.mpr hj.symm
    simp only [List.find?_cons, hlj, List.find?_nil]

/-! ## BLEND (R261) -/

theorem length_blendBytes (op : Nat) (src : BitVec 64) (old : List Byte) : (blendBytes op src old).length = 8 := by
  simp [blendBytes, List.length_flatMap, length_leBytes]

/-- What BLEND needs of the 8 bytes that it changes (R261). -/
abbrev blendForm : AccessForm := { size := 8, align := 8, need := { r := true, w := true }, write := true, kind := 2 }

/-- A strong read-modify-write of one sound piece of tile memory, by a function of its bytes. -/
theorem rmwPiece_tileAtomic {w : Wave} {crew : Crew} {f : AccessForm} {a : BitVec 64} {p : Nat × Nat} {k : Nat}
    {g : List Byte → Option (List Byte)} (hs : NoStrongInTiles s) (hb : s.block? crew.id p.1 = some b) (hp : b.tilePoison.contains (p.2 / 16 * 16) = false)
    (hg : ∀ bs new, g bs = some new → new.length = f.size) :
    s.rmwPiece w crew (some k) false (tilePiece f a p) ownBytes g = (.old (tileBytes s crew.id p f.size), tileAtomic s crew.id p f.size g) := by
  have ho : tileBytes s crew.id p f.size = b.bytes p.2 f.size := by rw [tileBytes, hb]
  rw [rmwPiece_strong_tile hs (fun _ _ => rfl) hb hp hg, ho]
  refine congrArg _ ?_
  simp only [tileAtomic, ho]

/-- BLEND of one active lane whose address is sound tile memory (R261). -/
theorem exec_blend_one {l core off : Nat} {p : Nat × Nat} (h : Ready s c (.blend o)) (ht : s.tilePass c.crew = some (r, t)) (hr : t.retired = false)
    (hl : LaneMask.lanes (c.active o.ext) = [l]) (hs : NoStrongInTiles s) (hh : s.heldOf c.wave.ref = [])
    (hst : steer c.wave.segs (c.wave.readV2 o.b.toNat l) = .tile core off)
    (hreach : s.reachLane c.wave c.crew blendForm l (c.wave.readV2 o.b.toNat l) = (.ok [tilePiece blendForm (c.wave.readV2 o.b.toNat l) p], s))
    (hb : s.block? c.crew.id p.1 = some b) (hp : b.tilePoison.contains (p.2 / 16 * 16) = false) :
    exec (.blend o) s = .next ((tileAtomic s c.crew.id p 8 fun old =>
      some (blendBytes o.ext.mod.toNat (c.wave.readV2 o.a.toNat l) old)).retire c (.blend o) c.wave) := by
  have hrl : s.reachLanes c.wave c.crew blendForm (c.wave.readV2 o.b.toNat) [l] =
      ([(l, [tilePiece blendForm (c.wave.readV2 o.b.toNat l) p])], [], s) :=
    reachLanes_tile (place := fun _ => p) fun k hk => by rw [List.mem_singleton.mp hk]; exact hreach
  have hrmw := rmwPiece_tileAtomic (w := c.wave) (crew := c.crew) (f := blendForm) (a := c.wave.readV2 o.b.toNat l) (k := 0)
    (g := fun bs => some (blendBytes o.ext.mod.toNat (c.wave.readV2 o.a.toNat l) bs)) hs hb hp fun bs new hn => by
      cases hn
      exact length_blendBytes ..
  refine (issue_of_ready h (needsMet_pixel ht hr)).trans (congrArg _ ?_)
  simp only [hl, List.filter_cons, List.filter_nil, hst, if_true, Bool.not_true, Bool.false_eq_true, if_false, List.map_nil, hrl, List.append_nil,
    List.filterMap_cons, List.filterMap_nil, List.find?_nil, List.isEmpty_nil, mustWait_of_none_held hh, Bool.and_false, List.foldl_cons,
    List.foldl_nil, hrmw]
  exact (raiseLanes_nil _ _ _ _ _ _ _).trans ((raiseLanes_nil _ _ _ _ _ _ _).trans (raiseLanes_nil _ _ _ _ _ _ _))

end

/-- Settles O45: each form is written lane by lane; a descriptor is checked, then read, then the texels; BLEND replaces the colour. -/
theorem pixelInstructions : Obligations.PixelInstructions := by
  refine ⟨fun p hp o s c r t b h ht hr hb => ?_, fun p hp o s c h hw => ?_,
    fun o s c r t l core off rank place b h ht hr hl hs hh hst hreach hb hpo => ?_⟩
  · exact ⟨_, (exec_pixelForms p hp o s).trans (perPixel_eq h ht hr hb), fun l => getLsbD_withPixel⟩
  · rw [exec_sampleForms p hp o s]
    refine ⟨?_, sampling_misaligned h hw, fun d ps s0 s1 ha hd hr hh hpc hg => sampling_read h hw ha hd hr hh hpc hg, sampling_none h hw⟩
    intro l d ps qs units s0 s1 s2 s3 w4 hl hd hr hh hpc hg hbad t ts hreach hh1 hp1 hx s4 hw4
    rw [sampling_read h hw (ne_zero_of_lanes hl) hd hr hh hpc hg, hbad, if_neg Bool.false_ne_true]
    exact congrArg _ (sampleLanes_one hl rfl hreach hh1 hp1 hx hw4)
  · exact exec_blend_one (p := (rank, place)) h ht hr hl hs hh hst hreach hb hpo

end Sys2Proof.Laws
end

section
/-! SUPPORT. Packets (R265, R286, R288 to R291, R296, R300, R384): what moves a queue on, what settles it, and what a TAKE
event comes to once the packet at RD is known. -/

namespace Sys2Proof.Laws

open Sys2Proof.Machine Sys2Proof.Safety

/-! ## Queues -/

/-- A queue found by number carries that number. -/
theorem queue_num (s : State) (q : Nat) : (s.queue q).num = q := by
  unfold State.queue
  cases h : s.queues.find? fun x => x.num == q with
  | none => rfl
  | some x => simpa using List.find?_some h

/-- The queue that has been put is found. -/
theorem queue_putQueue (s : State) (x : Queue) : (s.putQueue x).queue x.num = x := by
  unfold State.putQueue
  split
  next h =>
    have hsome : (s.queues.find? fun y => y.num == x.num).isSome = true := List.find?_isSome.mpr (List.any_eq_true.mp h)
    obtain ⟨y, hy⟩ := Option.isSome_iff_exists.mp hsome
    have hput : (updWhere (fun y : Queue => y.num == x.num) (fun _ => x) s.queues).find? (fun y => y.num == x.num) = some x := by
      have hyx : (y.num == x.num) = true := by simpa using List.find?_some hy
      have hk : (fun y : Queue => y.num == x.num) ∘ (fun y => if y.num == x.num then x else y) = fun y => y.num == x.num := by
        funext z
        rw [Function.comp_apply]
        split
        next hz => rw [hz, beq_self_eq_true]
        next => rfl
      rw [updWhere, List.find?_map, hk, hy, Option.map_some, if_pos hyx]
    simp only [State.queue, hput, Option.getD_some]
  next h =>
    have hnone : s.queues.find? (fun y => y.num == x.num) = none := by
      rw [List.find?_eq_none]
      exact fun y hy hyx => h (List.any_eq_true.mpr ⟨y, hy, hyx⟩)
    simp only [State.queue, List.find?_append, hnone, List.find?_cons, beq_self_eq_true, Option.none_or, Option.getD_some]

/-- A change of queues that leaves their numbers changes the queue that is found. -/
theorem queue_map {s t : State} {f : Queue → Queue} {q : Nat} (ht : t.queues = s.queues.map f) (hn : ∀ x, (f x).num = x.num)
    (hi : f (Queue.initial q) = Queue.initial q) : t.queue q = f (s.queue q) := by
  have hk : (fun x : Queue => x.num == q) ∘ f = fun x => x.num == q := by
    funext x
    rw [Function.comp_apply, hn]
  rw [State.queue, State.queue, ht, List.find?_map, hk]
  cases s.queues.find? fun x => x.num == q with
  | none => exact hi.symm
  | some x => rfl

/-- An event ends no more than the wait of a WAITEVENT: every queue keeps its RD, and what else stops it. -/
theorem queue_setEvent (s : State) (p e : Nat) (v : BitVec 64) (q : Nat) :
    ((s.setEvent p e v).queue q).rd = (s.queue q).rd ∧ ((s.setEvent p e v).queue q).blocked = (s.queue q).blocked := by
  rw [queue_map (s := s) (t := s.setEvent p e v) rfl (fun x => ?_) rfl]
  · split
    · split <;> exact ⟨rfl, rfl⟩
    · exact ⟨rfl, rfl⟩
  · split
    · split <;> rfl
    · rfl

/-! ## Taken packets that wait, and the end of work -/

/-- t has the works, graphs and passes of s. -/
structure SameWork (s t : State) : Prop where
  works : t.works = s.works
  graphs : t.graphs = s.graphs
  passes : t.passes = s.passes

theorem SameWork.refl (s : State) : SameWork s s := ⟨rfl, rfl, rfl⟩

theorem SameWork.trans {s t u : State} (h : SameWork s t) (k : SameWork t u) : SameWork s u :=
  ⟨k.works.trans h.works, k.graphs.trans h.graphs, k.passes.trans h.passes⟩

theorem sameWork_putQueue (s : State) (x : Queue) : SameWork s (s.putQueue x) := by
  unfold State.putQueue
  split <;> exact ⟨rfl, rfl, rfl⟩

theorem sameWork_settleQueue (s : State) (q : Nat) : SameWork s (s.settleQueue q) := by
  unfold State.settleQueue
  extract_lets x t
  have ht : SameWork s t := sameWork_putQueue s _
  split
  · exact .refl s
  · split
    · exact .refl s
    · split
      · exact ht.trans ⟨rfl, rfl, rfl⟩
      · exact ht

theorem sameWork_idleRunning (s : State) (p : Nat) : SameWork s (s.idleRunning p) := by
  unfold State.idleRunning
  extract_lets x enabled
  split
  · exact ⟨rfl, rfl, rfl⟩
  · split
    · exact ⟨rfl, rfl, rfl⟩
    · exact .refl s

/-- What waits in a queue stops it no more once no taken packet of it is left (R290). -/
theorem queue_settleQueue (s : State) (q : Nat) : ((s.settleQueue q).queue q).rd = (s.queue q).rd ∧
    ((s.settleQueue q).queue q).blocked = if s.outstanding q = 0 then none else (s.queue q).blocked := by
  unfold State.settleQueue
  generalize hx : s.queue q = x
  have hnum : x.num = q := hx ▸ queue_num s q
  have hput : (s.putQueue { x with blocked := none }).queue q = { x with blocked := none } := by
    rw [← hnum]
    exact queue_putQueue s { x with blocked := none }
  cases hb : x.blocked with
  | none => simp only [hx, hb, ite_self, and_self]
  | some act =>
    by_cases ho : s.outstanding q = 0
    · simp only [hb, ho, bne_self_eq_false, Bool.false_eq_true, if_false, if_true]
      cases act with
      | none => simp only [hput, and_self]
      | some y =>
        obtain ⟨hrd, hbl⟩ := queue_setEvent (s.putQueue { x with blocked := none }) x.part y.1
          ((s.putQueue { x with blocked := none }).eventCount x.part y.1 + BitVec.ofNat 64 y.2) q
        rw [hput] at hrd hbl
        exact ⟨hrd, hbl⟩
    · simp only [hb, hx, ho, bne_iff_ne, ne_eq, not_false_eq_true, if_true, if_false, and_self]

/-- The state without a work, its graph and its pass. -/
def withoutWork (s : State) (seq : Nat) : State :=
  { s with
    works := s.works.filter fun x => x.seq != seq
    graphs := s.graphs.filter fun g => g.seq != seq
    passes := s.passes.filter fun r => r.seq != seq }

/-- The counter that a work signals has its signal. -/
def signalled (s : State) (w : Work) : State := if w.sig then s.addEvent w.part w.sigev 1 else s

theorem sameWork_signalled (s : State) (w : Work) : SameWork s (signalled s w) := by
  unfold signalled
  split
  · exact ⟨rfl, rfl, rfl⟩
  · exact .refl s

theorem endsWork_signalled (s : State) (w : Work) : EndsWork s (signalled s w) := by
  unfold signalled
  split
  · exact endsWork_setEvent ..
  · exact .refl s

/-- Work of which something is left stays; with nothing left it goes, with its graph and pass (R290, R300). -/
theorem exec_workCompletion {seq : Nat} {s : State} {w : Work} (h : s.work? seq = some w) :
    (s.workDone w = false → exec (.workCompletion seq) s = .next s) ∧
    (s.workDone w = true → ∃ t, exec (.workCompletion seq) s = .next t ∧ t.works = s.works.filter (fun x => x.seq != seq) ∧
      t.graphs = s.graphs.filter (fun g => g.seq != seq) ∧ t.passes = s.passes.filter (fun r => r.seq != seq) ∧ SameMemory s t) := by
  have hexec : exec (.workCompletion seq) s = .next
      (if s.workDone w then ((signalled (withoutWork s seq) w).settleQueue w.queue).idleRunning w.part else s) := by
    change execWorkCompletion seq s = _
    simp only [execWorkCompletion, h]
    cases s.workDone w <;> rfl
  rw [hexec]
  refine ⟨fun hd => by rw [hd]; rfl, fun hd => ⟨_, rfl, ?_⟩⟩
  rw [if_pos hd]
  obtain ⟨hworks, hgraphs, hpasses⟩ :=
    ((sameWork_signalled (withoutWork s seq) w).trans (sameWork_settleQueue _ w.queue)).trans (sameWork_idleRunning _ w.part)
  have hend := ((endsWork_signalled (withoutWork s seq) w).trans (endsWork_settleQueue _ w.queue)).trans (endsWork_idleRunning _ w.part)
  exact ⟨hworks, hgraphs, hpasses, hend.memory⟩

/-! ## A queue moves on (R286) -/

section
variable (s : State) (x : Queue) (f : Queue → Queue)

theorem advanceQueue_works : (s.advanceQueue x f).works = s.works := State.putQueue_works ..
theorem advanceQueue_graphs : (s.advanceQueue x f).graphs = s.graphs := State.putQueue_graphs ..
theorem advanceQueue_nextSeq : (s.advanceQueue x f).nextSeq = s.nextSeq := State.putQueue_nextSeq ..

variable {f}

theorem queue_advanceQueue (hf : ∀ y : Queue, (f y).num = y.num) :
    (s.advanceQueue x f).queue x.num = f { x with rd := x.rd + 1, since := s.tick, aged := 0 } := by
  have := queue_putQueue s (f { x with rd := x.rd + 1, since := s.tick, aged := 0 })
  rwa [hf] at this

theorem rd_advanceQueue (hn : ∀ y : Queue, (f y).num = y.num) (hr : ∀ y : Queue, (f y).rd = y.rd) :
    ((s.advanceQueue x f).queue x.num).rd = x.rd + 1 := by
  rw [queue_advanceQueue s x hn, hr]

/-- A SIGNAL or BARRIER stops its queue while a taken packet of it is left (R290). -/
theorem stops_advanceQueue (act : Option (Nat × Nat)) :
    (((s.advanceQueue x fun y => { y with blocked := some act }).settleQueue x.num).queue x.num).rd = x.rd + 1 ∧
    ((s.advanceQueue x fun y => { y with blocked := some act }).settleQueue x.num).works = s.works ∧
    (((s.advanceQueue x fun y => { y with blocked := some act }).settleQueue x.num).queue x.num).blocked =
      if s.outstanding x.num = 0 then none else some act := by
  have hout : (s.advanceQueue x fun y => { y with blocked := some act }).outstanding x.num = s.outstanding x.num := by
    simp only [State.outstanding, advanceQueue_works]
  obtain ⟨hrd, hbl⟩ := queue_settleQueue (s.advanceQueue x fun y => { y with blocked := some act }) x.num
  rw [queue_advanceQueue s x (f := fun y => { y with blocked := some act }) fun _ => rfl] at hrd hbl
  exact ⟨hrd, (sameWork_settleQueue ..).works.trans (advanceQueue_works ..), by rw [hbl, hout]⟩

end

/-! ## The head of a queue (R288, R290, R384) -/

/-- Outside a Woad round a TAKE event takes the head of its queue. -/
theorem exec_take_outside {p : (Fin 2048 → Instr) × Nat} (hp : p ∈ takeForms) {q : Fin 2048} {s : State}
    (hw : (s.part (s.queue q.val).part).woad = false) : exec (p.1 q) s = .next (s.takeHead q.val p.2) := by
  rw [exec_take p hp]
  simp only [State.asInput, hw, Bool.not_false, if_true]

section
variable {s : State} {q kind : Nat}

theorem takeHead_of_wait (h : s.mayTake (s.queue q) = false) : s.takeHead q kind = s := by
  simp only [State.takeHead, h, Bool.not_false, if_true]

variable (h : s.mayTake (s.queue q) = true)
include h

theorem takeHead_of_bad {code : Nat} (hb : s.contextBad q = some code) : s.takeHead q kind = s.refusePacket q code (s.queueContext q) := by
  simp only [State.takeHead, h, hb, Bool.not_true, Bool.false_eq_true, if_false]

/-- A packet of the event's kind that could be read is taken as its bits give. -/
theorem takeHead_of_read {s1 : State} {bs : List Byte} (hb : s.contextBad q = none)
    (hr : s.devRead (s.queueContext q) (s.queue q).part none ((s.queue q).slot (s.queue q).rd.toNat) 64 = (.ok bs, s1))
    (hw : (s1.part (s.queue q).part).woad = false) (hk : dfield (leNat bs) 0 7 0 = kind) :
    s.takeHead q kind = s1.takeBits (s.queue q) (s.queueContext q) (leNat bs) := by
  simp only [State.takeHead, h, hb, hr, hk, State.logEntry, hw, bne_self_eq_false, Bool.false_and, Bool.not_true, Bool.false_eq_true, if_false]

end

/-- The packet passes the checks that every packet is given (R384). -/
structure PacketSound (d : Nat) (p : Partition) : Prop where
  reserved : packetReserved d = false
  events : packetEvents d p.evq = false
  spans : dfield d 0 7 0 ≤ 3 → pvecBad (BitVec.ofNat 64 (dfield d 0x30 63 0)) p.spans = false

section
variable {s : State} {x : Queue} {c : Context} {d : Nat}

theorem takeBits_of_reserved (h : packetReserved d = true) : s.takeBits x c d = s.refusePacket x.num 0x11 c := if_pos h

/-- A sound packet is taken as its kind gives. -/
theorem takeBits_of_sound (h : PacketSound d (s.part x.part)) :
    (dfield d 0 7 0 = 1 → s.takeBits x c d = s.takeLaunchPacket x c d) ∧
    (dfield d 0 7 0 = 2 → s.takeBits x c d = s.takeDescribed x c .render d) ∧
    (dfield d 0 7 0 = 3 → s.takeBits x c d = s.takeDescribed x c .graph d) ∧
    (dfield d 0 7 0 = 4 → s.takeBits x c d = s.advanceQueue x fun y => { y with
      waitFor := if dfield d 0x28 63 0 ≤ (s.eventCount x.part (dfield d 0x24 15 0)).toNat then none
        else some (dfield d 0x24 15 0, dfield d 0x28 63 0, dfield d 0 10 8, s.tick) }) ∧
    (dfield d 0 7 0 = 5 → s.takeBits x c d =
      (s.advanceQueue x fun y => { y with blocked := some (some (dfield d 0x24 31 16, dfield d 0x28 63 0)) }).settleQueue x.num) ∧
    (dfield d 0 7 0 = 6 → s.takeBits x c d = (s.advanceQueue x fun y => { y with blocked := some none }).settleQueue x.num) := by
  obtain ⟨hres, hev, hsp⟩ := h
  have hspan : (decide (dfield d 0 7 0 ≤ 3) && pvecBad (BitVec.ofNat 64 (dfield d 0x30 63 0)) (s.part x.part).spans) = false := by
    rw [Bool.and_eq_false_iff, decide_eq_false_iff_not]
    exact or_iff_not_imp_left.mpr fun hk => hsp (not_not.mp hk)
  unfold State.takeBits
  simp only [hres, hev, hspan, Bool.false_eq_true, if_false]
  and_intros <;> intro hk <;> simp only [hk]

/-! ## Work that is taken (R265, R289, R290, R296) -/

/-- A LAUNCH that agrees with its kernel joins the works, and is placeable unless it depends on an event. -/
theorem takeLaunchPacket_of_agrees {img : Image} {s2 : State}
    (hl : s.loadKernel c x.part (BitVec.ofNat 64 (dfield d 8 63 0)) (dfield d 4 15 0) = (.ok img, s2)) (ha : launchAgrees d img.kernel = true) :
    ∃ w : Work, (s.takeLaunchPacket x c d).works = s2.works ++ [w] ∧ w.seq = s2.nextSeq ∧
      (s.takeLaunchPacket x c d).nextSeq = s2.nextSeq + 1 ∧ w.kind = .launch ∧ w.queue = x.num ∧ w.image = some img ∧
      w.grid = dfield d 0x10 31 0 ∧ w.size = dfield d 0 18 16 + 1 ∧ w.placeable = decide (dfield d 0 11 11 ≠ 1) ∧
      ((s.takeLaunchPacket x c d).queue x.num).rd = x.rd + 1 := by
  unfold State.takeLaunchPacket
  simp only [hl, ha, Bool.not_true, Bool.false_eq_true, if_false]
  refine ⟨_, advanceQueue_works .., ?_, advanceQueue_nextSeq .., ?_, ?_, ?_, ?_, ?_, ?_, rd_advanceQueue _ _ (fun _ => rfl) fun _ => rfl⟩
  all_goals by_cases hd : dfield d 0 11 11 = 1 <;> simp [State.newWork, Work.ready, hd]

variable {kind : WorkKind}

/-- A RENDERPASS or GRAPH that depends on an event joins the works as it stands. -/
theorem takeDescribed_of_dep (hd : dfield d 0 11 11 = 1) : (s.takeDescribed x c kind d).works = s.works ++ [s.newWork x kind d] ∧
    ((s.takeDescribed x c kind d).queue x.num).rd = x.rd + 1 := by
  have hdep : (s.newWork x kind d).dep = true := decide_eq_true hd
  unfold State.takeDescribed
  simp only [hdep, if_true]
  exact ⟨advanceQueue_works .., rd_advanceQueue _ _ (fun _ => rfl) fun _ => rfl⟩

/-- Any other joins them once its descriptor has been read, with the graph that it describes. -/
theorem takeDescribed_of_open {w : Work} {g : Option Graph} {s2 : State} (hd : dfield d 0 11 11 ≠ 1)
    (ho : s.openWork c (s.newWork x kind d) = (.ok (w, g), s2)) :
    (s.takeDescribed x c kind d).works = s2.works ++ [w] ∧ (s.takeDescribed x c kind d).graphs = s2.graphs ++ g.toList ∧
    ((s.takeDescribed x c kind d).queue x.num).rd = x.rd + 1 := by
  have hdep : (s.newWork x kind d).dep = false := decide_eq_false hd
  unfold State.takeDescribed
  simp only [hdep, ho, Bool.false_eq_true, if_false]
  exact ⟨advanceQueue_works .., advanceQueue_graphs .., rd_advanceQueue _ _ (fun _ => rfl) fun _ => rfl⟩

end

/-! ## A dependence (R290) -/

theorem exec_dependenceSatisfied {seq : Nat} {s : State} {w : Work} (h : s.work? seq = some w) (hp : w.placeable = false) (hd : w.dep = true) :
    ((s.eventCount w.part w.depev).toNat < w.deptgt → exec (.dependenceSatisfied seq) s = .next s) ∧
    (w.deptgt ≤ (s.eventCount w.part w.depev).toNat → ∀ w' g s1, s.openWork (s.queueContext w.queue) w = (.ok (w', g), s1) →
      exec (.dependenceSatisfied seq) s = .next ({ s1 with graphs := s1.graphs ++ g.toList }.putWork w')) := by
  change (_ → execDependenceSatisfied seq s = _) ∧ (_ → ∀ w' g s1, _ → execDependenceSatisfied seq s = _)
  simp only [execDependenceSatisfied, h, hp, hd]
  exact ⟨fun hlt => by simp [hlt], fun hle w' g s1 ho => by simp [Nat.not_lt.mpr hle, ho]⟩

/-- Settles O49: outside a round a TAKE event takes the head of its queue; a sound packet joins the works or stops the queue,
as its kind gives. -/
theorem packetsAreTakenAndCompleted : Obligations.PacketsAreTakenAndCompleted := by
  unfold Obligations.PacketsAreTakenAndCompleted
  refine ⟨fun p hp q s hw hm => ?_, fun p hp q s s1 bs => ?_, fun p hp q s code hw hm hb => ?_,
    fun seq s w h hp hd => exec_dependenceSatisfied h hp hd, fun seq s w h => exec_workCompletion h⟩
  · rw [exec_take_outside hp hw, takeHead_of_wait hm]
  · intro x c d hw hm hb hr hw1 hk
    have hnum : x.num = q.val := queue_num s q.val
    have hexec : exec (p.1 q) s = .next (s1.takeBits x c d) := by
      rw [exec_take_outside hp hw, takeHead_of_read hm hb hr hw1 hk]
    rw [hexec]
    refine ⟨fun hres => by rw [takeBits_of_reserved hres, hnum], fun hres hev hsp => ?_⟩
    obtain ⟨hlaunch, hrender, hgraph, hwait, hsignal, hbarrier⟩ :=
      takeBits_of_sound (s := s1) (x := x) (c := c) ⟨hres, hev, hk ▸ hsp⟩
    rw [hk] at hlaunch hrender hgraph hwait hsignal hbarrier
    rw [← hnum]
    refine ⟨fun h1 img s2 hl ha => ?_, fun h23 => ?_, fun h4 => ?_, fun h56 => ?_⟩
    · rw [hlaunch h1]
      obtain ⟨w, htaken⟩ := takeLaunchPacket_of_agrees hl ha
      exact ⟨_, w, rfl, htaken⟩
    · intro k
      have htake : s1.takeBits x c d = s1.takeDescribed x c k d := by
        obtain h2 | h3 := h23
        · rw [hrender h2, show k = .render from if_pos h2]
        · rw [hgraph h3, show k = .graph from if_neg (by omega)]
      rw [htake]
      exact ⟨fun hd => ⟨_, rfl, takeDescribed_of_dep hd⟩, fun hd w g s2 ho => ⟨_, rfl, takeDescribed_of_open hd ho⟩⟩
    · rw [hwait h4]
      refine ⟨_, rfl, rd_advanceQueue _ _ (fun _ => rfl) fun _ => rfl, advanceQueue_works .., ?_⟩
      rw [queue_advanceQueue]
      exact fun _ => rfl
    · obtain h5 | h6 := h56
      · rw [hsignal h5, if_pos h5]
        exact ⟨_, rfl, stops_advanceQueue s1 x _⟩
      · rw [hbarrier h6, if_neg (show ¬p.2 = 5 by omega)]
        exact ⟨_, rfl, stops_advanceQueue s1 x _⟩
  · rw [exec_take_outside hp hw, takeHead_of_bad hm hb]

end Sys2Proof.Laws
end

section
/-! SUPPORT. Render passes (R266, R270, R273, R276, R279, R280, R301, R388): the start of a pass, what becomes of the primitive
whose turn it is, the pool, the final round, the broker, and what the control node does in the host-assisted modes. -/

namespace Sys2Proof.Laws

open Sys2Proof.Machine Sys2Proof.Safety

/-! ## The start of a pass (R266, R270) -/

theorem exec_renderPassStart_begins {p : Fin 8} {s : State} {w : Work} {r : RenderPass} (h : s.pass? p.val = none)
    (hw : (s.works.find? fun w => w.part == p.val && w.placeable && w.pass.isSome) = some w) (hr : w.pass = some r) :
    exec (.renderPassStart p) s = .next
      ({ s with passes := s.passes ++ [{ r with tiles := List.replicate (r.cols * r.rows) TileState.initial }] }.putWork
        (({ w with pass := none, image := some r.geom, grid := r.grid, nlanes := r.glanes, karg := r.karg } : Work).ready s (s.part p.val).spans)) := by
  change execRenderPassStart p s = _
  simp only [execRenderPassStart, h, hw, hr]
  rfl

/-! ## Lanes that submitted nothing -/

section
variable (r : RenderPass)

@[simp] theorem skip_subs : r.skip.subs = r.subs := rfl
@[simp] theorem skip_next : r.skip.next = r.next := rfl
@[simp] theorem skip_poolUnits : r.skip.poolUnits = r.poolUnits := rfl
@[simp] theorem skip_setups : r.skip.setups = r.setups := rfl
@[simp] theorem skip_backs : r.skip.backs = r.backs := rfl
@[simp] theorem skip_final : r.skip.final = r.final := rfl
@[simp] theorem skip_flushing : r.skip.flushing = r.flushing := rfl
@[simp] theorem skip_glanes : r.skip.glanes = r.glanes := rfl
@[simp] theorem skip_requests : r.skip.requests = r.requests := rfl
@[simp] theorem skip_tiles : r.skip.tiles = r.tiles := rfl
@[simp] theorem skip_resolve (xyzq : List Word) : r.skip.resolve xyzq = r.resolve xyzq := rfl
@[simp] theorem skip_touched (t : Triangle) : r.skip.touched t = r.touched t := rfl

end

/-! ## Commits (R273, R276) -/

/-- A fold that appends a primitive tile by tile, and stops at the first write that fails, is appendAll. -/
theorem foldl_eq_appendAll {blk : Option (Nat × Nat)} {n : Nat}
    {f : Except DevError (RenderPass × State) → Nat → Except DevError (RenderPass × State)}
    (herr : ∀ e t, f (.error e) t = .error e) (hok : ∀ r s t, f (.ok (r, s)) t = s.appendEntry r blk n t)
    (ts : List Nat) (r : RenderPass) (s : State) : ts.foldl f (.ok (r, s)) = appendAll blk n ts r s := by
  have hstop (e : DevError) (ts : List Nat) : ts.foldl f (.error e) = .error e := by
    induction ts with
    | nil => rfl
    | cons t ts ih => rw [List.foldl_cons, herr, ih]
  induction ts generalizing r s with
  | nil => rfl
  | cons t ts ih =>
    rw [List.foldl_cons, hok]
    unfold appendAll
    cases s.appendEntry r blk n t with
    | error e => exact hstop e ts
    | ok x => exact ih x.1 x.2

/-- The pass once the setup record of the primitive whose turn it is lies in the pool (R273, R275). -/
def setupWritten (r : RenderPass) (t : Triangle) : RenderPass :=
  { r with
    next := r.next + 1, commit := r.commit + 1, subs := r.subs.filter fun y => y.prim != r.commit, setups := (r.commit, r.next) :: r.setups
    backs := if t.back then r.commit :: r.backs else r.backs, notified := false }

section
variable {p : Fin 8} {s : State} {r : RenderPass} (h : s.pass? p.val = some r)
include h

theorem exec_renderPassStart_runs : exec (.renderPassStart p) s = .next s := by
  change execRenderPassStart p s = _
  simp only [execRenderPassStart, h]

theorem exec_primitiveCommit_flushing (hf : r.flushing = true) : exec (.primitiveCommit p) s = .next s := by
  change execPrimitiveCommit p s = _
  simp only [execPrimitiveCommit, h, hf, if_true]

theorem exec_finalRoundStart_flushing (hf : r.flushing = true) : exec (.finalRoundStart p) s = .next s := by
  change execFinalRoundStart p s = _
  simp only [execFinalRoundStart, h, skip_flushing, hf, Bool.or_true, Bool.true_or, if_true]

theorem exec_finalRoundStart_early (he : r.final = true ∨ r.skip.commit < r.glanes) : exec (.finalRoundStart p) s = .next s := by
  change execFinalRoundStart p s = _
  simp only [execFinalRoundStart, h, skip_final, skip_glanes]
  exact if_pos (by rcases he with he | he <;> simp [he])

/-- Every geometry lane is accounted for: each tile is to be issued. -/
theorem exec_finalRoundStart_begins (hf : r.flushing = false) (hn : r.final = false) (hc : r.glanes ≤ r.skip.commit) :
    exec (.finalRoundStart p) s = .next (s.putPass { r.skip with
      final := true, requests := r.requests ++ (List.range r.tiles.length).map fun t => (t, false) }) := by
  change execFinalRoundStart p s = _
  simp only [execFinalRoundStart, h, skip_final, skip_flushing, skip_glanes, hf, hn, Nat.not_lt.mpr hc, decide_false, Bool.or_self,
    Bool.false_eq_true, if_false]
  rfl

/-- Every flush pass has applied its list. -/
theorem exec_poolReset_done (hf : r.flushing = true) (hreq : ∀ x ∈ r.requests, x.2 = false)
    (hcrews : ∀ c ∈ s.crews, ∀ t, c.work = r.seq → c.tile? = some t → t.flush = true → t.step ≠ .load ∧ t.step ≠ .visibility) :
    exec (.poolReset p) s = .next (s.putPass { r with
      next := 1, flushing := false, flushes := r.flushes + 1, setups := []
      tiles := r.tiles.map fun x => { x with head := 0, tail := 0, used := 0, count := 0, prev := 0 } }) := by
  change execPoolReset p s = _
  simp only [execPoolReset, h, hf]
  refine if_neg fun hbusy => ?_
  simp only [Bool.not_true, Bool.false_or, Bool.or_eq_true, List.any_eq_true, Bool.and_eq_true, beq_iff_eq] at hbusy
  obtain ⟨c, hc, hwork, hstep⟩ | ⟨x, hx, hflush⟩ := hbusy
  · split at hstep
    next t ht =>
      rw [Bool.and_eq_true] at hstep
      obtain ⟨hload, hvis⟩ := hcrews c hc t hwork ht hstep.1
      simp [hload, hvis] at hstep
    next => cases hstep
  · rw [hreq x hx] at hflush
    cases hflush

theorem exec_poolReset_idle (hf : r.flushing = false) : exec (.poolReset p) s = .next s := by
  change execPoolReset p s = _
  simp only [execPoolReset, h, hf, Bool.not_false, Bool.true_or, if_true]

section
variable (hf : r.flushing = false)
include hf

/-- The primitive whose turn it is has not been submitted. -/
theorem exec_primitiveCommit_none (hx : (r.subs.find? fun x => x.prim == r.skip.commit) = none) :
    exec (.primitiveCommit p) s = .next (s.putPass r.skip) := by
  change execPrimitiveCommit p s = _
  simp only [execPrimitiveCommit, h, hf, skip_subs, hx, Bool.false_eq_true, if_false]

variable {x : Submission} (hx : (r.subs.find? fun x => x.prim == r.skip.commit) = some x)
include hx

theorem exec_primitiveCommit_culled (hr : r.resolve x.xyzq = none) :
    exec (.primitiveCommit p) s = .next (s.putPass { r.skip with
      subs := r.subs.filter fun y => y.prim != r.skip.commit, gone := r.skip.gone ++ [r.skip.commit] }) := by
  change execPrimitiveCommit p s = _
  simp only [execPrimitiveCommit, h, hf, skip_subs, hx, skip_resolve, hr, Bool.false_eq_true, if_false]

variable {t : Triangle} (hr : r.resolve x.xyzq = some t)
include hr

theorem exec_primitiveCommit_overflow (hn : r.poolUnits - r.next < r.skip.need r.skip.commit (r.touched t)) :
    exec (.primitiveCommit p) s = .next (s.overflow r.skip) := by
  change execPrimitiveCommit p s = _
  simp only [execPrimitiveCommit, h, hf, skip_subs, hx, skip_resolve, hr, skip_poolUnits, skip_next, skip_touched, hn, Bool.false_eq_true,
    if_false, if_true]

/-- The setup record is written, then the entries of the lists, and the lane's BIN is answered. -/
theorem exec_primitiveCommit_fits {r2 : RenderPass} {s1 s2 : State} (hn : r.skip.need r.skip.commit (r.touched t) ≤ r.poolUnits - r.next)
    (hw : s.poolWrites r.skip (some (x.wave.crew, x.wave.rank)) [(r.skip.unit r.next, setupBytes r.skip.commit t x.attr)] = .ok s1)
    (ha : appendAll (some (x.wave.crew, x.wave.rank)) r.skip.commit (r.touched t) (setupWritten r.skip t) s1 = .ok (r2, s2)) :
    exec (.primitiveCommit p) s = .next ((s2.putPass r2).laneBinned x) := by
  simp only [setupWritten, skip_subs, skip_poolUnits, skip_next, skip_setups, skip_backs] at ha
  change execPrimitiveCommit p s = _
  simp only [execPrimitiveCommit, h, hf, skip_subs, hx, skip_resolve, hr, skip_poolUnits, skip_next, skip_touched, skip_setups, skip_backs,
    Nat.not_lt.mpr hn, hw, Bool.false_eq_true, if_false]
  rw [foldl_eq_appendAll (blk := some (x.wave.crew, x.wave.rank)) (n := r.skip.commit), ha]
  · exact fun _ _ => rfl
  · exact fun _ _ _ => rfl

end

/-! ## The broker (R279, R280) -/

section
variable {at_ : CoreAt} (hfree : s.brokerFree p.val = true) (hm : (s.part p.val).modes.getLsbD 4 = false)
include hfree hm

theorem exec_brokerIssuePass_saved {c : Crew} (hs : s.savedTile r = some c) :
    exec (.brokerIssuePass p at_) s = .next (s.reissueTile c r at_) := by
  change execBrokerIssuePass p at_ s = _
  simp only [execBrokerIssuePass, h, hfree, hm, hs, Bool.not_true, Bool.or_self, Bool.false_eq_true, if_false]

theorem exec_brokerIssuePass_request {t : Nat} {flush : Bool} (hs : s.savedTile r = none)
    (hq : (r.requests.find? fun x => !(r.tile x.1).owned) = some (t, flush)) :
    exec (.brokerIssuePass p at_) s = .next (s.issuePass r t flush at_) := by
  change execBrokerIssuePass p at_ s = _
  simp only [execBrokerIssuePass, h, hfree, hm, hs, hq, Bool.not_true, Bool.or_self, Bool.false_eq_true, if_false]

end

/-! ## The control node's part (R301) -/

section
variable {port : Fin 4} (ha : s.administers port.val p.val = true)
include ha

section
variable {tile : Nat} {at_ : CoreAt} (hm : (s.part p.val).modes.getLsbD 4 = true) (hfree : s.brokerFree p.val = true)
include hm hfree

theorem exec_controlNodeTileAssignment_saved {c : Crew}
    (hc : (s.crews.find? fun c => c.work == r.seq && c.isTile && !c.resident && c.index == tile) = some c) :
    exec (.controlNodeTileAssignment port p tile at_) s = .next (s.reissueTile c r at_) := by
  change execControlNodeTileAssignment port p tile at_ s = _
  simp only [execControlNodeTileAssignment, h, ha, hm, hfree, hc, Bool.and_self, Bool.not_true, Bool.or_self, Bool.false_eq_true, if_false]

theorem exec_controlNodeTileAssignment_request {flush : Bool}
    (hnone : ∀ c ∈ s.crews, c.work = r.seq → c.isTile = true → c.resident = false → c.index ≠ tile)
    (hq : (r.requests.find? fun x => x.1 == tile && !(r.tile x.1).owned) = some (tile, flush)) :
    exec (.controlNodeTileAssignment port p tile at_) s = .next (s.issuePass r tile flush at_) := by
  have hc : (s.crews.find? fun c => c.work == r.seq && c.isTile && !c.resident && c.index == tile) = none := by
    rw [List.find?_eq_none]
    intro c hmem hsaved
    simp only [Bool.and_eq_true, beq_iff_eq, Bool.not_eq_true'] at hsaved
    obtain ⟨⟨⟨hwork, htile⟩, hres⟩, hindex⟩ := hsaved
    exact hnone c hmem hwork htile hres hindex
  change execControlNodeTileAssignment port p tile at_ s = _
  simp only [execControlNodeTileAssignment, h, ha, hm, hfree, hc, hq, Bool.and_self, Bool.not_true, Bool.or_self, Bool.false_eq_true, if_false]

end

variable (hm : (s.part p.val).modes.getLsbD 2 = true) (hn : r.notified = true)
include hm hn

theorem exec_controlNodePoolGrowth_flush : exec (.controlNodePoolGrowth port p none) s = .next (s.putPass (r.startFlush r.commit)) := by
  change execControlNodePoolGrowth port p none s = _
  simp only [execControlNodePoolGrowth, h, ha, hm, hn, Bool.and_self, Bool.not_true, Bool.false_eq_true, if_false]

theorem exec_controlNodePoolGrowth_units {u : Nat} (hlt : r.poolUnits < u) (hle : u ≤ 2 ^ 24) :
    exec (.controlNodePoolGrowth port p (some u)) s = .next (s.putPass { r with poolUnits := u, notified := false }) := by
  change execControlNodePoolGrowth port p (some u) s = _
  simp only [execControlNodePoolGrowth, h, ha, hm, hn, hlt, hle, decide_true, Bool.and_self, Bool.not_true, Bool.false_eq_true, if_false, if_true]

end

end

section
variable {port : Fin 4} {p : Fin 8} {s : State}

theorem exec_controlNodeQueueHeadOrder_of (ha : s.administers port.val p.val = true) (hm : (s.part p.val).modes.getLsbD 1 = true)
    (queues : List Nat) : exec (.controlNodeQueueHeadOrder port p queues) s =
      .next (s.putPart { s.part p.val with order := queues.filter fun q => q < 2048 && (s.queue q).part = p.val }) := by
  change execControlNodeQueueHeadOrder port p queues s = _
  simp only [execControlNodeQueueHeadOrder, ha, hm, Bool.and_self, if_true]

/-- A node that does not administer the partition changes nothing. -/
theorem exec_controlNode_stranger (ha : s.administers port.val p.val = false) :
    (∀ tile at_, exec (.controlNodeTileAssignment port p tile at_) s = .next s) ∧ (∀ u, exec (.controlNodePoolGrowth port p u) s = .next s) ∧
    ∀ qs, exec (.controlNodeQueueHeadOrder port p qs) s = .next s := by
  refine ⟨fun tile at_ => ?_, fun u => ?_, fun qs => ?_⟩
  · change execControlNodeTileAssignment port p tile at_ s = _
    cases h : s.pass? p.val <;> simp only [execControlNodeTileAssignment, h, ha, Bool.false_and, Bool.not_false, Bool.true_or, if_true]
  · change execControlNodePoolGrowth port p u s = _
    cases h : s.pass? p.val <;> simp only [execControlNodePoolGrowth, h, ha, Bool.false_and, Bool.not_false, if_true]
  · change execControlNodeQueueHeadOrder port p qs s = _
    simp only [execControlNodeQueueHeadOrder, ha, Bool.false_and, Bool.false_eq_true, if_false]

end

/-! ## Tiles on their cores (R279, R280, R389) -/

theorem resumeOrFail_of_sound {s : State} {c : Crew} {at_ : CoreAt} (h : s.contextBad c.queue = none) :
    s.resumeOrFail c at_ = s.resumeCrew c at_ := by
  simp only [State.resumeOrFail, h]

section
variable {s : State} {c : Crew} {r : RenderPass} {at_ : CoreAt} {t : TilePass} {b : Block} (ht : c.tile? = some t) (hb : s.block? c.id 0 = some b)
include ht hb

theorem reissueTile_stays (h : ¬((s.part c.part).spans.getLsbD at_.span.val = true ∧ s.mayResume c at_ = true)) : s.reissueTile c r at_ = s := by
  unfold State.reissueTile
  rw [ht, hb]
  refine if_pos ?_
  rcases not_and_or.mp h with h | h
  · rw [Bool.eq_false_of_not_eq_true h, Bool.not_false, Bool.true_or, Bool.true_or]
  · rw [Bool.eq_false_of_not_eq_true h, Bool.not_false, Bool.or_true, Bool.true_or]

variable (hspan : (s.part c.part).spans.getLsbD at_.span.val = true) (hroom : s.mayResume c at_ = true) (hheld : s.spillHeld c.id = false)
include hspan hroom hheld

/-- A tile block that left no image is resumed as it is. -/
theorem reissueTile_bare (hslot : t.slot = none) (hctx : s.contextBad c.queue = none) : s.reissueTile c r at_ = s.resumeCrew c at_ := by
  simp only [State.reissueTile, ht, hb, hspan, hroom, hheld, hslot, Bool.not_true, Bool.or_self, Bool.false_eq_true, if_false]
  exact resumeOrFail_of_sound hctx

/-- One with an image takes its tile bytes from there. (The proof names the walk `reach`, so that checking it does not run the walk.) -/
theorem reissueTile_image {k : Nat} {l : List Span} {s1 s2 : State} {bs : List Byte} (hslot : t.slot = some k)
    (hl : s.devReach c.ctx c.part (s.imageAt r k) r.imageSize { r := true } = (.ok l, s1)) (hbs : s1.readImage c b l = (some bs, s2))
    (hctx : ((s2.putCrew (c.withTile { t with slot := none })).putBlock
      (s2.counted { b with tile := spliceBytes [] 0 bs, loose := [], tilePoison := [] })).contextBad c.queue = none) :
    s.reissueTile c r at_ = ((s2.putCrew (c.withTile { t with slot := none })).putBlock
      (s2.counted { b with tile := spliceBytes [] 0 bs, loose := [], tilePoison := [] })).resumeCrew (c.withTile { t with slot := none }) at_ := by
  obtain ⟨reach, hreach⟩ : ∃ reach, s.devReach c.ctx c.part = reach := ⟨_, rfl⟩
  rw [hreach] at hl
  unfold State.reissueTile
  rw [ht, hb, hreach]
  simp only [hspan, hroom, hheld, hslot, hl, hbs, Bool.not_true, Bool.or_self, Bool.false_eq_true, if_false]
  exact resumeOrFail_of_sound hctx

end

/-- A pass that is issued to a core with room has a tile crew there, in its load step. -/
theorem issuePass_crew {at_ : CoreAt} {s : State} {r : RenderPass} {t : Nat} {flush : Bool} {w : Work} (hw : s.work? r.seq = some w)
    (hspan : (s.part r.part).spans.getLsbD at_.span.val = true)
    (hfits : s.fits (12 * at_.span.val + at_.cluster.val) at_.core.val [r.tileRoom] = true) :
    ∃ c ∈ (s.issuePass r t flush at_).crews, c.id = s.nextCrew ∧ c.work = w.seq ∧ c.core = at_.core.val ∧
      c.clusterNo = 12 * at_.span.val + at_.cluster.val ∧ c.tile?.map (fun x => (x.tile, x.flush, x.step)) = some (t, flush, .load) := by
  unfold State.issuePass
  simp only [hw, hspan, hfits, Bool.not_true, Bool.or_self, Bool.false_eq_true, if_false]
  exact ⟨_, List.mem_append_right _ (List.mem_singleton_self _), rfl, rfl, rfl, rfl, rfl⟩

/-- Settles O55: each event by the rule of its own above. -/
theorem renderPassesMove : Obligations.RenderPassesMove := by
  unfold Obligations.RenderPassesMove
  refine ⟨fun p s w r => exec_renderPassStart_begins,
    fun p s r h => ⟨exec_renderPassStart_runs h, ?flushing, ?commits, ?resets, exec_poolReset_idle h⟩,
    fun p at_ s r h hfree hm => ⟨fun c t b hs hpart ht hb hheld => ?saved, fun t flush => exec_brokerIssuePass_request h hfree hm⟩,
    fun at_ s r t flush w => issuePass_crew,
    fun port p s r h ha => ⟨fun tile at_ c hm hfree => exec_controlNodeTileAssignment_saved h ha hm hfree,
      fun tile at_ flush hm hfree => exec_controlNodeTileAssignment_request h ha hm hfree,
      fun hm hn => ⟨exec_controlNodePoolGrowth_flush h ha hm hn, fun u => exec_controlNodePoolGrowth_units h ha hm hn⟩⟩,
    fun port p queues s ha hm => exec_controlNodeQueueHeadOrder_of ha hm queues, fun port p s => exec_controlNode_stranger⟩
  case flushing => exact fun hf => ⟨exec_primitiveCommit_flushing h hf, exec_finalRoundStart_flushing h hf⟩
  case resets => exact fun ⟨hf, hreq, hcrews⟩ => exec_poolReset_done h hf hreq hcrews
  case commits =>
    intro hf
    exact ⟨exec_primitiveCommit_none h hf, fun x hx => ⟨exec_primitiveCommit_culled h hf hx, fun t => exec_primitiveCommit_overflow h hf hx,
      fun t s1 r2 s2 hr hn => exec_primitiveCommit_fits h hf hx hr hn⟩, exec_finalRoundStart_early h, exec_finalRoundStart_begins h hf⟩
  case saved =>
    rw [exec_brokerIssuePass_saved h hfree hm hs, ← hpart]
    exact ⟨fun hstays => congrArg _ (reissueTile_stays ht hb hstays),
      fun ⟨hspan, hroom⟩ hslot hctx => congrArg _ (reissueTile_bare ht hb hspan hroom hheld hslot hctx),
      fun k l s1 bs s2 ⟨hspan, hroom⟩ hslot hl hbs hctx => congrArg _ (reissueTile_image ht hb hspan hroom hheld hslot hl hbs hctx)⟩

end Sys2Proof.Laws
end

section
/-! SUPPORT. Tile passes (R267, R277, R280 to R283, R389, R390): each step of a pass, the spill of its block and its restart. -/

namespace Sys2Proof.Laws

open Sys2Proof.Machine Sys2Proof.Safety

section

variable {crew : Nat} {s : State} {c : Crew} {t : TilePass} {r : RenderPass} {b : Block}

/-! ## Load (R277, R281) -/

theorem exec_passLoad_other (h : s.tileAt crew .load = none) : exec (.passLoad crew) s = .next s := by
  change execPassLoad crew s = _
  simp only [execPassLoad, h]

/-- The pass once its planes have been written. -/
def planesLoaded (s : State) (c : Crew) (t : TilePass) (r : RenderPass) (b : Block) (bs : List Byte) (resumed : Bool) : State :=
  (s.putBlock ((s.counted b).putPlanes r bs)).putCrew
    (c.withTile { t with step := .visibility, cursor := 0, resumed := resumed, prims := r.primPlane ((s.counted b).putPlanes r bs) })

section
variable (h : s.tileAt crew .load = some (c, t, r, b))
include h

theorem exec_passLoad_clear (hv : (r.tile t.tile).valid = false) :
    exec (.passLoad crew) s = .next (planesLoaded s c t r b r.clearPlanes false) := by
  change execPassLoad crew s = _
  simp only [execPassLoad, h, hv, Bool.false_eq_true, if_false]
  rfl

variable (hv : (r.tile t.tile).valid = true) {s1 : State}
include hv

theorem exec_passLoad_slot {bs : List Byte}
    (hr : s.devRead r.context r.part (some (crew, 0)) (r.slotOf t.tile) r.planeRun.2 = (.ok bs, s1)) :
    exec (.passLoad crew) s = .next (planesLoaded s1 c t r b bs true) := by
  change execPassLoad crew s = _
  simp only [execPassLoad, h, hv, hr, if_true]
  rfl

theorem exec_passLoad_fails {e : DevError}
    (hr : s.devRead r.context r.part (some (crew, 0)) (r.slotOf t.tile) r.planeRun.2 = (.error e, s1)) :
    exec (.passLoad crew) s = .next (s1.failPass r.part t.tile e.passCode) := by
  change execPassLoad crew s = _
  simp only [execPassLoad, h, hv, hr, if_true]

end

/-! ## Visibility (R280, R282) -/

theorem exec_passVisibility_other (h : s.tileAt crew .visibility = none) : exec (.passVisibility crew) s = .next s := by
  change execPassVisibility crew s = _
  simp only [execPassVisibility, h]

/-- The primitives that the oracle's choice leaves to this event are applied; after the last of the list the G-buffer step comes. -/
theorem exec_passVisibility {k : Nat} {s1 s2 s3 : State} {b1 : Block} {ns : List Nat} (h : s.tileAt crew .visibility = some (c, t, r, b))
    (hns : (if (r.tile t.tile).head = 0 then (Except.ok [], s)
     else s.readList r (crew, 0) (r.tile t.tile).tail (r.poolUnits - 1) (r.tile t.tile).head 0) = (.ok ns, s1))
    (hk : s1.choose (ns.drop t.cursor).length = (k, s2))
    (hb : s2.applyPrims r t crew b (if k = 0 then ns.drop t.cursor else (ns.drop t.cursor).take k) = (.ok b1, s3)) :
    exec (.passVisibility crew) s = .next (if k = 0 then s3.startStep c { t with
        step := .gbuffer, cursor := ns.length, groups := (List.range r.groupCount).filter fun w => r.enabled t b1 w != 0 } (s3.counted b1) r.gbuf
      else (s3.putBlock (s3.counted b1)).putCrew (c.withTile { t with cursor := t.cursor + k })) := by
  change execPassVisibility crew s = _
  simp only [execPassVisibility, h, hns, hk, hb]
  split <;> rfl

/-! ## The G-buffer step (R283) -/

theorem exec_gbuffer_other (h : s.tileAt crew .gbuffer = none) :
    exec (.passGbuffer crew) s = .next s ∧ exec (.passShading crew) s = .next s ∧ exec (.resumeStore crew) s = .next s := by
  change execPassGbuffer crew s = _ ∧ execPassShading crew s = _ ∧ execResumeStore crew s = _
  simp only [execPassGbuffer, execPassShading, execResumeStore, h, and_self]

/-- What one wave of the G-buffer step needs of its core. -/
def gbufferRoom (r : RenderPass) : Room := { slots := 1, regs := r.gbuf.kernel.regs + 1, tile := 0, banks := 0 }

section
variable (h : s.tileAt crew .gbuffer = some (c, t, r, b))
include h

/-- The wave of the one group that is left starts where the core has room. -/
theorem exec_passGbuffer_one {w : Nat} (hg : t.groups = [w]) (hroom : (s.endGbufferBlocks c).hasRoom (c.coreOf 0) (gbufferRoom r) = true) :
    exec (.passGbuffer crew) s = .next (({ s.endGbufferBlocks c with
        blocks := (s.endGbufferBlocks c).blocks ++ [gbufferBlock c t r w] }.addWaves c
      [tileWave c t r b r.gbuf w r.groupCount 0 (r.enabled t b w)]).putCrew (c.withTile { t with groups := [] })) := by
  unfold gbufferRoom at hroom
  change execPassGbuffer crew s = _
  simp only [execPassGbuffer, h, hg, List.foldl_cons, List.foldl_nil, hroom, if_true, List.erase_cons_head]

/-- With no group left, or no room, none starts. -/
theorem exec_passGbuffer_stays (hn : t.groups = [] ∨ (s.endGbufferBlocks c).hasRoom (c.coreOf 0) (gbufferRoom r) = false) :
    exec (.passGbuffer crew) s = .next ((s.endGbufferBlocks c).putCrew (c.withTile t)) := by
  unfold gbufferRoom at hn
  change execPassGbuffer crew s = _
  simp only [execPassGbuffer, h]
  rcases hn with hg | hroom
  · simp only [hg, List.foldl_nil]
  · rw [List.foldl_fixed' (a := (t, s.endGbufferBlocks c))]
    intro w
    simp only [hroom, Bool.false_eq_true, if_false]

theorem exec_passShading : exec (.passShading crew) s = .next (if t.flush = true ∨ t.groups ≠ [] then s else s.programStep c t r b r.shade .shading) := by
  change execPassShading crew s = _
  simp only [execPassShading, h]
  refine congrArg _ (if_congr ?_ rfl rfl)
  simp

/-- A flush pass whose waves are done stores its planes in the tile's slot and ends (R277). -/
theorem exec_resumeStore {s1 : State} (hf : t.flush = true) (hg : t.groups = []) (hd : s.stepDone crew = true) (hc : b.commands = [])
    (hw : s.devWrite r.context r.part (some (crew, 0)) (r.slotOf t.tile) (b.bytes r.planeRun.1 r.planeRun.2) = .ok s1) :
    exec (.resumeStore crew) s = .next ((s1.putPass (r.updTile t.tile fun x => { x with valid := true, owned := false })).dropCrews
      fun c => c.id == crew) := by
  change execResumeStore crew s = _
  simp only [execResumeStore, h, hf, hg, hd, hc, hw, List.isEmpty_nil, Bool.not_true, Bool.or_self, Bool.false_eq_true, if_false]

end

/-! ## Shading and resolve (R281) -/

theorem exec_passResolve_other (h : s.tileAt crew .shading = none) : exec (.passResolve crew) s = .next s := by
  change execPassResolve crew s = _
  simp only [execPassResolve, h]

theorem exec_passResolve (h : s.tileAt crew .shading = some (c, t, r, b)) :
    exec (.passResolve crew) s = .next (s.programStep c t r b r.res .resolve) := by
  change execPassResolve crew s = _
  simp only [execPassResolve, h]

/-- What the block of a program step needs of its core. -/
def stepRoom (k : Image) : Room := { slots := k.kernel.waves, regs := k.kernel.waves * (k.kernel.regs + 1), tile := 0, banks := 0 }

/-- A program step starts once the waves of the step before are done and the core has room. -/
theorem programStep_eq (s : State) (c : Crew) (t : TilePass) (r : RenderPass) (b : Block) (k : Image) (step : PassStep) :
    s.programStep c t r b k step = if s.stepDone c.id = true ∧ s.hasRoom (c.coreOf 0) (stepRoom k) = true then
      (s.startStep c { t with step := step } b k).addWaves { c with image := k }
        ((List.range k.kernel.waves).map fun i => tileWave c t r b k i k.kernel.waves i (BitVec.allOnes 96)) else s := by
  unfold State.programStep stepRoom
  rw [← ite_not]
  refine if_congr ?_ rfl rfl
  simp

/-! ## Spills and restarts (R280, R389, R390) -/

section
variable (hc : s.crew? crew = some c)
include hc

/-- A block that has no image, or is on its core, is not restarted here. -/
theorem exec_passRestart_other (ht : c.tile? = some t) (h : c.resident = true ∨ t.slot = none) : exec (.passRestart crew) s = .next s := by
  change execPassRestart crew s = _
  simp only [execPassRestart, hc, ht, Option.bind_some]
  rcases h with h | h
  · simp only [h, if_true]
    split <;> rfl
  · simp only [h]

variable (ht : c.tile? = some t) (hp : s.passOf c = some r) (hb : s.block? crew 0 = some b)
include ht hp hb

theorem exec_tileSpill_waits (h : s.maySave c = false ∨ s.spillHeld crew = true) : exec (.tileSpill crew) s = .next s := by
  change execTileSpill crew s = _
  simp only [execTileSpill, hc, ht, hp, hb]
  exact if_pos (by rcases h with h | h <;> simp [h])

section
variable (hm : s.maySave c = true) (hh : s.spillHeld crew = false) {s1 : State}
include hm hh

/-- The image is written, and the block leaves its core. -/
theorem exec_tileSpill_saves {l : List Span}
    (hg : s.devReach c.ctx c.part (s.imageAt r (s.freeImage c.part)) r.imageSize { r := true, w := true } = (.ok l, s1)) :
    exec (.tileSpill crew) s = .next ((s1.writeImage c b l).saveCrew (c.withTile { t with slot := some (s.freeImage c.part) })) := by
  change execTileSpill crew s = _
  simp only [execTileSpill, hc, ht, hp, hb, hm, hh, hg, Bool.not_true, Bool.or_self, Bool.false_eq_true, if_false]

theorem exec_tileSpill_misses {a : BitVec 64} {sub : Nat}
    (hg : s.devReach c.ctx c.part (s.imageAt r (s.freeImage c.part)) r.imageSize { r := true, w := true } = (.error (.missing a sub), s1)) :
    exec (.tileSpill crew) s = .next (s1.holdSpill c c.clusterNo a sub) := by
  change execTileSpill crew s = _
  simp only [execTileSpill, hc, ht, hp, hb, hm, hh, hg, Bool.not_true, Bool.or_self, Bool.false_eq_true, if_false]

theorem exec_tileSpill_fails {e : DevError}
    (hg : s.devReach c.ctx c.part (s.imageAt r (s.freeImage c.part)) r.imageSize { r := true, w := true } = (.error e, s1))
    (he : ∀ a sub, e ≠ .missing a sub) : exec (.tileSpill crew) s = .next (s1.spillFailed c t) := by
  change execTileSpill crew s = _
  simp only [execTileSpill, hc, ht, hp, hb, hm, hh, hg, Bool.not_true, Bool.or_self, Bool.false_eq_true, if_false]

end

section
variable {k : Nat} (hres : c.resident = false) (hslot : t.slot = some k) {s1 : State}
include hres hslot

/-- An image that can be reached restarts its pass where a unit of it is poisoned. -/
theorem exec_passRestart_reached {l : List Span} (hg : s.devReach c.ctx c.part (s.imageAt r k) r.imageSize { r := true } = (.ok l, s1)) :
    exec (.passRestart crew) s = .next (if (s1.readImage c b l).1.isNone then s1.restartOrFail c 9 else s1) := by
  change execPassRestart crew s = _
  simp only [execPassRestart, hc, ht, hp, hb, hres, hslot, hg, Option.bind_some, Bool.false_eq_true, if_false]
  split <;> rfl

theorem exec_passRestart_poisoned (hg : s.devReach c.ctx c.part (s.imageAt r k) r.imageSize { r := true } = (.error .poison, s1)) :
    exec (.passRestart crew) s = .next (s1.restartOrFail c 9) := by
  change execPassRestart crew s = _
  simp only [execPassRestart, hc, ht, hp, hb, hres, hslot, hg, Option.bind_some, Bool.false_eq_true, if_false]

end

end

end

/-- Settles O56: each step by the rule of its own above. -/
theorem tilePassesMove : Obligations.TilePassesMove := by
  unfold Obligations.TilePassesMove
  refine ⟨fun crew s => ⟨exec_passLoad_other, exec_passVisibility_other, exec_gbuffer_other, exec_passResolve_other⟩, ?load,
    fun crew k s s1 s2 s3 c t r b b1 ns => exec_passVisibility, ?gbuffer, fun crew s c t r b => exec_passResolve, ?program, ?spill⟩
  case load =>
    intro crew s c t r b h
    exact ⟨exec_passLoad_clear h, fun bs s1 hv => exec_passLoad_slot h hv, fun e s1 hv => exec_passLoad_fails h hv⟩
  case gbuffer =>
    intro crew s c t r b h
    exact ⟨fun w => exec_passGbuffer_one h, exec_passGbuffer_stays h, exec_passShading h, fun hf hg hd hc s1 => exec_resumeStore h hf hg hd hc⟩
  case program =>
    intro s c t r b k step
    exact ⟨fun h => (programStep_eq s c t r b k step).trans (if_neg h), fun h => (programStep_eq s c t r b k step).trans (if_pos h)⟩
  case spill =>
    intro crew s s1 c t r b hc ht hp hb
    refine ⟨exec_tileSpill_waits hc ht hp hb, fun hm hh => ⟨fun l => exec_tileSpill_saves hc ht hp hb hm hh,
      fun a sub => exec_tileSpill_misses hc ht hp hb hm hh, fun e => exec_tileSpill_fails hc ht hp hb hm hh⟩, exec_passRestart_other hc ht,
      fun k hres hslot => ⟨fun l => exec_passRestart_reached hc ht hp hb hres hslot, exec_passRestart_poisoned hc ht hp hb hres hslot⟩⟩

end Sys2Proof.Laws
end
